-- ==== Sys2Proof/Word.lean ====
section
/-! DEFINITION. The word types of the QX-4816 block: register words (R8, R366), bytes, partitions and port codes. -/

namespace Sys2Proof

/-- A register word: registers are 32 bits wide (00_scope.md, *Registers*). -/
abbrev W32 := BitVec 32

/-- A pair of registers that holds one 64-bit value (R367), a stamp extended to 64 bits (R178), a DMA address. -/
abbrev W64 := BitVec 64

/-- A byte of a frame, a descriptor, a parameter buffer or a reply. -/
abbrev Byte := BitVec 8

/-- A partition: 0 to 3 are P0 to P3, 4 is PM (R266, R273). -/
abbrev Part := Fin 5

/-- A host port H0 to H3 and the partition it owns (R266). -/
abbrev HostPort := Fin 4

/-- An Ethernet port E0 to E15. -/
abbrev EPort := Fin 16

/-- A port code of R18. -/
abbrev PortCode := BitVec 8

/-- The partition of the supervisor. -/
abbrev pm : Part := 4

/-- The partition that a host port owns. -/
abbrev HostPort.part (h : HostPort) : Part := h.castSucc

/-- The port code of an Ethernet port (R18). -/
abbrev EPort.code (n : EPort) : PortCode := BitVec.ofNat 8 n.val

end Sys2Proof
end

