-- ==== Sys2Proof/Syntax.lean ====
section
/-! DEFINITION. The commands of the block: one constructor per row of spec/opcode_table.json, with its operands.
A row for an act of the outside world (a frame, an edge, a link event, a register access) carries what that act brings in;
everything else a row needs is in the state. -/

namespace Sys2Proof

/-- A command descriptor of R273 with the parameter bytes it names: `params` are the first `plen` bytes of the inline form,
or what the buffer at `inPtr` holds in the indirect form. -/
structure CmdDesc where
  opcode : BitVec 16
  flags  : BitVec 8
  tag    : BitVec 16
  plen   : BitVec 16
  inPtr  : W64
  outPtr : W64
  outLen : W32
  rsv    : W32
  params : List Byte
  deriving DecidableEq, Repr

/-- An arbiter instance of R38 and R135. Other egress ports have one instance each, named by port code. -/
inductive ArbId where
  | eth (n : EPort)
  | other (c : PortCode)
  | tunnel
  | crypto
  | capmem (c : Fin 4)
  | dispatcher
  deriving DecidableEq, Repr

/-- How the reception of a frame ends at its last cell (R46, R51, R92): good, bad FCS, a receive error of the medium,
a failed reassembly (R141), or an IEEE 802.3br response mPacket with the partner's additional fragment size. `codewords` ends no
frame: it tells the FEC codewords corrected and found uncorrectable on the line (R51). -/
inductive RxEnd where
  | good
  | fcs
  | symbol
  | reassembly
  | mmReply (addFrag : Fin 4)
  | codewords (corrected uncorrectable : BitVec 16)
  deriving DecidableEq, Repr

/-- How a transmission ends: sent, lost arbitration (CAN), or ended by a bus error or collision (R60, R70). -/
inductive TxEnd where
  | done
  | arbLost
  | busError
  deriving DecidableEq, Repr

/-- What takes an Ethernet port out of UP (R47), as down_cause of LNK_ETH_STATUS orders them. -/
inductive LossCause where
  | signal
  | blockLock
  | fecAlign
  | phyLink
  | fecBurst
  deriving DecidableEq, Repr

/-- What a received bus frame failed on (R57, R61, R63, R66, R70). -/
inductive BusError where
  | format
  | crc
  | longFrame
  | nullFrame
  | syncLoss
  | framing
  | arbLost
  | collision
  deriving DecidableEq, Repr

/-- Which gPTP message the signal box sends at an interval (R171). -/
inductive GptpTx where
  | sync
  | announce
  | pdelayReq
  deriving DecidableEq, Repr

/-- The data registers of a CHK channel (R125, R126); `lo8` is an 8-byte write at CHK_DATA_LO. -/
inductive ChkData where
  | lo
  | hi
  | lo8
  | b
  deriving DecidableEq, Repr

/-- The SECDED outcome of a capture word (R256): `data` is two bits in a lane 0 to 5, or lane 6 of a word that is not a
record's first; `tag` is two bits in lane 7, or in lane 6 of a record's first word. -/
inductive Ecc where
  | clean
  | corrected
  | data
  | tag
  deriving DecidableEq, Repr

/-- A datapath unit that faults in use (R326, R335). `cell` is an uncorrectable packet buffer cell in a bank, of the frame
that the port's head of line names; `tableWord`, `nodeField` and `keyWord` are uncorrectable words. -/
inductive DpUnit where
  | parser (n : Fin 4)
  | bank (n : Fin 16)
  | ladle (n : Fin 8)
  | slice (n : Fin 8)
  | segment (mem : Fin 8) (seg : Nat)
  | cell (index : BitVec 19)
  | tableWord (mem : Fin 8) (addr : Nat)
  | nodeField (index : Fin 262144) (bothCopies : Bool)
  | keyWord (slot : Fin 2048)
  | counterWord (offset : W32)
  | singleBit
  deriving DecidableEq, Repr

/-- A unit whose faults are counted in a 1 s window (R329). -/
inductive RetryUnit where
  | lane (n : EPort)
  | busPort (c : PortCode)
  | bank (n : Fin 16)
  | slice (n : Fin 8)
  | channel (c : Fin 4)
  | entropy
  deriving DecidableEq, Repr

/-- What was in a slice when its control checker reported a fault (R328). -/
inductive SliceWork where
  | verify (port : PortCode)
  | protect (port : PortCode)
  | raw
  deriving DecidableEq, Repr

/-- A unit that gates itself when idle, in the order of PWR_BLK_STAT (R302). -/
inductive GateUnit where
  | parser (n : Fin 4)
  | slice (n : Fin 8)
  | channel (c : Fin 4)
  | ethLane (n : EPort)
  | bank (n : Fin 16)
  | ladle (n : Fin 8)
  deriving DecidableEq, Repr

/-- A frame that a selective-wake decoder decodes on Cn_WRX (R307): `ok` is no stuff, form or CRC error, `fd` an FD or XL frame. -/
structure WakeFrame where
  ok    : Bool
  fd    : Bool
  ide   : Bool
  rtr   : Bool
  ident : BitVec 29
  dlc   : BitVec 4
  data  : List Byte
  deriving DecidableEq, Repr

/-- A record of a route image body (R361): a staging command or a register write of a partition. -/
inductive ImageRec where
  | stage (part : Part) (opcode : BitVec 16) (params : List Byte)
  | reg (part : Part) (addr : W32) (value : W32)
  deriving DecidableEq, Repr

/-- How a boot step's method ends (R350, R352). -/
inductive StepRes where
  | pass
  | degraded
  | fail (code : Byte)
  deriving DecidableEq, Repr

/-- The end of a boot step: its result, the units it leaves out of service in the layout of the ledger's units field (1 = out), the
capacity in GiB of each channel and the values that the calibration or training found (steps 6 and 7), the parser lanes, banks and
ladle lanes it retires in the layout of ERR_RET_DP (step 5), and what the boot flash holds in the region of the image that the step's
policy names (steps 4 and 10). -/
structure BootEnd where
  res    : StepRes
  units  : BitVec 24
  gib    : Vector (BitVec 5) 4
  values : List Byte
  dp     : BitVec 28
  image  : List Byte
  deriving DecidableEq, Repr

/-- A read of a queue's PEEK registers: the index (16 for PEEKTAG) and whether 8 bytes are read (R128, R258). -/
structure PeekAt where
  i     : Fin 17
  eight : Bool
  deriving DecidableEq, Repr

/-- A write of CAP_Qn_POP, with what the check of the word finds (R256, R258). -/
structure PopWrite where
  v   : W32
  ecc : Ecc
  deriving DecidableEq, Repr

/-- A FlexRay slot: its number and the minislots left in the dynamic segment (R65). -/
structure SlotAt where
  slot : BitVec 11
  left : Nat
  deriving DecidableEq, Repr

/-- The commands of the block, in the order of the table. -/
inductive Instr where
  | routeAdd (p : Part) (d : CmdDesc)
  | routeDel (p : Part) (d : CmdDesc)
  | routeRead (p : Part) (d : CmdDesc)
  | tcamWrite (p : Part) (d : CmdDesc)
  | tcamRead (p : Part) (d : CmdDesc)
  | dsetWrite (p : Part) (d : CmdDesc)
  | dsetRead (p : Part) (d : CmdDesc)
  | vlanWrite (p : Part) (d : CmdDesc)
  | vlanRead (p : Part) (d : CmdDesc)
  | profWrite (p : Part) (d : CmdDesc)
  | profRead (p : Part) (d : CmdDesc)
  | streamPin (p : Part) (d : CmdDesc)
  | streamUnpin (p : Part) (d : CmdDesc)
  | streamRead (p : Part) (d : CmdDesc)
  | streamClear (p : Part) (d : CmdDesc)
  | gateWrite (p : Part) (d : CmdDesc)
  | gateRead (p : Part) (d : CmdDesc)
  | timeSet (p : Part) (d : CmdDesc)
  | timeRead (p : Part) (d : CmdDesc)
  | ttPhaseAt (p : Part) (d : CmdDesc)
  | ttNextCross (p : Part) (d : CmdDesc)
  | keyWrite (p : Part) (d : CmdDesc)
  | keyErase (p : Part) (d : CmdDesc)
  | keyRead (p : Part) (d : CmdDesc)
  | rawCipher (p : Part) (d : CmdDesc)
  | rawCmac (p : Part) (d : CmdDesc)
  | pkVerify (p : Part) (d : CmdDesc)
  | pkEcdh (p : Part) (d : CmdDesc)
  | pkKeygen (p : Part) (d : CmdDesc)
  | pkEngineDone
  | cryRandom (p : Part) (d : CmdDesc)
  | capDiscard (p : Part) (d : CmdDesc)
  | sleep (p : Part) (d : CmdDesc)
  | resume (p : Part) (d : CmdDesc)
  | wakeRead (p : Part) (d : CmdDesc)
  | nop (p : Part) (d : CmdDesc)
  | diagSnapshot (p : Part) (d : CmdDesc)
  | errRead (p : Part) (d : CmdDesc)
  | selfTest (p : Part) (d : CmdDesc)
  | mouldOpen (p : Part) (d : CmdDesc)
  | mouldDiscard (p : Part) (d : CmdDesc)
  | pour (p : Part) (d : CmdDesc)
  | pourReady
  | pourBoundary
  | pourTimeout
  | mouldStat (p : Part) (d : CmdDesc)
  | nodeWrite (p : Part) (d : CmdDesc)
  | nodeErase (p : Part) (d : CmdDesc)
  | nodeRead (p : Part) (d : CmdDesc)
  | nodeRelease (p : Part) (d : CmdDesc)
  | nodeHold (p : Part) (d : CmdDesc)
  | partGrant (p : Part) (d : CmdDesc)
  | partRead (p : Part) (d : CmdDesc)
  | partThaw (p : Part) (d : CmdDesc)
  | partFreeze (p : Part) (d : CmdDesc)
  | windowWrite (p : Part) (d : CmdDesc)
  | remoteAccess (p : Part) (d : CmdDesc)
  | doorbell (h : HostPort) (v : W32)
  | commandFetch (p : Part) (raw : List Byte) (buf : List Byte)
  | dispatchGrant
  | replyRelease (p : Part) (tag : BitVec 12)
  | cqReplyWrite (p : Part)
  | cqHeadWrite (h : HostPort) (v : W32)
  | cmdCtlWrite (h : HostPort) (v : W32)
  | rwpWrite (p : Part) (addr : W32) (v : W64) (eight : Bool)
  | registerWrite (p : Part) (addr : W32) (v : W64) (eight : Bool)
  | rocRead (p : Part) (addr : W32)
  | counterLoRead (p : Part) (addr : W32) (eight : Bool)
  | lockedRequest (h : HostPort) (addr : W32)
  | mailboxAccess (p : Part) (addr : W32) (len : Nat) (data : Option (List Byte))
  | brgSemTake (p : Part) (n : Fin 64)
  | brgSemRelease (p : Part) (hi : Bool) (v : W32)
  | brgSlotReq (p : Part) (k : Fin 8) (v : W32)
  | brgSlotRelease (p : Part) (k : Fin 8) (v : W32)
  | bridgeFarTimeout (p : Part) (window : Fin 32) (tag : Byte)
  | delayedReadExpire (p : Part) (k : Fin 8)
  | tsuLatch (p : Part) (v : W32)
  | ttPhaseRead (p : Part) (n : Fin 16)
  | chkLoad (p : Part) (k : Fin 8) (v : W32)
  | chkDataWrite (p : Part) (k : Fin 8) (r : ChkData) (v : W64)
  | chkCfgWrite (p : Part) (k : Fin 8) (v : W32)
  | capPeekRead (p : Part) (q : Fin 64) (idx : PeekAt) (ecc : Ecc)
  | capPop (p : Part) (q : Fin 64) (w : PopWrite)
  | capAck (p : Part) (q : Fin 64) (v : W32)
  | capHrdWrite (p : Part) (q : Fin 64) (v : W32)
  | mdioAccessStart (p : Part) (m : Fin 4) (v : W32)
  | mdioAccessDone (m : Fin 4) (rdata : BitVec 16) (noTurn : Bool)
  | mdioLinkPoll (n : EPort) (ms : Nat)
  | bootRearm (p : Part) (v : W32)
  | bootReset (p : Part) (v : W32)
  | spiRead (addr : W32) (n : Nat) (crcOk : Bool)
  | spiWrite (addr : W32) (words : List W32) (crcOk : Bool)
  | spiPush (raw : List Byte) (crcOk : Bool)
  | spiPop (crcOk : Bool)
  | spiStatus (crcOk : Bool)
  | functionLevelReset (h : HostPort)
  | hostLinkDown (h : HostPort)
  | hostLinkUp (h : HostPort) (width : Nat)
  | hostLinkTimeout (h : HostPort)
  | frameBoundary (c : PortCode)
  | frameIntake (c : PortCode) (bytes : List Byte)
  | frameEnd (c : PortCode) (e : RxEnd)
  | busFrameHandover (c : PortCode) (hslot : BitVec 128) (bytes : List Byte)
  | arbiterWindowStart (a : ArbId)
  | egressGrant (c : PortCode)
  | egressTxComplete (c : PortCode) (e : TxEnd)
  | preemptResume (n : EPort)
  | committedLaunch (n : EPort)
  | shaperWaitExpire (c : PortCode) (q : Fin 8)
  | tunnelGrant
  | aggHoldExpire (prof : Fin 1024)
  | cryptoGrant
  | streamAgeExpire (i : Fin 4096)
  | frerResetExpire (i : Fin 4096)
  | nodeHoldExpire (i : Fin 262144)
  | lockedSequenceTimeout (a : ArbId)
  | ethSignalDetect (n : EPort)
  | ethTrainingDone (n : EPort) (speedOk : Bool)
  | ethTrainingTimeout (n : EPort)
  | ethLinkLost (n : EPort) (cause : LossCause)
  | laneRetuneDone (n : EPort) (lost : Bool)
  | mmVerifyTimer (n : EPort)
  | t1sUpTimer (n : Fin 8)
  | t1sBeaconReceived (n : Fin 8)
  | t1sBeaconLoss (n : Fin 8)
  | canBusOff (n : Fin 48)
  | canBusOffRecovered (n : Fin 48)
  | linScheduleSlot (n : Fin 24)
  | linHeaderReceived (n : Fin 24) (pid : Byte) (rate : Nat)
  | linResponseTimeout (n : Fin 24)
  | frSlot (f : Fin 2) (chB : Bool) (cycle : BitVec 6) (slot : SlotAt)
  | frPocChange (f : Fin 2) (poc : Fin 6)
  | busCtrlFault (c : PortCode)
  | syncReceiptTimeout (x : Fin 2)
  | gptpTxTimer (n : EPort) (x : Fin 2) (kind : GptpTx)
  | selectorEvaluation
  | deltaSlewDone
  | tclkPllUnlock (x : Fin 2)
  | tclkPllRelock (x : Fin 2)
  | tsuServoParityError (x : Fin 2)
  | ppsEdge (n : Fin 4)
  | zdaSend
  | leapApply
  | ttCountedEdge (n : Fin 16) (aLeads : Bool) (both : Bool) (glitches : Nat)
  | ttIndexEdge (n : Fin 16) (glitches : Nat)
  | ttStallTimeout (n : Fin 16)
  | triggerActiveEdge (m : Fin 32)
  | timeTrigger (m : Fin 32)
  | triggerInactiveEdge (m : Fin 32)
  | timetableEntryStart (n : EPort)
  | timetablePhaseCrossing (n : EPort)
  | timetablePendingStart (n : EPort)
  | thermalSample (t : Vector (BitVec 12) 6)
  | ladleLaneTake (lane : Fin 8)
  | captureMemGrant (c : Fin 4)
  | captureDmaBatch (q : Fin 64) (eccs : List Ecc)
  | sidingLossClose (q : Fin 64)
  | errorLogWrite (block : Fin 14)
  | datapathUnitFault (u : DpUnit) (retestPass : Bool)
  | sliceControlFault (k : Fin 8) (w : SliceWork)
  | selfTestStep (failSlice failParser failBank failSegment : Bool)
  | retryWindowClose (u : RetryUnit)
  | lpddrChannelFault (c : Fin 4)
  | lpddrRetrainDone (c : Fin 4) (ok : Bool)
  | signalBoxFailover
  | pairSelfTestDone (pass : Bool)
  | entropyHealthFail (apt : Bool)
  | entropyStartupDone
  | drbgReseed
  | maskReseed (k : Fin 8)
  | keyZeroize (slot : Fin 2048)
  | sleepDrainEnd
  | tc10Poll (n : EPort) (read expired : Bool)
  | sleepHoldEnd
  | canWakeFrame (n : Fin 16) (f : WakeFrame) (sofTick : W64)
  | canWakePattern (n : Fin 16)
  | wakeInEvent (n : Fin 8) (active : Bool)
  | t1sActivity (n : Fin 8)
  | wakeTimerExpire
  | wakingStepDone
  | wakeAbuse (src : Fin 24)
  | powerOnReset
  | supplyMonitorReset
  | resetNAsserted
  | bootStepEnd (e : BootEnd)
  | ledgerRestart
  | registerRead (p : Part) (addr : W32) (eight : Bool)
  | busReceiveError (c : PortCode) (e : BusError)
  | porstNAsserted
  | vddaonValid
  | sidingBurstDone (q : Fin 64) (fill : Bool) (ecc : Ecc)
  | idleClockGating (u : GateUnit) (gated : Bool)
  | wakeAssertionEnd (src : Fin 24)
  | ledgerEraseDone
  deriving DecidableEq, Repr

end Sys2Proof
end

