-- ==== Sys2Proof/Machine/Bits.lean ====
section
/-! DEFINITION. Bit fields, byte order (R8) and the CRC fold of R125, with the fixed polynomials of R77 and R119. -/

namespace Sys2Proof.Machine

/-- The field [hi:lo] of a word, as a number. -/
def fld {n : Nat} (w : BitVec n) (hi lo : Nat) : Nat := (w.toNat >>> lo) % 2 ^ (hi + 1 - lo)

/-- Bit `i` of a word. -/
def bit {n : Nat} (w : BitVec n) (i : Nat) : Bool := w.getLsbD i

/-- A word with the field [hi:lo] replaced by the low bits of `v`. -/
def setFld {n : Nat} (w : BitVec n) (hi lo : Nat) (v : Nat) : BitVec n :=
  let m : BitVec n := BitVec.ofNat n ((2 ^ (hi + 1 - lo) - 1) <<< lo)
  (w &&& ~~~m) ||| (BitVec.ofNat n ((v % 2 ^ (hi + 1 - lo)) <<< lo))

/-- A word with bit `i` set to `b`. -/
def setBit {n : Nat} (w : BitVec n) (i : Nat) (b : Bool) : BitVec n := setFld w i i b.toNat

/-- One bit as a number. -/
def boolNat (b : Bool) : Nat := b.toNat

/-- Byte `i` of an image, byte 0 in bits [7:0] (R8). -/
def imgByte {n : Nat} (w : BitVec n) (i : Nat) : Byte := BitVec.ofNat 8 (w.toNat >>> (8 * i))

/-- The little-endian number in `size` bytes of an image from byte `off` (R8). -/
def imgLe {n : Nat} (w : BitVec n) (off size : Nat) : Nat := (w.toNat >>> (8 * off)) % 2 ^ (8 * size)

/-- An image with the `size` bytes from byte `off` replaced, little-endian. -/
def setImg {n : Nat} (w : BitVec n) (off size : Nat) (v : Nat) : BitVec n :=
  setFld w (8 * (off + size) - 1) (8 * off) v

/-- A number from bytes, byte 0 least significant (R8). -/
def leNat : List Byte → Nat
  | [] => 0
  | b :: r => b.toNat + 256 * leNat r

/-- A number from bytes, byte 0 most significant (R8, frame fields). -/
def beNat (l : List Byte) : Nat := l.foldl (fun a b => a * 256 + b.toNat) 0

/-- The low `n` bytes of a number, least significant first. -/
def leBytes : Nat → Nat → List Byte
  | 0, _ => []
  | n + 1, v => BitVec.ofNat 8 v :: leBytes n (v / 256)

/-- The low `n` bytes of a number, most significant first. -/
def beBytes (n v : Nat) : List Byte := (leBytes n v).reverse

/-- `n` bytes of a list from offset `o`; missing bytes read as 0. -/
def slice (l : List Byte) (o n : Nat) : List Byte :=
  ((l.drop o).take n) ++ List.replicate (n - ((l.drop o).take n).length) 0

/-- The little-endian number in `n` bytes of a list from offset `o`. -/
def leAt (l : List Byte) (o n : Nat) : Nat := leNat (slice l o n)

/-- The most-significant-first number in `n` bytes of a list from offset `o`. -/
def beAt (l : List Byte) (o n : Nat) : Nat := beNat (slice l o n)

/-- Byte `o` of a list, 0 beyond its end. -/
def byteAt (l : List Byte) (o : Nat) : Byte := l.getD o 0

/-- An image of `n` bits from bytes, byte 0 in bits [7:0]. -/
def imgOf (n : Nat) (l : List Byte) : BitVec n := BitVec.ofNat n (leNat l)

/-- The bytes of an image, byte 0 first. -/
def imgBytes {n : Nat} (w : BitVec n) : List Byte := leBytes (n / 8) w.toNat

/-- Ceiling of a division. -/
def ceilDiv (a b : Nat) : Nat := (a + b - 1) / b

/-- A 32-bit count that saturates (R70, R193, R345). -/
def satInc (w : W32) (k : Nat) : W32 :=
  if w.toNat + k ≥ 0xFFFF_FFFF then 0xFFFF_FFFF else BitVec.ofNat 32 (w.toNat + k)

/-- A signed number from the low `n` bits. -/
def signedOf (n : Nat) (v : Nat) : Int :=
  if v % 2 ^ n ≥ 2 ^ (n - 1) then (v % 2 ^ n : Int) - 2 ^ n else (v % 2 ^ n : Int)

/-- The low `n` bits of a signed number. -/
def natOfInt (n : Nat) (v : Int) : Nat := (v % (2 ^ n : Int)).toNat

/-- The bits of a byte, or of a value of width `w`, in reverse order. -/
def reflect (w v : Nat) : Nat :=
  (List.range w).foldl (fun a i => a * 2 + (v >>> i) % 2) 0

/-- The eight bit steps of the fold of R125, from bit 7 down. -/
def crcBits (w p : Nat) (b : Nat) : Nat → Nat → Nat
  | 0, v => v
  | k + 1, v =>
    let top := ((v >>> (w - 1)) % 2 + (b >>> k) % 2) % 2
    let v' := (v * 2) % 2 ^ w
    crcBits w p b k (if top = 1 then Nat.xor v' (p % 2 ^ w) else v')

/-- Fold one byte into a running value (R125). -/
def crcByte (w p : Nat) (refin : Bool) (v : Nat) (b : Byte) : Nat :=
  crcBits w p (if refin then reflect 8 b.toNat else b.toNat) 8 v

/-- Fold bytes in order (R125). -/
def crcFold (w p : Nat) (refin : Bool) (v : Nat) (l : List Byte) : Nat :=
  l.foldl (crcByte w p refin) v

/-- The result of a channel (R125): reflected if asked, then the final XOR. -/
def crcRes (w : Nat) (refout : Bool) (xorout v : Nat) : Nat :=
  (Nat.xor (if refout then reflect w (v % 2 ^ w) else v) xorout) % 2 ^ w

/-- The seeds of the four ways (R77). -/
def waySeed : Nat → Nat
  | 0 => 0xFFFF_FFFF
  | 1 => 0x1F2E_3D4C
  | 2 => 0x5B6A_7988
  | _ => 0x93A2_B1C0

/-- The CRC-32C of R77 with the seed of way `w`: no final XOR, reflected final value. -/
def crcSeeded (w : Nat) (l : List Byte) : Nat :=
  crcRes 32 true 0 (crcFold 32 0x1EDC6F41 true (waySeed w) l)

/-- The slot of a route key in way `w` (R77). -/
def routeSlot (w : Nat) (key : BitVec 128) : Nat := crcSeeded w (imgBytes key) % 2 ^ 18

/-- The slot of a node key in way `w` (R235). -/
def nodeSlot (w : Nat) (nkey : BitVec 64) : Nat := crcSeeded w (imgBytes nkey) % 2 ^ 16

/-- A fixed polynomial of R119: width, polynomial, initial value, reflection, final XOR. -/
structure CrcPoly where
  width : Nat
  poly  : Nat
  init  : Nat
  refl  : Bool
  xorout : Nat

/-- The four polynomials of R119. -/
def crcPoly : Nat → CrcPoly
  | 0 => ⟨8, 0x1D, 0xFF, false, 0xFF⟩
  | 1 => ⟨16, 0x1021, 0xFFFF, false, 0⟩
  | 2 => ⟨32, 0x04C11DB7, 0xFFFF_FFFF, true, 0xFFFF_FFFF⟩
  | _ => ⟨32, 0x1EDC6F41, 0xFFFF_FFFF, true, 0xFFFF_FFFF⟩

/-- The CRC of bytes under a fixed polynomial (R119). -/
def crcFixed (k : Nat) (l : List Byte) : Nat :=
  let c := crcPoly k
  crcRes c.width c.refl c.xorout (crcFold c.width c.poly c.refl c.init l)

end Sys2Proof.Machine
end

