-- ==== Sys2Proof/Config.lean ====
section
/-! DEFINITION. What the spec leaves open: free values. Each is an opaque constant without a body, applied to the index that
the state's `free` counter gives (or to operands), so that no proof can see a value of it. Log entry 1. -/

namespace Sys2Proof.Config

/-- A free natural number, fresh for each index. The uses are listed in log entry 1. -/
opaque freeNat : Nat → Nat

/-- A free bit, fresh for each index. -/
opaque freeBit : Nat → Bool

/-- A free byte, fresh for each index: random bytes (R218), contents the spec does not state. -/
opaque freeByte : Nat → BitVec 8

/-- A free 64-bit word, fresh for each index. -/
opaque freeWord : Nat → BitVec 64

/-- The registers that DIAG_SNAPSHOT returns for a block, in an order that R279 leaves open: a permutation index. -/
opaque snapshotOrder : Nat → Nat

/-- The fused key hash, the SHA-384 digest of the key that signs the firmware and route images (R350, R361). -/
opaque keyHash : BitVec 384

/-- The 802.1AS port identity of an Ethernet port: clockIdentity and portNumber. -/
opaque portIdentity : Nat → BitVec 80

/-- The check bits that SECDED gives a lane of 64 bits (R256: a (72,64) code, which the spec does not name). -/
opaque secded : BitVec 64 → BitVec 8

/-- The check bits that SECDED gives lane 7 of a capture word with its tag (R256: an (80,72) code). -/
opaque secdedTag : BitVec 64 → BitVec 8 → BitVec 8

/-! ### The CANsec frame of CAN in Automation, whose security header and cipher inputs the spec leaves to that specification (R229).
The arguments are the header slot and the cells of a CAN XL frame. -/

/-- The key version that a CANsec security header names. -/
opaque cansecVersion : BitVec 128 → List (BitVec 8) → Nat

/-- The width in bits of the freshness that a CANsec security header carries. -/
opaque cansecWidth : Nat

/-- The freshness value that a CANsec security header carries. -/
opaque cansecFresh : BitVec 128 → List (BitVec 8) → Nat

/-- Whether the ICV of a CANsec frame is right under a key slot and a full freshness value. -/
opaque cansecGood : BitVec 1024 → Nat → BitVec 128 → List (BitVec 8) → Bool

/-- The header slot and cells of a frame that CANsec protects under a key slot and a full freshness value. -/
opaque cansecProtect : BitVec 1024 → Nat → BitVec 128 → List (BitVec 8) → BitVec 128 × List (BitVec 8)

end Sys2Proof.Config
end

