-- ==== Sys2Proof/Machine/Kv.lean ====
section
/-! DEFINITION. Sparse tables: a list of (key, value) pairs in one canonical form, keys strictly rising and no entry equal to
what an unlisted key reads as. Every register file, table and buffer of the state is one of these. -/

namespace Sys2Proof.Machine

/-- What the table `m` holds at key `k`; an unlisted key reads as `d`. -/
def kvGet {α : Type} (d : α) (m : List (Nat × α)) (k : Nat) : α :=
  match m with
  | [] => d
  | (j, v) :: r => if j = k then v else kvGet d r k

/-- The table without an entry at key `k`. -/
def kvErase {α : Type} (m : List (Nat × α)) (k : Nat) : List (Nat × α) :=
  match m with
  | [] => []
  | (j, v) :: r => if j = k then kvErase r k else (j, v) :: kvErase r k

/-- The table with an entry at key `k`, placed before the first greater key. -/
def kvInsert {α : Type} (m : List (Nat × α)) (k : Nat) (v : α) : List (Nat × α) :=
  match m with
  | [] => [(k, v)]
  | (j, w) :: r => if k < j then (k, v) :: (j, w) :: r else (j, w) :: kvInsert r k v

/-- The table with `v` at key `k`; a value equal to the default removes the entry. -/
def kvSet {α : Type} [DecidableEq α] (d : α) (m : List (Nat × α)) (k : Nat) (v : α) : List (Nat × α) :=
  if v = d then kvErase m k else kvInsert (kvErase m k) k v

/-- The canonical form: keys strictly rising, no entry equal to the default. -/
def kvWf {α : Type} [DecidableEq α] (d : α) (m : List (Nat × α)) : Bool :=
  match m with
  | [] => true
  | (k, v) :: r =>
    decide (v ≠ d) && (match r with | [] => true | (j, _) :: _ => decide (k < j)) && kvWf d r

/-- The keys that a table lists. -/
def kvKeys {α : Type} (m : List (Nat × α)) : List Nat := m.map (·.1)

end Sys2Proof.Machine
end

