-- ==== Sys2Proof/Machine/State.lean ====
section
/-! DEFINITION. The state of the block as plain data, its stop reasons, and the state right after reset. -/

namespace Sys2Proof.Machine

/-- Why a command stops the model. -/
inductive Fault where
  /-- Raised by a meaning whose operand names nothing that the spec gives (a frame of no bytes or of more than 8,191 cells, a
  port code that R18 does not list). Safe: the block has no such event. -/
  | operandOutsideSpec (mnemonic : String)
  deriving DecidableEq, Repr

/-- Why a command has no meaning. -/
inductive Refusal where
  /-- Raised by exec's arm of a command that has no meaning yet. Safe. -/
  | notModelled (mnemonic : String)
  deriving DecidableEq, Repr

/-- The frame descriptor of R17. -/
structure FrameDesc where
  stamp   : W32 := 0
  phase   : W32 := 0
  ingress : PortCode := 0
  rxFlags : Byte := 0
  ttSel   : Byte := 0
  cls     : Byte := 0
  length  : BitVec 16 := 0
  actions : BitVec 16 := 0
  route   : W32 := 0
  stream  : BitVec 16 := 0
  drop    : Byte := 0
  capq    : Byte := 0
  node    : W32 := 0
  buffer  : W32 := 0
  deriving DecidableEq, Repr

/-- What MACsec or bus security verification found (R226, R231), held for step 7; `failed` says that a failed key slot or a slice's fault
left it without a result (R326, R328). -/
inductive SecFound where
  | off
  | eapol
  | untagged
  | badTag
  | noSa (c : Bool)
  | checked (slot : Nat) (pn : Nat) (c : Bool) (icvOk : Bool)
  | failed
  deriving DecidableEq, Repr

/-- The colour of a metered frame (R87). -/
inductive Colour where
  | unmetered
  | green
  | yellow
  | red
  deriving DecidableEq, Repr

/-- An egress copy in a queue or in transmission (R89, R139, R140). `retag` says whether the port adds (true) or removes (false) a
VLAN tag, `strip` whether the R-TAG goes, `shaped` whether its judgement as a head was rate-limit (`none` before it is judged),
`len` its length on the line as of its grant, `bytes` what goes on the line once that is settled, `hslot` the header slot that it
leaves with where the controller forms one (R56, R61, R65, R232), `sa` the slot image and PN that protect it, `started` that its
transmission has begun before (R159). -/
structure Copy where
  frame      : Nat
  port       : PortCode
  tc         : Nat := 0
  adm        : Nat := 0
  express    : Bool := true
  locked     : Bool := false
  redirected : Bool := false
  heldBack   : Bool := false
  shaped     : Option Bool := none
  retag      : Option Bool := none
  strip      : Bool := false
  len        : Nat := 0
  bytes      : Option (List Byte) := none
  hslot      : Option (BitVec 128) := none
  sa         : Option (BitVec 1024 × Nat) := none
  started    : Bool := false
  deriving DecidableEq, Repr

/-- What steps 7 and 8 use of the epoch in which a frame's parse step started (R31, R236): CRY_PORT_CFGn.validate and replay of its port,
the node entry, the key slot images that may verify it (that of the SA or node entry, and its alt), auth_hold_ms, and the end-to-end
profile. -/
structure Held where
  validate : Nat := 0
  replay   : Bool := false
  node     : Option (BitVec 256) := none
  slot     : BitVec 1024 := 0
  alt      : BitVec 1024 := 0
  hold     : Nat := 0
  e2e      : BitVec 128 := 0
  deriving DecidableEq, Repr

/-- A frame in the packet buffer (R16, R17, R397). `acct` is the account charged (0 to 15 En, 16 LOCAL, 17 tunnel reserve,
18 capture reserve), `gcells` and `scells` the cells within the guaranteed part and in the shared pool, `lane` the parser lane that
classifies it. `complete` is set when the last cell is written, `branched` when its copies have been made. `maxSdu` is the limit that is
judged only at the frame's end (R92), `plan` its egress copies with the reason that prunes each, 0 for none (R89), `macAsked` that its
MAC is being computed (R231). -/
structure Frame where
  id       : Nat
  desc     : FrameDesc := {}
  hslot    : BitVec 128 := 0
  bytes    : List Byte := []
  lineLen  : Nat := 0
  stampX   : W64 := 0
  vid      : BitVec 12 := 0
  owner    : Part := 4
  epoch    : W64 := 0
  banks    : List (Fin 16) := []
  acct     : Nat := 16
  gcells   : Nat := 0
  scells   : Nat := 0
  complete : Bool := false
  sec      : SecFound := .off
  colour   : Colour := .unmetered
  srec     : Option Nat := none
  eprof    : Nat := 0
  tprof    : Nat := 0
  dset     : BitVec 128 := 0
  rtag     : Bool := false
  gptp     : Bool := false
  branched : Bool := false
  lane     : Nat := 0
  maxSdu   : Nat := 0
  plan     : List (Copy × Nat) := []
  held     : Held := {}
  macAsked : Bool := false
  deriving DecidableEq, Repr

/-- What a port controller took at a start of frame (R19, R67, R200): extended stamp, phase word, phase_valid, tt_sel and the
selected domain (true = B). -/
structure Boundpt where
  stampX : W64 := 0
  phase  : W32 := 0
  valid  : Bool := false
  ttSel  : Byte := 0
  tselB  : Bool := false
  deriving DecidableEq, Repr

/-- A frame in reception on an Ethernet or T1S port: its frame in the buffer, unless it was refused, and its length on the line. -/
structure RxFrame where
  frame : Option Nat := none
  len   : Nat := 0
  deriving DecidableEq, Repr

/-- A copy in transmission: the instant of its first bit in ps of presented time, and the frame bytes sent in fragments that
ended (R37, R143). -/
structure Tx where
  copy  : Copy
  start : Nat
  sent  : Nat := 0
  frags : Nat := 0
  deriving DecidableEq, Repr

/-- A committed one-step frame: its copy and committed instant in ps of presented time, and the AES slice that its protection locks
(R181). -/
structure Commit where
  copy     : Copy
  tc       : Nat
  slice    : Option Nat := none
  launched : Bool := false
  deriving DecidableEq, Repr

/-- A class shaper's bucket, in 1/128,000 byte, and the instant (ns of uptime) at which it held that (R160); full until its first
debit (`used`). -/
structure Bucket where
  used  : Bool := false
  level : Int := 0
  at_   : Nat := 0
  deriving DecidableEq, Repr

/-- The egress side of a port: eight queues (key = queue), the copy in transmission, a preempted frame, a committed frame, a granted copy
that starts when the frame in transmission ends (R142), the instant in ps at which the line is free after what was sent last, the shapers
of classes B, C and D (key = adm), and the frame-preemption verification (R141). -/
structure EgPort where
  queues    : List (Nat × List Copy) := []
  tx        : Option Tx := none
  preempted : Option Tx := none
  commit    : Option Commit := none
  next      : Option Tx := none
  free      : Nat := 0
  shapers   : List (Nat × Bucket) := []
  mmTries   : Nat := 0
  mmReplied : Bool := false
  addFrag   : Nat := 0
  deriving DecidableEq, Repr

/-- An arbiter instance (R36): credits, the order number of each requester's last grant, the count c, and the number of
grants made; `fills` counts the fill bursts granted in the current window (R162). -/
structure Arb where
  credit : List (Nat × Nat) := []
  last   : List (Nat × Nat) := []
  c      : Nat := 0
  grants : Nat := 0
  fills  : Nat := 0
  deriving DecidableEq, Repr

/-- Ethernet lane state behind LNK_ETH_STATUS: a retune in progress, the mode before it, and whether a rate change is in one of its steps
3 to 5 (R50). -/
structure Lane where
  retune   : Bool := false
  oldMode  : BitVec 6 := 0
  change   : Bool := false
  deriving DecidableEq, Repr

/-- Who asked for an MDIO pair (R52, R53, R313): a partition, a TC10 request or the read that follows it, a link poll. -/
inductive MdioWho where
  | part (p : Part)
  | tc10
  | tc10Read
  | poll
  deriving DecidableEq, Repr

/-- A Clause 45 access that waits on a bus. -/
structure MdioReq where
  who   : MdioWho
  port  : Nat
  dev   : BitVec 5
  reg   : BitVec 16
  read  : Bool
  data  : BitVec 16
  deriving DecidableEq, Repr

/-- A LIN port's schedule: slot in progress, a header waiting for its response, whether the QX sent the last header and publishes its
response, and the inserted bridge headers (R57, R61, R131). -/
structure LinPort where
  slot     : Nat := 0
  header   : Option Byte := none
  own      : Bool := false
  publish  : Bool := false
  inserted : List (Byte × Bool) := []
  deriving DecidableEq, Repr

/-- A stream record of R85 with its meter and FRER state (R87). Buckets are in 1/8,000,000 byte. -/
structure Stream where
  identity : BitVec 128 := 0
  owner    : Part := 4
  vid      : BitVec 12 := 0
  used     : Bool := false
  prof     : Byte := 0
  pinned   : Bool := false
  mafre    : Bool := false
  idle     : BitVec 16 := 0
  frames   : W32 := 0
  red      : W32 := 0
  rseq     : BitVec 16 := 0
  taken    : Bool := false
  history  : W32 := 0
  cbucket  : Int := 0
  ebucket  : Int := 0
  mtime    : Nat := 0
  reds     : List Nat := []
  lastHit  : Nat := 0
  deriving DecidableEq, Repr

/-- A timetable of R145: its header and its entries. -/
structure Timetable where
  header  : BitVec 256 := 0
  entries : List (BitVec 64) := []
  deriving DecidableEq, Repr

/-- The configured tables of one epoch (R15). Keys: route position, TCAM index, set index, VID, profile index, key slot, node
index, port, partition × 32 + window, partition. -/
structure Tables where
  routes  : List (Nat × Option (BitVec 256)) := []
  tcam    : List (Nat × BitVec 384) := []
  dsets   : List (Nat × BitVec 128) := []
  vlans   : List (Nat × BitVec 48) := []
  pprofs  : List (Nat × BitVec 256) := []
  tprofs  : List (Nat × BitVec 512) := []
  eprofs  : List (Nat × BitVec 128) := []
  keys    : List (Nat × BitVec 1024) := []
  nodes   : List (Nat × Option (BitVec 256)) := []
  gates   : List (Nat × Timetable) := []
  windows : List (Nat × BitVec 128) := []
  grants  : List (Nat × BitVec 1728) := []
  deriving DecidableEq, Repr

/-- What a mould item stages (R280): a table entry, or one RWP register. `added` says that the deletion replaced an addition of the
same mould, so that it may find no entry (R281). -/
inductive Item where
  | reg (key : Nat) (value : W32)
  | route (entry : BitVec 256)
  | routeDel (key : BitVec 128) (added : Bool)
  | tcam (i : Nat) (entry : BitVec 384)
  | dset (i : Nat) (map : BitVec 128)
  | vlan (vid : Nat) (bits : BitVec 48)
  | pprof (i : Nat) (e : BitVec 256)
  | tprof (i : Nat) (e : BitVec 512)
  | eprof (i : Nat) (e : BitVec 128)
  | pin (identity : BitVec 128) (prof : Byte)
  | unpin (identity : BitVec 128) (added : Bool)
  | gate (n : Nat) (t : Timetable)
  | key (slot : Nat) (newKey : Bool) (image : BitVec 1024)
  | keyErase (slot : Nat)
  | node (flags : Byte) (entry : BitVec 256)
  | nodeErase (nkey : BitVec 64) (added : Bool)
  | grant (p : Nat) (r : BitVec 1728)
  | window (k : Nat) (e : BitVec 128)
  deriving DecidableEq, Repr

/-- A staged item with the tag of the command that staged its content, 0xFFF for a register write (R285), and the partition
that staged it (PM's mould may hold items of any view; a route image pours five moulds as one, R362). -/
structure Staged where
  item : Item
  tag  : BitVec 12
  by_  : Part
  deriving DecidableEq, Repr

/-- A partition's mould: its items in the order of their staging indexes (R280, R283). -/
structure Mould where
  items  : List Staged := []
  sealed : Bool := false
  deriving DecidableEq, Repr

/-- A fetched command that has not completed (R276). `olds` holds the partition's grant records that a pour replaced after the
fetch: a target that one of them held was revoked under the command, which is no violation (R291). `latched` says that a doorbell or
PUSH latched during a sleep announced the command (R319, R320). -/
structure Fetched where
  desc    : CmdDesc
  started : Bool := false
  latched : Bool := false
  olds    : List (BitVec 1728) := []
  deriving DecidableEq, Repr

/-- A reply of R274 without its phase bit. `irq` is flags.irq of the command, `epochOf` the epoch that a POUR created, `outAt`
and `out` the output that still has to be written before the reply, `keeps` whether the reply still keeps its tag busy, `mould` what
the release of a POUR's reply does to the mould: 1 closes it, 2 unseals it. -/
structure Reply where
  tag     : BitVec 12
  status  : Byte
  epoch   : W32 := 0
  epochOf : Option W32 := none
  result  : W64
  irq     : Bool
  outAt   : W64 := 0
  out     : List Byte := []
  keeps   : Bool := true
  mould   : Nat := 0
  deriving DecidableEq, Repr

/-- A partition's command path: fetched commands in fetch order, busy tags, completed commands whose reply waits for its
journal batch, released replies that wait for the CQ, PM's rings, the tags whose replies a function-level reset discards (R296),
event messages that a freeze or a dead link holds back, and the busy tag on which fetching waits (R269). A doorbell and PUSHes latched during a sleep wait in `latchedDoorbell` and `latchedPush` (R319); the descriptors that
they announced are the `cover` fetches after the next `coverSkip`. -/
structure CmdPath where
  fetched  : List Fetched := []
  busy     : List (BitVec 12) := []
  done     : List Reply := []
  ready    : List Reply := []
  dropTags : List (BitVec 12) := []
  sq       : List (List Byte) := []
  cq       : List (Reply × Bool) := []
  latchedDoorbell : Option W32 := none
  latchedPush     : List (List Byte) := []
  coverSkip       : Nat := 0
  cover           : Nat := 0
  msgs            : List (BitVec 6) := []
  waitTag         : Option (BitVec 12) := none
  deriving DecidableEq, Repr

/-- The boundary of a POUR (R284). -/
inductive Boundary where
  | immediate
  | time (instant : W64)
  | phase (tt : Fin 16) (f : BitVec 24)
  deriving DecidableEq, Repr

/-- The step of the signal box that the dispatcher granted and that has not ended (R398): the command, by partition and tag, the
8-byte words that the step writes, and whether they are an entry of the shadow tables of the command's pour. More than one word is a
locked sequence (R38). -/
structure BoxStep where
  part  : Part
  tag   : BitVec 12
  words : Nat
  pour  : Bool := false
  deriving DecidableEq, Repr

/-- A pour in the pour queue (R285); `built` counts the items whose words are in the shadow tables (R398), `past` is result bit 63 of a
time pour whose instant was past, `seed` the index of the free values of its placement (R78), `pins` the stream records that its pins were
given at step 4, in their order, and `mark` φ of a phase pour's turntable from where its crossing is looked for (R207, R208). -/
structure Pour where
  part  : Part
  tag   : BitVec 12
  irq   : Bool
  bound : Boundary
  built : Nat := 0
  ready : Bool := false
  past  : Bool := false
  seed  : Nat := 0
  pins  : List Nat := []
  mark  : Option Int := none
  deriving DecidableEq, Repr

/-- A bridge transaction slot (R132) with the command that waits for it, if a REMOTE_ACCESS holds it. -/
structure Slot where
  state  : BitVec 2 := 0
  far    : Byte := 0
  tag    : Byte := 0
  window : Nat := 0
  write  : Bool := false
  len    : Nat := 0
  cmd    : Option (BitVec 12 × Bool) := none
  deriving DecidableEq, Repr

/-- A request frame sent for a window whose response has not come (R131, R133), with the number of its frame, if it was built. -/
structure OpenReq where
  part   : Part
  window : Nat
  tag    : Byte
  slot   : Option Nat
  write  : Bool
  frame  : Option Nat := none
  deriving DecidableEq, Repr

/-- A Sync that waits for its Follow_Up (R167): port, sequenceId, receive time and correction in 2^-16 ns, uptime at reception. -/
structure SyncWait where
  port : Nat
  seq  : BitVec 16
  rx   : Int
  corr : Int
  at_  : Nat
  deriving DecidableEq, Repr

/-- A domain of TSU (R164 to R168, R330): time base, rate word in 1/256 ppb, integral term in 1/(2^30 × 720,720) ppb, whether the
first large offset of this ACQUIRE has stepped it, counts of consecutive offsets inside lock_ns and of clamped rate words, the
PLL lock, the mirror copy of the servo state (R326), what Announce gives for UTC (R189), microseconds spent LOCKED (R173), the day of an
announced leap and whether it had ended when P stepped (R189). -/
structure Domain where
  ns       : W64 := 0
  frac     : W32 := 0
  rate     : Int := 0
  integ    : Int := 0
  stepped  : Bool := false
  inLock   : Nat := 0
  clamps   : Nat := 0
  pllLost  : Bool := false
  mRate    : Int := 0
  mInteg   : Int := 0
  utcOfs   : Option Int := none
  leap61   : Bool := false
  leap59   : Bool := false
  lockedUs : Nat := 0
  sync     : Option SyncWait := none
  leapDay  : Int := 0
  leapLate : Bool := false
  deriving DecidableEq, Repr

/-- A Pdelay exchange: t1, t2, t3, t4 in 2^-16 ns, and whether its Pdelay_Resp has come (R167). -/
structure Pdelay where
  t1 : Int := 0
  t2 : Int := 0
  t3 : Int := 0
  t4 : Int := 0
  resp : Bool := false
  deriving DecidableEq, Repr

/-- Link delay measurement of a port: past exchanges (newest first), the exchange in progress, mean_delay in 2^-16 ns. -/
structure GptpPort where
  hist  : List Pdelay := []
  cur   : Option Pdelay := none
  seq   : BitVec 16 := 0
  mean  : Option Int := none
  syncId : BitVec 16 := 0
  respSeq : BitVec 16 := 0
  deriving DecidableEq, Repr

/-- An accepted edge of a PPS input: its stamp, the seconds since the edge before it, whether it has its label. -/
structure PpsEdge where
  at_      : W64
  k        : Nat := 1
  labelled : Bool := false
  deriving DecidableEq, Repr

/-- A PPS input (R185 to R187): the last accepted edge, the one before it, and the label that waits for the next edge. -/
structure Pps where
  edge      : Option PpsEdge := none
  prev      : Option PpsEdge := none
  nextLabel : Option Int := none
  deriving DecidableEq, Repr

/-- A loop state of a turntable as of a counted edge: the edge's extended stamp and position, φ in 2^-32 edge and v in 2^-64 edge per ns,
and the stamp of the edge that last updated the loop (R196, R199, R200). -/
structure Loop where
  t   : W64 := 0
  phi : Int := 0
  v   : Int := 0
  p   : Int := 0
  upd : W64 := 0
  deriving DecidableEq, Repr

/-- A turntable behind its registers (R197 to R203): position, whether no edge was counted since OFF, the last counted edge's
stamp, the acquisition run (edges, position and stamp of its first), index bookkeeping, consecutive extras, the four most
recent loop states, and the last spans of TRACKING, each from an instant to another or still on, newest first (R200). -/
structure Turntable where
  p        : Int := 0
  first    : Bool := true
  lastEdge : Option W64 := none
  acqN     : Nat := 0
  acqP     : Int := 0
  acqT     : W64 := 0
  idxSeen  : Bool := false
  idxEver  : Bool := false
  idxPend  : Option W64 := none
  idxP     : Int := 0
  extras   : Nat := 0
  loops    : List Loop := []
  spans    : List (W64 × Option W64) := []
  deriving DecidableEq, Repr

/-- A trigger output (R207, R209 to R212): the crossings it has met, as revolution count and downward, and the width of the
pulse that is active. -/
structure Trigger where
  seen  : List (Int × Bool) := []
  width : Nat := 0
  deriving DecidableEq, Repr

/-- A 64-byte word of a capture queue with its tag (R248). -/
structure CapWord where
  data : BitVec 512
  tag  : Byte
  deriving DecidableEq, Repr

/-- A capture copy that waits for the ladle (R243). `frame` is the frame's number, `egress` the deferring port or 0xFF. -/
structure CapCopy where
  frame    : Nat
  seq      : W32
  stampHi  : W32
  deferred : Bool
  egress   : PortCode
  desc     : FrameDesc
  reserve  : Bool := false
  order    : Nat := 0
  deriving DecidableEq, Repr

/-- A word in a siding: its place in the region, and whether it ends a record (R250). Its data and its tag are in the memory. -/
structure SidWord where
  place : Nat
  last  : Bool
  deriving DecidableEq, Repr

/-- A capture queue (R243 to R263). `spilling` holds the words on their way to a place of the region, `fills` one bit for each fill in
flight, oldest first, true when it fetches the next siding word and false when that word is gone; `check` the check data on chip of
words whose group is partial, by place; `wr` the place after the last one spilled to. `writing` holds the words of the record that a
ladle lane is writing, `writes` its frame; `begun` counts the words of the head record that have left the head platform, `peeked`
whether its first remaining word has been read, `checked` whether the head word has had its check, `close` a closing word that waits for
a free head-platform word. -/
structure CapQ where
  seq      : W32 := 0
  copies   : List CapCopy := []
  head     : List CapWord := []
  siding   : List SidWord := []
  tail     : List CapWord := []
  spilling : List (Nat × CapWord) := []
  fills    : List Bool := []
  check    : List (Nat × List Byte) := []
  writing  : List CapWord := []
  writes   : Option Nat := none
  wr       : Nat := 0
  begun    : Nat := 0
  peeked   : Bool := false
  checked  : Bool := false
  gap      : Bool := false
  off      : Bool := false
  close    : Bool := false
  ringPkts : Nat := 0
  peek     : List (Nat × W32) := []
  backlogWas : Nat := 0
  highWas  : Bool := false
  msgDue   : Bool := false
  deriving DecidableEq, Repr

/-- A public-key operation that waits in or occupies the engine (R239): partition, tag, irq, its status, result and output. -/
structure PkOp where
  part   : Part
  tag    : BitVec 12
  irq    : Bool
  status : Byte
  result : W64
  outAt  : W64
  out    : List Byte
  micros : Nat
  store  : Option (Nat × BitVec 384) := none
  deriving DecidableEq, Repr

/-- What the bursts of an AES slice are for (R38, R135): the verification of a frame, the protection of a frame's copy for a port, a raw
block operation. -/
inductive CryptoUse where
  | verify (frame : Nat)
  | protect (port : PortCode) (frame : Nat)
  | raw (op : PkOp)
  deriving DecidableEq, Repr

/-- Work for the AES slices (R135): requester index, how many bursts of 4 cells it has, how many have not been granted, and what it is. -/
structure CryptoWork where
  req    : Nat
  total  : Nat
  bursts : Nat
  use    : CryptoUse
  deriving DecidableEq, Repr

/-- An open AVTPDU of a tunnel profile (R111 to R113). -/
structure OpenPdu where
  msgs    : List (List Byte) := []
  bytes   : Nat := 0
  desc    : FrameDesc := {}
  stampX  : W64 := 0
  tc      : Nat := 0
  adm     : BitVec 2 := 3
  dset    : BitVec 128 := 0
  eprof   : Nat := 0
  image   : BitVec 512 := 0
  epoch   : W64 := 0
  deriving DecidableEq, Repr

/-- A tunnel copy that waits for the engine: frame, wrap or unwrap, and the cells that the engine has taken (R37). -/
structure TunCopy where
  frame  : Nat
  wrap   : Bool
  port   : PortCode
  taken  : Nat := 0
  deriving DecidableEq, Repr

/-- A report in a block's FIFO or an entry of the error log (R341). -/
structure LogEntry where
  time   : W64 := 0
  seq    : W32 := 0
  block  : Byte := 0
  sev    : Byte := 0
  code   : BitVec 16 := 0
  part   : Byte := 0xFF
  unit   : Byte := 0xFF
  repeat_ : BitVec 16 := 1
  last   : W32 := 0
  detail : W64 := 0
  deriving DecidableEq, Repr

/-- A frame retained by a wake decoder (R310): its header slot, data, and the tick of its SOF. -/
structure Retained where
  hslot : BitVec 128
  data  : List Byte
  tick  : W64
  deriving DecidableEq, Repr

/-- The sleep sequence's own state (R303, R304, R315, R316): the SLEEP command that waits for its reply, depth, results of
TC10, the stage of ENTRY or WAKING, the uptime at which the sleep counter was reset, and the wake cause record. -/
structure Sleep where
  cmd     : Option (BitVec 12 × Bool) := none
  depth   : Nat := 0
  stage   : Nat := 0
  tc10    : List (Nat × Nat) := []
  okPorts : BitVec 16 := 0
  badPorts : BitVec 16 := 0
  entryUp : Nat := 0
  pEntry  : W64 := 0
  recDepth : Nat := 0
  mask    : W64 := 0
  first   : Option Nat := none
  tick    : List (Nat × W64) := []
  retained : List (Nat × Retained) := []
  pinHigh : BitVec 8 := 0
  lastNode : List (Nat × Nat) := []
  abuseNode : List (Nat × Nat) := []
  deriving DecidableEq, Repr

/-- The start ledger and the boot sequencer (R350 to R360): levels and failure counts of steps 1 to 10, outcome, ok and code of the
steps of this start, and the two ledger sectors as lists of 64-byte records; the last record of the ledger sector (`useB`) is this
start's once `opened`. `erasing` says that the other sector is being erased, `restart` that a failed step ended the start, `fromUp` is
the uptime at which the start began. `stored` holds the stored value regions that steps 6 and 7 use under ALTERNATE, absent while
erased, `found` the values with which such a step has passed at level 0 in this start (R353). -/
structure Boot where
  level   : List (Nat × Nat) := []
  fcnt    : List (Nat × Nat) := []
  outcome : List (Nat × Nat) := []
  okBit   : List (Nat × Bool) := []
  code    : List (Nat × Byte) := []
  opened  : Bool := false
  sectA   : List (BitVec 512) := []
  sectB   : List (BitVec 512) := []
  useB    : Bool := false
  erasing : Bool := false
  restart : Bool := false
  latchShutdown : Bool := false
  fromUp  : Nat := 0
  stored  : List (Nat × List Byte) := []
  found   : List (Nat × List Byte) := []
  deriving DecidableEq, Repr

/-- Pins the block drives and whether the supplies let it run (R346, R347, R156); `tempSeen` says that a sample was taken since
PWR_TEMP_MAX was last read. -/
structure Pins where
  faultN  : Bool := true
  inh     : Bool := true
  cfc     : Byte := 0
  trg     : W32 := 0
  hiZ     : Bool := true
  bootFault : Bool := true
  shutdown : Bool := false
  halted  : Bool := false
  flashOff : Bool := true
  tempSeen : Bool := false
  deriving DecidableEq, Repr

/-- What the block sends or shows to the outside, in the order in which it leaves (the model's own record, log entry 2). -/
inductive Out where
  | read (p : Part) (addr : W32) (value : W64)
  | unsupported (p : Part) (addr : W32)
  | abort (p : Part) (addr : W32)
  | reply (p : Part) (bytes : List Byte)
  | msix (p : Part) (vec : BitVec 6)
  | dma (p : Part) (addr : W64) (bytes : List Byte)
  | mailbox (p : Part) (addr : W32) (bytes : List Byte)
  | spi (status : Byte) (data : List Byte)
  | frame (port : PortCode) (hslot : BitVec 128) (bytes : List Byte) (stomp : Bool)
  | fragment (port : PortCode) (frame : Nat) (from_ upto : Nat)
  | mm (n : EPort)
  | linHeader (n : Nat) (pid : Byte)
  | nullFrame (port : PortCode) (id : BitVec 11)
  | mdio (bus : Nat) (phy : BitVec 5) (dev : BitVec 5) (reg : BitVec 16) (write : Option (BitVec 16))
  | trigger (m : Nat) (level : Bool)
  | reset (code : Byte)
  deriving DecidableEq, Repr

/-- Registers, read latches and the two addressed memories. -/
structure RegUnit where
  /-- 32-bit registers, key = partition copy × 2^26 + offset; an unlisted register holds its reset value (R366). -/
  regs    : List (Nat × W32) := []
  /-- 64-bit counters and values held in pairs, key = offset of LO (R367). -/
  wide    : List (Nat × W64) := []
  /-- Read latches, key = partition × 2^26 + offset of LO (R367, R368). -/
  latch   : List (Nat × W32) := []
  /-- The PM buffer, key = offset in it (R400). -/
  pmBuf   : List Host.Cell := []
  /-- Slot data buffers, key = partition × 512 + slot × 64 + byte (R133). -/
  mailbox : List Host.Cell := []
  deriving DecidableEq, Repr

/-- The fields of the tables that hardware writes outside any pour, and timetables that wait for their first cycle (R15,
R152, R222). Keys as in `Tables`. `keyOld` is key material that waits to be zeroed (R221), `keyStaged` a key pair that
PK_KEYGEN made for the issuer's next pour (R239), keyed by slot; `nodeCopy`, `streamCopy`, `overflowCopy` and `saCopy` are the second
copies of the run-time fields (R15, R326); `exhausted` says that an Ethernet port's exhausted SA has been
told (R228), `holdAt` the uptime at which a node's hold was set. -/
structure LiveUnit where
  nodeCopy  : List (Nat × Option (BitVec 256)) := []
  streams   : List (Nat × Stream) := []
  overflow  : Stream := {}
  streamCopy   : List (Nat × Stream) := []
  overflowCopy : Stream := {}
  saState   : List (Nat × W64) := []
  saCopy    : List (Nat × W64) := []
  keyFailed : List (Nat × Bool) := []
  keyWarned : List (Nat × Bool) := []
  keyOld    : List (Nat × BitVec 384) := []
  keyStaged : List (Nat × (Part × BitVec 384)) := []
  gatePend  : List (Nat × Timetable) := []
  exhausted : List (Nat × Bool) := []
  holdAt    : List (Nat × Nat) := []
  deriving DecidableEq, Repr

/-- The command path, moulds, pours, the SPI port and the bridge (10_commands.md, 04_tunnelling.md *The bridge*). -/
structure CmdUnit where
  path    : List (Nat × CmdPath) := []
  moulds  : List (Nat × Option Mould) := []
  pours   : List Pour := []
  linkUp  : List (Nat × Bool) := []
  spiErr  : Bool := false
  spiEvent : Bool := false
  slots   : List (Nat × Slot) := []
  winTag  : List (Nat × Byte) := []
  openReqs : List OpenReq := []
  remoteWait : List (Part × CmdDesc) := []
  box     : Option BoxStep := none
  deriving DecidableEq, Repr

/-- Packet buffer, egress queues, arbiters and the tunnelling engine (03_forwarding.md, 04_tunnelling.md, 05_scheduling.md). `order` holds
the frames of an ingress port that have passed step 6 and not branched, oldest first (R20).
Keys: port code for `bounds`, `lastStamp` (the last stamp, in ns), `order` and `eg`, account for `acctG` and `acctS`, profile for the tunnel state. -/
structure FwdUnit where
  frames    : List Frame := []
  nextFrame : Nat := 0
  bounds    : List (Nat × List Boundpt) := []
  lastStamp : List (Nat × Nat) := []
  order     : List (Nat × List Nat) := []
  eg        : List (Nat × EgPort) := []
  arbs      : List (Nat × Arb) := []
  acctG     : List (Nat × Nat) := []
  acctS     : List (Nat × Nat) := []
  tunCells  : Nat := 0
  capCells  : Nat := 0
  tunQ      : List TunCopy := []
  openPdu   : List (Nat × OpenPdu) := []
  avtpTx    : List (Nat × Byte) := []
  avtpRx    : List (Nat × Option Byte) := []
  e2eDrops  : List (Nat × Nat) := []
  deriving DecidableEq, Repr

/-- Port controllers (02_ports.md). Keys: Ethernet port, bus, LIN port, FlexRay channel × 128 + buffer. -/
structure LnkUnit where
  lanes  : List (Nat × Lane) := []
  rx     : List (Nat × List RxFrame) := []
  mdio   : List (Nat × List MdioReq) := []
  lin    : List (Nat × LinPort) := []
  frWait : List (Nat × Option Copy) := []
  deriving DecidableEq, Repr

/-- The last Announce of a domain on a port: its priority vector for the BMCA, and the uptime in ns until which it counts (R171). -/
structure Announced where
  vector : Nat := 0
  until_ : Nat := 0
  deriving DecidableEq, Repr

/-- Time domains, selector, PPS inputs (06_time.md). `delta` is Δ in 2^-32 ns; `announce` holds the Announces by domain × 16 + port (R171);
`leapLate` that the day of TSU_UTC_NEXT had ended (R189); `zdaWait` the sentence port on which a delayed ZDA sentence waits (R188). -/
structure TsuUnit where
  dom       : List (Nat × Domain) := []
  delta     : Int := 0
  gptp      : List (Nat × GptpPort) := []
  announce  : List (Nat × Announced) := []
  pps       : List (Nat × Pps) := []
  leapLate  : Bool := false
  zdaWait   : Option Nat := none
  deriving DecidableEq, Repr

/-- Turntables and triggers (07_turntables.md). `gateSeen` holds, by port, the entry starts that its timetable in force has crossed, as entry
and revolution count (R207). -/
structure PhwUnit where
  tts  : List (Nat × Turntable) := []
  trgs : List (Nat × Trigger) := []
  gateSeen : List (Nat × List (Nat × Int)) := []
  deriving DecidableEq, Repr

/-- Capture queues, ladle and LPDDR5X channels (09_capture.md). `mem` holds the 64-byte bursts of the LPDDR5X memory, key = channel × 2^28 +
channel offset / 64 (R250, R251). -/
structure CapUnit where
  qs        : List (Nat × CapQ) := []
  ladleLast : List (Nat × Nat) := []
  ladleBusy : List (Nat × Option Nat) := []
  order     : Nat := 0
  retrain   : List (Nat × Bool) := []
  mem       : List (Nat × BitVec 512) := []
  deriving DecidableEq, Repr

/-- Crypto resources (08_security.md). -/
structure CryUnit where
  work       : List CryptoWork := []
  pkQ        : List PkOp := []
  drbgSeeded : Bool := false
  entStops   : Bool := false
  maskSeeds  : List (Nat × Nat) := []
  deriving DecidableEq, Repr

/-- The error log, block FIFOs, retry windows, rolling self-test and the signal box pairs (12_faults.md).
`testUnit` (16: none) and `testFail` are keyed by
kind: 0 slice, 1 parser lane, 2 bank, 3 segment; `spares` counts the spares that a memory has used. -/
structure ErrUnit where
  log      : List (Nat × LogEntry) := []
  full     : Bool := false
  fifos    : List (Nat × List LogEntry) := []
  fifoGap  : List (Nat × Bool) := []
  windows  : List (Nat × Nat) := []
  testUnit : List (Nat × Nat) := []
  testFail : List (Nat × Bool) := []
  spares   : List (Nat × Nat) := []
  sbFailed : Bool := false
  sbDead   : Bool := false
  deriving DecidableEq, Repr

/-- The state of the block. -/
structure State where
  /-- Commands that wait, first in, first out. -/
  pending : List Instr := []
  /-- The model's own: index of the next free value. -/
  free    : Nat := 0
  /-- The model's own: nanoseconds of uptime, advanced by an idle step. -/
  upNs    : Nat := 0
  /-- The model's own: what the block has sent, oldest first. -/
  out     : List Out := []
  /-- Fuse: QX-4816-L (R1). -/
  logger  : Bool := false
  reg     : RegUnit := {}
  tab     : Tables := {}
  live    : LiveUnit := {}
  cmd     : CmdUnit := {}
  fwd     : FwdUnit := {}
  lnk     : LnkUnit := {}
  tsu     : TsuUnit := {}
  phw     : PhwUnit := {}
  cap     : CapUnit := {}
  cry     : CryUnit := {}
  slp     : Sleep := {}
  err     : ErrUnit := {}
  boot    : Boot := {}
  pins    : Pins := {}
  deriving DecidableEq, Repr

/-- The state right after reset: every field at the value that the spec or the log gives. -/
def State.reset : State := {}

end Sys2Proof.Machine
end

