-- ==== Sys2Proof/Machine/Regs.lean ====
section
/-! DEFINITION. The register index (14_registers.md, R366): for each offset of the map, the register's reset value, the access
code of its bits (R10), how many copies exist, and the view it lies in; and the named offsets of the registers. -/

namespace Sys2Proof.Machine

/-- How many copies of a register exist (R366, R299). -/
inductive Scope where
  | one
  | perPart
  | hosts
  deriving DecidableEq, Repr

/-- Whose view a register lies in: everybody's, the holder's of a port, queue, turntable or trigger, CHK channel k, PM's
alone, a partition that holds one of the ports of an MDIO bus or one of the
channels of a FlexRay controller, or everybody for reading and PM or the holder for staging. -/
inductive View where
  | all
  | port (c : Nat)
  | queue (q : Nat)
  | table (n : Nat)
  | trig (m : Nat)
  | chk (k : Nat)
  | bus (m : Nat)
  | fr (f : Nat)
  | pmOnly
  deriving DecidableEq, Repr

/-- Whether a register is a plain one or a half of a 64-bit pair (R367). -/
inductive Half where
  | plain
  | lo
  | hi
  deriving DecidableEq, Repr

/-- What the index says of a register: masks of its RW, RWP, RW1C, WO and ROC bits (the rest is RO or reserved, `ro` marks the
RO bits that are not reserved), its view, whether its RWP fields are staged in PM's mould only, and the event that logs an ignored host write to
its RW1C bits (0 = none: the write is a violation when `pmStage`). -/
structure RegInfo where
  reset   : W32 := 0
  rw      : W32 := 0
  rwp     : W32 := 0
  w1c     : W32 := 0
  wo      : W32 := 0
  roc     : W32 := 0
  ro      : W32 := 0
  scope   : Scope := .one
  view    : View := .all
  stage   : View := .all
  pmStage : Bool := false
  pmClear : Bool := false
  log1c   : Nat := 0
  half    : Half := .plain
  deriving DecidableEq, Repr

/-- All bits. -/
def ones : W32 := 0xFFFF_FFFF

/-- An RO register. -/
def roReg (reset : W32) (v : View := .all) (sc : Scope := .one) : RegInfo := { reset, ro := ones, view := v, stage := v, scope := sc }

/-- A half of a 64-bit RO pair. -/
def pairReg (h : Half) (v : View := .all) : RegInfo := { ro := ones, view := v, stage := v, half := h }

/-- An RWP register in a holder's view. -/
def rwpReg (reset mask : W32) (v : View := .all) : RegInfo := { reset, rwp := mask, view := v, stage := v }

/-- An RWP register that every partition reads and only PM's mould stages. -/
def pmReg (reset mask : W32) : RegInfo := { reset, rwp := mask, pmStage := true }

/-- The index of the arbiter groups (R135): offset in the group, number of requesters, view, reset weight. -/
def arbInfo (o n : Nat) (v : View) (w : Nat → Nat) : Option RegInfo :=
  let pmS := v == .pmOnly
  if o = 0 then some { rwpReg 0x0008_03E8 0x007F_FFFF v with pmStage := pmS }
  else if 0x40 ≤ o ∧ o < 0x40 + 4 * n ∧ o % 4 = 0 then
    some { rwpReg (BitVec.ofNat 32 (w ((o - 0x40) / 4))) 0xFFFF v with pmStage := pmS }
  else none

/-- The reset weights of a group (R135). -/
def egressWeight (i : Nat) : Nat := 8 * (8 - i)
/-- The reset weights of the crypto group (R135). -/
def cryptoWeight (i : Nat) : Nat := if i < 32 then 0x20 else if i < 34 then 0x10 else 8
/-- The reset weights of the dispatcher group (R135). -/
def dispWeight (i : Nat) : Nat := if i < 4 then 0x40 else 0x80

/-- GLB (00_scope.md). -/
def glbInfo (logger : Bool) (o : Nat) : Option RegInfo :=
  match o with
  | 0x00 => some (roReg 0xA17D_4816)
  | 0x04 => some (roReg 0x0000_0B01)
  | 0x08 => some (roReg (if logger then 0x0004_0104 else 0x0004_0002))
  | 0x10 => some { w1c := 7, scope := .perPart }
  | 0x14 => some { rw := 7, scope := .perPart }
  | 0x18 => some { rw := 0x3F, scope := .perPart }
  | _ => none

/-- CMD (10_commands.md) below the arbiter group and the bridge. -/
def cmdInfo (o : Nat) : Option RegInfo :=
  match o with
  | 0x00 => some { rw := 0xFD, scope := .perPart }
  | 0x04 => some (roReg 1 .all .perPart)
  | 0x08 => some { rw := 0xFFFF_F000, scope := .perPart }
  | 0x0C => some { rw := ones, scope := .perPart }
  | 0x10 => some { reset := 4, rw := 0xF, scope := .perPart }
  | 0x14 => some { rw := 0xFFF, scope := .perPart }
  | 0x18 => some (roReg 0 .all .perPart)
  | 0x1C => some { rw := 0xFFFF_F000, scope := .perPart }
  | 0x20 => some { rw := ones, scope := .perPart }
  | 0x24 => some { reset := 4, rw := 0xF, scope := .perPart }
  | 0x28 => some { rw := 0xFFF, scope := .perPart }
  | 0x2C => some (roReg 0 .all .perPart)
  | 0x30 => some (pairReg .lo)
  | 0x34 => some (pairReg .hi)
  | 0x38 => some (roReg 0 .all .perPart)
  | 0x3C => some { pmReg 0x3E8 0xFFFF with view := .pmOnly }
  | _ => if 0xF000 ≤ o then arbInfo (o - 0xF000) 5 .pmOnly dispWeight else none

/-- The bridge registers, offset from 0x0018_0000 (04_tunnelling.md). The slot data buffers are mailbox space, not registers. The
last rows stand for the PM buffer, which lies in PM's view only (R400). -/
def brgInfo (o : Nat) : Option RegInfo :=
  if o < 0x100 ∧ o % 4 = 0 then some { reset := 1, roc := 1, scope := .perPart }
  else if o = 0x100 then some { reset := 0x64, rw := 0x3FFF, scope := .perPart }
  else if o = 0x110 ∨ o = 0x114 then some { wo := ones, scope := .perPart }
  else if o = 0x180 ∨ o = 0x184 then some (roReg 0 .all .perPart)
  else if 0x200 ≤ o ∧ o < 0x280 then
    match o % 0x10 with
    | 0 => some (roReg 0 .all .perPart)
    | 4 => some { wo := 0x0FFF_FFFF, scope := .perPart }
    | 8 => some { wo := 1, scope := .perPart }
    | _ => none
  else if 0x2_0000 ≤ o ∧ o < 0x6_0000 ∧ o % 4 = 0 then some { rw := ones, view := .pmOnly }
  else none

/-- TSU (06_time.md). -/
def tsuInfo (o : Nat) : Option RegInfo :=
  if o = 0x00 then some (pmReg 0x0A06 0xFF07)
  else if o = 0x04 then some { ro := 0x23, w1c := 0x1C, pmClear := true, log1c := 0x0206 }
  else if o = 0x08 then some (pmReg 0x3E8 0xFFFF)
  else if o = 0x0C then some (pairReg .lo)
  else if o = 0x10 then some (pairReg .hi)
  else if o = 0x20 then some { wo := 1, scope := .perPart }
  else if 0x24 ≤ o ∧ o ≤ 0x38 ∧ o % 4 = 0 then some (roReg 0 .all .perPart)
  else if o = 0x40 then some (pmReg 0x25 0x1FF)
  else if o = 0x44 then some (pmReg 0 0x03FF_FFFF)
  else if o = 0x48 then some (pmReg 0 0x7F)
  else if o = 0x50 then some (pmReg 0x0049_4900 0xFFFF_FF07)
  else if 0x100 ≤ o ∧ o < 0x300 then
    match o % 0x100 with
    | 0x00 => some (pmReg (if o < 0x200 then 0x0033_0000 else 0x0033_0010) 0x0FF7_F7FD)
    | 0x04 => some (pmReg 0x1333_2CCD ones)
    | 0x08 => some (roReg 0)
    | 0x0C => some (roReg 0)
    | 0x10 => some (roReg 0)
    | 0x14 => some (pmReg 0x03E8_0064 ones)
    | _ => none
  else if 0x300 ≤ o ∧ o < 0x340 ∧ o % 4 = 0 then some (pmReg 0 0xFF)
  else if 0x400 ≤ o ∧ o < 0x440 then
    match o % 0x10 with
    | 0x0 => some (pmReg 0x6400 0xFF0F)
    | 0x4 => some (roReg 0)
    | 0x8 => some (roReg 0x8000_0000)
    | _ => none
  else if 0x500 ≤ o ∧ o ≤ 0x524 ∧ o % 4 = 0 then some (roReg 0)
  else none

/-- The port codes of R18 below 0x70. -/
def mediaCode (c : Nat) : Bool := decide (c < 0x18) || (decide (0x20 ≤ c) && decide (c < 0x70))

/-- The port codes of R18. -/
def portListed (c : Nat) : Bool := mediaCode c || (decide (0x70 ≤ c) && decide (c ≤ 0x74)) || decide (c = 0x7C)

/-- PHW (07_turntables.md). Every partition reads a PHW register; the holder and PM stage it (R194, R213). -/
def phwInfo (o : Nat) : Option RegInfo :=
  if o < 0x1000 then
    let n := o / 0x100
    let t : W32 → W32 → RegInfo := fun r m => { reset := r, rwp := m, stage := .table n }
    match o % 0x100 with
    | 0x00 => some (t 0x2408_0400 0x7FFF_FFFF)
    | 0x04 => some (t 1 0x1F_FFFF)
    | 0x08 => some (t 0x0020_0000 0x0FFF_FFFF)
    | 0x0C => some (t 0x1000_2000 ones)
    | 0x10 => some (t 0x03E8_0064 ones)
    | 0x14 => some { ro := 0xF, w1c := 0x30, stage := .table n }
    | 0x18 => some (roReg 0)
    | 0x1C => some (roReg 0 .all .perPart)
    | 0x20 => some (roReg 0)
    | 0x24 => some (roReg 0)
    | 0x28 => some (roReg 0)
    | x => if 0x40 ≤ x ∧ x ≤ 0x68 ∧ x % 4 = 0 then some (roReg 0) else none
  else if o < 0x1400 then
    let m := (o - 0x1000) / 0x20
    let t : W32 → W32 → RegInfo := fun r k => { reset := r, rwp := k, stage := .trig m }
    match o % 0x20 with
    | 0x00 => some (t 0 0x3FF7_FFFF)
    | 0x04 => some (t 0 0xFF_FFFF)
    | 0x08 => some (t 0x19 0xFF_FFFF)
    | 0x0C => some (t 0x3B9A_CA00 ones)
    | 0x10 => some (t 0 ones)
    | 0x14 => some (t 0 ones)
    | 0x18 => some { ro := 1, w1c := 6, stage := .trig m }
    | 0x1C => some (roReg 0)
    | _ => none
  else if o = 0x1400 then some (roReg 0)
  else if 0x2000 ≤ o ∧ o < 0x2200 ∧ o % 4 = 0 then
    let c := (o - 0x2000) / 4
    if portListed c then some { rwp := 0x1F, stage := .port c } else none
  else none

/-- GTE (05_scheduling.md). -/
def gteInfo (o : Nat) : Option RegInfo :=
  if o < 0x1000 then
    let v := View.port (o / 0x100)
    match o % 0x100 with
    | 0x0 => some (rwpReg 0x0A00 0x1_FFFF v)
    | 0x4 => some (roReg 0x00FF_0000 v)
    | 0x8 => some (roReg 0 v)
    | _ => none
  else none

/-- The reset values of FWD_ADM_POLn (R157). -/
def admPolReset : Nat → W32
  | 0 => 0x78FF_F000
  | 1 => 0x787F_F500
  | 2 => 0x57F7_F350
  | 3 => 0x36FF_7325
  | _ => 0x15FF_F332

/-- FWD (03_forwarding.md, R394). -/
def fwdInfo (o : Nat) : Option RegInfo :=
  if o = 0x00 then some (pmReg 1 3)
  else if o = 0x04 then some { w1c := 3, pmClear := true, log1c := 0x0507 }
  else if o = 0x08 then some (pmReg 0xA 0xFF_FFFF)
  else if o = 0x0C then some { rwp := 0xF_FFFF, scope := .perPart }
  else if o = 0x10 then some (pmReg 0x5AF 0xFFFF)
  else if o = 0x14 then some (roReg 0x0006_8000)
  else if o = 0x18 ∨ o = 0x1C ∨ o = 0x20 then some (roReg 0)
  else if 0x100 ≤ o ∧ o < 0x2C0 ∧ o % 4 = 0 then some (rwpReg 0x8001 0xFF07_FFFF (.port ((o - 0x100) / 4)))
  else if 0x300 ≤ o ∧ o ≤ 0x340 ∧ o % 4 = 0 then some (pmReg 0x0002_0043 0xF_FF77)
  else if 0x380 ≤ o ∧ o ≤ 0x3C0 ∧ o % 4 = 0 then some (roReg 0)
  else if 0x500 ≤ o ∧ o < 0x560 ∧ o % 4 = 0 then some (rwpReg 0x00FA_C688 0xFF_FFFF (.port ((o - 0x500) / 4)))
  else if 0x600 ≤ o ∧ o ≤ 0x610 ∧ o % 4 = 0 then some (pmReg (admPolReset ((o - 0x600) / 4)) 0x7FFF_F777)
  else if o = 0x614 then some { rwp := 0x7F, scope := .perPart }
  else if o = 0x618 then some { pmReg 0x0064_0010 0x00FF_00FF with view := .pmOnly }
  else if 0x800 ≤ o ∧ o < 0xC00 then arbInfo (o - 0x800) 8 .pmOnly egressWeight
  else if 0xC00 ≤ o ∧ o < 0x1000 then arbInfo (o - 0xC00) 0x70 .pmOnly (fun _ => 8)
  else if 0x1008 ≤ o ∧ o < 0x10F0 ∧ o % 4 = 0 then some (pairReg (if o % 8 = 0 then .lo else .hi))
  else if 0x2000 ≤ o ∧ o < 0x2038 ∧ o % 4 = 0 then some (pairReg (if o % 8 = 0 then .lo else .hi))
  else if 0x4000 ≤ o ∧ o < 0x8000 then arbInfo ((o - 0x4000) % 0x400) 8 (.port ((o - 0x4000) / 0x400)) egressWeight
  else none

/-- LNK (02_ports.md), by region (R43). -/
def lnkInfo (o : Nat) : Option RegInfo :=
  if o < 0x4000 then
    let v := View.port (o / 0x400)
    match o % 0x400 with
    | 0x0 => some (rwpReg 0x0618_0000 0x3FFF_3F7F v)
    | 0x4 => some (roReg 0 v)
    | 0x8 => some (rwpReg 0 ones v)
    | x => if 0x100 ≤ x ∧ x < 0x160 ∧ x % 4 = 0 then some (pairReg (if x % 8 = 0 then .lo else .hi) v) else none
  else if o < 0x5000 then
    let v := View.port (0x10 + (o - 0x4000) / 0x200)
    match o % 0x200 with
    | 0x00 => some (rwpReg 0x2000_0100 0xFF1F_FF01 v)
    | 0x04 => some (rwpReg 0 0xFF v)
    | 0x08 => some (rwpReg 0 0xFFFF v)
    | 0x0C => some (rwpReg 0 1 v)
    | 0x10 => some (roReg 0 v)
    | x => if 0x40 ≤ x ∧ x < 0x58 ∧ x % 4 = 0 then some (roReg 0 v) else none
  else if 0x8000 ≤ o ∧ o < 0xB000 then
    let v := View.port (0x20 + (o - 0x8000) / 0x100)
    match o % 0x100 with
    | 0x00 => some (rwpReg 0 ones v)
    | 0x04 => some (rwpReg 0 0xFFFF_FF7F v)
    | 0x08 => some (roReg 0x0003_0000 v)
    | 0x0C => some (rwpReg 0 0xFF v)
    | x => if 0x40 ≤ x ∧ x < 0x58 ∧ x % 4 = 0 then some (roReg 0 v) else none
  else if 0xC000 ≤ o ∧ o < 0xCC00 then
    let v := View.port (0x50 + (o - 0xC000) / 0x80)
    match o % 0x80 with
    | 0x00 => some (rwpReg 0x4B00_0000 0x7FFF_0003 v)
    | 0x04 => some (rwpReg 0 0xFF v)
    | 0x08 => some (rwpReg 0 ones v)
    | 0x0C => some (rwpReg 0x3000_0000 ones v)
    | x => if 0x40 ≤ x ∧ x < 0x54 ∧ x % 4 = 0 then some (roReg 0 v) else none
  else if 0xD000 ≤ o ∧ o < 0xD800 then
    let v := View.fr ((o - 0xD000) / 0x400)
    match o % 0x400 with
    | 0x00 => some (rwpReg 0x30 0x3F v)
    | 0x04 => some (roReg 0 v)
    | 0x08 => some (rwpReg 0 0xFF v)
    | 0x10 => some (rwpReg 0x0001_1388 0x7_3FFF v)
    | 0x14 => some (rwpReg 0x0100_C83C 0x03FF_FFFF v)
    | 0x18 => some (rwpReg 0x0311_00C8 0x3FFF_FFFF v)
    | 0x1C => some (rwpReg 0x000B_E000 0x1FFF_FFFF v)
    | x => if 0x40 ≤ x ∧ x < 0xC0 ∧ x % 0x40 < 0x18 ∧ x % 4 = 0 then some (roReg 0 v) else none
  else if 0xE000 ≤ o ∧ o < 0xE400 then
    let v := View.port (0x6C + (o - 0xE000) / 0x100)
    match o % 0x100 with
    | 0x00 => some (rwpReg 0 7 v)
    | x => if 0x40 ≤ x ∧ x < 0x54 ∧ x % 4 = 0 then some (roReg 0 v) else none
  else if 0xF000 ≤ o ∧ o < 0xF100 then
    let v := View.bus ((o - 0xF000) / 0x40)
    match o % 0x40 with
    | 0x0 => some (rwpReg 0x0001_0014 0x00FF_00FF v)
    | 0x4 => some { rw := 0x7F_FFFF, scope := .perPart, view := v, stage := v }
    | 0x8 => some { rw := 0x1_FFFF, ro := 0xC000_0000, scope := .perPart, view := v, stage := v }
    | _ => none
  else if 0x1_0000 ≤ o ∧ o < 0x1_1800 ∧ o % 4 = 0 then
    some (rwpReg 0 0x1_FF3F (.port (0x50 + (o - 0x1_0000) / 0x100)))
  else if 0x1_4000 ≤ o ∧ o < 0x1_6000 ∧ o % 0x1000 < 0x400 then
    let v := View.fr ((o - 0x1_4000) / 0x1000)
    match o % 8 with
    | 0 => some (rwpReg 0 0x1F_FFFF v)
    | 4 => some (rwpReg 0 0x1FF v)
    | _ => none
  else none

/-- CRY (08_security.md). -/
def cryInfo (o : Nat) : Option RegInfo :=
  if o < 0x40 ∧ o % 4 = 0 then some (rwpReg 0 0xF (.port (o / 4)))
  else if o = 0x100 then some { reset := 0x3E8, rwp := 0xFFFF, scope := .perPart }
  else if o = 0x104 then some (roReg 0xFF)
  else if o = 0x108 then some { ro := 0x13, w1c := 0xC, pmClear := true, log1c := 0x0D05 }
  else if 0x200 ≤ o ∧ o < 0x214 ∧ o % 4 = 0 then some (roReg 0)
  else if 0x400 ≤ o ∧ o < 0x600 ∧ o % 0x20 < 0x1C ∧ o % 4 = 0 then some (roReg 0)
  else if 0xF000 ≤ o then arbInfo (o - 0xF000) 35 .pmOnly cryptoWeight
  else none

/-- CAP (09_capture.md). -/
def capInfo (o : Nat) : Option RegInfo :=
  if o < 0x4000 then
    let v := View.queue (o / 0x100)
    match o % 0x100 with
    | 0x00 => some (rwpReg 0 0x3F_FFFF v)
    | 0x04 => some (pmReg 0 0x3FFF_3FFF)
    | 0x08 => some (rwpReg 0 ones v)
    | 0x0C => some (rwpReg 0 ones v)
    | 0x10 => some { reset := 1, ro := 0xF, w1c := 0xF0, view := v, stage := v }
    | 0x14 => some (roReg 0 v)
    | 0x18 => some (roReg 0 v)
    | 0x1C => some { wo := 0xFF_FFFF, view := v, stage := v }
    | 0x20 => some (rwpReg 0 ones v)
    | 0x24 => some (rwpReg 0 ones v)
    | 0x28 => some (rwpReg 6 0x1F v)
    | 0x2C => some (rwpReg 0 ones v)
    | 0x30 => some (rwpReg 0 ones v)
    | 0x34 => some (roReg 0 v)
    | 0x38 => some { rw := ones, view := v, stage := v }
    | 0x3C => some (roReg 0 v)
    | 0x40 => some { wo := 1, view := v, stage := v }
    | 0x44 => some (roReg 0 v)
    | 0x48 => some (roReg 0 v)
    | 0x4C => some (roReg 0 v)
    | 0x50 => some (pairReg .lo v)
    | 0x54 => some (pairReg .hi v)
    | x => if 0x80 ≤ x ∧ x < 0xC0 ∧ x % 4 = 0 then some (roReg 0 v) else none
  else if o = 0x8000 then some (roReg 0)
  else if o = 0x8004 then some (pmReg 0 0xFF)
  else if o = 0x8008 then some (roReg 0)
  else if 0xF000 ≤ o then arbInfo (o - 0xF000) 128 .pmOnly (fun _ => 0x40)
  else none

/-- CHK (R124, R126). -/
def chkInfo (o : Nat) : Option RegInfo :=
  if o < 0x200 then
    let v := View.chk (o / 0x40)
    let rwv : W32 → W32 → RegInfo := fun r m => { reset := r, rw := m, view := v, stage := v }
    match o % 0x40 with
    | 0x00 => some (rwv 0x1A0 0x1FF)
    | 0x04 => some { wo := 1, view := v, stage := v }
    | 0x08 => some (rwv 0x04C1_1DB7 ones)
    | 0x0C => some (rwv 0 ones)
    | 0x10 => some (rwv ones ones)
    | 0x14 => some (rwv 0 ones)
    | 0x18 => some (rwv ones ones)
    | 0x1C => some (rwv 0 ones)
    | 0x20 => some { rwv 0 ones with half := .lo }
    | 0x24 => some { rwv 0 ones with half := .hi }
    | 0x28 => some (pairReg .lo v)
    | 0x2C => some (pairReg .hi v)
    | 0x30 => some { wo := ones, view := v, stage := v }
    | 0x34 => some { wo := ones, view := v, stage := v }
    | 0x38 => some { wo := 0xFF, view := v, stage := v }
    | 0x3C => some (roReg 0 v)
    | _ => none
  else if o = 0x200 then some (roReg 0x401)
  else none

/-- PWR (11_power_wake.md; thermal registers: 05_scheduling.md). -/
def pwrInfo (o : Nat) : Option RegInfo :=
  if o = 0x00 then some (roReg 0)
  else if o = 0x04 then some (pmReg 0x0003_E81E 0xFF_FFFF)
  else if o = 0x08 then some (pmReg 0xEA60 0xFFFF)
  else if o = 0x0C then some (pmReg 0 0xFF_FFFF)
  else if o = 0x10 then some (pmReg 0 ones)
  else if o = 0x14 then some (pmReg 0x1F 0x3F)
  else if o = 0x18 ∨ o = 0x1C then some (roReg 0)
  else if o = 0x20 then some { w1c := ones, pmStage := true, pmClear := true }
  else if o = 0x24 ∨ o = 0x28 ∨ o = 0x2C then some (roReg 0)
  else if o = 0x30 then some (pairReg .lo)
  else if o = 0x34 then some (pairReg .hi)
  else if o = 0x38 then some (roReg 0)
  else if 0x40 ≤ o ∧ o < 0x60 ∧ o % 4 = 0 then some (pmReg 0x0A00 0xFF03)
  else if 0x80 ≤ o ∧ o < 0xC0 ∧ o % 4 = 0 then some (pmReg 0 3)
  else if o = 0xC0 then some (pmReg 0 0x1FFF_FFFF)
  else if o = 0xC4 then some (pmReg 0 ones)
  else if 0x1000 ≤ o ∧ o < 0x1200 then
    let v := View.port (0x20 + (o - 0x1000) / 0x20)
    match o % 0x20 with
    | 0x00 => some (rwpReg 0x50 0xF7F v)
    | 0x04 => some (rwpReg 0 0x1FFF_FFFF v)
    | 0x08 => some (rwpReg 0x1FFF_FFFF 0x1FFF_FFFF v)
    | 0x0C => some (rwpReg 0 ones v)
    | 0x10 => some (rwpReg 0 ones v)
    | 0x14 => some (roReg 0 v)
    | 0x18 => some (roReg 0 v)
    | _ => none
  else if 0x4000 ≤ o ∧ o < 0x4018 ∧ o % 4 = 0 then some (roReg 0)
  else if o = 0x4020 then some (roReg 0)
  else if o = 0x4024 then some { ro := 8, w1c := 7, pmClear := true, log1c := 0x0A02 }
  else if o = 0x4028 then some (roReg 0)
  else if o = 0x402C then some { roc := 0xFFF }
  else none

/-- ERR (12_faults.md). -/
def errInfo (o : Nat) : Option RegInfo :=
  if o = 0x00 then some { ro := 0xC, w1c := 3, pmClear := true, log1c := 0x0B03 }
  else if o = 0x14 then some { w1c := 0x3FF, pmClear := true, log1c := 0x0B03 }
  else if o ≤ 0x2C ∧ o % 4 = 0 then some (roReg 0)
  else if o = 0x30 then some (pmReg 0x3E8 0xFFFF)
  else if o = 0x34 then some (roReg 0)
  else if o = 0x40 then some { rw := 0xFFF, scope := .perPart }
  else if 0x44 ≤ o ∧ o < 0x64 ∧ o % 4 = 0 then some (roReg 0 .all .perPart)
  else none

/-- BOOT (13_startup.md). -/
def bootInfo (o : Nat) : Option RegInfo :=
  if o ≤ 0x0C ∧ o % 4 = 0 then some (roReg 0)
  else if o = 0x10 then some { wo := 0x7FE, pmStage := true }
  else if o = 0x14 then some { wo := 0xFFFF, pmStage := true }
  else if o = 0x18 then some (roReg 0xFF)
  else none

/-- SEC (10_commands.md). -/
def secInfo (o : Nat) : Option RegInfo :=
  if o = 0 ∨ o = 4 then some (roReg 0 .all .hosts)
  else if o = 8 then some { w1c := 0x1F, view := .pmOnly, pmClear := true }
  else none

/-- What the index says of the register at an offset of the map, if there is one (R366). -/
def regInfo (logger : Bool) (off : Nat) : Option RegInfo :=
  if off % 4 ≠ 0 then none else
  match off / 0x10_0000 with
  | 0x0 => glbInfo logger off
  | 0x1 => if off < 0x18_0000 then cmdInfo (off - 0x10_0000) else brgInfo (off - 0x18_0000)
  | 0x2 => tsuInfo (off - 0x20_0000)
  | 0x3 => phwInfo (off - 0x30_0000)
  | 0x4 => gteInfo (off - 0x40_0000)
  | 0x5 => fwdInfo (off - 0x50_0000)
  | 0x6 => lnkInfo (off - 0x60_0000)
  | 0x7 => cryInfo (off - 0x70_0000)
  | 0x8 => capInfo (off - 0x80_0000)
  | 0x9 => chkInfo (off - 0x90_0000)
  | 0xA => pwrInfo (off - 0xA0_0000)
  | 0xB => errInfo (off - 0xB0_0000)
  | 0xC => bootInfo (off - 0xC0_0000)
  | 0xD => secInfo (off - 0xD0_0000)
  | _ => none

/-- The reset value of the register at an offset (R366). -/
def regReset (logger : Bool) (off : Nat) : W32 := ((regInfo logger off).map RegInfo.reset).getD 0

/-- The reset value of a 64-bit pair: 0, and 0xFFFF_FFFF for CHK_VAL (R126). -/
def wideReset (off : Nat) : W64 :=
  if 0x90_0000 ≤ off ∧ off < 0x90_0200 ∧ off % 0x40 = 0x20 then 0xFFFF_FFFF else 0

/-! Named offsets. -/

namespace R
def evtStat : Nat := 0x10
def evtEn : Nat := 0x14
def evtVec : Nat := 0x18
def cmdCtl : Nat := 0x10_0000
def sqBaseLo : Nat := 0x10_0008
def sqBaseHi : Nat := 0x10_000C
def sqSize : Nat := 0x10_0010
def sqTail : Nat := 0x10_0014
def sqHead : Nat := 0x10_0018
def cqBaseLo : Nat := 0x10_001C
def cqBaseHi : Nat := 0x10_0020
def cqSize : Nat := 0x10_0024
def cqHead : Nat := 0x10_0028
def cqTail : Nat := 0x10_002C
def epoch : Nat := 0x10_0030
def pourCfg : Nat := 0x10_003C
def arbDisp : Nat := 0x10_F000
def sem (n : Nat) : Nat := 0x18_0000 + 4 * n
def brgCfg : Nat := 0x18_0100
def semRelLo : Nat := 0x18_0110
def semRelHi : Nat := 0x18_0114
def drDiscard : Nat := 0x18_0180
def farErr : Nat := 0x18_0184
def slotStat (k : Nat) : Nat := 0x18_0200 + 0x10 * k
def tsuCtl : Nat := 0x20_0000
def tsuStatus : Nat := 0x20_0004
def tsuSlew : Nat := 0x20_0008
def tsuDelta : Nat := 0x20_000C
def latSecLo : Nat := 0x20_0024
def latSecHi : Nat := 0x20_0028
def latNsec : Nat := 0x20_002C
def latStamp : Nat := 0x20_0030
def calDate : Nat := 0x20_0034
def calTime : Nat := 0x20_0038
def utc : Nat := 0x20_0040
def utcNext : Nat := 0x20_0044
def pivot : Nat := 0x20_0048
def senout : Nat := 0x20_0050
def domCfg (x : Nat) : Nat := 0x20_0100 + 0x100 * x
def domGain (x : Nat) : Nat := 0x20_0104 + 0x100 * x
def domStatus (x : Nat) : Nat := 0x20_0108 + 0x100 * x
def domOffset (x : Nat) : Nat := 0x20_010C + 0x100 * x
def domRate (x : Nat) : Nat := 0x20_0110 + 0x100 * x
def domThr (x : Nat) : Nat := 0x20_0114 + 0x100 * x
def tsuPort (n : Nat) : Nat := 0x20_0300 + 4 * n
def ppsCfg (n : Nat) : Nat := 0x20_0400 + 0x10 * n
def ppsStamp (n : Nat) : Nat := 0x20_0404 + 0x10 * n
def ppsOfs (n : Nat) : Nat := 0x20_0408 + 0x10 * n
def ostepSent : Nat := 0x20_0500
def ostepSkip : Nat := 0x20_0504
def ostepLost : Nat := 0x20_0508
def switches : Nat := 0x20_050C
def fwdSteps : Nat := 0x20_0510
def ppsBad : Nat := 0x20_0514
def senReject : Nat := 0x20_0518
def senLate : Nat := 0x20_051C
def syncTmo (x : Nat) : Nat := 0x20_0520 + 4 * x
def ttCfg (n : Nat) : Nat := 0x30_0000 + 0x100 * n
def ttCpr (n : Nat) : Nat := 0x30_0004 + 0x100 * n
def ttIdx (n : Nat) : Nat := 0x30_0008 + 0x100 * n
def ttGain (n : Nat) : Nat := 0x30_000C + 0x100 * n
def ttTmo (n : Nat) : Nat := 0x30_0010 + 0x100 * n
def ttStatus (n : Nat) : Nat := 0x30_0014 + 0x100 * n
def ttPhase (n : Nat) : Nat := 0x30_0018 + 0x100 * n
def ttPstamp (n : Nat) : Nat := 0x30_001C + 0x100 * n
def ttVel (n : Nat) : Nat := 0x30_0020 + 0x100 * n
def ttEdge (n : Nat) : Nat := 0x30_0024 + 0x100 * n
def ttIdxStamp (n : Nat) : Nat := 0x30_0028 + 0x100 * n
/-- Counter `j` of R214: 0 EDGES, 1 GLITCH, 2 EXTRA, 3 MISSING, 4 QERR, 5 REVERSE, 6 IDX_CORR, 7 IDX_ERR, 8 IDX_LOST, 9 STALLS, 10 LOST_TRACK. -/
def ttCnt (n j : Nat) : Nat := 0x30_0040 + 0x100 * n + 4 * j
def trgCfg (m : Nat) : Nat := 0x30_1000 + 0x20 * m
def trgTgt (m : Nat) : Nat := 0x30_1004 + 0x20 * m
def trgWidth (m : Nat) : Nat := 0x30_1008 + 0x20 * m
def trgPeriod (m : Nat) : Nat := 0x30_100C + 0x20 * m
def trgBaseLo (m : Nat) : Nat := 0x30_1010 + 0x20 * m
def trgBaseHi (m : Nat) : Nat := 0x30_1014 + 0x20 * m
def trgStat (m : Nat) : Nat := 0x30_1018 + 0x20 * m
def trgCount (m : Nat) : Nat := 0x30_101C + 0x20 * m
def trgLate : Nat := 0x30_1400
def portTt (c : Nat) : Nat := 0x30_2000 + 4 * c
def gteCfg (n : Nat) : Nat := 0x40_0000 + 0x100 * n
def gteStatus (n : Nat) : Nat := 0x40_0004 + 0x100 * n
def holdback (n : Nat) : Nat := 0x40_0008 + 0x100 * n
def fwdCtl : Nat := 0x50_0000
def fwdStatus : Nat := 0x50_0004
def streamCfg : Nat := 0x50_0008
def fwdDefault : Nat := 0x50_000C
def admMap : Nat := 0x50_0010
def poolFree : Nat := 0x50_0014
def tunOcc : Nat := 0x50_0018
def capOcc : Nat := 0x50_001C
def streamUsed : Nat := 0x50_0020
def portCfg (c : Nat) : Nat := 0x50_0100 + 4 * c
def acctCfg (n : Nat) : Nat := 0x50_0300 + 4 * n
def acctOcc (n : Nat) : Nat := 0x50_0380 + 4 * n
def portPcp (n : Nat) : Nat := 0x50_0500 + 4 * n
def admPol (b : Nat) : Nat := 0x50_0600 + 4 * b
def admDefer : Nat := 0x50_0614
def admShape : Nat := 0x50_0618
def arbOther : Nat := 0x50_0800
def arbTunnel : Nat := 0x50_0C00
/-- The drop reason counter of a code (R101). -/
def dropCnt (code : Nat) : Nat := 0x50_1000 + 8 * code
/-- Counter `j` of R134: 0 WRAP_MSGS, 1 WRAP_PDUS, 2 UNWRAP_PDUS, 3 UNWRAP_MSGS, 4 SEQ_GAP, 5 E2E_LOST, 6 E2E_RESYNC. -/
def tunCnt (j : Nat) : Nat := 0x50_2000 + 8 * j
def arbEth (n : Nat) : Nat := 0x50_4000 + 0x400 * n
def ethMode (n : Nat) : Nat := 0x60_0000 + 0x400 * n
def ethStatus (n : Nat) : Nat := 0x60_0004 + 0x400 * n
def ethComp (n : Nat) : Nat := 0x60_0008 + 0x400 * n
/-- Counter `j` of R51: 0 RX_FRAMES, 1 RX_BYTES, 2 FCS_ERR, 3 LEN_ERR, 4 PAUSE, 5 SYM_ERR, 6 TX_FRAMES, 7 TX_BYTES, 8 TX_FRAGMENTS,
9 FEC_CORR, 10 FEC_UNCORR, 11 LINK_DOWN. -/
def ethCnt (n j : Nat) : Nat := 0x60_0100 + 0x400 * n + 8 * j
def t1sPlca (n : Nat) : Nat := 0x60_4000 + 0x200 * n
def t1sComp (n : Nat) : Nat := 0x60_4008 + 0x200 * n
def t1sCfg (n : Nat) : Nat := 0x60_400C + 0x200 * n
def t1sStatus (n : Nat) : Nat := 0x60_4010 + 0x200 * n
def t1sCnt (n j : Nat) : Nat := 0x60_4040 + 0x200 * n + 4 * j
def canBt (n : Nat) : Nat := 0x60_8000 + 0x100 * n
def canCfg (n : Nat) : Nat := 0x60_8004 + 0x100 * n
def canStatus (n : Nat) : Nat := 0x60_8008 + 0x100 * n
def canComp (n : Nat) : Nat := 0x60_800C + 0x100 * n
def canCnt (n j : Nat) : Nat := 0x60_8040 + 0x100 * n + 4 * j
def linCfg (n : Nat) : Nat := 0x60_C000 + 0x80 * n
def linComp (n : Nat) : Nat := 0x60_C004 + 0x80 * n
def linCks (n h : Nat) : Nat := 0x60_C008 + 0x80 * n + 4 * h
def linCnt (n j : Nat) : Nat := 0x60_C040 + 0x80 * n + 4 * j
def linSlot (n k : Nat) : Nat := 0x61_0000 + 0x100 * n + 4 * k
def frCfg (f : Nat) : Nat := 0x60_D000 + 0x400 * f
def frStatus (f : Nat) : Nat := 0x60_D004 + 0x400 * f
def frComp (f : Nat) : Nat := 0x60_D008 + 0x400 * f
def frCyc (f : Nat) : Nat := 0x60_D010 + 0x400 * f
def frStatic (f : Nat) : Nat := 0x60_D014 + 0x400 * f
def frDyn (f : Nat) : Nat := 0x60_D018 + 0x400 * f
def frNode (f : Nat) : Nat := 0x60_D01C + 0x400 * f
def frCnt (f ch j : Nat) : Nat := 0x60_D040 + 0x400 * f + 0x40 * ch + 4 * j
def frMbCfg (f b : Nat) : Nat := 0x61_4000 + 0x1000 * f + 8 * b
def frMbCyc (f b : Nat) : Nat := 0x61_4004 + 0x1000 * f + 8 * b
def senCfg (n : Nat) : Nat := 0x60_E000 + 0x100 * n
def senCnt (n j : Nat) : Nat := 0x60_E040 + 0x100 * n + 4 * j
def mdioCfg (m : Nat) : Nat := 0x60_F000 + 0x40 * m
def mdioReg (m : Nat) : Nat := 0x60_F004 + 0x40 * m
def mdioAcc (m : Nat) : Nat := 0x60_F008 + 0x40 * m
def cryPort (n : Nat) : Nat := 0x70_0000 + 4 * n
def cryCfg : Nat := 0x70_0100
def sliceStatus : Nat := 0x70_0104
def entStatus : Nat := 0x70_0108
/-- Device counter `j` of R241: 0 BUS_OK, 1 BUS_PROT, 2 FRESH_EXHAUST, 3 SELFTEST_FAIL, 4 ENT_FAIL. -/
def cryDev (j : Nat) : Nat := 0x70_0200 + 4 * j
/-- Port counter `j` of R241: 0 RX_OK, 1 RX_CHECKFAIL, 2 RX_UNTAGGED, 3 RX_BADTAG, 4 RX_NOSA, 5 TX_PROT, 6 PN_EXHAUST. -/
def cryCnt (n j : Nat) : Nat := 0x70_0400 + 0x20 * n + 4 * j
def arbCrypto : Nat := 0x70_F000
def capCfg (q : Nat) : Nat := 0x80_0000 + 0x100 * q
def capSiding (q : Nat) : Nat := 0x80_0004 + 0x100 * q
def capHi (q : Nat) : Nat := 0x80_0008 + 0x100 * q
def capLo (q : Nat) : Nat := 0x80_000C + 0x100 * q
def capStatus (q : Nat) : Nat := 0x80_0010 + 0x100 * q
def capOccq (q : Nat) : Nat := 0x80_0014 + 0x100 * q
def capPkts (q : Nat) : Nat := 0x80_0018 + 0x100 * q
def capRingLo (q : Nat) : Nat := 0x80_0020 + 0x100 * q
def capRingHi (q : Nat) : Nat := 0x80_0024 + 0x100 * q
def capRingSz (q : Nat) : Nat := 0x80_0028 + 0x100 * q
def capTagLo (q : Nat) : Nat := 0x80_002C + 0x100 * q
def capTagHi (q : Nat) : Nat := 0x80_0030 + 0x100 * q
def capHwr (q : Nat) : Nat := 0x80_0034 + 0x100 * q
def capHrd (q : Nat) : Nat := 0x80_0038 + 0x100 * q
def capPeekTag (q : Nat) : Nat := 0x80_003C + 0x100 * q
def capLost (q : Nat) : Nat := 0x80_0044 + 0x100 * q
def capEccCorr (q : Nat) : Nat := 0x80_0048 + 0x100 * q
def capEccUncorr (q : Nat) : Nat := 0x80_004C + 0x100 * q
def capRecs (q : Nat) : Nat := 0x80_0050 + 0x100 * q
def capPeek (q i : Nat) : Nat := 0x80_0080 + 0x100 * q + 4 * i
def capMem : Nat := 0x80_8000
def cfcPol : Nat := 0x80_8004
def capSpace : Nat := 0x80_8008
def arbCap : Nat := 0x80_F000
def chkCfg (k : Nat) : Nat := 0x90_0000 + 0x40 * k
def chkPoly (k h : Nat) : Nat := 0x90_0008 + 0x40 * k + 4 * h
def chkInit (k h : Nat) : Nat := 0x90_0010 + 0x40 * k + 4 * h
def chkXor (k h : Nat) : Nat := 0x90_0018 + 0x40 * k + 4 * h
def chkVal (k : Nat) : Nat := 0x90_0020 + 0x40 * k
def chkRes (k : Nat) : Nat := 0x90_0028 + 0x40 * k
def chkCnt (k : Nat) : Nat := 0x90_003C + 0x40 * k
def chkMode : Nat := 0x90_0200
def pwrState : Nat := 0xA0_0000
def wakeCfg : Nat := 0xA0_0004
def abuseHold : Nat := 0xA0_0008
def pwrTimer : Nat := 0xA0_000C
def wakEnLo : Nat := 0xA0_0010
def wakEnHi : Nat := 0xA0_0014
def wakCauseLo : Nat := 0xA0_0018
def wakCauseHi : Nat := 0xA0_001C
def wakMask : Nat := 0xA0_0020
def wakAssert : Nat := 0xA0_0028
def wakAbuse : Nat := 0xA0_002C
def slpTicks : Nat := 0xA0_0030
def blkStat : Nat := 0xA0_0038
def winCfg (n : Nat) : Nat := 0xA0_0040 + 4 * n
def tc10Cfg (n : Nat) : Nat := 0xA0_0080 + 4 * n
def tc10Reg : Nat := 0xA0_00C0
def tc10Codes : Nat := 0xA0_00C4
def cwCfg (n : Nat) : Nat := 0xA0_1000 + 0x20 * n
def cwId (n : Nat) : Nat := 0xA0_1004 + 0x20 * n
def cwIdm (n : Nat) : Nat := 0xA0_1008 + 0x20 * n
def cwDm (n h : Nat) : Nat := 0xA0_100C + 0x20 * n + 4 * h
def cwStat (n : Nat) : Nat := 0xA0_1014 + 0x20 * n
def cwMatch (n : Nat) : Nat := 0xA0_1018 + 0x20 * n
def temp (n : Nat) : Nat := 0xA0_4000 + 4 * n
def band : Nat := 0xA0_4020
def thermStat : Nat := 0xA0_4024
def bandChg : Nat := 0xA0_4028
def tempMax : Nat := 0xA0_402C
def errStatus : Nat := 0xB0_0000
def errWr : Nat := 0xB0_0004
def errSeq : Nat := 0xB0_0008
def errLost : Nat := 0xB0_000C
def errDiscard : Nat := 0xB0_0010
def errFault : Nat := 0xB0_0014
def retEth : Nat := 0xB0_0018
def retCanLo : Nat := 0xB0_001C
def retCanHi : Nat := 0xB0_0020
def retBus : Nat := 0xB0_0024
def retDp : Nat := 0xB0_0028
def retSeg : Nat := 0xB0_002C
def errCfg : Nat := 0xB0_0030
def eccCorr : Nat := 0xB0_0034
def errRdIdx : Nat := 0xB0_0040
def bootStatus : Nat := 0xC0_0000
def bootCause : Nat := 0xC0_0004
def bootPolicy : Nat := 0xC0_0008
def bootUnits : Nat := 0xC0_000C
def bootFailst : Nat := 0xC0_0018
def secStatus : Nat := 0xD0_0000
def secViol : Nat := 0xD0_0004
def secPmEvent : Nat := 0xD0_0008
end R

end Sys2Proof.Machine
end

