-- ==== Sys2Proof/Machine/Ops.lean ====
section
/-! DEFINITION. The named operations of the block that every family shares: free values, register storage, the two addressed
buffers, presented time, reports to the error log, events, drop counters. -/

namespace Sys2Proof.Machine

/-- The answer of a meaning. -/
abbrev Res := Host.Outcome State Fault Refusal

/-! ### Free values (log entry 1) -/

/-- A free natural number, and the state with the next index. -/
def drawNat (s : State) : Nat × State := (Config.freeNat s.free, { s with free := s.free + 1 })

/-- A free bit, and the state with the next index. -/
def drawBit (s : State) : Bool × State := (Config.freeBit s.free, { s with free := s.free + 1 })

/-- `n` free bytes, and the state past their indexes. -/
def drawBytes (n : Nat) (s : State) : List Byte × State :=
  ((List.range n).map (fun i => Config.freeByte (s.free + i)), { s with free := s.free + n })

/-! ### Register storage (R366) -/

/-- The key of a partition's copy of a register. -/
def copyKey (p : Part) (off : Nat) : Nat := p.val * 2 ^ 26 + off

/-- What the register file holds at a key. -/
def State.key (s : State) (k : Nat) : W32 := kvGet (regReset s.logger (k % 2 ^ 26)) s.reg.regs k

/-- A register that exists once. -/
def State.rg (s : State) (off : Nat) : W32 := s.key off

/-- A partition's copy of a register. -/
def State.rgp (s : State) (p : Part) (off : Nat) : W32 := s.key (copyKey p off)

/-- The register file with a value at a key. -/
def State.setKey (s : State) (k : Nat) (v : W32) : State :=
  { s with reg.regs := kvSet (regReset s.logger (k % 2 ^ 26)) s.reg.regs k v }

/-- A write of a register that exists once. -/
def State.setRg (s : State) (off : Nat) (v : W32) : State := s.setKey off v

/-- A write of a partition's copy. -/
def State.setRgp (s : State) (p : Part) (off : Nat) (v : W32) : State := s.setKey (copyKey p off) v

/-- A register that exists once, changed by a function of its value. -/
def State.modRg (s : State) (off : Nat) (f : W32 → W32) : State := s.setRg off (f (s.rg off))

/-- A partition's copy, changed by a function of its value. -/
def State.modRgp (s : State) (p : Part) (off : Nat) (f : W32 → W32) : State := s.setRgp p off (f (s.rgp p off))

/-- A field of a register that exists once, as a number. -/
def State.fd (s : State) (off hi lo : Nat) : Nat := fld (s.rg off) hi lo

/-- A bit of a register that exists once. -/
def State.bt (s : State) (off i : Nat) : Bool := bit (s.rg off) i

/-- A register with one bit set to `b`. -/
def State.setBt (s : State) (off i : Nat) (b : Bool) : State := s.modRg off (fun w => setBit w i b)

/-- A register with one field replaced. -/
def State.setFd (s : State) (off hi lo v : Nat) : State := s.modRg off (fun w => setFld w hi lo v)

/-- A 32-bit event counter that saturates (R345). -/
def State.count (s : State) (off : Nat) (k : Nat := 1) : State := s.modRg off (fun w => satInc w k)

/-- A 64-bit value held in a pair of registers (R367). -/
def State.wide (s : State) (off : Nat) : W64 := kvGet (wideReset off) s.reg.wide off

/-- A write of a 64-bit value held in a pair. -/
def State.setWide (s : State) (off : Nat) (v : W64) : State :=
  { s with reg.wide := kvSet (wideReset off) s.reg.wide off v }

/-- A 64-bit counter that counts `k`. -/
def State.countWide (s : State) (off : Nat) (k : Nat := 1) : State :=
  s.setWide off (s.wide off + BitVec.ofNat 64 k)

/-- The drop reason counter of a code counts one frame or copy (R101). -/
def State.countDrop (s : State) (code : Nat) : State := s.countWide (R.dropCnt code)

/-- A read latch (R367, R368). -/
def State.latchOf (s : State) (p : Part) (off : Nat) : W32 := kvGet 0 s.reg.latch (copyKey p off)

/-- A load of a read latch. -/
def State.setLatch (s : State) (p : Part) (off : Nat) (v : W32) : State :=
  { s with reg.latch := kvSet 0 s.reg.latch (copyKey p off) v }

/-! ### The addressed buffers: the PM buffer (R400) and the slot data buffers (R133) -/

/-- A buffer's canonical form. -/
def Memory.wf (m : List Host.Cell) : Bool := kvWf (0 : Byte) m

/-- One byte of a buffer; a byte that nothing has written reads as 0 (R400). -/
def Memory.read (m : List Host.Cell) (a : Nat) : Byte := kvGet 0 m a

/-- A buffer with one byte written. -/
def Memory.write (m : List Host.Cell) (a : Nat) (b : Byte) : List Host.Cell := kvSet 0 m a b

/-- `n` bytes of a buffer from an address. -/
def Memory.readBytes (m : List Host.Cell) (a n : Nat) : List Byte :=
  match n with
  | 0 => []
  | k + 1 => Memory.read m a :: Memory.readBytes m (a + 1) k

/-- A buffer with bytes written from an address. -/
def Memory.writeBytes (m : List Host.Cell) (a : Nat) (l : List Byte) : List Host.Cell :=
  match l with
  | [] => m
  | b :: r => Memory.writeBytes (Memory.write m a b) (a + 1) r

/-- The base and size of the PM buffer in the PM map (R400). -/
def pmBufBase : Nat := 0x1A_0000
def pmBufSize : Nat := 0x4_0000

/-- Whether `n` bytes from a PM-map address lie in the PM buffer, from a 4-byte boundary (R400). -/
def inPmBuf (a n : Nat) : Bool :=
  decide (a % 4 = 0 ∧ pmBufBase ≤ a ∧ a + n ≤ pmBufBase + pmBufSize)

/-! ### Presented time (R164, R174, R178) -/

/-- A time domain. -/
def State.dom (s : State) (x : Nat) : Domain := kvGet {} s.tsu.dom x

/-- A write of a time domain. -/
def State.setDom (s : State) (x : Nat) (d : Domain) : State := { s with tsu.dom := kvSet {} s.tsu.dom x d }

/-- The selected domain: 0 is A, 1 is B (TSU_STATUS.tsel). -/
def State.tsel (s : State) : Nat := s.fd R.tsuStatus 0 0

/-- A time base in 2^-32 ns. -/
def Domain.fine (d : Domain) : Int := d.ns.toNat * 2 ^ 32 + d.frac.toNat

/-- Presented time in 2^-32 ns: the selected time base plus Δ (R174). -/
def State.pFine (s : State) : Int := (s.dom s.tsel).fine + s.tsu.delta

/-- Presented time in whole ns (R177). -/
def State.pNs (s : State) : Nat := natOfInt 64 (s.pFine / 2 ^ 32)

/-- Presented time as a 64-bit count. -/
def State.extP (s : State) : W64 := BitVec.ofNat 64 s.pNs

/-- A 32-bit stamp extended against presented time (R178). -/
def State.extend (s : State) (stamp : W32) : W64 :=
  let d := (stamp.toNat + 2 ^ 32 - s.pNs % 2 ^ 32) % 2 ^ 32
  BitVec.ofNat 64 (natOfInt 64 ((s.pNs : Int) + signedOf 32 d))

/-! ### Outputs -/

/-- The block sends something to the outside. -/
def State.emit (s : State) (o : Out) : State := { s with out := s.out ++ [o] }

/-! ### Reports to the error log (R341, R342) -/

/-- The kinds of an entry's sev field (R341). -/
def kInfo : Nat := 0
def kTransient : Nat := 1
def kPermanent : Nat := 2
def kViolation : Nat := 3

/-- The sev byte: kind, marked for PM (kinds 2 and 3, R344), and whether the event's handling asserts FAULT_N. -/
def sevOf (kind : Nat) (fault : Bool) : Byte :=
  BitVec.ofNat 8 (kind + (if kind ≥ 2 then 4 else 0) + (if fault then 8 else 0))

/-- Two reports are identical when block, code, part, unit and detail are equal (R342). -/
def LogEntry.same (a b : LogEntry) : Bool :=
  a.block == b.block && a.code == b.code && a.part == b.part && a.unit == b.unit && a.detail == b.detail

/-- An entry that a further identical report merges into, while its repeat is below 0xFFFF (R342). -/
def LogEntry.merge (e : LogEntry) (last : W32) : LogEntry := { e with repeat_ := e.repeat_ + 1, last := last }

/-- Put a report into a block's FIFO of 16: merge it into the last one queued, queue it, or discard it (R342). The flag tells whether
it was discarded. -/
def State.fifoPut (s : State) (r : LogEntry) : Bool × State :=
  let b := r.block.toNat
  let q := kvGet [] s.err.fifos b
  let put := fun (l : List LogEntry) => (false, { s with err.fifos := kvSet [] s.err.fifos b l })
  let room := if q.length < 16 then put (q ++ [r])
    else (true, ({ (s.count R.errDiscard) with err.fifoGap := kvSet false s.err.fifoGap b true }).setBt R.errStatus 1 true)
  match q.getLast? with
  | some e => if e.same r && decide (e.repeat_ ≠ 0xFFFF) then put (q.dropLast ++ [e.merge r.last]) else room
  | none => room

/-- Put a report into a block's FIFO; ERR reports a discarded report of another block (R342, R344). -/
def State.queueReport (s : State) (r : LogEntry) : State :=
  match s.fifoPut r with
  | (false, t) => t
  | (true, t) =>
    if r.block = 0x0B then t
    else (t.fifoPut { time := s.extP, block := 0x0B, code := 0x0B01, last := r.last
                      detail := r.block.setWidth 64 }).2

/-- A block reports an event (R341, R344): the block is code [15:8]. -/
def State.report (s : State) (code kind : Nat) (part : Nat := 0xFF) (unit : Nat := 0xFF) (detail : Nat := 0)
    (fault : Bool := false) : State :=
  let p := s.extP
  s.queueReport
    { time := p, block := BitVec.ofNat 8 (code / 256), sev := sevOf kind fault, code := BitVec.ofNat 16 code,
      part := BitVec.ofNat 8 part, unit := BitVec.ofNat 8 unit, repeat_ := 1, last := p.setWidth 32,
      detail := BitVec.ofNat 64 detail }

/-! ### Event interrupt and faults (R6, R326) -/

/-- A partition's command path. -/
def State.path (s : State) (p : Part) : CmdPath := kvGet {} s.cmd.path p.val

/-- A write of a partition's command path. -/
def State.setPath (s : State) (p : Part) (c : CmdPath) : State := { s with cmd.path := kvSet {} s.cmd.path p.val c }

/-- SEC_STATUS.frozen of a partition. -/
def State.frozen (s : State) (p : Part) : Bool := bit (s.rgp p R.secStatus) 0

/-- Whether a host partition's PCIe link is up; PM has none. -/
def State.linked (s : State) (p : Part) : Bool := p == pm || kvGet true s.cmd.linkUp p.val

/-- Whether a partition's DMA waits: it is frozen (R294) or its link is down (R297). -/
def State.blocked (s : State) (p : Part) : Bool := s.frozen p || !s.linked p

/-- An MSI-X message of a partition; it waits while the partition's DMA waits (R294, R297). -/
def State.sendMsix (s : State) (p : Part) (vec : BitVec 6) : State :=
  if s.blocked p then
    let c := s.path p
    s.setPath p { c with msgs := c.msgs ++ [vec] }
  else s.emit (.msix p vec)

/-- A bit of a partition's GLB_EVT_STAT is set; its change from 0 to 1 with the enable set sends one message (R6). -/
def State.event (s : State) (p : Part) (b : Nat) : State :=
  let was := bit (s.rgp p R.evtStat) b
  let t := s.modRgp p R.evtStat (fun w => setBit w b true)
  if was || !bit (s.rgp p R.evtEn) b then t
  else if p == pm then { t with cmd.spiEvent := true }
  else t.sendMsix p (BitVec.ofNat 6 (fld (s.rgp p R.evtVec) 5 0))

/-- Every partition. -/
def allParts : List Part := [0, 1, 2, 3, 4]

/-- The host partitions. -/
def hostParts : List Part := [0, 1, 2, 3]

/-- A bit of GLB_EVT_STAT is set in every partition. -/
def State.eventAll (s : State) (b : Nat) : State := allParts.foldl (fun t p => t.event p b) s

/-- A bit of ERR_FAULT is set: FAULT_N is asserted and every partition gets the fault event (R6, R326). -/
def State.setFault (s : State) (b : Nat) : State :=
  let t := s.setBt R.errFault b true
  ({ t with pins.faultN := true }).eventAll 2

/-! ### Tables of the state -/

/-- An Ethernet port's egress side and that of any other port, by port code. -/
def State.egOf (s : State) (c : Nat) : EgPort := kvGet {} s.fwd.eg c

/-- A write of a port's egress side. -/
def State.setEg (s : State) (c : Nat) (e : EgPort) : State := { s with fwd.eg := kvSet {} s.fwd.eg c e }

/-- A stream record. -/
def State.stream (s : State) (i : Nat) : Stream := kvGet {} s.live.streams i

/-- A write of a stream record, with its second copy (R15). -/
def State.setStream (s : State) (i : Nat) (r : Stream) : State :=
  { s with live.streams := kvSet {} s.live.streams i r, live.streamCopy := kvSet {} s.live.streamCopy i r }

/-- A turntable. -/
def State.tt (s : State) (n : Nat) : Turntable := kvGet {} s.phw.tts n

/-- A write of a turntable. -/
def State.setTt (s : State) (n : Nat) (t : Turntable) : State := { s with phw.tts := kvSet {} s.phw.tts n t }

/-- A trigger output. -/
def State.trg (s : State) (m : Nat) : Trigger := kvGet {} s.phw.trgs m

/-- A write of a trigger output. -/
def State.setTrg (s : State) (m : Nat) (t : Trigger) : State := { s with phw.trgs := kvSet {} s.phw.trgs m t }

/-- A capture queue. -/
def State.capq (s : State) (q : Nat) : CapQ := kvGet {} s.cap.qs q

/-- A write of a capture queue. -/
def State.setCapq (s : State) (q : Nat) (c : CapQ) : State := { s with cap.qs := kvSet {} s.cap.qs q c }

/-- An Ethernet lane. -/
def State.lane (s : State) (n : Nat) : Lane := kvGet {} s.lnk.lanes n

/-- A write of an Ethernet lane. -/
def State.setLane (s : State) (n : Nat) (l : Lane) : State := { s with lnk.lanes := kvSet {} s.lnk.lanes n l }

/-- A LIN port's schedule. -/
def State.lin (s : State) (n : Nat) : LinPort := kvGet {} s.lnk.lin n

/-- A write of a LIN port's schedule. -/
def State.setLin (s : State) (n : Nat) (l : LinPort) : State := { s with lnk.lin := kvSet {} s.lnk.lin n l }

/-- A partition's mould, `none` when closed. -/
def State.mould (s : State) (p : Part) : Option Mould := kvGet none s.cmd.moulds p.val

/-- A write of a partition's mould. -/
def State.setMould (s : State) (p : Part) (m : Option Mould) : State :=
  { s with cmd.moulds := kvSet none s.cmd.moulds p.val m }

/-- The epoch in force. -/
def State.epoch (s : State) : W64 := s.wide R.epoch

/-- A bridge slot of a partition. -/
def State.slot (s : State) (p : Part) (k : Nat) : Slot := kvGet {} s.cmd.slots (p.val * 8 + k)

/-- A write of a bridge slot. -/
def State.setSlot (s : State) (p : Part) (k : Nat) (v : Slot) : State :=
  { s with cmd.slots := kvSet {} s.cmd.slots (p.val * 8 + k) v }

/-! ### Stopped clocks -/

/-- PWR_STATE.state is STANDBY or DEEP (R300). -/
def State.asleep (s : State) : Bool := s.fd R.pwrState 2 0 == 2 || s.fd R.pwrState 2 0 == 3

/-- No host can reach the block: DEEP, thermal shutdown (R300, R156), a halted start (R359), reset held by PORST_N (R347). -/
def State.unreachable (s : State) : Bool := s.fd R.pwrState 2 0 == 3 || s.pins.shutdown || s.pins.halted || s.pins.hiZ

/-- WAKING before a step of R316. -/
def State.wakingBefore (s : State) (step : Nat) : Bool := s.fd R.pwrState 2 0 == 4 && decide (s.slp.stage < step)

/-- The clocks of the datapath, the signal box and the time bases do not run. -/
def State.stopped (s : State) : Bool := s.asleep || s.unreachable || s.wakingBefore 3

/-- What happens on a clock that a sleep, a shutdown, a halt or a reset stops: nothing while it is stopped. -/
def clocked (f : State → State) (s : State) : State := if s.stopped then s else f s

/-! ### Fault windows (R329) -/

/-- The key of a unit's fault window (R329). -/
def retryKey : RetryUnit → Nat
  | .lane n => n
  | .busPort c => 0x100 + c.toNat
  | .bank n => 0x200 + n
  | .slice n => 0x300 + n
  | .channel c => 0x400 + c
  | .entropy => 0x500

/-- The faults counted in a unit's current window. -/
def State.faults (s : State) (u : RetryUnit) : Nat := kvGet 0 s.err.windows (retryKey u)

/-- One more fault of a unit in its window. -/
def State.countFault (s : State) (u : RetryUnit) : State :=
  { s with err.windows := kvSet 0 s.err.windows (retryKey u) (s.faults u + 1) }

end Sys2Proof.Machine
end

