-- ==== Sys2Proof/Machine/Arbiter.lean ====
section
/-! DEFINITION. The credit arbiter of R36 to R41 and R135 to R138, one design for every shared resource. -/

namespace Sys2Proof.Machine

/-- The key of an arbiter instance in the state. -/
def arbKey : ArbId → Nat
  | .eth n => n
  | .other c => 0x100 + c.toNat
  | .tunnel => 0x200
  | .crypto => 0x201
  | .capmem c => 0x210 + c
  | .dispatcher => 0x220

/-- The register group of an instance (R135). -/
def arbBase : ArbId → Nat
  | .eth n => R.arbEth n
  | .other _ => R.arbOther
  | .tunnel => R.arbTunnel
  | .crypto => R.arbCrypto
  | .capmem _ => R.arbCap
  | .dispatcher => R.arbDisp

/-- How many requesters an instance has (R135). -/
def arbCount : ArbId → Nat
  | .eth _ => 8
  | .other _ => 8
  | .tunnel => 112
  | .crypto => 35
  | .capmem _ => 128
  | .dispatcher => 5

/-- An arbiter instance. -/
def State.arb (s : State) (a : ArbId) : Arb := kvGet {} s.fwd.arbs (arbKey a)

/-- A write of an arbiter instance. -/
def State.setArb (s : State) (a : ArbId) (v : Arb) : State := { s with fwd.arbs := kvSet {} s.fwd.arbs (arbKey a) v }

/-- The weight of requester `i`, and N. -/
def State.arbWeight (s : State) (a : ArbId) (i : Nat) : Nat := s.fd (arbBase a + 0x40 + 4 * i) 15 0
def State.arbN (s : State) (a : ArbId) : Nat := s.fd (arbBase a) 22 16

/-- Every counter at a window start: min(counter + weight, 0xFFFF) (R137). -/
def refill (weights : List (Nat × Nat)) (credit : List (Nat × Nat)) : List (Nat × Nat) :=
  weights.foldl (fun c w => kvSet 0 c w.1 (min (kvGet 0 c w.1 + w.2) 0xFFFF)) credit

/-- The start of an instance's window (R36, R137). -/
def arbiterWindowStart (a : ArbId) (s : State) : State :=
  let b := s.arb a
  let ws := (List.range (arbCount a)).map (fun i => (i, s.arbWeight a i))
  s.setArb a { b with credit := refill ws b.credit, fills := 0 }

def execArbiterWindowStart (a : ArbId) (s : State) : Res := .next (clocked (arbiterWindowStart a) s)

/-- The ready requester with the fullest counter, the lowest index among equals (rules 3 and 5). -/
def fullest (credit : List (Nat × Nat)) : List Nat → Option Nat
  | [] => none
  | i :: r =>
    match fullest credit r with
    | none => some i
    | some j => if kvGet 0 credit i < kvGet 0 credit j then some j else some i

/-- The ready requester whose last grant is the oldest, the lowest index among equals (rules 4 and 5). -/
def longest (last : List (Nat × Nat)) : List Nat → Option Nat
  | [] => none
  | i :: r =>
    match longest last r with
    | none => some i
    | some j => if kvGet 0 last j < kvGet 0 last i then some j else some i

/-- Whether the next grant is made under rule 4. -/
def Arb.rule4 (b : Arb) (n : Nat) : Bool := decide (n - 1 ≤ b.c)

/-- The requester that wins among the ready ones, listed by rising index. -/
def Arb.pick (b : Arb) (n : Nat) (ready : List Nat) : Option Nat :=
  if b.rule4 n then longest b.last ready else fullest b.credit ready

/-- The instance after a grant of a cost to a requester (R36, R137). -/
def Arb.grant (b : Arb) (n i cost : Nat) : Arb :=
  { b with
    credit := kvSet 0 b.credit i (kvGet 0 b.credit i - cost)
    last := kvSet 0 b.last i (b.grants + 1)
    grants := b.grants + 1
    c := if b.rule4 n then 0 else b.c + 1 }

/-- The winner of an instance among ready requesters. -/
def State.pick (s : State) (a : ArbId) (ready : List Nat) : Option Nat := (s.arb a).pick (s.arbN a) ready

/-- An instance makes a grant. -/
def State.granted (s : State) (a : ArbId) (i cost : Nat) : State := s.setArb a ((s.arb a).grant (s.arbN a) i cost)

end Sys2Proof.Machine
end

