-- ==== Sys2Proof/Machine/Rights.lean ====
section
/-! DEFINITION. Grants (R289), who holds what, DMA windows (R275), violations and freezing (R293, R294). -/

namespace Sys2Proof.Machine

/-! ### Fields of a grant record (R289) -/

/-- A grant record of R289. -/
abbrev Grant := BitVec 1728

/-- A kind of resource that grants hold one by one. -/
inductive Kind where
  | port
  | tcam
  | dset
  | pprof
  | tprof
  | eprof
  | key
  | tt
  | trg
  | capq
  | chk0
  deriving DecidableEq, Repr

/-- Every kind of resource. -/
def allKinds : List Kind := [.port, .tcam, .dset, .pprof, .tprof, .eprof, .key, .tt, .trg, .capq, .chk0]

/-- Whether `i` lies in the range of `cnt` from `base`. -/
def inRange (base cnt i : Nat) : Bool := decide (base ≤ i ∧ i < base + cnt)

/-- Whether a grant record holds resource `i` of a kind (R289). -/
def Grant.holds (g : Grant) (k : Kind) (i : Nat) : Bool :=
  match k with
  | .port => bit g (8 * 56 + i) && decide (i < 128)
  | .tcam => inRange (imgLe g 8 2) (imgLe g 10 2) i
  | .dset => inRange (imgLe g 12 2) (imgLe g 14 2) i
  | .pprof => inRange (imgLe g 16 2) (imgLe g 18 2) i
  | .tprof => inRange (imgLe g 20 2) (imgLe g 22 2) i
  | .eprof => inRange (imgLe g 24 1) (imgLe g 25 1) i
  | .key => inRange (imgLe g 32 2) (imgLe g 34 2) i
  | .tt => bit g (8 * 36 + i) && decide (i < 16)
  | .trg => bit g (8 * 40 + i) && decide (i < 32)
  | .capq => bit g (8 * 48 + i) && decide (i < 64)
  | .chk0 => bit g 9

/-- How many resources of a kind the device has (R2, R289). -/
def Kind.size : Kind → Nat
  | .port => 112
  | .tcam => 256
  | .dset => 4096
  | .pprof => 256
  | .tprof => 1024
  | .eprof => 256
  | .key => 2048
  | .tt => 16
  | .trg => 32
  | .capq => 64
  | .chk0 => 1

/-- The purge flag of a grant record. -/
def Grant.purge (g : Grant) : Bool := bit g 8

/-- The partition that a grant record names (its byte 0). -/
def Grant.part (g : Grant) : Nat := fld g 1 0

/-- The route, pin and node quotas (R289). -/
def Grant.routeQuota (g : Grant) : Nat := imgLe g 4 4
def Grant.pinQuota (g : Grant) : Nat := imgLe g 26 2
def Grant.nodeQuota (g : Grant) : Nat := imgLe g 28 4

/-- Base and size of DMA window `j` (R289). -/
def Grant.winBase (g : Grant) (j : Nat) : Nat := imgLe g (88 + 16 * j) 8
def Grant.winSize (g : Grant) (j : Nat) : Nat := imgLe g (96 + 16 * j) 8

/-- Whether a destination set of the partition may name port `c` without holding it (tx_map). -/
def Grant.tx (g : Grant) (c : Nat) : Bool := bit g (8 * 72 + c)

/-- Whether two grants overlap in a kind of resource (R290). -/
def Grant.overlap (a b : Grant) (k : Kind) : Bool :=
  (List.range k.size).any (fun i => a.holds k i && b.holds k i)

/-! ### Who holds what -/

/-- The grant record in force of a host partition. -/
def State.grant (s : State) (p : Part) : Grant := kvGet 0 s.tab.grants p.val

/-- Whether a partition may act on a resource. PM holds every resource, and its commands never violate (R291). -/
def State.holds (s : State) (p : Part) (k : Kind) (i : Nat) : Bool :=
  p == pm || (s.grant p).holds k i

/-- The partition that a resource is granted to, PM when none (10_commands.md, *Rights*). -/
def State.holder (s : State) (k : Kind) (i : Nat) : Part :=
  ((hostParts.find? (fun p => (s.grant p).holds k i))).getD pm

/-- Whether a destination set of a partition may name a port (R291). -/
def State.mayName (s : State) (p : Part) (c : Nat) : Bool := s.holds p .port c || (s.grant p).tx c

/-- A partition's route, pin and node quotas; PM's are the tables' sizes. -/
def State.routeQuota (s : State) (p : Part) : Nat := if p = pm then 1048576 else (s.grant p).routeQuota
def State.pinQuota (s : State) (p : Part) : Nat := if p = pm then 4096 else (s.grant p).pinQuota
def State.nodeQuota (s : State) (p : Part) : Nat := if p = pm then 262144 else (s.grant p).nodeQuota

/-- Whether `n` bytes from a host address lie wholly inside one of the partition's DMA windows (R275). -/
def Grant.covers (g : Grant) (a n : Nat) : Bool :=
  (List.range 8).any (fun j =>
    decide (g.winSize j ≠ 0 ∧ g.winBase j ≤ a ∧ a + n ≤ g.winBase j + g.winSize j))

/-- Whether a partition may use a buffer: PM's buffers lie in the PM buffer (R400), a host's in one of its windows (R275). -/
def State.bufOk (s : State) (p : Part) (a n : Nat) : Bool :=
  if p = pm then inPmBuf a n else (s.grant p).covers a n

/-! ### Violations (R293, R294) -/

/-- A command that a freeze finds fetched and not started gets a FROZEN reply, held on chip (R294 step 3). -/
def frozenReply (f : Fetched) : Reply :=
  { tag := f.desc.tag.setWidth 12, status := 0x21, result := 0, irq := bit f.desc.flags 2 }

/-- Steps 2 to 5 of R294: the registers, the FROZEN replies, the discarded mould, the log entry and PM's notices. -/
def State.freeze (s : State) (p : Part) (cause what : Nat) : State :=
  let s1 := s.modRgp p R.secStatus (fun w =>
    setFld (setFld (setBit w 0 true) 3 1 cause) 31 16 (min 0xFFFF (fld w 31 16 + 1)))
  let s2 := s1.setRgp p R.secViol (BitVec.ofNat 32 what)
  let c := s2.path p
  let s3 := s2.setPath p { c with
    fetched := c.fetched.filter (·.started)
    done := c.done ++ (c.fetched.filter (fun f => !f.started)).map frozenReply
    waitTag := none }
  let s4 := match s3.mould p with
    | some m => if m.sealed then s3 else s3.setMould p none
    | none => s3
  let s5 := s4.setBt R.secPmEvent p.val true
  ({ s5 with cmd.spiEvent := true }).report 0x0D01 kViolation p.val 0xFF (what % 2 ^ 32 + cause * 2 ^ 32)

/-- A violation of rights (R293): PM's is discarded and logged, a frozen partition's is logged only, any other freezes the
partition (R294). -/
def State.violate (s : State) (p : Part) (cause what : Nat) : State :=
  if p = pm then s.report 0x0D04 kInfo 4 0xFF (what % 2 ^ 32)
  else if s.frozen p then s.report 0x0D03 kViolation p.val 0xFF (what % 2 ^ 32)
  else s.freeze p cause what

end Sys2Proof.Machine
end

