-- ==== Sys2Proof/Machine/Path.lean ====
section
/-! DEFINITION. Completing a command (R276 to R278), and staging in a mould (R280 to R283). -/

namespace Sys2Proof.Machine

/-! ### Status codes (R278) -/

namespace St
def ok : Byte := 0x00
def okAlready : Byte := 0x01
def okWaking : Byte := 0x02
def badOpcode : Byte := 0x10
def badParam : Byte := 0x11
def badSize : Byte := 0x12
def badDate : Byte := 0x13
def noRight : Byte := 0x20
def frozen : Byte := 0x21
def tableFull : Byte := 0x30
def notFound : Byte := 0x31
def conflict : Byte := 0x32
def resourceGone : Byte := 0x41
def invalidScalar : Byte := 0x50
def invalidPoint : Byte := 0x51
def lengthLimit : Byte := 0x52
def timeout : Byte := 0x60
def farError : Byte := 0x61
def epochAborted : Byte := 0x70
end St

end Sys2Proof.Machine

namespace Sys2Proof

open Sys2Proof.Machine

/-! ### Descriptor fields (R273) -/

def CmdDesc.indirect (d : CmdDesc) : Bool := bit d.flags 3
def CmdDesc.irq (d : CmdDesc) : Bool := bit d.flags 2
def CmdDesc.mouldFlag (d : CmdDesc) : Bool := bit d.flags 1
def CmdDesc.fence (d : CmdDesc) : Bool := bit d.flags 0
def CmdDesc.ctag (d : CmdDesc) : BitVec 12 := d.tag.setWidth 12
def CmdDesc.len (d : CmdDesc) : Nat := d.plen.toNat

/-- Parameter byte `i`. -/
def CmdDesc.b (d : CmdDesc) (i : Nat) : Nat := (byteAt d.params i).toNat

/-- The little-endian number in `n` parameter bytes from offset `o` (R8). -/
def CmdDesc.le (d : CmdDesc) (o n : Nat) : Nat := leAt d.params o n

/-- The parameter bytes as one number, byte 0 least significant. -/
def CmdDesc.image (n : Nat) (d : CmdDesc) (o : Nat) : BitVec n := imgOf n (slice d.params o (n / 8))

/-- Whether the buffers that a command of PM names lie in the PM buffer (R400). -/
def CmdDesc.pmBuffersOk (d : CmdDesc) : Bool :=
  !d.indirect || ((d.len == 0 || inPmBuf d.inPtr.toNat d.len) && (d.outPtr == 0 || inPmBuf d.outPtr.toNat d.outLen.toNat))

end Sys2Proof

namespace Sys2Proof.Machine

/-- The number of tags of a partition (R267). -/
def tagCount (p : Part) : Nat := if p = pm then 64 else 1024

/-! ### Completion -/

/-- What a command's body answers: the state with its effect, the status, the result, the output, the epoch that a POUR
created, and the violation that its target was (R291). -/
structure Ans where
  s      : State
  status : Byte := St.ok
  result : Nat := 0
  out    : List Byte := []
  viol   : Bool := false
  deriving DecidableEq, Repr

/-- The fetched entry of a command, if the partition's path holds one. -/
def State.fetchedOf (s : State) (p : Part) (tag : BitVec 12) : Option Fetched :=
  (s.path p).fetched.find? (fun f => f.desc.tag.setWidth 12 == tag)

/-- The end of a POUR's seal (R283, R285): 1 closes the mould, 2 unseals it. -/
def State.endSeal (s : State) (p : Part) (k : Nat) : State :=
  match k, s.mould p with
  | 1, _ => s.setMould p none
  | 2, some m => s.setMould p (some { m with sealed := false })
  | _, _ => s

/-- Whether the dispatcher's step in progress is one of a command (R398). -/
def BoxStep.isOf (b : BoxStep) (p : Part) (tag : BitVec 12) : Bool := b.part == p && b.tag == tag

/-- The dispatcher's step in progress ends, if it is one of a command. -/
def State.endStep (s : State) (p : Part) (tag : BitVec 12) : State :=
  { s with cmd.box := s.cmd.box.filter (fun b => !b.isOf p tag) }

/-- The entry of a shadow table that the dispatcher's step wrote is in the table: a pour's step ends before the next event of the
dispatcher or of the pour (log entry 21). -/
def State.endPourStep (s : State) : State :=
  match s.cmd.box with
  | some b =>
    if b.pour then
      { s with
        cmd.box := none
        cmd.pours := s.cmd.pours.map (fun x => if b.isOf x.part x.tag then { x with built := x.built + 1 } else x) }
    else s
  | none => s

/-- The dispatcher's step in progress holds the signal box no longer. -/
def State.endLock (s : State) : State := { s.endPourStep with cmd.box := none }

/-- A command completes: its step of the signal box ends, its fetched entry goes, and its reply waits for its release (R276, R277,
R398). A function-level reset that came while it ran discards the reply and frees the tag (R296). -/
def State.complete (s0 : State) (p : Part) (r : Reply) : State :=
  let s := s0.endStep p r.tag
  let c := s.path p
  let rest := c.fetched.filter (fun f => f.desc.tag.setWidth 12 != r.tag)
  if c.dropTags.contains r.tag then
    (s.setPath p { c with fetched := rest, dropTags := c.dropTags.erase r.tag, busy := c.busy.erase r.tag }).endSeal p r.mould
  else s.setPath p { c with fetched := rest, done := c.done ++ [r] }

/-- The reply of a command with a status and a result; 0x10 and above report a command that changed nothing (R278). -/
def replyOf (d : CmdDesc) (status : Byte) (result : Nat) (out : List Byte) : Reply :=
  { tag := d.ctag, status := status, result := BitVec.ofNat 64 result, irq := d.irq,
    outAt := d.outPtr, out := out }

/-- A command completes with its body's answer. -/
def finish (p : Part) (d : CmdDesc) (a : Ans) : State :=
  let t := a.s.complete p (replyOf d a.status a.result a.out)
  if a.viol then t.violate p 2 (d.opcode.toNat + d.ctag.toNat * 2 ^ 16) else t

/-- An answer that changes nothing. -/
def fail (s : State) (status : Byte) : Ans := { s := s, status := status }

/-! ### The form check (R395) -/

/-- The kinds of command (10_commands.md, *Opcodes*). -/
inductive CKind where
  | staging
  | read
  | immediate
  deriving DecidableEq, Repr

/-- What the opcode table says of a command: kind, issuer PM only, legal parameter sizes, whether reserved parameter fields are
0, and whether it writes output. -/
structure Form where
  kind   : CKind
  pmOnly : Bool := false
  size   : Nat → Bool
  clean  : Bool := true
  output : Bool := false

/-- The form check of a descriptor and its parameters (R273, R275, R278, R395, R400), before anything else. -/
def Form.check (f : Form) (p : Part) (d : CmdDesc) : Option Byte :=
  if fld d.flags 7 4 ≠ 0 then some St.badOpcode
  else if fld d.tag 15 12 ≠ 0 ∨ tagCount p ≤ d.ctag.toNat then some St.badParam
  else if d.indirect ∧ d.rsv ≠ 0 then some St.badParam
  else if ¬ d.indirect ∧ 24 < d.len then some St.badSize
  else if (f.kind = .staging ∧ ¬ d.mouldFlag) ∨ (f.kind = .immediate ∧ d.mouldFlag) then some St.badParam
  else if ¬ f.size d.len then some St.badSize
  else if ¬ f.clean then some St.badParam
  else if f.pmOnly ∧ p ≠ pm then some St.noRight
  else if f.output ∧ (¬ d.indirect ∨ d.outPtr = 0) then some St.badSize
  else if p = pm ∧ ¬ d.pmBuffersOk then some St.badParam
  else none

/-- Output of a command: an out_len that is smaller completes with BAD_SIZE (R275). -/
def withOutput (d : CmdDesc) (s : State) (t : State) (result : Nat) (out : List Byte) : Ans :=
  if d.outLen.toNat < out.length then fail s St.badSize
  else { s := t, result := result, out := out }

/-- What the signal box does: nothing with both pairs lost (R334) or its clock stopped. -/
def onSignalBox (f : State → State) (s : State) : State := if s.err.sbDead || s.stopped then s else f s

/-- Whether a command may run now: a command that the partition's path holds runs once it has started (R276), and no other command
bears its tag meanwhile; a command that was never fetched runs as it comes (log entry 7). -/
def State.mayRun (s : State) (p : Part) (d : CmdDesc) : Bool :=
  match s.fetchedOf p d.ctag with
  | some f => f.started && f.desc == d
  | none => true

/-- A command that may run is checked for its form; one that passes goes on. -/
def onForm (f : Form) (p : Part) (d : CmdDesc) (go : State → State) : State → State :=
  onSignalBox (fun s =>
    if s.mayRun p d then
      match f.check p d with
      | some st => finish p d (fail s st)
      | none => go s
    else s)

/-- A command runs: form check, then its body, then its completion. -/
def runCommand (f : Form) (p : Part) (d : CmdDesc) (body : State → Ans) : State → State := onForm f p d (fun s => finish p d (body s))

/-! ### Targets (R291) -/

/-- The target check of R291: `none` when the issuer holds the target; else NO_RIGHT, and a violation unless a pour revoked the
target after the command's fetch. -/
def targetCheck (s : State) (p : Part) (d : CmdDesc) (k : Kind) (i : Nat) : Option Ans :=
  if s.holds p k i then none
  else
    let olds := ((s.fetchedOf p d.ctag).map Fetched.olds).getD []
    some { s := s, status := St.noRight, viol := !(olds.any (fun g => Grant.holds g k i)) }

/-- A body that runs only when the issuer holds the target. -/
def onTarget (p : Part) (d : CmdDesc) (k : Kind) (i : Nat) (body : State → Ans) (s : State) : Ans :=
  match targetCheck s p d k i with
  | some a => a
  | none => body s

/-! ### Moulds (R280 to R283) -/

/-- The most items that a mould holds (R280). -/
def maxItems : Nat := 65536

/-- What an item configures: two items with the same slot are one staging of the same entry or register (R280, R281). -/
def Item.slot : Item → Nat × Nat
  | .reg k _ => (0, k)
  | .route e => (1, e.toNat % 2 ^ 128)
  | .routeDel k _ => (1, k.toNat)
  | .tcam i _ => (2, i)
  | .dset i _ => (3, i)
  | .vlan v _ => (4, v)
  | .pprof i _ => (5, i)
  | .tprof i _ => (6, i)
  | .eprof i _ => (7, i)
  | .pin k _ => (8, k.toNat)
  | .unpin k _ => (8, k.toNat)
  | .gate n _ => (9, n)
  | .key k _ _ => (10, k)
  | .keyErase k => (10, k)
  | .node _ e => (11, e.toNat % 2 ^ 64)
  | .nodeErase k _ => (11, k.toNat)
  | .grant p _ => (12, p)
  | .window k _ => (13, k)

/-- The items with one more staging: a later staging of the same slot replaces the content and keeps the index (R280, R281). -/
def addItem (l : List Staged) (x : Staged) : List Staged :=
  match l with
  | [] => [x]
  | y :: r => if y.item.slot = x.item.slot then x :: r else y :: addItem r x

/-- Whether a mould's items already hold a staging of an item's slot. -/
def hasSlot (l : List Staged) (x : Item) : Bool := l.any (fun y => y.item.slot == x.slot)

/-- Whether a mould has no room for a further item; the limit does not apply to the route image of boot step 10 (R362). -/
def State.mouldFull (s : State) (m : Mould) : Bool := s.bt R.bootStatus 4 && decide (maxItems ≤ m.items.length)

/-- What the staging of an item answers (R278, R280, R283): CONFLICT while sealed, BAD_PARAM without an open mould, TABLE_FULL
when a new item finds the mould full; otherwise the item is in the mould. -/
def stageItem (s : State) (p : Part) (tag : BitVec 12) (x : Item) : Ans :=
  match s.mould p with
  | none => fail s St.badParam
  | some m =>
    if m.sealed then fail s St.conflict
    else if ¬ hasSlot m.items x ∧ s.mouldFull m then fail s St.tableFull
    else { s := s.setMould p (some { m with items := addItem m.items { item := x, tag := tag, by_ := p } }) }

/-- Whether the mould's item of a slot is an addition, or a deletion that replaced one (R281). -/
def stagedAdd (s : State) (p : Part) (k : Nat × Nat) : Bool :=
  match (((s.mould p).map Mould.items).getD []).find? (fun y => y.item.slot == k) with
  | some y =>
    match y.item with
    | .routeDel _ a => a
    | .unpin _ a => a
    | .nodeErase _ a => a
    | _ => true
  | none => false

/-- The items that a read command with flags.mould = 1 sees (10_commands.md, *Opcodes*; R283). -/
def stagedView (s : State) (p : Part) (d : CmdDesc) : List Item :=
  if d.mouldFlag then ((s.mould p).map (fun m : Mould => m.items.map (·.item))).getD [] else []

/-- The staged item of a slot in a view. -/
def findSlot (l : List Item) (k : Nat × Nat) : Option Item := l.find? (fun x => x.slot == k)

end Sys2Proof.Machine
end

