-- ==== Sys2Proof/Machine/Operands.lean ====
section
/-! DEFINITION. Operand forms: the port codes of R18, and the reserved fields of the table images that commands carry (R395). -/

namespace Sys2Proof.Machine

/-! ### Port codes (R18) -/

def isE (c : Nat) : Bool := decide (c < 0x10)
def isS (c : Nat) : Bool := decide (0x10 ≤ c ∧ c < 0x18)
def isES (c : Nat) : Bool := decide (c < 0x18)
def isC (c : Nat) : Bool := decide (0x20 ≤ c ∧ c < 0x50)
def isL (c : Nat) : Bool := decide (0x50 ≤ c ∧ c < 0x68)
def isF (c : Nat) : Bool := decide (0x68 ≤ c ∧ c < 0x6C)
def isN (c : Nat) : Bool := decide (0x6C ≤ c ∧ c < 0x70)

/-- The medium family of a port code (R82): 0 Ethernet, 1 CAN, 2 LIN, 3 FlexRay, 4 sentences, 5 none. -/
def family (c : Nat) : Nat :=
  if isES c then 0 else if isC c then 1 else if isL c then 2 else if isF c then 3 else if isN c then 4 else 5

/-- The port codes of the media. -/
def mediaPorts : List Nat := (List.range 0x70).filter mediaCode

/-- The port bits of a bitmap that stand for codes that R18 does not list (R82, R289). -/
def unlistedBits : Nat := (2 ^ 128 - 1) - ((List.range 0x70).filter mediaCode).foldl (fun a c => a + 2 ^ c) 0

/-- Whether a port is retired: its bit in ERR_RET_ETH, ERR_RET_CAN_LO, ERR_RET_CAN_HI or ERR_RET_BUS (12_faults.md). -/
def State.retired (s : State) (c : Nat) : Bool :=
  if isES c then s.bt R.retEth c
  else if isC c then (if c < 0x40 then s.bt R.retCanLo (c - 0x20) else s.bt R.retCanHi (c - 0x40))
  else if isL c then s.bt R.retBus (c - 0x50)
  else if isF c then s.bt R.retBus (24 + (c - 0x68) / 2)
  else if isN c then s.bt R.retBus (26 + (c - 0x6C))
  else false

/-- Stages an item that configures a port: RESOURCE_GONE when the port is retired (R338). -/
def stagePort (c : Nat) (p : Part) (tag : BitVec 12) (x : Item) (s : State) : Ans :=
  if s.retired c then fail s St.resourceGone else stageItem s p tag x

/-- A body that runs on an index below the size of its table (R278, R291). -/
def onIndex (p : Part) (d : CmdDesc) (k : Kind) (i : Nat) (body : State → Ans) (s : State) : Ans :=
  if k.size ≤ i then fail s St.badParam else onTarget p d k i body s

/-- The form of a read command of `n` parameter bytes. -/
def readForm (n : Nat) (output : Bool) : Form := { kind := .read, size := fun l => l == n, output := output }

/-! ### Keys (R76, R395) -/

/-- The form check of an exact key: byte 0 names a type 0x0 to 0x6, and byte 1 of a port-keyed type names a port of the type's
medium. -/
def exactKeyOk (k : BitVec 128) : Bool :=
  let b1 := (imgByte k 1).toNat
  match (imgByte k 0).toNat with
  | 0 => true
  | 1 => isES b1
  | 2 => true
  | 3 => isC b1
  | 4 => isL b1
  | 5 => isF b1
  | 6 => isN b1
  | _ => false

/-- The form check of a TCAM key: byte 0 names a type 0x3 to 0x7. -/
def tcamKeyOk (k : BitVec 128) : Bool := decide (3 ≤ (imgByte k 0).toNat ∧ (imgByte k 0).toNat ≤ 7)

/-- Whether byte 1 of an exact key is the owner partition (ETH_DA, ACF) and not a port. -/
def ownerKeyed (k : BitVec 128) : Bool := imgByte k 0 == 0 || imgByte k 0 == 2

/-- The key that a command names: the QX sets byte 1 of an owner-keyed type to the issuer (R279). -/
def issuedKey (p : Part) (k : BitVec 128) : BitVec 128 := if ownerKeyed k then setImg k 1 1 p.val else k

/-! ### Reserved fields of table images (R395) -/

/-- Bytes 16 to 31 of a route entry have their reserved bits 0 (R81). -/
def routeResultClean (l : List Byte) : Bool :=
  decide (leAt l 16 2 / 2 ^ 8 = 0 ∧ leAt l 18 2 / 2 ^ 12 = 0 ∧ leAt l 20 1 / 2 ^ 6 = 0 ∧ leAt l 23 1 / 4 = 0 ∧
    leAt l 24 2 / 2 ^ 10 = 0 ∧ leAt l 28 1 / 8 = 0 ∧ leAt l 29 3 = 0)

/-- A policy profile has its reserved bits 0 (R86). -/
def pprofClean (l : List Byte) : Bool := decide (leAt l 2 1 / 2 ^ 5 = 0 ∧ leAt l 28 4 = 0)

/-- A tunnel profile has its reserved bits 0 (R104). -/
def tprofClean (l : List Byte) : Bool :=
  decide (leAt l 14 1 / 2 ^ 4 = 0 ∧ leAt l 15 1 / 2 ^ 5 = 0 ∧ leAt l 27 1 / 8 = 0)

/-- An end-to-end profile has its reserved bits 0 (R118). -/
def eprofClean (l : List Byte) : Bool :=
  decide (leAt l 0 1 / 2 ^ 4 = 0 ∧ leAt l 8 1 / 2 = 0 ∧ leAt l 9 7 = 0)

/-- A timetable header has its reserved bits 0 (R145). -/
def gateHeaderClean (l : List Byte) : Bool := decide (leAt l 0 1 / 2 ^ 7 = 0 ∧ leAt l 16 16 = 0)

/-- A timetable entry has its reserved bits 0 (R145). -/
def gateEntryClean (e : BitVec 64) : Bool := decide (fld e 15 10 = 0 ∧ fld e 31 16 = 0)

/-- A key slot image has its reserved bits 0 (R220). Fields that a standard fixes stand most significant byte first. -/
def slotClean (l : List Byte) : Bool :=
  decide (leAt l 1 1 / 8 = 0 ∧ leAt l 2 1 / 8 = 0 ∧ leAt l 3 1 / 2 ^ 7 = 0 ∧ leAt l 5 1 / 4 = 0 ∧ leAt l 6 2 / 2 ^ 11 % 2 ^ 4 = 0 ∧
    leAt l 52 12 = 0 ∧ leAt l 112 16 = 0)

/-- A node entry has its reserved bits 0 (R234). -/
def nodeClean (l : List Byte) : Bool :=
  decide (leAt l 14 2 / 2 ^ 12 = 0 ∧ leAt l 16 1 / 2 ^ 4 = 0 ∧ leAt l 22 1 / 2 = 0 ∧ leAt l 23 1 / 2 ^ 4 = 0)

/-- A window entry has its reserved bits 0 (R130). -/
def windowClean (l : List Byte) : Bool :=
  decide (leAt l 1 1 / 8 = 0 ∧ leAt l 2 1 / 2 ^ 4 = 0 ∧ leAt l 3 1 = 0 ∧ leAt l 14 2 = 0)

/-- A grant record has its reserved bits 0, port bits of unlisted codes among them (R289, R395). -/
def grantClean (l : List Byte) : Bool :=
  decide (leAt l 0 1 / 4 = 0 ∧ leAt l 1 1 / 4 = 0 ∧ leAt l 2 2 = 0 ∧ leAt l 38 2 = 0 ∧ leAt l 44 4 = 0 ∧
    Nat.land (leAt l 56 16) unlistedBits = 0 ∧ Nat.land (leAt l 72 16) unlistedBits = 0)

end Sys2Proof.Machine
end

