-- ==== Sys2Proof/Machine/Buffer.lean ====
section
/-! DEFINITION. The packet buffer: frames, cells, accounts, the reserves, and the release of a frame's cells (R16, R95 to R100,
R397). -/

namespace Sys2Proof.Machine

/-! ### Descriptor fields (R17) -/

def FrameDesc.tc (d : FrameDesc) : Nat := fld d.cls 2 0
def FrameDesc.adm (d : FrameDesc) : Nat := fld d.cls 4 3
def FrameDesc.expressBit (d : FrameDesc) : Bool := bit d.cls 5
def FrameDesc.lockedBit (d : FrameDesc) : Bool := bit d.cls 6
def FrameDesc.forward (d : FrameDesc) : Bool := bit d.actions 0
def FrameDesc.wrap (d : FrameDesc) : Bool := bit d.actions 1
def FrameDesc.unwrap (d : FrameDesc) : Bool := bit d.actions 2
def FrameDesc.capture (d : FrameDesc) : Bool := bit d.actions 3
def FrameDesc.stampInsert (d : FrameDesc) : Bool := bit d.actions 4
def FrameDesc.queue (d : FrameDesc) : Nat := fld d.capq 5 0

/-- The descriptor with an rx_flags bit set. -/
def FrameDesc.setRx (d : FrameDesc) (i : Nat) : FrameDesc := { d with rxFlags := setBit d.rxFlags i true }

/-- The 32 bytes of a descriptor (R17). -/
def FrameDesc.bytes (d : FrameDesc) : List Byte :=
  imgBytes d.stamp ++ imgBytes d.phase ++ [d.ingress, d.rxFlags, d.ttSel, d.cls] ++ imgBytes d.length ++
    imgBytes d.actions ++ imgBytes d.route ++ imgBytes d.stream ++ [d.drop, d.capq] ++ imgBytes d.node ++ imgBytes d.buffer

/-! ### Frames -/

/-- A frame in the buffer. -/
def State.frame (s : State) (id : Nat) : Option Frame := s.fwd.frames.find? (fun f => f.id == id)

/-- A write of a frame that the buffer holds. -/
def State.setFrame (s : State) (f : Frame) : State :=
  { s with fwd.frames := s.fwd.frames.map (fun g => if g.id = f.id then f else g) }

/-- A change of a frame that the buffer holds. -/
def State.modFrame (s : State) (id : Nat) (u : Frame → Frame) : State :=
  match s.frame id with
  | some f => s.setFrame (u f)
  | none => s

/-- A frame without its cells. -/
def State.removeFrame (s : State) (id : Nat) : State :=
  { s with fwd.frames := s.fwd.frames.filter (fun g => g.id != id) }

/-- The number of cells of `n` bytes (R17: at least one). -/
def cellsOf (n : Nat) : Nat := max 1 (ceilDiv n 64)

/-! ### Banks (R397) -/

/-- Whether a bank takes new cells: it is not retired and not under rolling self-test. -/
def State.bankOpen (s : State) (b : Nat) : Bool :=
  !s.bt R.retDp (4 + b) && kvGet 16 s.err.testUnit 2 != b

/-- The banks that take new cells. With every other bank retired, cells wait for the bank under self-test, one step of 2 µs at most, and
go into it (R41). -/
def State.openBanks (s : State) : List (Fin 16) :=
  let l := (List.finRange 16).filter (fun b => s.bankOpen b.val)
  if l.isEmpty then (List.finRange 16).filter (fun b => !s.bt R.retDp (4 + b.val)) else l

/-- The banks of `n` consecutive cells whose first lies `k` places into a rotation of the open banks. -/
def bankRun (l : List (Fin 16)) (k n : Nat) : List (Fin 16) :=
  (List.range n).map (fun i => l.getD ((k + i) % max 1 l.length) 0)

/-- The banks of a new frame of `n` cells; that of its first cell is a free value. -/
def State.pickBanks (s : State) (n : Nat) : List (Fin 16) × State :=
  let (k, t) := drawNat s
  (bankRun s.openBanks k n, t)

/-- The `buffer` field of a descriptor: a cell index in the first cell's bank, the cell within the bank a free value, and the
number of cells. -/
def State.bufferField (s : State) (banks : List (Fin 16)) : W32 × State :=
  let (k, t) := drawNat s
  (BitVec.ofNat 32 ((banks.headD 0).val + k % 32768 * 16 + banks.length * 2 ^ 19), t)

/-! ### Accounts (R95 to R98) -/

/-- The accounts beside E0 to E15. -/
def acctLocal : Nat := 16
def acctTunnel : Nat := 17
def acctCapture : Nat := 18

/-- The account of an ingress port (R95). -/
def acctOf (c : Nat) : Nat := if isE c then c else if c < 0x70 then acctTunnel else acctLocal

/-- O_X and U_X. -/
def State.heldG (s : State) (a : Nat) : Nat := kvGet 0 s.fwd.acctG a
def State.heldS (s : State) (a : Nat) : Nat := kvGet 0 s.fwd.acctS a

/-- The retired buffer banks. -/
def State.banksGone (s : State) : Nat := ((List.range 16).filter (fun b => s.bt R.retDp (4 + b))).length

/-- F: the shared pool shrinks by 32,768 cells with a bank (R336). -/
def State.poolFree (s : State) : Nat :=
  425984 - 32768 * s.banksGone - (List.range 17).foldl (fun a x => a + s.heldS x) 0

/-- The part of G_X that an intake class may use: all of it for A, less a_res for the others. -/
def State.guaranteed (s : State) (a cls : Nat) : Nat :=
  if a = acctLocal then 0 else if cls = 0 then 2048 else 2048 - s.fd (R.acctCfg a) 19 8

/-- U_X < α × F, with α = 2^(value − 3) (R96). -/
def State.sharedOk (s : State) (a cls : Nat) : Bool :=
  let al := if cls = 0 then s.fd (R.acctCfg a) 6 4 else s.fd (R.acctCfg a) 2 0
  decide (s.heldS a * 8 < 2 ^ al * s.poolFree)

/-- The bytes of the Ethernet and AVTP headers of a tunnel profile's frames (R105). -/
def wrapHeader (tp : BitVec 512) : Nat := 14 + (if bit tp 111 then 4 else 0) + (if bit tp 112 then 24 else 12)

/-- The cells that an open AVTPDU holds (R112). -/
def OpenPdu.cells (o : OpenPdu) : Nat := cellsOf (wrapHeader o.image + o.bytes)

/-- What the tunnel reserve holds: frames and open AVTPDUs. -/
def State.tunHeld (s : State) : Nat := s.fwd.openPdu.foldl (fun a o => a + o.2.cells) s.fwd.tunCells

/-- Whether intake admits a frame of a class into an account (R96, R98). -/
def State.admits (s : State) (a cls : Nat) : Bool :=
  if a = acctTunnel then decide (s.tunHeld < 30720)
  else decide (s.heldG a < s.guaranteed a cls) || s.sharedOk a cls

/-- The cells that a frame of `n` cells takes in its account's guaranteed part. -/
def State.guaranteedShare (s : State) (a cls n : Nat) : Nat :=
  if 17 ≤ a then 0 else min n (s.guaranteed a cls - s.heldG a)

/-- Cells enter (or leave) an account. -/
def State.charge (s : State) (a g sh n : Nat) (add : Bool) : State :=
  let upd := fun (x k : Nat) => if add then x + k else x - k
  if a = acctTunnel then { s with fwd.tunCells := upd s.fwd.tunCells n }
  else if a = acctCapture then { s with fwd.capCells := upd s.fwd.capCells n }
  else { s with
    fwd.acctG := kvSet 0 s.fwd.acctG a (upd (s.heldG a) g)
    fwd.acctS := kvSet 0 s.fwd.acctS a (upd (s.heldS a) sh) }

/-- A frame's cells leave its account. -/
def State.uncharge (s : State) (f : Frame) : State := s.charge f.acct f.gcells f.scells f.banks.length false

/-- A frame's cells return to the free pool (R16). -/
def State.freeFrame (s : State) (f : Frame) : State := (s.uncharge f).removeFrame f.id

/-- A frame enters the buffer: its number, its cells charged to an account. -/
def State.admitFrame (s : State) (f : Frame) (cls : Nat) : State :=
  let n := f.banks.length
  let g := s.guaranteedShare f.acct cls n
  let sh := if 17 ≤ f.acct then 0 else n - g
  let t := s.charge f.acct g sh n true
  { t with fwd.frames := t.fwd.frames ++ [{ f with gcells := g, scells := sh }] }

/-! ### What still holds a frame (R16, R99) -/

/-- Whether an egress side holds a copy of a frame. -/
def EgPort.holdsFrame (e : EgPort) (id : Nat) : Bool :=
  e.queues.any (fun q => q.2.any (fun c => c.frame == id)) ||
    (e.tx.map (fun t : Tx => t.copy.frame == id)).getD false ||
    (e.preempted.map (fun t : Tx => t.copy.frame == id)).getD false ||
    (e.commit.map (fun t : Commit => t.copy.frame == id)).getD false ||
    (e.next.map (fun t : Tx => t.copy.frame == id)).getD false

/-- Whether an egress, wrap or unwrap copy of a frame remains. -/
def State.egressHolds (s : State) (id : Nat) : Bool :=
  s.fwd.eg.any (fun p => p.2.holdsFrame id) || s.fwd.tunQ.any (fun t => t.frame == id) ||
    s.lnk.frWait.any (fun w => (w.2.map (fun c : Copy => c.frame == id)).getD false)

/-- Whether a capture copy of a frame is pending, or the ladle still reads the frame's cells. -/
def State.captureHolds (s : State) (id : Nat) : Bool :=
  s.cap.qs.any (fun q => q.2.copies.any (fun c => c.frame == id) || q.2.writes == some id)

/-! ### Lost items and eviction (R99) -/

/-- An item of a capture queue is lost: CAP_Qn_LOST wraps, STATUS.lost is set, and the next record carries gap (R246, R345). -/
def State.capLost (s : State) (q : Nat) (n : Nat := 1) : State :=
  if n = 0 then s
  else
    let s1 := (s.modRg (R.capLost q) (fun w => w + BitVec.ofNat 32 n)).setBt (R.capStatus q) 5 true
    s1.setCapq q { s1.capq q with gap := true }

/-- A pending copy that may be evicted: its queue, the copy, its admission class, and whether it is the moving one, the newest of its
class. -/
structure Victim where
  q    : Nat
  copy : CapCopy
  adm  : Nat
  last : Bool
  deriving DecidableEq, Repr

/-- The age of a copy among those of its class: the moving copy after the others, each kind by the order of its making. -/
def Victim.olderThan (v w : Victim) : Bool := (!v.last && w.last) || (v.last == w.last && decide (v.copy.order < w.copy.order))

/-- The pending copies whose frames are in the capture reserve, and those of the moving frame. -/
def State.victims (s : State) (moving : Nat) : List Victim :=
  s.cap.qs.flatMap (fun q => q.2.copies.filterMap (fun c =>
    match s.frame c.frame with
    | some f => if f.acct = acctCapture ∨ f.id = moving then some { q := q.1, copy := c, adm := f.desc.adm, last := f.id == moving } else none
    | none => none))

/-- The copy to evict: the lowest class present, the oldest first within it. -/
def worst : List Victim → Option Victim
  | [] => none
  | v :: r =>
    match worst r with
    | none => some v
    | some w => if v.adm > w.adm ∨ (v.adm = w.adm ∧ v.olderThan w) then some v else some w

/-- A pending capture copy is dropped: counted under CAP_EVICT and a lost item of its queue. -/
def State.evict (s : State) (v : Victim) : State :=
  let c := s.capq v.q
  let s1 := s.setCapq v.q { c with copies := c.copies.filter (fun x => x.order != v.copy.order) }
  (s1.countDrop 0x17).capLost v.q

/-- A frame that no copy holds any more returns its cells, once its last cell is written (R16). -/
def State.dropCells (s : State) (f : Frame) : State := if f.complete then s.freeFrame f else s

/-- The frame's cells go to the capture reserve, evicting copies while it lacks room (R99). -/
def moveToCapture (fuel : Nat) (id : Nat) (s : State) : State :=
  match fuel, s.frame id with
  | _, none => s
  | 0, some _ => s
  | k + 1, some f =>
    if ¬ s.captureHolds id then s.dropCells f
    else if s.fwd.capCells + f.banks.length ≤ 32768 then
      let s1 := (s.uncharge f).charge acctCapture 0 0 f.banks.length true
      s1.setFrame { f with acct := acctCapture, gcells := 0, scells := 0 }
    else
      match worst (s.victims id) with
      | none => s
      | some v =>
        let s1 := s.evict v
        let s2 := match s1.frame v.copy.frame with
          | some g => if g.id ≠ id ∧ ¬ s1.captureHolds g.id ∧ ¬ s1.egressHolds g.id then s1.dropCells g else s1
          | none => s1
        moveToCapture k id s2

/-- What follows the end of a copy, once the frame has branched: with no copy left its cells are freed; with only capture copies left its
charge moves to the capture reserve (R16, R99). A frame whose last cell is not written keeps its cells until then. -/
def State.settleFrame (s : State) (id : Nat) : State :=
  match s.frame id with
  | none => s
  | some f =>
    if ¬ f.branched ∨ s.egressHolds id then s
    else if s.captureHolds id then (if f.acct = acctCapture then s else moveToCapture 40000 id s)
    else s.dropCells f

/-- All copies of a frame are made (R72): it settles from now on. -/
def State.finishBranch (s : State) (id : Nat) : State := (s.modFrame id (fun g => { g with branched := true })).settleFrame id

/-- A copy ends under a drop reason: it is counted, and its frame settles. -/
def State.dropCopy (s : State) (code : Nat) (id : Nat) : State := (s.countDrop code).settleFrame id

end Sys2Proof.Machine
end

