-- ==== Sys2Proof/Machine/Flags.lean ====
section
/-! DEFINITION. Status words that the block computes from its state, and whether a master's access reaches the registers. -/

namespace Sys2Proof.Machine

/-! ### Start-up and reach (R298, R363) -/

/-- BOOT_STATUS.done: step 10 has ended. -/
def State.bootDone (s : State) : Bool := s.bt R.bootStatus 4

/-- BOOT_STATUS.step. -/
def State.bootStep (s : State) : Nat := s.fd R.bootStatus 3 0


/-- PWR_STATE.state is RUN. -/
def State.running (s : State) : Bool := s.fd R.pwrState 2 0 == 0

/-- Masters are not answered: while the clocks are stopped, and in WAKING before step 2 of R316 (R300, R319). -/
def State.dozing (s : State) : Bool := s.asleep || s.unreachable || s.wakingBefore 2

/-- The ready bit of the SPI status byte: 0 during reset, boot steps 1 to 3 and sleep (R298, R319, R363). -/
def State.spiReady (s : State) : Bool := (s.bootDone || decide (4 ≤ s.bootStep)) && !s.dozing

/-- PM reaches the GLB and BOOT registers after a halt at a later step than 3 (R359). -/
def State.haltOpen (s : State) : Bool := s.pins.halted && decide (4 ≤ s.bootStep) && !s.pins.hiZ && !s.pins.shutdown

/-- An access of a master to the register map: a host's is answered with Unsupported Request before the end of step 10 (R363) and
cannot arrive over a link that is down or while the block is unreachable; PM's is served from the end of step 3. -/
def onAccess (p : Part) (addr : Nat) (f : State → State) (s : State) : State :=
  if p = pm then (if s.spiReady then f s else s)
  else if ¬ s.linked p ∨ s.unreachable then s
  else if ¬ s.bootDone then s.emit (.unsupported p (BitVec.ofNat 32 addr))
  else f s

/-- A read answers a value. -/
def answer (p : Part) (addr : Nat) (v : W64) (s : State) : State := s.emit (.read p (BitVec.ofNat 32 addr) v)

/-! ### Command status (10_commands.md, *Registers*) -/

/-- CMD_STATUS of a partition. A sealed mould is open still, until its POUR applies it (R280). -/
def State.cmdStatus (s : State) (p : Part) : W32 :=
  let c := s.path p
  let m := s.mould p
  let idle := c.fetched.isEmpty && c.done.isEmpty && c.ready.isEmpty && c.busy.isEmpty
  let sealed_ := (m.map Mould.sealed).getD false
  BitVec.ofNat 32 (boolNat idle + 2 * boolNat m.isSome + 4 * boolNat sealed_ +
    8 * boolNat (s.frozen p) + 16 * boolNat (c.waitTag.any c.busy.contains) + c.busy.length * 2 ^ 16)

/-- CMD_MOULD_ITEMS of a partition. -/
def State.mouldItems (s : State) (p : Part) : Nat := ((s.mould p).map (fun m : Mould => m.items.length)).getD 0

/-- The SPI status byte (R298). -/
def State.spiStatus (s : State) : Byte :=
  let c := s.path pm
  BitVec.ofNat 8 (boolNat (s.spiReady || s.haltOpen) + 2 * boolNat (!c.cq.isEmpty) +
    4 * boolNat (decide (63 ≤ c.sq.length + c.latchedPush.length) || !s.bootDone) + 8 * boolNat s.cmd.spiErr +
    16 * boolNat s.cmd.spiEvent + 32 * boolNat s.pins.faultN)

end Sys2Proof.Machine
end

