-- ==== Sys2Proof/Machine/Views.lean ====
section
/-! DEFINITION. Whether a master's register access lies inside its view, and what an access outside it does (R293, R294, R394). -/

namespace Sys2Proof.Machine

/-- CHK_MODE.multi: channels 1 to 7 exist (R124). -/
def State.chkMulti (s : State) : Bool := s.bt R.chkMode 0

/-- Whether a partition's view holds a register. PM's view holds every one; codes 0x70 to 0x73 stand for P0 to P3 (R213). -/
def State.inView (s : State) (p : Part) (v : View) : Bool :=
  p == pm ||
    match v with
    | .all => true
    | .port c => if 0x70 ≤ c then c == 0x70 + p.val else s.holds p .port c
    | .fr f => s.holds p .port (0x68 + 2 * f) || s.holds p .port (0x69 + 2 * f)
    | .queue q => s.holds p .capq q
    | .table n => s.holds p .tt n
    | .trig m => s.holds p .trg m
    | .chk k => k == 0 && s.holds p .chk0 0
    | .bus m => (List.range 4).any (fun i => s.holds p .port (4 * m + i))
    | .pmOnly => false

/-- Whether a register of a CHK channel other than 0 is absent: CHK_MODE.multi = 0 (R124). -/
def State.chkAbsent (s : State) (off : Nat) : Bool :=
  decide (0x90_0040 ≤ off ∧ off < 0x90_0200) && !s.chkMulti

/-- Whether a register has a copy for a partition: PM has none of those that only hosts have. -/
def scopeOk (p : Part) (r : RegInfo) : Bool := !(r.scope == .hosts && p == pm)

/-- What becomes of an access: no register, outside the view, or allowed; for a write also no effect, or ignored and logged. -/
inductive Reach where
  | absent
  | violation
  | noEffect
  | logged (code : Nat)
  | ok
  deriving DecidableEq, Repr

/-- A read of a copy of a register (R293). -/
def State.readReach (s : State) (p copy : Part) (off : Nat) : Reach :=
  match regInfo s.logger off with
  | none => .absent
  | some r =>
    if p = pm then (if s.chkAbsent off ∨ ¬ scopeOk copy r then .absent else .ok)
    else if s.inView p r.view then .ok
    else .violation

/-- Whether any master can write a bit of a register. -/
def RegInfo.writable (r : RegInfo) : Bool := (r.rw ||| r.rwp ||| r.w1c ||| r.wo) != 0

/-- A write of a copy of a register; one that no master can write takes no effect and is no violation (R10, R293). -/
def State.writeReach (s : State) (p copy : Part) (off : Nat) : Reach :=
  match regInfo s.logger off with
  | none => .absent
  | some r =>
    if p = pm then (if s.chkAbsent off ∨ ¬ scopeOk copy r then .absent else if r.writable then .ok else .noEffect)
    else if ¬ r.writable then .noEffect
    else if ¬ s.inView p r.view then .violation
    else if r.log1c ≠ 0 then .logged r.log1c
    else if r.pmStage ∨ r.pmClear ∨ ¬ s.inView p r.stage then .violation
    else .ok

/-- A read of a register: in sleep it returns 0 (R319); an absent one reads 0 and is logged, one outside the view reads 0 and freezes the partition. -/
def onRead (p : Part) (off : Nat) (f : State → State) : State → State :=
  onAccess p off (fun s =>
    if s.dozing then answer p off 0 s else
    match s.readReach p p off with
    | .absent => answer p off 0 (s.report 0x0D02 kInfo p.val 0xFF off)
    | .violation => answer p off 0 (s.violate p 1 off)
    | _ => f s)

/-- A write of a register: a frozen partition's writes are discarded (R294). -/
def onWrite (p : Part) (off : Nat) (f : State → State) : State → State :=
  onAccess p off (fun s =>
    if s.dozing then s else
    match s.writeReach p p off with
    | .absent => s.report 0x0D02 kInfo p.val 0xFF off
    | .violation => s.violate p 1 off
    | .noEffect => s
    | .logged code => if s.frozen p then s else s.report code kInfo p.val 0xFF off
    | .ok => if s.frozen p then s else f s)

end Sys2Proof.Machine
end

