-- ==== Sys2Proof/Machine/Capture.lean ====
section
/-! DEFINITION. Capture queues (09_capture.md): copies, records, platforms, sidings, drains, notices. -/

namespace Sys2Proof.Machine

/-! ### Fields and sizes -/

def State.capEn (s : State) (q : Nat) : Bool := s.bt (R.capCfg q) 0
def State.capDrain (s : State) (q : Nat) : Bool := s.bt (R.capCfg q) 1
def State.capLevel (s : State) (q : Nat) : Bool := s.bt (R.capCfg q) 2
def State.capSnap (s : State) (q : Nat) : Nat := s.fd (R.capCfg q) 15 8
def State.sidingBase (s : State) (q : Nat) : Nat := s.fd (R.capSiding q) 13 0
def State.sidingSize (s : State) (q : Nat) : Nat := s.fd (R.capSiding q) 29 16

/-- The partition that holds a queue. -/
def State.capHolder (s : State) (q : Nat) : Part := s.holder .capq q

/-- The words that a queue's siding can hold: 57,344 per 4 MiB, none while it is off (R250, R263). -/
def State.sidingWords (s : State) (q : Nat) : Nat := if (s.capq q).off then 0 else s.sidingSize q * 57344

/-- A word's end mark. -/
def CapWord.isEnd (w : CapWord) : Bool := bit w.tag 6

/-- The word of zeros that closes a record (R263). -/
def closingWord : CapWord := { data := 0, tag := 0xC0 }

/-- CAP_Qn_OCC: the words in the platforms and the siding, spills in flight included. -/
def CapQ.occ (c : CapQ) : Nat := c.head.length + c.siding.length + c.spilling.length + c.tail.length

/-- For each word of a queue in order whether it ends a record; a closing word that waits stands between head platform and siding. -/
def CapQ.ends (c : CapQ) : List Bool :=
  c.head.map CapWord.isEnd ++ (if c.close then [true] else []) ++ c.siding.map SidWord.last ++ c.spilling.map (·.2.isEnd) ++
    c.tail.map CapWord.isEnd

/-- The records whose end mark is in the head platform (R259). -/
def CapQ.headEnds (c : CapQ) : Nat := (c.head.filter CapWord.isEnd).length

/-- Whether records are consumed through the host ring: drain = 0 and not held by PM. -/
def State.ringMode (s : State) (q : Nat) : Bool := !s.capDrain q && s.capHolder q != pm

/-- The internal record count behind CAP_Qn_PKTS (R259). -/
def State.capPktCount (s : State) (q : Nat) : Nat :=
  let c := s.capq q
  if s.capDrain q then c.headEnds else c.headEnds + c.ringPkts

/-- CAP_Qn_PKTS: beyond 24 bits it reads 0xFF_FFFF (R345). -/
def State.capPktsReg (s : State) (q : Nat) : W32 := BitVec.ofNat 32 (min 0xFF_FFFF (s.capPktCount q))

/-- The backlog of R261. -/
def State.backlog (s : State) (q : Nat) : Nat :=
  (s.capq q).occ + (if s.capDrain q then 0 else (s.rg (R.capHwr q) - s.rg (R.capHrd q)).toNat)

/-- CAP_Qn_STATUS: computed bits over the stored RW1C bits. -/
def State.capStatusReg (s : State) (q : Nat) : W32 :=
  let c := s.capq q
  let keep := s.rg (R.capStatus q) &&& 0xF0
  keep ||| BitVec.ofNat 32 (boolNat (c.occ == 0) + 2 * boolNat (c.highWas && !s.capLevel q) +
    4 * boolNat (decide (64 + s.sidingWords q ≤ c.occ)) + 8 * boolNat c.off)

/-! ### Notices (R262) -/

/-- Whether pin CFCk is active. -/
def State.cfcActive (s : State) (k : Nat) : Bool :=
  (List.range 64).any (fun q => !s.capLevel q && s.bt (R.capCfg q) 7 && s.fd (R.capCfg q) 6 4 == k && (s.capq q).highWas)

/-- The CFC pins follow the queues; active high unless CAP_CFC_POL says otherwise. -/
def State.cfcUpdate (s : State) : State :=
  { s with pins.cfc := (List.range 8).foldl (fun w k => setBit w k (s.cfcActive k != s.bt R.cfcPol k)) 0 }

/-- A DMA write of a queue's holder, checked against its windows first: outside them it is a violation and nothing is written
(R257, R293). The flag tells whether it was written. -/
def State.capDma (s : State) (p : Part) (addr : Nat) (bytes : List Byte) : Bool × State :=
  if (s.grant p).covers addr bytes.length then (true, s.emit (.dma p (BitVec.ofNat 64 addr) bytes))
  else (false, s.violate p 3 (addr % 2 ^ 32))

/-- The tag ring base and 2^k. -/
def State.tagBase (s : State) (q : Nat) : Nat := (s.rg (R.capTagLo q)).toNat + (s.rg (R.capTagHi q)).toNat * 2 ^ 32
def State.dataBase (s : State) (q : Nat) : Nat := (s.rg (R.capRingLo q)).toNat + (s.rg (R.capRingHi q)).toNat * 2 ^ 32
def State.ringWords (s : State) (q : Nat) : Nat := 2 ^ s.fd (R.capRingSz q) 4 0

/-- The writeback of CAP_Qn_HWR and CAP_Qn_PKTS after the tag ring. -/
def State.writeback (s : State) (q : Nat) : Bool × State :=
  s.capDma (s.capHolder q) (s.tagBase q + s.ringWords q) (imgBytes (s.rg (R.capHwr q)) ++ imgBytes (s.capPktsReg q))

/-- The level message of a queue: after a writeback with drain = 0, at once with drain = 1; it waits while the holder's DMA waits, and for
the end of a batch in progress (`batch`). PM has no message. -/
def State.levelMessage (s : State) (q : Nat) (batch : Bool := false) : State :=
  let p := s.capHolder q
  let vec : BitVec 6 := BitVec.ofNat 6 (s.fd (R.capCfg q) 21 16)
  if p = pm then s
  else if s.capDrain q then s.sendMsix p vec
  else if s.blocked p || batch then s.setCapq q { s.capq q with msgDue := true }
  else
    match s.writeback q with
    | (true, t) => t.sendMsix p vec
    | (false, t) => t

/-- The notices of a queue after its backlog changed; `batch` says that a DMA batch is in progress. -/
def State.capNotice (s : State) (q : Nat) (batch : Bool := false) : State :=
  let b := s.backlog q
  let c := s.capq q
  let hi := (s.rg (R.capHi q)).toNat
  let lo := (s.rg (R.capLo q)).toNat
  if s.capLevel q then
    let s1 := s.setCapq q { c with backlogWas := b }
    if c.backlogWas < hi ∧ hi ≤ b then
      let s2 := s1.setBt (R.capStatus q) 6 true
      if s.bt (R.capCfg q) 3 then s2.levelMessage q batch else s2
    else s1
  else
    let h := if b ≤ lo then false else if hi ≤ b then true else c.highWas
    (s.setCapq q { c with backlogWas := b, highWas := h }).cfcUpdate

/-- Messages that waited for a holder's DMA are sent after a writeback (R262). -/
def State.resumeCapture (s : State) (p : Part) : State :=
  (List.range 64).foldl (fun a q =>
    if (a.capq q).msgDue && a.capHolder q == p && !a.blocked p then
      (a.setCapq q { a.capq q with msgDue := false }).levelMessage q
    else a) s

/-! ### Records (R246 to R248) -/

/-- cap_len of a frame of `len` bytes (R247). -/
def State.capLen (s : State) (q len : Nat) : Nat :=
  let n := if s.capSnap q = 0 then len else min len (s.capSnap q * 64)
  if (s.capq q).off then min n 1984 else n

/-- The header word of a record (R246). -/
def recordHeader (c : CapCopy) (hslot : BitVec 128) (capLen : Nat) (gap : Bool) : List Byte :=
  c.desc.bytes ++ imgBytes hslot ++ leBytes 2 (1 + ceilDiv capLen 64) ++ leBytes 2 capLen ++
    [BitVec.ofNat 8 (boolNat (decide (capLen < c.desc.length.toNat)) + 2 * boolNat c.deferred + 4 * boolNat gap),
     if c.deferred then c.egress else 0xFF, 0, 0] ++ imgBytes c.seq ++ imgBytes c.stampHi

/-- Words of 64 bytes with their tags; the last carries the valid count and the end mark (R248). -/
def packWords : Nat → List Byte → List CapWord
  | 0, _ => []
  | k + 1, l =>
    if l.length ≤ 64 then [{ data := imgOf 512 l, tag := BitVec.ofNat 8 (l.length % 64 + 0x40) }]
    else { data := imgOf 512 (l.take 64), tag := 0 } :: packWords k (l.drop 64)

/-- The words of a record: the descriptor as it stood at branch, and a drop that was found after it (R244, R246). -/
def State.recordWords (s : State) (q : Nat) (c : CapCopy) (f : Frame) : List CapWord :=
  let n := s.capLen q c.desc.length.toNat
  packWords 200 (recordHeader c f.hslot n (s.capq q).gap ++ slice f.bytes 0 n)

/-- A capture copy is made for a queue: it takes the next sequence number, and is a lost item when the queue accepts no records
(R242, R243, R245). -/
def State.makeCapture (s : State) (q : Nat) (f : Frame) (desc : FrameDesc) (deferred : Bool) (egress : PortCode) : State :=
  let c := s.capq q
  let s1 := s.setCapq q { c with seq := c.seq + 1 }
  if ¬ s.capEn q then s1.capLost q
  else
    let copy : CapCopy :=
      { frame := f.id, seq := c.seq, stampHi := BitVec.ofNat 32 (f.stampX.toNat / 2 ^ 32), deferred, egress, desc
        order := s.cap.order }
    { s1.setCapq q { s1.capq q with copies := c.copies ++ [copy] } with cap.order := s.cap.order + 1 }

/-! ### Overwriting (R253) -/

/-- The range of the oldest whole record among the end marks `l` from position `i` on; `skip` passes over the record in progress. -/
def oldestRecord (l : List Bool) (i start : Nat) (skip : Bool) : Option (Nat × Nat) :=
  match l with
  | [] => none
  | w :: r =>
    if w then (if skip then oldestRecord r (i + 1) (i + 1) false else some (start, i))
    else oldestRecord r (i + 1) start skip

/-- A list without the places from `a` to `b`, its first place being `o`. -/
def cut {α : Type} (l : List α) (o a b : Nat) : List α := l.take (a - o) ++ l.drop (b + 1 - o)

/-- The live fills in flight: they fetch the first siding words, in order. -/
def CapQ.liveFills (c : CapQ) : Nat := (c.fills.filter id).length

/-- The fills in flight when the siding words from place `a` to `b` in order are gone: those that fetch one of them are discarded when they
arrive. `i` numbers the live ones. -/
def deadFills (a b : Nat) : Nat → List Bool → List Bool
  | _, [] => []
  | i, false :: r => false :: deadFills a b i r
  | i, true :: r => (!(decide (a ≤ i) && decide (i ≤ b))) :: deadFills a b (i + 1) r

/-- A queue without the words of a range of its end marks. -/
def CapQ.removeRange (c : CapQ) (a b : Nat) : CapQ :=
  let n0 := c.head.length
  let n1 := n0 + boolNat c.close
  let n2 := n1 + c.siding.length
  let n3 := n2 + c.spilling.length
  { c with
    head := cut c.head 0 a b
    close := c.close && !(decide (a ≤ n0) && decide (n0 ≤ b))
    siding := cut c.siding n1 a b
    fills := if b < n1 then c.fills else deadFills (a - n1) (b - n1) 0 c.fills
    spilling := cut c.spilling n2 a b
    tail := cut c.tail n3 a b }

/-- The queue overwrites its oldest whole record that the host has not begun to read; `none` when there is none. -/
def CapQ.overwrite (c : CapQ) : Option CapQ :=
  (oldestRecord c.ends 0 0 (decide (0 < c.begun) || c.peeked)).map (fun r => c.removeRange r.1 r.2)

/-! ### Movement on chip (R249) -/

/-- The lane that serves a queue becomes free. -/
def State.freeLane (s : State) (q : Nat) : State :=
  { s with cap.ladleBusy := s.cap.ladleBusy.filter (fun l => l.2 != some q) }

/-- Whether the direct path may move a word: no siding word, no burst in flight, no closing word waiting, room in the head
platform. -/
def CapQ.direct (c : CapQ) : Bool :=
  c.siding.isEmpty && c.spilling.isEmpty && c.fills.isEmpty && !c.close && decide (c.head.length < 32)

/-- A queue after moves between its lane and its platforms: the words, whether the record was finished, how many records were
overwritten. -/
structure Pumped where
  c        : CapQ
  finished : Bool := false
  lost     : Nat := 0

/-- The tail platform's oldest word takes the direct path. -/
def CapQ.goDirect (c : CapQ) : Option CapQ :=
  match c.tail with
  | w :: t => if c.direct then some { c with head := c.head ++ [w], tail := t } else none
  | [] => none

/-- Words move from the tail to the head platform, and from the lane to the tail platform, until nothing can move. The lane's word of a full
queue overwrites the oldest record first, and waits while the tail platform is full (R253). -/
def pumpQ (cap : Nat) : Nat → Pumped → Pumped
  | 0, x => x
  | k + 1, x =>
    let c := x.c
    match c.goDirect, c.writing with
    | some d, _ => pumpQ cap k { x with c := d }
    | none, [] => x
    | none, v :: r =>
      if cap ≤ c.occ then
        match c.overwrite with
        | some d => pumpQ cap k { x with c := d, lost := x.lost + 1 }
        | none => x
      else if 32 ≤ c.tail.length then x
      else pumpQ cap k { x with c := { c with tail := c.tail ++ [v], writing := r }, finished := r.isEmpty }

/-- A queue's lane is done with the record that it was writing, and the frame's cells have been read (R16, R244). -/
def State.endWriting (s : State) (q : Nat) : State :=
  let c := s.capq q
  let s1 := (s.setCapq q { c with writing := [], writes := none }).freeLane q
  match c.writes with
  | some id => s1.settleFrame id
  | none => s1

/-- Everything of a queue that can move on chip moves; a finished record counts in CAP_Qn_RECS and frees its lane; then the
notices. -/
def State.pump (s : State) (q : Nat) (batch : Bool := false) : State :=
  let x := pumpQ (64 + s.sidingWords q) 2000 { c := s.capq q }
  let s1 := (s.setCapq q x.c).capLost q x.lost
  let s2 := if x.finished then (s1.countWide (R.capRecs q)).endWriting q else s1
  s2.capNotice q batch

/-! ### The ladle (R244) -/

/-- The queue after `last` in rotating order among `l`. -/
def rotateFrom (last : Nat) (l : List Nat) : Option Nat :=
  match l.find? (fun q => decide (last < q)) with
  | some q => some q
  | none => l.head?

/-- Whether the ladle can begin a queue's oldest copy: no lane serves the queue, and the copy's frame is complete. -/
def State.ladleReady (s : State) (q : Nat) : Bool :=
  !s.cap.ladleBusy.any (fun l => l.2 == some q) &&
    match (s.capq q).copies with
    | [] => false
    | c :: _ => ((s.frame c.frame).map Frame.complete).getD false

/-- A free ladle lane takes a queue's oldest pending copy and writes it as one record. -/
def ladleLaneTake (lane : Fin 8) (s : State) : State :=
  let busy := (kvGet none s.cap.ladleBusy lane.val).isSome
  if busy ∨ s.bt R.retDp (20 + lane) then s
  else
    match rotateFrom (kvGet 63 s.cap.ladleLast lane.val) ((List.range 64).filter (fun q => s.ladleReady q)) with
    | none => s
    | some q =>
      let c := s.capq q
      match c.copies with
      | [] => s
      | copy :: rest =>
        match s.frame copy.frame with
        | none => s
        | some f =>
          let s1 := s.setCapq q { c with copies := rest, writing := s.recordWords q copy f, writes := some f.id, gap := false }
          let s2 := { s1 with
            cap.ladleBusy := kvSet none s1.cap.ladleBusy lane.val (some q)
            cap.ladleLast := kvSet 63 s1.cap.ladleLast lane.val q }
          s2.pump q

def execLadleLaneTake (lane : Fin 8) (s : State) : Res := .next (clocked (ladleLaneTake lane) s)

/-! ### Siding discard (R252, R256, R263) and its closing word -/

/-- What is left of a list after the record that continues into it. -/
def afterRecord : List CapWord → List CapWord
  | [] => []
  | w :: r => if w.isEnd then r else afterRecord r

/-- A queue without siding content: the bursts in flight are discarded, and so is the check data on chip (R263). -/
def CapQ.emptySiding (c : CapQ) : CapQ := { c with siding := [], spilling := [], fills := [], check := [], wr := 0 }

/-- A queue's siding content is discarded (R263 steps 2 to 4, for one queue): each record with a word in it is lost; one whose first
words left or are in the head platform is closed. -/
def State.discardSiding (s : State) (q : Nat) : State :=
  let c := s.capq q
  let region := c.siding.map SidWord.last ++ c.spilling.map (·.2.isEnd)
  let d := c.emptySiding
  match region.getLast? with
  | none => s.setCapq q d
  | some l =>
    let runsOn := !l
    let inTail := c.tail.any CapWord.isEnd
    let n := (region.filter id).length + boolNat runsOn
    let broken := match c.head.getLast? with
      | some h => !h.isEnd
      | none => decide (0 < c.begun) && !c.close
    let e := { d with
      close := c.close || broken
      tail := if runsOn then afterRecord c.tail else c.tail }
    let s1 := (s.setCapq q e).capLost q n
    (if runsOn ∧ ¬ inTail then s1.endWriting q else s1).pump q

/-- A waiting closing word enters the head platform when it has a free word (R263 step 4). -/
def State.placeClosing (s : State) (q : Nat) : State :=
  let c := s.capq q
  if c.close ∧ c.head.length < 32 then (s.setCapq q { c with close := false, head := c.head ++ [closingWord] }).pump q else s

def sidingLossClose (q : Fin 64) (s : State) : State := s.placeClosing q

def execSidingLossClose (q : Fin 64) (s : State) : Res := .next (clocked (sidingLossClose q) s)

/-! ### ECC (R256) -/

/-- The index within its record of the next word to leave the head platform. -/
def CapQ.headIndex (c : CapQ) : Nat := c.begun

/-- What a word's check does: the word delivered and the state. An untrusted tag or rec_words discards the siding content of the
queue; the word is delivered as read with poison. -/
def State.checkWord (s : State) (q idx : Nat) (e : Ecc) (w : CapWord) : CapWord × State :=
  let bad := { w with tag := setBit w.tag 7 true }
  let log := fun (t : State) =>
    ((t.count (R.capEccUncorr q)).setBt (R.capStatus q) 7 true).report 0x0801 kTransient (s.capHolder q).val q
      (q + idx % 2 ^ 16 * 2 ^ 8)
  match e with
  | .clean => (w, s)
  | .corrected => (w, s.count (R.capEccCorr q))
  | .data => (bad, log s)
  | .tag => (bad, ((log s).report 0x0802 kTransient (s.capHolder q).val q q).discardSiding q)

/-! ### The capture memory arbiter (R135, R162, R249, R251) -/

/-- The channels in service. -/
def State.channels (s : State) : List Nat := (List.range 4).filter (fun c => s.bt R.capMem c)

/-- The channel and the key in the memory of burst `b` (0 to 7) of group `g` of a queue's region (R250, R251). -/
def State.burstAt (s : State) (q g b : Nat) : Option (Nat × Nat) :=
  let a := s.sidingBase q * 4194304 + g * 512 + b * 64
  let k := max 1 s.channels.length
  (s.channels[a / 2048 % k]?).map (fun c => (c, c * 2 ^ 28 + (a / (2048 * k) * 2048 + a % 2048) / 64))

/-- The channel of a place of a queue's region: bursts 0 to 6 of a group hold words. -/
def State.wordChannel (s : State) (q p : Nat) : Option Nat := (s.burstAt q (p / 7) (p % 7)).map (·.1)

/-- The places in use. -/
def CapQ.places (c : CapQ) : List Nat := c.siding.map SidWord.place ++ c.spilling.map (·.1)

/-- A burst of the memory; one that was never written is 0. -/
def State.burst (s : State) (q g b : Nat) : BitVec 512 :=
  match s.burstAt q g b with
  | some x => kvGet 0 s.cap.mem x.2
  | none => 0

/-- A write of a burst. -/
def State.writeBurst (s : State) (q g b : Nat) (v : BitVec 512) : State :=
  match s.burstAt q g b with
  | some x => { s with cap.mem := kvSet 0 s.cap.mem x.2 v }
  | none => s

/-- The check data of a word (R250, R256): the check bytes of its 8 lanes, and its tag. -/
def CapWord.check (w : CapWord) : List Byte :=
  (List.range 8).map (fun j =>
    let lane : BitVec 64 := BitVec.ofNat 64 (w.data.toNat >>> (64 * j))
    if j = 7 then Config.secdedTag lane w.tag else Config.secded lane) ++ [w.tag]

/-- The check data of a place: on chip while its group is partial, else in burst 7 of the group. -/
def State.checkOf (s : State) (q p : Nat) : List Byte :=
  match (s.capq q).check.find? (fun x => x.1 == p) with
  | some x => x.2
  | none => slice (imgBytes (s.burst q (p / 7) 7)) (9 * (p % 7)) 9

/-- A siding word as the memory holds it. -/
def State.sidWord (s : State) (q : Nat) (x : SidWord) : CapWord :=
  { data := s.burst q (x.place / 7) (x.place % 7), tag := byteAt (s.checkOf q x.place) 8 }

/-- Whether a siding word is held on a channel (R302). -/
def State.holdsWord (s : State) (c : Nat) : Bool :=
  (List.range 64).any (fun q => (s.capq q).places.any (fun p => s.wordChannel q p == some c))

/-- The words of a queue in order (R249). -/
def State.capWords (s : State) (q : Nat) : List CapWord :=
  let c := s.capq q
  c.head ++ c.siding.map (s.sidWord q) ++ c.spilling.map (·.2) ++ c.tail

/-- The first place of a region from `p` on that holds no word. -/
def freePlace (used : List Nat) (cap : Nat) : Nat → Nat → Nat
  | 0, p => p
  | k + 1, p => if used.contains p then freePlace used cap k ((p + 1) % cap) else p

/-- The place that the next spill takes: the next in order that no word of the queue holds. DESIGN CHOICE (log entry 43): the spec gives the
groups of a region and not which of its places a word takes. -/
def State.nextPlace (s : State) (q : Nat) : Nat :=
  let c := s.capq q
  freePlace c.places (max 1 (s.sidingSize q * 57344)) (c.places.length + 1) c.wr

/-- Whether a queue's spill requester is ready: its tail platform holds a word that the direct path cannot take, and its region has room. -/
def State.spillReady (s : State) (q : Nat) : Bool :=
  let c := s.capq q
  !c.off && !c.tail.isEmpty && !c.direct && decide (c.places.length < s.sidingWords q) &&
    (!c.siding.isEmpty || !c.spilling.isEmpty || !c.fills.isEmpty || decide (32 ≤ c.head.length))

/-- Whether a queue's fill requester is ready: a siding word that no fill in flight fetches, and a head-platform word that none has
reserved. -/
def State.fillReady (s : State) (q : Nat) : Bool :=
  let c := s.capq q
  !c.off && !c.close && decide (c.liveFills < c.siding.length) && decide (c.head.length + c.liveFills < 32)

/-- The channel that a queue's next fill asks for. -/
def State.fillChannel (s : State) (q : Nat) : Option Nat :=
  let c := s.capq q
  (c.siding[c.liveFills]?).bind (fun x => s.wordChannel q x.place)

/-- The bursts that fills may take of a channel in a window: (drain + 1) / 8 of what 34.132 GB/s moves in window_ns (R162, R265). -/
def State.fillLimit (s : State) : Nat :=
  (s.fd (R.admPol (s.fd R.band 2 0)) 30 28 + 1) * s.fd R.arbCap 15 0 * 34132 / (8 * 64000)

/-- The requesters of a channel that are ready. -/
def State.memReady (s : State) (c : Nat) : List Nat :=
  let fills := (s.arb (.capmem (Fin.ofNat 4 c))).fills
  (List.range 64).filter (fun q => s.spillReady q && s.wordChannel q (s.nextPlace q) == some c) ++
    ((List.range 64).filter (fun q => s.fillReady q && s.fillChannel q == some c &&
      decide (fills < s.fillLimit))).map (· + 64)

/-- The capture memory arbiter of a channel grants a spill or fill burst. -/
def captureMemGrant (c : Fin 4) (s : State) : State :=
  if kvGet false s.cap.retrain c.val ∨ s.wakingBefore 5 then s
  else
    match s.pick (.capmem c) (s.memReady c) with
    | none => s
    | some i =>
      let s1 := (s.granted (.capmem c) i 1).setBt R.blkStat (12 + c) false
      if i < 64 then
        let d := s1.capq i
        let p := s1.nextPlace i
        (s1.setCapq i { d with
          spilling := d.spilling ++ (d.tail.take 1).map (fun w => (p, w)), tail := d.tail.drop 1
          wr := (p + 1) % max 1 (s1.sidingSize i * 57344) }).pump i
      else
        let b := s1.arb (.capmem c)
        let q := i - 64
        (s1.setArb (.capmem c) { b with fills := b.fills + 1 }).setCapq q
          { s1.capq q with fills := (s1.capq q).fills ++ [true] }

def execCaptureMemGrant (c : Fin 4) (s : State) : Res := .next (clocked (captureMemGrant c) s)

/-- The index within its record of a queue's first siding word. -/
def CapQ.sidingIndex (c : CapQ) : Nat :=
  let run := (c.head.reverse.takeWhile (fun w => !w.isEnd)).length
  if run = c.head.length then c.begun + run else run

/-- An LPDDR5X channel is retired: every siding's content is discarded, and queues with a region run on the direct path (R263, R326). -/
def State.retireChannel (s : State) (c : Nat) : State :=
  if s.bt R.capMem (4 + c) then s
  else
    let s1 := ((s.setBt R.capMem c false).setBt R.capMem (4 + c) true).setBt R.capMem 16 true
    let s2 : State := { s1 with cap.retrain := kvSet false s1.cap.retrain c false }
    let s3 := (List.range 64).foldl (fun a q =>
      let b := a.discardSiding q
      if b.sidingSize q = 0 then b else b.setCapq q { b.capq q with off := true }) s2
    (s3.report 0x0803 kPermanent 0xFF c c true).setFault 3

/-- An uncorrectable word of a channel: more than 16 within 1 s retire it (R326). -/
def State.badWord (s : State) (c : Option Nat) : State :=
  match c with
  | none => s
  | some i =>
    let t := s.countFault (.channel (Fin.ofNat 4 i))
    if 16 < t.faults (.channel (Fin.ofNat 4 i)) then t.retireChannel i else t

/-- The last place of a group that has no word and comes after place `p`, if any: the group is partial until then. -/
def CapQ.groupOpen (c : CapQ) (p : Nat) : Bool :=
  (List.range (6 - p % 7)).any (fun i => !c.places.contains (p + 1 + i))

/-- A spilled word lands at its place: its burst is written, its check data stay on chip until the group's last word has been spilled, which
writes burst 7: 9 bytes for each word, and a byte of 0 (R250). -/
def State.land (s : State) (q p : Nat) (w : CapWord) : State :=
  let g := p / 7
  let s1 := s.writeBurst q g (p % 7) w.data
  let s2 := s1.setCapq q { s1.capq q with check := (s1.capq q).check.filter (fun x => x.1 != p) ++ [(p, w.check)] }
  if (s2.capq q).groupOpen p then s2
  else
    let l := (List.range 7).flatMap (fun i => s2.checkOf q (7 * g + i))
    let s3 := s2.writeBurst q g 7 (imgOf 512 l)
    s3.setCapq q { s3.capq q with check := (s3.capq q).check.filter (fun x => x.1 / 7 != g) }

/-- A fill arrives: one whose word is gone is discarded; the word enters the head platform after its check. -/
def State.fillDone (s : State) (q : Nat) (e : Ecc) : State :=
  let c := s.capq q
  match c.fills, c.siding with
  | false :: fl, _ => (s.setCapq q { c with fills := fl }).pump q
  | true :: fl, x :: r =>
    let ch := s.wordChannel q x.place
    let (v, s1) := s.checkWord q c.sidingIndex e (s.sidWord q x)
    if e = .tag then s1.badWord ch
    else
      let d := s1.capq q
      let s2 := (s1.setCapq q { d with fills := fl, siding := r, head := d.head ++ [v] }).pump q
      if e = .data then s2.badWord ch else s2
  | _, _ => s

/-- A siding burst completes: a spilled word lands in the siding, a filled one in the head platform. -/
def sidingBurstDone (q : Fin 64) (fill : Bool) (e : Ecc) (s : State) : State :=
  let c := s.capq q
  if fill then s.fillDone q e
  else
    match c.spilling with
    | [] => s
    | (p, w) :: r =>
      let s1 := s.land q p w
      (s1.setCapq q { s1.capq q with spilling := r, siding := c.siding ++ [{ place := p, last := w.isEnd }] }).pump q

def execSidingBurstDone (q : Fin 64) (fill : Bool) (e : Ecc) (s : State) : Res := .next (clocked (sidingBurstDone q fill e) s)

/-! ### DMA drain (R257) -/

/-- Whether a queue drains by DMA now: drain = 0 and held by a host whose DMA runs. -/
def State.dmaRuns (s : State) (q : Nat) : Bool := s.ringMode q && !s.blocked (s.capHolder q)

/-- The head word leaves the head platform. -/
def CapQ.takeHead (c : CapQ) : CapQ :=
  match c.head with
  | [] => c
  | w :: r =>
    if w.isEnd then { c with head := r, begun := 0, peeked := false, checked := false }
    else { c with head := r, begun := c.begun + 1, checked := false }

/-- The outcome of the head word's check on its way out; a word that a PEEK has shown had it then (R256). -/
def State.checkHead (s : State) (q : Nat) (e : Ecc) (w : CapWord) : CapWord × State :=
  if (s.capq q).checked then (w, s) else s.checkWord q (s.capq q).headIndex e w

/-- Up to `fuel` words go to the rings, each with the outcome of its check (clean where the list has ended); the flag tells whether the
batch went on to its end. -/
def dmaWords (q : Nat) : Nat → List Ecc → State → Bool × State
  | 0, _, s => (true, s)
  | k + 1, es, s =>
    let c := s.capq q
    let n := (s.rg (R.capHwr q)).toNat
    let size := s.ringWords q
    match c.head with
    | [] => (true, s)
    | w :: _ =>
      if size ≤ (s.rg (R.capHwr q) - s.rg (R.capHrd q)).toNat then (true, s)
      else
        let (v, s1) := s.checkHead q (es.headD .clean) w
        let p := s.capHolder q
        match s1.capDma p (s.dataBase q + n % size * 64) (imgBytes v.data) with
        | (false, t) => (false, t)
        | (true, s2) =>
          match s2.capDma p (s.tagBase q + n % size) [v.tag] with
          | (false, t) => (false, t)
          | (true, s3) =>
            let d := (s3.capq q).takeHead
            let s4 := s3.setCapq q { d with ringPkts := d.ringPkts + boolNat v.isEnd }
            dmaWords q k es.tail ((s4.modRg (R.capHwr q) (· + 1)).pump q true)

/-- A DMA batch: up to 4 KiB of words, then the writeback, then a level message that is due. -/
def captureDmaBatch (q : Fin 64) (es : List Ecc) (s : State) : State :=
  if ¬ s.dmaRuns q ∨ s.wakingBefore 5 ∨ (s.capq q).head.isEmpty ∨
      s.ringWords q ≤ (s.rg (R.capHwr q) - s.rg (R.capHrd q)).toNat then s
  else
    match dmaWords q 64 es s with
    | (false, t) => t
    | (true, t) =>
      match t.writeback q with
      | (false, u) => u
      | (true, u) =>
        if (u.capq q).msgDue then
          (u.setCapq q { u.capq q with msgDue := false }).sendMsix (u.capHolder q) (BitVec.ofNat 6 (u.fd (R.capCfg q) 21 16))
        else u

def execCaptureDmaBatch (q : Fin 64) (eccs : List Ecc) (s : State) : Res := .next (clocked (captureDmaBatch q eccs) s)

/-- A write of CAP_Qn_HRD: it releases words, or is ignored and logged when it moves backwards or past HWR. -/
def capHrdWrite (p : Part) (q : Fin 64) (v : W32) (s : State) : State :=
  if s.capHolder q = pm ∧ ¬ s.capDrain q then s
  else if (s.rg (R.capHwr q) - v).toNat ≤ (s.rg (R.capHwr q) - s.rg (R.capHrd q)).toNat then
    (s.setRg (R.capHrd q) v).capNotice q
  else s.report 0x0804 kInfo p.val q v.toNat

def execCapHrdWrite (p : Part) (q : Fin 64) (v : W32) (s : State) : Res :=
  .next (onWrite p (R.capHrd q) (capHrdWrite p q v) s)

/-- A write of CAP_Qn_ACK subtracts from the ring part of PKTS (R259). -/
def capAck (q : Fin 64) (v : W32) (s : State) : State :=
  s.setCapq q { s.capq q with ringPkts := (s.capq q).ringPkts - fld v 23 0 }

def execCapAck (p : Part) (q : Fin 64) (v : W32) (s : State) : Res := .next (onWrite p (0x80_001C + 0x100 * q) (capAck q v) s)

/-! ### Register drain (R255, R258) -/

/-- The word at a queue's head reaches the head platform: an access to it waits for it (log entry 43). A fill in flight of that word has
then arrived. -/
def State.raise (s : State) (q : Nat) : CapQ :=
  let c := s.capq q
  match c.head, c.close, c.siding, c.spilling, c.tail with
  | [], true, _, _, _ => { c with head := [closingWord], close := false }
  | [], false, x :: r, _, _ => { c with head := [s.sidWord q x], siding := r, fills := c.fills.erase true }
  | [], false, [], (_, w) :: r, _ => { c with head := [w], spilling := r }
  | [], false, [], [], w :: r => { c with head := [w], tail := r }
  | _, _, _, _, _ => c

/-- A read of PEEK or POP with drain = 0 is logged (R258). -/
def State.wrongDrain (s : State) (p : Part) (q : Nat) : State := s.report 0x0805 kInfo p.val q q

/-- Value `i` of the head word: PEEK0 to PEEK15, and PEEKTAG. -/
def peekValue (w : CapWord) (i : Nat) : W32 := if i = 16 then w.tag.setWidth 32 else BitVec.ofNat 32 (imgLe w.data (4 * i) 4)

/-- A PEEK register's offset. -/
def peekOff (q i : Nat) : Nat := if i = 16 then R.capPeekTag q else R.capPeek q i

/-- A read of a PEEK register: what it returns, and the state. -/
def State.peek (s : State) (p : Part) (q i : Nat) (e : Ecc) : W32 × State :=
  if ¬ s.capDrain q then (0, s.wrongDrain p q)
  else
    let c := s.raise q
    match c.head with
    | [] => (kvGet 0 c.peek i, s.setBt (R.capStatus q) 4 true)
    | w :: _ =>
      let (v, s1) := (s.setCapq q c).checkHead q e w
      let x := peekValue v i
      let d := s1.capq q
      (x, s1.setCapq q { d with head := v :: d.head.tail, peeked := true, checked := true, peek := kvSet 0 d.peek i x })

/-- A read of CAP_Qn_PEEKi or CAP_Qn_PEEKTAG, of 4 bytes, or of 8 at an even PEEKi (R128, R258). -/
def capPeekRead (p : Part) (q : Fin 64) (i : Fin 17) (eight : Bool) (e : Ecc) (s : State) : State :=
  let (x, t) := s.peek p q i e
  if eight ∧ i.val % 2 = 0 ∧ i.val < 16 then
    let (y, u) := t.peek p q (i + 1) e
    answer p (peekOff q i) (y ++ x) u
  else answer p (peekOff q i) (x.setWidth 64) t

def execCapPeekRead (p : Part) (q : Fin 64) (idx : PeekAt) (ecc : Ecc) (s : State) : Res :=
  .next (onRead p (peekOff q idx.i) (capPeekRead p q idx.i idx.eight ecc) s)

/-- A write of CAP_Qn_POP.pop = 1 removes the head word, after its check, or sets underrun when the queue is empty. -/
def capPop (p : Part) (q : Fin 64) (v : W32) (e : Ecc) (s : State) : State :=
  if ¬ bit v 0 then s
  else if ¬ s.capDrain q then s.wrongDrain p q
  else
    let c := s.raise q
    match c.head with
    | [] => s.setBt (R.capStatus q) 4 true
    | w :: _ =>
      let s1 := ((s.setCapq q c).checkHead q e w).2
      (s1.setCapq q (s1.capq q).takeHead).pump q

def execCapPop (p : Part) (q : Fin 64) (w : PopWrite) (s : State) : Res :=
  .next (onWrite p (0x80_0040 + 0x100 * q) (capPop p q w.v w.ecc) s)

/-! ### CAP_DISCARD (R399) -/

/-- The records with a word among end marks, the last of which may run on. -/
def recordsIn (l : List Bool) : Nat := (l.filter id).length + (match l.getLast? with | some e => boolNat (!e) | none => 0)

/-- The records of a queue with a word that CAP_DISCARD removes: one whose closing word waits ends with its head-platform words. -/
def CapQ.discards (c : CapQ) : Nat :=
  let r := c.siding.map SidWord.last ++ c.spilling.map (·.2.isEnd) ++ c.tail.map CapWord.isEnd ++ c.writing.map CapWord.isEnd
  let h := c.head.map CapWord.isEnd
  if c.close then recordsIn h + recordsIn r else recordsIn (h ++ r)

/-- Every word of a queue is removed; a record of which words left before is closed. -/
def State.discardQueue (s : State) (q : Nat) : Nat × State :=
  let c := s.capq q
  let n := c.discards
  let d := { c with
    head := if 0 < c.begun then [closingWord] else []
    siding := [], spilling := [], tail := [], close := false, peeked := false, checked := false
    fills := c.fills.map (fun _ => false) }
  (n, (((s.setCapq q d).endWriting q).capLost q n).capNotice q)

/-- A queue that accepts no records: the copies that wait for the ladle are lost items (R245). -/
def State.stopQueue (s : State) (q : Nat) : State :=
  let c := s.capq q
  (c.copies.foldl (fun (a : State) x => a.settleFrame x.frame) (s.setCapq q { c with copies := [] })).capLost q c.copies.length

/-- A queue's ring pointers and the ring part of PKTS are 0 (R257, R260). -/
def State.zeroRings (s : State) (q : Nat) : State :=
  (((s.setRg (R.capHwr q) 0).setRg (R.capHrd q) 0).setCapq q { s.capq q with ringPkts := 0 }).capNotice q

/-- CAP_DISCARD. -/
def capDiscardBody (p : Part) (d : CmdDesc) : State → Ans :=
  onIndex p d .capq (d.b 0) (fun s => { s := (s.discardQueue (d.b 0)).2, result := (s.discardQueue (d.b 0)).1 })

/-- The form of CAP_DISCARD. -/
def capDiscardForm : Form := { kind := .immediate, size := fun l => l == 1 }

def execCapDiscard (p : Part) (d : CmdDesc) (s : State) : Res :=
  .next (runCommand capDiscardForm p d (capDiscardBody p d) s)

end Sys2Proof.Machine
end

