-- ==== Sys2Proof/Machine/Phase.lean ====
section
/-! DEFINITION. The estimate of a turntable: φ, the phase word, velocity and crossings (R197, R199, R200, R207). -/

namespace Sys2Proof.Machine

/-- The states of a turntable (R198), in PHW_TTn_STATUS.state. -/
def ttOff : Nat := 0
def ttAcquire : Nat := 1
def ttTracking : Nat := 2
def ttStalled : Nat := 3

/-- PHW_TTn_STATUS.state. -/
def State.ttState (s : State) (n : Nat) : Nat := s.fd (R.ttStatus n) 1 0

/-- Counted edges per revolution. -/
def State.cpr (s : State) (n : Nat) : Nat := s.fd (R.ttCpr n) 20 0

/-- PHW_TTn_CFG.mode: 0 quadrature, 1 single edge, 2 line sync. -/
def State.ttMode (s : State) (n : Nat) : Nat := s.fd (R.ttCfg n) 2 1

/-- The loop state that holds at an instant: that of the last counted edge stamped at or before it, else the oldest kept
(R200). -/
def loopAt (l : List Loop) (t : Nat) : Option Loop :=
  match l.find? (fun x => decide (x.t.toNat ≤ t)) with
  | some x => some x
  | none => l.getLast?

/-- Whether a turntable was in TRACKING at an instant (R200). -/
def State.tracked (s : State) (n : Nat) (t : Nat) : Bool :=
  (s.tt n).spans.any (fun x => decide (x.1.toNat ≤ t) && match x.2 with
    | some e => decide (t < e.toNat)
    | none => true)

/-- φ at an instant, in 2^-32 edge: the extrapolation of R199 in TRACKING, in line sync at most the edge's position + 1; the frozen estimate in
STALLED; the position in ACQUIRE; 0 in OFF (PHW_TTn_PHASE). -/
def State.phi (s : State) (n : Nat) (t : Nat) : Int :=
  let tt := s.tt n
  if ¬ s.tracked n t ∧ s.ttState n = ttOff then 0
  else if ¬ s.tracked n t ∧ s.ttState n = ttAcquire then tt.p * 2 ^ 32
  else
    match loopAt tt.loops t with
    | none => tt.p * 2 ^ 32
    | some l =>
      let x := l.phi + l.v * ((t : Int) - l.t.toNat) / 2 ^ 32
      if s.ttMode n = 2 then min x ((l.p + 1) * 2 ^ 32) else x

/-- A phase in 2^-24 revolution, unbounded. -/
def State.turns (s : State) (n : Nat) (phi : Int) : Int := phi * 2 ^ 24 / ((s.cpr n : Int) * 2 ^ 32)

/-- The 32-bit phase word (R197). -/
def State.phaseWord (s : State) (n : Nat) (t : Nat) : W32 := BitVec.ofInt 32 (s.turns n (s.phi n t))

/-- The fraction of the phase at an instant. -/
def State.fraction (s : State) (n : Nat) (t : Nat) : Nat := fld (s.phaseWord n t) 23 0

/-- The velocity of the last loop state, in 2^-64 edge per ns; 0 when not tracking. -/
def State.velocity (s : State) (n : Nat) : Int :=
  if s.ttState n = ttTracking then (((s.tt n).loops.head?).map Loop.v).getD 0 else 0

/-- PHW_TTn_VEL: v̂ in 2^-32 revolution per µs. -/
def velWord (cpr : Nat) (v : Int) : W32 := BitVec.ofInt 32 (v * 1000 / ((cpr : Int) * 2 ^ 32))

/-- The ns until φ moves from `phi` through `d` 2^-24 revolutions at velocity `v`, rounded up. -/
def nsToTurn (cpr : Nat) (v : Int) (d : Nat) : Nat :=
  ceilDiv (d * cpr * 2 ^ 64) (v.natAbs * 2 ^ 24)

/-- How often φ has passed a fraction upward since position 0: the revolution count of its last crossing, plus 1 (R207). -/
def crossCount (cpr : Nat) (phi : Int) (f : Nat) : Int := (phi * 2 ^ 24 - f * cpr * 2 ^ 32) / (cpr * 2 ^ 56)

/-- Whether a turntable's phase moves up in TRACKING: only then do timetables and pours cross (R207). -/
def State.movesUp (s : State) (n : Nat) : Bool := s.ttState n == ttTracking && decide (0 < s.velocity n)

/-- The distance in 2^-24 revolution from a fraction up to a target, at least 1 (R207). -/
def fracUp (from_ target : Nat) : Nat := (target + 2 ^ 24 - from_ % 2 ^ 24 - 1) % 2 ^ 24 + 1

/-- The predicted instant of the next crossing of a fraction in a direction, when the estimate moves that way (R207). -/
def State.nextCross (s : State) (n : Nat) (down : Bool) (f : Nat) : Option Nat :=
  let v := s.velocity n
  let x := s.fraction n s.pNs
  if v > 0 ∧ ¬ down then some (s.pNs + nsToTurn (s.cpr n) v (fracUp x f))
  else if v < 0 ∧ down then some (s.pNs + nsToTurn (s.cpr n) v (fracUp f x))
  else none

/-- A stamp of presented time that an event takes, anywhere within ±`b` ns (the accuracies of R67, R185, R196): a free value. -/
def stampWithin (b : Nat) (s : State) : Nat × State :=
  let (k, t) := drawNat s
  (natOfInt 64 ((s.pNs : Int) + (k % (2 * b + 1) : Nat) - b), t)

end Sys2Proof.Machine
end

