-- ==== Sys2Proof/Machine/Ports.lean ====
section
/-! DEFINITION. Ports: link states, rates, fixed compensations and length limits (02_ports.md, R339). -/

namespace Sys2Proof.Machine

/-! ### Modes of an Ethernet port (R45, R68) -/

/-- What a mode of LNK_ETH_MODE gives: rate in Mbit/s, receive and transmit compensation in ns without FEC. -/
structure EthMode where
  rate : Nat
  rx   : Nat
  tx   : Nat

/-- The modes of R45 with the compensations of R68. -/
def ethModeOf : Nat → EthMode
  | 1 => ⟨25000, 41, 29⟩
  | 2 => ⟨10000, 64, 48⟩
  | 3 => ⟨10000, 70, 52⟩
  | 4 => ⟨5000, 110, 88⟩
  | 5 => ⟨2500, 190, 160⟩
  | 6 => ⟨1000, 430, 380⟩
  | 7 => ⟨1000, 230, 180⟩
  | 8 => ⟨100, 1900, 1500⟩
  | _ => ⟨0, 0, 0⟩

/-- Whether a rate change is in step 2: the frame in progress still runs in the old mode (02_ports.md, *Rate change*). -/
def State.oldRate (s : State) (n : Nat) : Bool := (s.lane n).retune && s.fd (R.ethStatus n) 2 0 == 3

/-- LNK_ETH_MODE fields; in step 2 of a rate change mode and fec are those before it. -/
def State.ethModeNo (s : State) (n : Nat) : Nat := if s.oldRate n then fld (s.lane n).oldMode 3 0 else s.fd (R.ethMode n) 3 0
def State.ethFec (s : State) (n : Nat) : Nat := if s.oldRate n then fld (s.lane n).oldMode 5 4 else s.fd (R.ethMode n) 5 4
def State.ethInband (s : State) (n : Nat) : Bool := s.bt (R.ethMode n) 6
def State.phyPoll (s : State) (n : Nat) : Bool := s.bt (R.ethMode n) 13
def State.ethMaxLen (s : State) (n : Nat) : Nat := s.fd (R.ethMode n) 29 16

/-- The fixed receive and transmit compensations of a port, with its FEC (R68). -/
def State.dRx (s : State) (n : Nat) : Nat :=
  match s.ethModeNo n, s.ethFec n with
  | 1, 1 => 82
  | 1, 2 => 151
  | 2, 1 => 166
  | m, _ => (ethModeOf m).rx

def State.dTx (s : State) (n : Nat) : Nat :=
  match s.ethModeNo n, s.ethFec n with
  | 1, 1 => 55
  | 1, 2 => 139
  | 2, 1 => 112
  | m, _ => (ethModeOf m).tx

/-- The data rate of an Ethernet or T1S port in Mbit/s. -/
def State.rate (s : State) (c : Nat) : Nat := if isE c then (ethModeOf (s.ethModeNo c)).rate else 10

/-- B_out in ps: one egress PCS block time (R93). -/
def State.blockPs (s : State) (n : Nat) : Nat :=
  match s.ethModeNo n with
  | 1 => 2560
  | 7 => 8000
  | 8 => 80000
  | _ => 6400

/-- The time of `bytes` bytes on an Ethernet line, in ps. -/
def State.linePs (s : State) (n bytes : Nat) : Nat := bytes * 8 * 1000000 / max 1 (s.rate n)

/-! ### Link states -/

/-- The link states in the encoding of LNK_ETH_STATUS.state. -/
def pDisabled : Nat := 0
def pDown : Nat := 1
def pTraining : Nat := 2
def pUp : Nat := 3
def pRetired : Nat := 7

/-- PWR_STATE.state values (R300). -/
def pwRun : Nat := 0
def pwEntry : Nat := 1
def pwStandby : Nat := 2
def pwDeep : Nat := 3
def pwWaking : Nat := 4

/-- PWR_STATE.state. -/
def State.pwr (s : State) : Nat := s.fd R.pwrState 2 0

/-- Whether every port is stopped: from step 4 of R304 to step 6 of R316. -/
def State.portsStopped (s : State) : Bool :=
  (s.pwr == pwEntry && decide (4 ≤ s.slp.stage)) || s.pwr == pwStandby || s.pwr == pwDeep ||
    (s.pwr == pwWaking && decide (s.slp.stage < 6))

/-- Whether intake runs: it stops at step 2 of R304, and FWD is up again from step 4 of R316. -/
def State.intakeOn (s : State) : Bool := s.pwr == pwRun || (s.pwr == pwWaking && decide (4 ≤ s.slp.stage))

/-- The link state of a port. -/
def State.portState (s : State) (c : Nat) : Nat :=
  if s.retired c then pRetired
  else if isE c then s.fd (R.ethStatus c) 2 0
  else if isS c then s.fd (R.t1sStatus (c - 0x10)) 2 0
  else if s.portsStopped then pDown
  else if isC c then
    match s.fd (R.canStatus (c - 0x20)) 17 16 with
    | 3 => pDisabled
    | 2 => pDown
    | _ => pUp
  else if isL c then (if s.fd (R.linCfg (c - 0x50)) 1 0 = 0 then pDisabled else pUp)
  else if isF c then
    (if s.fd (R.frStatus ((c - 0x68) / 2)) 2 0 = 3 ∨ s.fd (R.frStatus ((c - 0x68) / 2)) 2 0 = 4 then pUp else pDown)
  else if isN c then pUp
  else pDisabled

/-- The error counters of a CAN controller change; error-passive above 127 (ISO 11898-1, PRESUMED). They are frozen in bus-off and under
selective-wake fall-back (R60, R309). -/
def State.canTally (s : State) (n : Nat) (dTec dRec : Int) : State :=
  let w := s.rg (R.canStatus n)
  if 2 ≤ fld w 17 16 ∨ (n < 16 ∧ s.bt (R.cwStat n) 6) then s
  else
    let tec := (max 0 (min 255 ((fld w 7 0 : Int) + dTec))).toNat
    let rec_ := if 127 < fld w 15 8 ∧ dRec < 0 then 127 else (max 0 (min 255 ((fld w 15 8 : Int) + dRec))).toNat
    s.setRg (R.canStatus n) (BitVec.ofNat 32 (tec + rec_ * 2 ^ 8 + (if 127 < tec ∨ 127 < rec_ then 1 else 0) * 2 ^ 16))

/-- Whether a port is UP. -/
def State.portUp (s : State) (c : Nat) : Bool := s.portState c == pUp

/-- The limit of a copy's length on the line (R89): `none` for ports of other media. -/
def State.lenLimit (s : State) (c : Nat) : Option Nat :=
  if isE c then some (s.ethMaxLen c) else if isS c then some 1522 else none

/-- The partition that holds a port. -/
def State.portHolder (s : State) (c : Nat) : Part := s.holder .port c

end Sys2Proof.Machine
end

