-- ==== Sys2Proof/Machine/Gating.lean ====
section
/-! DEFINITION. Timetables (R145 to R153): the entry in force, gates, hold, the next closing of a gate, and the gate family of
commands and events. -/

namespace Sys2Proof.Machine

/-! ### Fields of a timetable (R145) -/

def ttbEn (t : Timetable) : Bool := bit t.header 0
def ttbSrc (t : Timetable) : Nat := fld t.header 2 1
def ttbTt (t : Timetable) : Nat := fld t.header 6 3
def ttbFallback (t : Timetable) : Nat := imgLe t.header 1 1
def ttbCount (t : Timetable) : Nat := imgLe t.header 2 2
def ttbCycle (t : Timetable) : Nat := imgLe t.header 4 4
def ttbBase (t : Timetable) : Nat := imgLe t.header 8 8
def entGates (e : BitVec 64) : Nat := fld e 7 0
def entOp (e : BitVec 64) : Nat := fld e 9 8
def entInterval (e : BitVec 64) : Nat := fld e 63 32

/-- The timetable in force of a port. -/
def State.gateOf (s : State) (n : Nat) : Timetable := kvGet {} s.tab.gates n

/-- The pending timetable of a port. -/
def State.gatePending (s : State) (n : Nat) : Timetable := kvGet {} s.live.gatePend n

/-- The offset at which entry `k` starts in its cycle: the sum of the intervals before it (R147, R150). -/
def entryStart (t : Timetable) (k : Nat) : Nat := ((t.entries.take k).map entInterval).foldl (· + ·) 0

/-- The length of a cycle: the cycle time, or one revolution (R147, R150). -/
def cycleLen (t : Timetable) : Nat := if ttbSrc t = 3 then 2 ^ 24 else ttbCycle t

/-- The entries that run in a cycle: those that start before its end (R147). -/
def runCount (t : Timetable) : Nat :=
  ((List.range t.entries.length).filter (fun k => decide (entryStart t k < cycleLen t))).length

/-- The entry whose span contains an offset in the cycle. -/
def entryAt (t : Timetable) (x : Nat) : Nat :=
  ((List.range (runCount t)).filter (fun k => decide (entryStart t k ≤ x))).length - 1

/-- The referenced time of a timetable under a time reference (R145). -/
def State.gateTime (s : State) (src : Nat) : Nat :=
  match src with
  | 0 => s.pNs
  | 1 => (s.dom 0).ns.toNat
  | _ => (s.dom 1).ns.toNat

/-- The offset in the cycle at present: of the referenced time from base, or of the phase fraction from base. -/
def State.gateOffset (s : State) (t : Timetable) : Nat :=
  if ttbSrc t = 3 then (s.fraction (ttbTt t) s.pNs + 2 ^ 24 - ttbBase t % 2 ^ 24) % 2 ^ 24
  else (((s.gateTime (ttbSrc t) : Int) - ttbBase t) % (max 1 (cycleLen t) : Nat)).toNat

/-! ### Preemption (R141 to R143) -/

/-- GTE_STATUS.mm_active. -/
def State.mmActive (s : State) (n : Nat) : Bool := s.bt (R.gteStatus n) 13

/-- Presented time in ps. -/
def State.pPs (s : State) : Nat := (s.pFine * 1000 / 2 ^ 32).toNat

/-- Frame bytes of a transmission that have left by now. -/
def State.sentNow (s : State) (n : Nat) (t : Tx) : Nat :=
  t.sent + ((s.pPs - t.start) * s.rate n / 8000000 - 8)

/-- The next legal point of a transmission: a 64-byte boundary that leaves both sides at least the minimum fragment long. -/
def State.legalPoint (s : State) (n : Nat) (t : Tx) : Option Nat :=
  let m := 64 * (1 + (s.egOf n).addFrag)
  let b := max (ceilDiv (s.sentNow n t) 64 * 64) (t.sent + m)
  if b + m ≤ t.copy.len then some b else none

/-- Whether a transmission is that of a preemptable frame (R141, R144). -/
def State.preemptable (s : State) (n : Nat) (t : Tx) : Bool := s.mmActive n && !t.copy.express && !t.copy.locked

/-- The instant in ps at which the line is free for the next frame: after the legal point of a preemptable frame in flight with its mCRC
and the gap, after its end when it has no legal point left, else after the gap of what was sent last (R181). -/
def State.lineFree (s : State) (n : Nat) : Nat :=
  match (s.egOf n).tx with
  | some t =>
    match s.legalPoint n t with
    | some b => s.pPs + s.linePs n (b - s.sentNow n t + 4 + 12)
    | none => s.pPs + s.linePs n (t.copy.len - s.sentNow n t + 12)
  | none => max s.pPs (s.egOf n).free

/-- The copy in transmission is preempted at a byte: one fragment has been sent. -/
def State.preempt (s : State) (n : Nat) (t : Tx) (b : Nat) : State :=
  let e := s.egOf n
  let s1 := s.setEg n { e with tx := none, preempted := some { t with sent := b, frags := t.frags + 1 }, free := s.lineFree n }
  (s1.countWide (R.ethCnt n 8)).emit (.fragment (BitVec.ofNat 8 n) t.copy.frame t.sent b)

/-- A preemptable frame in transmission is preempted at its next legal point, if it has one left. -/
def State.preemptTx (s : State) (n : Nat) : State :=
  match (s.egOf n).tx with
  | some t =>
    if s.preemptable n t then
      match s.legalPoint n t with
      | some b => s.preempt n t b
      | none => s
    else s
  | none => s

/-! ### GTE_STATUS -/

/-- The gates in force of a port (GTE_STATUS.gates). -/
def State.gates (s : State) (n : Nat) : Nat := s.fd (R.gteStatus n) 23 16

/-- Whether the gate of a queue is open. -/
def State.gateOpen (s : State) (n q : Nat) : Bool := s.bt (R.gteStatus n) (16 + q)

/-- Whether hold is in force and has effect: mm_active = 1 (R149). -/
def State.holdNow (s : State) (n : Nat) : Bool := s.bt (R.gteStatus n) 14 && s.bt (R.gteStatus n) 13

/-- The hold after an entry starts: set, released, or as it was (R149). -/
def holdAfter (op : Nat) (was : Bool) : Bool :=
  match op with
  | 1 => true
  | 2 => false
  | _ => was

/-- GTE_STATUS with an entry, its gates and the hold. -/
def entryStatus (w : W32) (k gates : Nat) (hold : Bool) : W32 :=
  setFld (setBit (setBit (setFld w 9 0 k) 11 false) 14 hold) 23 16 gates

/-- A hold that is in force preempts a preemptable frame in transmission (R149). -/
def State.heed (s : State) (n : Nat) : State := if s.holdNow n then s.preemptTx n else s

/-- Entry `k` of a port's timetable in force starts: its gates, and its op on the hold. -/
def State.startEntry (s : State) (n k : Nat) : State :=
  let e := (s.gateOf n).entries.getD k 0
  (s.modRg (R.gteStatus n) (fun w => entryStatus w k (entGates e) (holdAfter (entOp e) (bit w 14)))).heed n

/-- A port opens every gate and releases the hold: no timetable is in force (R152). -/
def State.gatesOff (s : State) (n : Nat) : State :=
  s.modRg (R.gteStatus n) (fun w =>
    setFld (setBit (setBit (setBit (setFld w 9 0 0) 10 false) 11 false) 14 false) 23 16 0xFF)

/-- The gates of a port take fallback, and the hold is released (R150). -/
def State.gatesFallback (s : State) (n : Nat) : State :=
  s.modRg (R.gteStatus n) (fun w =>
    setFld (setBit (setBit w 11 true) 14 false) 23 16 (ttbFallback (s.gateOf n)))

/-- Whether a port's timetable in force refers to a turntable. -/
def State.gateOnTt (s : State) (n tt : Nat) : Bool :=
  s.bt (R.gteStatus n) 10 && ttbSrc (s.gateOf n) == 3 && ttbTt (s.gateOf n) == tt

/-- A turntable leaves TRACKING: every timetable referenced to it takes its fallback gates (R150). -/
def State.gatesLost (s : State) (tt : Nat) : State :=
  (List.range 16).foldl (fun a n => if a.gateOnTt n tt then a.gatesFallback n else a) s

/-- A turntable returns to TRACKING: each timetable referenced to it resumes at the entry whose span contains the current
fraction (R150). -/
def State.gatesResume (s : State) (tt : Nat) : State :=
  (List.range 16).foldl (fun a n =>
    if a.gateOnTt n tt then a.startEntry n (entryAt (a.gateOf n) (a.gateOffset (a.gateOf n))) else a) s

/-- After a forward step of P, each timetable under src = 0b00 continues in the entry that contains the new time (R174). -/
def State.gatesStepped (s : State) : State :=
  (List.range 16).foldl (fun a n =>
    let t := a.gateOf n
    if a.bt (R.gteStatus n) 10 && ttbSrc t == 0 then a.startEntry n (entryAt t (a.gateOffset t)) else a) s

/-! ### The next closing of a gate (R148, R151) -/

/-- The distance in the cycle from an offset to the next entry that closes queue `q`, looking through one cycle of entries
from the entry after `k`. -/
def closeFrom (t : Timetable) (q x : Nat) : Nat → Nat → Option Nat
  | 0, _ => none
  | fuel + 1, k =>
    let rc := runCount t
    let j := k % rc
    let at_ := entryStart t j + (k / rc) * cycleLen t
    if ¬ bit (BitVec.ofNat 8 (entGates (t.entries.getD j 0))) q then some (at_ - x) else closeFrom t q x fuel (k + 1)

/-- The ns in which a turntable's phase moves by a distance in the cycle, from its velocity estimate; none while it does not rise (R151). -/
def State.phaseNs (s : State) (t : Timetable) (d : Nat) : Option Nat :=
  let v := s.velocity (ttbTt t)
  if s.ttState (ttbTt t) = ttTracking ∧ 0 < v then some (nsToTurn (s.cpr (ttbTt t)) v d) else none

/-- The ns for a distance in a timetable's cycle: of time, or of phase. -/
def State.cycleNs (s : State) (t : Timetable) (d : Nat) : Option Nat := if ttbSrc t = 3 then s.phaseNs t d else some d

/-- The ns until the timetable in force closes the gate of queue `q` next, `none` when it never does (R148, R151). -/
def State.closeInForce (s : State) (n q : Nat) : Option Nat :=
  let t := s.gateOf n
  if ¬ s.bt (R.gteStatus n) 10 ∨ runCount t = 0 ∨ s.bt (R.gteStatus n) 11 then none
  else
    let x := s.gateOffset t
    (closeFrom t q x (runCount t) (entryAt t x + 1)).bind (s.cycleNs t)

/-- The ns until a pending timetable's first cycle start (R152). -/
def State.pendingIn (s : State) (n : Nat) : Option Nat :=
  let t := s.gatePending n
  if ¬ s.bt (R.gteStatus n) 12 then none
  else if ttbSrc t ≠ 3 ∧ s.gateTime (ttbSrc t) ≤ ttbBase t then some (ttbBase t - s.gateTime (ttbSrc t))
  else s.cycleNs t ((cycleLen t - s.gateOffset t) % max 1 (cycleLen t))

/-- The ns until a pending timetable closes the gate of queue `q`: at its first cycle start, or by a later entry of it. -/
def State.closePending (s : State) (n q : Nat) : Option Nat :=
  let t := s.gatePending n
  (s.pendingIn n).bind (fun p => ((closeFrom t q 0 (runCount t) 0).bind (s.cycleNs t)).map (p + ·))

/-- The instant in ps of presented time at which the gate of queue `q` closes next: by the timetable in force before a pending one starts,
by the pending one, or by a commit, whose instant closes every queue (R144, R148, R152). -/
def State.nextClose (s : State) (n q : Nat) : Option Nat :=
  let cur := match s.closeInForce n q, s.pendingIn n with
    | some d, some p => if d < p then some d else s.closePending n q
    | some d, none => some d
    | none, _ => s.closePending n q
  let gate := cur.map (fun d => s.pPs + d * 1000)
  match gate, (s.egOf n).commit with
  | some d, some m => if m.launched then some d else some (min d m.tc)
  | none, some m => if m.launched then none else some m.tc
  | d, none => d

/-! ### Commands of the gate family (R279) -/

/-- The entries of a timetable in a parameter buffer. -/
def gateEntries (d : CmdDesc) (o n : Nat) : List (BitVec 64) := (List.range n).map (fun k => d.image 64 (o + 8 * k))

/-- The form of GATE_WRITE: 36 + 8 × count bytes. -/
def gateWriteForm (d : CmdDesc) : Form :=
  { kind := .staging
    size := fun l => l == 36 + 8 * d.le 6 2
    clean := d.le 1 3 == 0 && gateHeaderClean (d.params.drop 4) &&
      (gateEntries d 36 (d.le 6 2)).all gateEntryClean }

/-- GATE_WRITE stages a port's timetable. -/
def gateWriteBody (p : Part) (d : CmdDesc) (s : State) : Ans :=
  if ¬ isE (d.b 0) then fail s St.badParam
  else onTarget p d .port (d.b 0)
    (stagePort (d.b 0) p d.ctag (.gate (d.b 0) { header := d.image 256 4, entries := gateEntries d 36 (d.le 6 2) })) s

def execGateWrite (p : Part) (d : CmdDesc) (s : State) : Res :=
  .next (runCommand (gateWriteForm d) p d (gateWriteBody p d) s)

/-- The bytes of a timetable. -/
def gateBytes (t : Timetable) : List Byte := imgBytes t.header ++ t.entries.flatMap (fun e => imgBytes e)

/-- The timetable that a read command sees: staged, in force, or pending. -/
def seenGate (s : State) (p : Part) (d : CmdDesc) (n which : Nat) : Timetable :=
  match findSlot (stagedView s p d) (9, n) with
  | some (.gate _ t) => t
  | _ => if which = 0 then s.gateOf n else s.gatePending n

/-- GATE_READ returns a timetable. -/
def gateReadBody (p : Part) (d : CmdDesc) (s : State) : Ans :=
  if ¬ isE (d.b 0) ∨ 1 < d.b 1 then fail s St.badParam
  else onTarget p d .port (d.b 0) (fun s => withOutput d s s 0 (gateBytes (seenGate s p d (d.b 0) (d.b 1)))) s

def execGateRead (p : Part) (d : CmdDesc) (s : State) : Res :=
  .next (runCommand (readForm 2 true) p d (gateReadBody p d) s)

/-! ### Events -/

/-- The entry after the one in force: the next that runs, or entry 0 at the cycle's end (R147, R150). -/
def State.nextEntry (s : State) (n : Nat) : Nat :=
  let k := s.fd (R.gteStatus n) 9 0
  if k + 1 < runCount (s.gateOf n) then k + 1 else 0

/-- The next entry of a timetable under a time reference starts (R147, R149). -/
def timetableEntryStart (n : EPort) (s : State) : State :=
  if s.bt (R.gteStatus n) 10 && ttbSrc (s.gateOf n) != 3 then s.startEntry n (s.nextEntry n) else s

def execTimetableEntryStart (n : EPort) (s : State) : Res := .next (clocked (timetableEntryStart n) s)

/-- The starts of entries that a port's timetable has crossed. -/
def State.seenStarts (s : State) (n : Nat) : List (Nat × Int) := kvGet [] s.phw.gateSeen n

/-- The entry start that a phase crossing now is: the entry, and the revolution count. -/
def State.startCrossed (s : State) (n k : Nat) : Nat × Int :=
  let t := s.gateOf n
  (k, crossCount (s.cpr (ttbTt t)) (s.phi (ttbTt t) s.pNs + 2 ^ 31) ((ttbBase t + entryStart t k) % 2 ^ 24))

/-- The phase crosses the next entry's start upward, once for each revolution count; outside TRACKING and moving down nothing advances
(R150, R207). -/
def timetablePhaseCrossing (n : EPort) (s : State) : State :=
  let t := s.gateOf n
  let x := s.startCrossed n (s.nextEntry n)
  if s.bt (R.gteStatus n) 10 && ttbSrc t == 3 && s.movesUp (ttbTt t) && !(s.seenStarts n).contains x then
    ({ s with phw.gateSeen := kvSet [] s.phw.gateSeen n.val (x :: s.seenStarts n) } : State).startEntry n (s.nextEntry n)
  else s

def execTimetablePhaseCrossing (n : EPort) (s : State) : Res := .next (clocked (timetablePhaseCrossing n) s)

/-- A pending timetable reaches its first cycle start: it comes into force at its entry 0, SetGateStates releasing the hold (R152). A
turntable that is not tracking, or moves down, crosses no base, and the timetable stays pending (R150, R207). -/
def timetablePendingStart (n : EPort) (s : State) : State :=
  let t := s.gatePending n
  if s.bt (R.gteStatus n) 12 && (ttbSrc t != 3 || s.movesUp (ttbTt t)) then
    let e := t.entries.getD 0 0
    let s1 : State := { s with
      tab.gates := kvSet {} s.tab.gates n.val t, live.gatePend := kvErase s.live.gatePend n.val
      phw.gateSeen := kvSet [] s.phw.gateSeen n.val [] }
    (s1.modRg (R.gteStatus n) (fun w =>
      setBit (setBit (entryStatus w 0 (entGates e) (holdAfter (entOp e) false)) 10 true) 12 false)).heed n
  else s

def execTimetablePendingStart (n : EPort) (s : State) : Res := .next (clocked (timetablePendingStart n) s)

end Sys2Proof.Machine
end

