-- ==== Sys2Proof/Machine/Routes.lean ====
section
/-! DEFINITION. The route family of commands (R279): routes, TCAM, destination sets, VLANs, profiles and stream records. -/

namespace Sys2Proof.Machine

/-! ### Tables in force -/

/-- The positions at which a route key may stand (R77): way × 262,144 + slot. -/
def routePositions (key : BitVec 128) : List Nat :=
  (List.range 4).map (fun w => w * 2 ^ 18 + routeSlot w key)

/-- The key of a route entry: its bytes 0 to 15. -/
def routeKey (e : BitVec 256) : BitVec 128 := BitVec.ofNat 128 e.toNat

/-- The route of a key in a table, with its position. -/
def routeIn (m : List (Nat × Option (BitVec 256))) (key : BitVec 128) : Option (Nat × BitVec 256) :=
  (routePositions key).findSome? (fun pos =>
    match kvGet none m pos with
    | some e => if routeKey e = key then some (pos, e) else none
    | none => none)

/-- The route in force of a key (R77). -/
def State.route (s : State) (key : BitVec 128) : Option (Nat × BitVec 256) := routeIn s.tab.routes key

/-- The TCAM entry in force at an index (R79). -/
def State.tcamAt (s : State) (i : Nat) : BitVec 384 := kvGet 0 s.tab.tcam i

/-- The destination set in force at an index (R82). -/
def State.dsetAt (s : State) (i : Nat) : BitVec 128 := kvGet 0 s.tab.dsets i

/-- The VLAN entry in force of a VID: member in [23:0], untag in [47:24] (R74). -/
def State.vlanAt (s : State) (v : Nat) : BitVec 48 := kvGet 0 s.tab.vlans v

/-- The profiles in force (R86, R104, R118). -/
def State.pprofAt (s : State) (i : Nat) : BitVec 256 := kvGet 0 s.tab.pprofs i
def State.tprofAt (s : State) (i : Nat) : BitVec 512 := kvGet 0 s.tab.tprofs i
def State.eprofAt (s : State) (i : Nat) : BitVec 128 := kvGet 0 s.tab.eprofs i

/-! ### Routes -/

/-- The key of a route command, after its byte 1 is set. -/
def cmdKey (p : Part) (d : CmdDesc) : BitVec 128 := issuedKey p (d.image 128 0)

/-- A body that runs when the issuer holds the key's port, for the port-keyed types (R291). -/
def onKey (p : Part) (d : CmdDesc) (body : State → Ans) (s : State) : Ans :=
  if ownerKeyed (d.image 128 0) then body s
  else onTarget p d .port (imgByte (d.image 128 0) 1).toNat body s

/-- The form of a route command (R279, R395). -/
def routeForm (kind : CKind) (n : Nat) (output : Bool) (d : CmdDesc) : Form :=
  { kind := kind, size := fun l => l == n, output := output,
    clean := exactKeyOk (d.image 128 0) && (n != 32 || routeResultClean d.params) }

/-- The entry that ROUTE_ADD stages: the key with byte 1 set, and the owner (R279). -/
def routeEntry (p : Part) (d : CmdDesc) : BitVec 256 :=
  setImg (setImg (d.image 256 0) 0 16 (cmdKey p d).toNat) 28 1 p.val

/-- ROUTE_ADD stages a route entry. -/
def routeAddBody (p : Part) (d : CmdDesc) : State → Ans :=
  onKey p d (fun s =>
    if ownerKeyed (cmdKey p d) then stageItem s p d.ctag (.route (routeEntry p d))
    else stagePort (imgByte (cmdKey p d) 1).toNat p d.ctag (.route (routeEntry p d)) s)

def execRouteAdd (p : Part) (d : CmdDesc) (s : State) : Res :=
  .next (runCommand (routeForm .staging 32 false d) p d (routeAddBody p d) s)

/-- ROUTE_DEL stages the deletion of a key. -/
def routeDelBody (p : Part) (d : CmdDesc) : State → Ans :=
  onKey p d (fun s =>
    let x := Item.routeDel (cmdKey p d) false
    stageItem s p d.ctag (.routeDel (cmdKey p d) (stagedAdd s p x.slot)))

def execRouteDel (p : Part) (d : CmdDesc) (s : State) : Res :=
  .next (runCommand (routeForm .staging 16 false d) p d (routeDelBody p d) s)

/-- The route that a read command sees: staged, or in force. -/
def seenRoute (s : State) (p : Part) (d : CmdDesc) (key : BitVec 128) : Option (BitVec 256) :=
  match findSlot (stagedView s p d) (Item.routeDel key false).slot with
  | some (.route e) => some e
  | some _ => none
  | none => (s.route key).map (·.2)

/-- ROUTE_READ returns a route entry. -/
def routeReadBody (p : Part) (d : CmdDesc) : State → Ans :=
  onKey p d (fun s =>
    match seenRoute s p d (cmdKey p d) with
    | some e => withOutput d s s 0 (imgBytes e)
    | none => fail s St.notFound)

def execRouteRead (p : Part) (d : CmdDesc) (s : State) : Res :=
  .next (runCommand (routeForm .read 16 true d) p d (routeReadBody p d) s)

/-! ### TCAM, destination sets and VLANs -/

/-- The form of TCAM_WRITE (R79, R395). -/
def tcamWriteForm (d : CmdDesc) : Form :=
  { kind := .staging, size := fun l => l == 50,
    clean := tcamKeyOk (d.image 128 2) && routeResultClean (slice d.params 18 32) }

/-- The TCAM entry that a command stages, with the owner byte set (R279). -/
def tcamEntry (p : Part) (d : CmdDesc) : BitVec 384 := setImg (d.image 384 2) 44 1 p.val

/-- TCAM_WRITE stages a TCAM entry. -/
def tcamWriteBody (p : Part) (d : CmdDesc) : State → Ans :=
  onIndex p d .tcam (d.le 0 2) (fun s => stageItem s p d.ctag (.tcam (d.le 0 2) (tcamEntry p d)))

def execTcamWrite (p : Part) (d : CmdDesc) (s : State) : Res :=
  .next (runCommand (tcamWriteForm d) p d (tcamWriteBody p d) s)

/-- The TCAM entry that a read command sees. -/
def seenTcam (s : State) (p : Part) (d : CmdDesc) (i : Nat) : BitVec 384 :=
  match findSlot (stagedView s p d) (2, i) with
  | some (.tcam _ e) => e
  | _ => s.tcamAt i

/-- TCAM_READ returns a TCAM entry. -/
def tcamReadBody (p : Part) (d : CmdDesc) : State → Ans :=
  onIndex p d .tcam (d.le 0 2) (fun s => withOutput d s s 0 (imgBytes (seenTcam s p d (d.le 0 2))))

def execTcamRead (p : Part) (d : CmdDesc) (s : State) : Res :=
  .next (runCommand (readForm 2 true) p d (tcamReadBody p d) s)

/-- The form of DSET_WRITE: the bits of unlisted port codes are reserved (R82). -/
def dsetWriteForm (d : CmdDesc) : Form :=
  { kind := .staging, size := fun l => l == 18, clean := decide (Nat.land (d.le 2 16) unlistedBits = 0) }

/-- DSET_WRITE stages a destination set. -/
def dsetWriteBody (p : Part) (d : CmdDesc) : State → Ans :=
  onIndex p d .dset (d.le 0 2) (fun s => stageItem s p d.ctag (.dset (d.le 0 2) (d.image 128 2)))

def execDsetWrite (p : Part) (d : CmdDesc) (s : State) : Res :=
  .next (runCommand (dsetWriteForm d) p d (dsetWriteBody p d) s)

/-- The destination set that a read command sees. -/
def seenDset (s : State) (p : Part) (d : CmdDesc) (i : Nat) : BitVec 128 :=
  match findSlot (stagedView s p d) (3, i) with
  | some (.dset _ m) => m
  | _ => s.dsetAt i

/-- DSET_READ returns a bitmap. -/
def dsetReadBody (p : Part) (d : CmdDesc) : State → Ans :=
  onIndex p d .dset (d.le 0 2) (fun s => withOutput d s s 0 (imgBytes (seenDset s p d (d.le 0 2))))

def execDsetRead (p : Part) (d : CmdDesc) (s : State) : Res :=
  .next (runCommand (readForm 2 true) p d (dsetReadBody p d) s)

/-- VLAN_WRITE stages the member and untag bits of a VID. -/
def vlanWriteBody (p : Part) (d : CmdDesc) (s : State) : Ans :=
  if 4096 ≤ d.le 0 2 then fail s St.badParam
  else stageItem s p d.ctag (.vlan (d.le 0 2) (d.image 48 2))

/-- The form of VLAN_WRITE. -/
def vlanForm : Form := { kind := .staging, size := fun l => l == 8 }

def execVlanWrite (p : Part) (d : CmdDesc) (s : State) : Res := .next (runCommand vlanForm p d (vlanWriteBody p d) s)

/-- The bits of a VLAN entry that a partition's items change: those of the ports it holds (R279). -/
def State.heldVlanBits (s : State) (p : Part) : BitVec 48 :=
  BitVec.ofNat 48 ((List.range 24).foldl (fun a c => if s.holder .port c = p then a + 2 ^ c + 2 ^ (c + 24) else a) 0)

/-- A VLAN entry with a staged item's bits merged in. -/
def mergeVlan (old new mask : BitVec 48) : BitVec 48 := (old &&& ~~~mask) ||| (new &&& mask)

/-- The VLAN entry that a read command sees. -/
def seenVlan (s : State) (p : Part) (d : CmdDesc) (v : Nat) : BitVec 48 :=
  match findSlot (stagedView s p d) (4, v) with
  | some (.vlan _ b) => mergeVlan (s.vlanAt v) b (s.heldVlanBits p)
  | _ => s.vlanAt v

/-- VLAN_READ returns the member and untag bitmaps in its result. -/
def vlanReadBody (p : Part) (d : CmdDesc) (s : State) : Ans :=
  if 4096 ≤ d.le 0 2 then fail s St.badParam
  else { s := s, result := (seenVlan s p d (d.le 0 2)).toNat }

def execVlanRead (p : Part) (d : CmdDesc) (s : State) : Res :=
  .next (runCommand (readForm 2 false) p d (vlanReadBody p d) s)

/-! ### Profiles (R86, R104, R118) -/

/-- The kind of resource that a profile kind byte names. -/
def profKind : Nat → Kind
  | 0 => .pprof
  | 1 => .tprof
  | _ => .eprof

/-- The form of PROF_WRITE: the size follows the kind byte. -/
def profWriteForm (d : CmdDesc) : Form :=
  { kind := .staging
    size := fun l => l == (match d.b 0 with | 0 => 36 | 1 => 68 | 2 => 20 | _ => l)
    clean := d.b 1 == 0 && (match d.b 0 with
      | 0 => pprofClean (d.params.drop 4)
      | 1 => tprofClean (d.params.drop 4)
      | 2 => eprofClean (d.params.drop 4)
      | _ => false) }

/-- The item that PROF_WRITE stages. -/
def profItem (d : CmdDesc) : Item :=
  match d.b 0 with
  | 0 => .pprof (d.le 2 2) (d.image 256 4)
  | 1 => .tprof (d.le 2 2) (d.image 512 4)
  | _ => .eprof (d.le 2 2) (d.image 128 4)

/-- Whether a profile index exists: end-to-end profiles are numbered from 1 (R81, R289). -/
def profIndexOk (kind i : Nat) : Bool := decide (kind ≤ 2) && decide (i < (profKind kind).size) && (kind != 2 || i != 0)

/-- PROF_WRITE stages a profile. -/
def profWriteBody (p : Part) (d : CmdDesc) (s : State) : Ans :=
  if ¬ profIndexOk (d.b 0) (d.le 2 2) then fail s St.badParam
  else onTarget p d (profKind (d.b 0)) (d.le 2 2) (fun s => stageItem s p d.ctag (profItem d)) s

def execProfWrite (p : Part) (d : CmdDesc) (s : State) : Res :=
  .next (runCommand (profWriteForm d) p d (profWriteBody p d) s)

/-- The profile bytes that a read command sees. -/
def seenProf (s : State) (p : Part) (d : CmdDesc) (kind i : Nat) : List Byte :=
  match findSlot (stagedView s p d) (5 + kind, i) with
  | some (.pprof _ e) => imgBytes e
  | some (.tprof _ e) => imgBytes e
  | some (.eprof _ e) => imgBytes e
  | _ =>
    match kind with
    | 0 => imgBytes (s.pprofAt i)
    | 1 => imgBytes (s.tprofAt i)
    | _ => imgBytes (s.eprofAt i)

/-- PROF_READ returns a profile. -/
def profReadBody (p : Part) (d : CmdDesc) (s : State) : Ans :=
  if ¬ profIndexOk (d.b 0) (d.le 2 2) then fail s St.badParam
  else onTarget p d (profKind (d.b 0)) (d.le 2 2)
    (fun s => withOutput d s s 0 (seenProf s p d (d.b 0) (d.le 2 2))) s

/-- The form of PROF_READ. -/
def profReadForm (d : CmdDesc) : Form := { readForm 4 true with clean := d.b 1 == 0 }

def execProfRead (p : Part) (d : CmdDesc) (s : State) : Res :=
  .next (runCommand (profReadForm d) p d (profReadBody p d) s)

/-! ### Stream records (R85) -/

/-- The pinned identity of a command, byte 1 set as for routes. -/
def pinForm (n : Nat) (d : CmdDesc) : Form :=
  { kind := .staging, size := fun l => l == n, clean := exactKeyOk (d.image 128 0) }

/-- STREAM_PIN stages a pinned record. -/
def streamPinBody (p : Part) (d : CmdDesc) : State → Ans :=
  onKey p d (fun s => stageItem s p d.ctag (.pin (cmdKey p d) (byteAt d.params 16)))

def execStreamPin (p : Part) (d : CmdDesc) (s : State) : Res :=
  .next (runCommand (pinForm 17 d) p d (streamPinBody p d) s)

/-- STREAM_UNPIN stages the removal of a pinned record. -/
def streamUnpinBody (p : Part) (d : CmdDesc) : State → Ans :=
  onKey p d (fun s =>
    stageItem s p d.ctag (.unpin (cmdKey p d) (stagedAdd s p (Item.unpin (cmdKey p d) false).slot)))

def execStreamUnpin (p : Part) (d : CmdDesc) (s : State) : Res :=
  .next (runCommand (pinForm 16 d) p d (streamUnpinBody p d) s)

/-- The 32 bytes of a stream record (R85). `idle_s` counts from the last matching frame. -/
def streamBytes (s : State) (r : Stream) : List Byte :=
  imgBytes r.identity ++ [r.prof, BitVec.ofNat 8 (boolNat r.pinned + 2 * boolNat r.mafre)] ++
    leBytes 2 (min 0xFFFF ((s.upNs - r.lastHit) / 1000000000)) ++ imgBytes r.frames ++ imgBytes r.red ++
    imgBytes r.rseq ++ [0, 0]

/-- STREAM_READ returns a record. A record is no granted resource: every partition reads every one. -/
def streamReadBody (_p : Part) (d : CmdDesc) (s : State) : Ans :=
  if 4096 ≤ d.le 0 2 then fail s St.badParam
  else withOutput d s s 0 (streamBytes s (s.stream (d.le 0 2)))

def execStreamRead (p : Part) (d : CmdDesc) (s : State) : Res :=
  .next (runCommand (readForm 2 true) p d (streamReadBody p d) s)

/-- STREAM_CLEAR clears mafre_latched of a record. -/
def streamClearBody (_p : Part) (d : CmdDesc) (s : State) : Ans :=
  if 4096 ≤ d.le 0 2 then fail s St.badParam
  else { s := s.setStream (d.le 0 2) { s.stream (d.le 0 2) with mafre := false } }

/-- The form of STREAM_CLEAR. -/
def streamClearForm : Form := { kind := .immediate, size := fun l => l == 2 }

def execStreamClear (p : Part) (d : CmdDesc) (s : State) : Res :=
  .next (runCommand streamClearForm p d (streamClearBody p d) s)

end Sys2Proof.Machine
end

