-- ==== Sys2Proof/Machine/Parse.lean ====
section
/-! DEFINITION. Step 1: what the parser reads from a frame, and the keys it builds (R73, R76, R88). -/

namespace Sys2Proof.Machine

/-- What the parser reads of an Ethernet or T1S frame: whether it drops the frame under PARSE, the outer tag's TCI, the offset
of the EtherType and the EtherType. -/
structure Parsed where
  bad   : Bool := false
  tci   : Option Nat := none
  etOff : Nat := 12
  etype : Nat := 0
  deriving DecidableEq, Repr

/-- Whether a type field begins a VLAN tag (R73). -/
def isTag (t : Nat) : Bool := t == 0x8100 || t == 0x88A8

/-- The type fields after the source address, with at most two tags. -/
def parseTags (l : List Byte) (tci : Option Nat) (off : Nat) : Nat → Parsed
  | 0 => if l.length < off + 2 then { bad := true }
         else { bad := isTag (beAt l off 2), tci := tci, etOff := off, etype := beAt l off 2 }
  | k + 1 =>
    if l.length < off + 2 then { bad := true }
    else if isTag (beAt l off 2) then
      parseTags l (some (tci.getD (beAt l (off + 2) 2))) (off + 4) k
    else { tci := tci, etOff := off, etype := beAt l off 2 }

/-- Step 1 on an Ethernet or T1S frame (R73). -/
def parseEth (l : List Byte) : Parsed :=
  let p := parseTags l none 12 2
  if p.etype = 0x22F0 ∧ l.length < p.etOff + 14 then { p with bad := true } else p

/-- Whether a frame is an EAPOL frame (R226). -/
def isEapol (l : List Byte) : Bool := (parseEth l).etype == 0x888E

/-- The VID and PCP of the outer tag. -/
def Parsed.vid (p : Parsed) : Nat := (p.tci.getD 0) % 4096
def Parsed.pcp (p : Parsed) : Nat := (p.tci.getD 0) / 8192

/-- Whether a frame carries a VLAN tag. -/
def Parsed.tagged (p : Parsed) : Bool := p.tci.isSome

/-- A 16-byte key from its bytes, the missing ones 0. -/
def keyOf (l : List Byte) : BitVec 128 := imgOf 128 (slice l 0 16)

/-- The VID bytes of a key: [11:0] VID in bytes 2 and 3, most significant byte first, with `top` above it. -/
def vidBytes (vid top : Nat) : List Byte := beBytes 2 (vid + top * 8192)

/-- A value of a header slot, as its bytes. -/
def hslotBytes (h : BitVec 128) (o n : Nat) : List Byte := slice (imgBytes h) o n

/-- The header slot's CAN fields (R57). -/
def canIdent (h : BitVec 128) : Nat := imgLe h 0 4
def canFmt (h : BitVec 128) : Nat := imgLe h 4 1
def canDlc (h : BitVec 128) : Nat := imgLe h 5 1 % 16
def canType (h : BitVec 128) : Nat := canFmt h % 4
def canIde (h : BitVec 128) : Bool := bit h 34
def canRtr (h : BitVec 128) : Bool := bit h 35

/-- The key of a bus frame or sentence (R76): identifiers of the header slot most significant byte first. -/
def busKey (c : Nat) (h : BitVec 128) (l : List Byte) : BitVec 128 :=
  let b1 : Byte := BitVec.ofNat 8 c
  if isC c then keyOf ([3, b1, 0, 0] ++ beBytes 4 (canIdent h) ++ [BitVec.ofNat 8 (canFmt h % 8)])
  else if isL c then keyOf [4, b1, 0, 0, imgByte h 0]
  else if isF c then keyOf ([5, b1, 0, 0] ++ beBytes 2 (imgLe h 0 2 % 2048) ++ [BitVec.ofNat 8 (imgLe h 2 1 % 64)])
  else keyOf ([6, b1, 0, 0] ++ slice l 1 5)

/-- The exact key of an Ethernet or T1S frame (R76). -/
def State.ethKey (s : State) (c : Nat) (owner : Part) (vid : Nat) (p : Parsed) (l : List Byte) : BitVec 128 :=
  if p.etype = 0x22F0 then keyOf ([2, BitVec.ofNat 8 owner] ++ vidBytes vid 0 ++ slice l (p.etOff + 6) 8)
  else if s.bt (R.portCfg c) 14 then keyOf ([1, BitVec.ofNat 8 c] ++ vidBytes vid 0 ++ slice l 0 6)
  else keyOf ([0, BitVec.ofNat 8 owner] ++ vidBytes vid 0 ++ slice l 0 6)

/-- The ETH_RAW key of an Ethernet or T1S frame (R76). -/
def rawKey (c vid : Nat) (p : Parsed) (l : List Byte) : BitVec 128 :=
  keyOf ([7, BitVec.ofNat 8 c] ++ vidBytes vid p.pcp ++ slice l p.etOff 12)

/-- The node key of a frame (R88, R234): the port code and the source address, or bytes 4 to 10 of the route key. -/
def nodeKey (c : Nat) (h : BitVec 128) (l : List Byte) : BitVec 64 :=
  if isES c then imgOf 64 (BitVec.ofNat 8 c :: slice l 6 6)
  else imgOf 64 (BitVec.ofNat 8 c :: slice (imgBytes (busKey c h l)) 4 7)

/-! ### The node registry (R234, R235) -/

/-- A node entry of R234. -/
abbrev Node := BitVec 256

def ndKey (e : Node) : BitVec 64 := BitVec.ofNat 64 e.toNat
def ndPort (e : Node) : Nat := imgLe e 0 1
def ndFresh (e : Node) : Nat := imgLe e 8 6
def ndSlot (e : Node) : Option Nat := if bit e 123 then some (imgLe e 14 2 % 2048) else none
def ndMode (e : Node) : Nat := imgLe e 16 1 % 4
def ndLocal (e : Node) : Bool := bit e 130
def ndRequired (e : Node) : Bool := bit e 131
def ndTfv (e : Node) : Nat := imgLe e 17 1
def ndTmac (e : Node) : Nat := imgLe e 18 1
def ndWin (e : Node) : Nat := imgLe e 19 1
def ndDid (e : Node) : Nat := imgLe e 20 2
def ndMember (e : Node) : Bool := bit e 176
def ndHeld (e : Node) : Bool := bit e 184
def ndAuthFail (e : Node) : Nat := imgLe e 26 1
def ndAuthMax (e : Node) : Nat := imgLe e 27 1

/-- The positions at which a node key may stand (R235): way × 65,536 + slot. -/
def nodePositions (k : BitVec 64) : List Nat := (List.range 4).map (fun w => w * 65536 + nodeSlot w k)

/-- The node of a key in a table, with its index. -/
def nodeIn (m : List (Nat × Option Node)) (k : BitVec 64) : Option (Nat × Node) :=
  (nodePositions k).findSome? (fun i =>
    match kvGet none m i with
    | some e => if ndKey e = k then some (i, e) else none
    | none => none)

/-- The node in force of a key. -/
def State.node (s : State) (k : BitVec 64) : Option (Nat × Node) := nodeIn s.tab.nodes k

/-- The node entry at an index. -/
def State.nodeAt (s : State) (i : Nat) : Option Node := kvGet none s.tab.nodes i

/-- A write of hardware-owned fields of an entry, with their second copy (R15). -/
def State.setNode (s : State) (i : Nat) (e : Node) : State :=
  { s with tab.nodes := kvSet none s.tab.nodes i (some e), live.nodeCopy := kvSet none s.live.nodeCopy i (some e) }

/-- A node is held with a cause and a hold time; 0 is until released (R234). -/
def State.holdNode (s : State) (i : Nat) (cause ms : Nat) : State :=
  match s.nodeAt i with
  | none => s
  | some e =>
    let t := s.setNode i (setImg (setImg e 23 1 (1 + 2 * cause)) 24 2 ms)
    { t with live.holdAt := kvSet 0 t.live.holdAt i s.upNs }

end Sys2Proof.Machine
end

