-- ==== Sys2Proof/Machine/Remote.lean ====
section
/-! DEFINITION. Bridge transactions: slots, their data buffers, responses and far-side errors (R130 to R133). -/

namespace Sys2Proof.Machine

/-! ### Windows (R130) -/

/-- A window entry of R130. -/
abbrev Window := BitVec 128

def wnPort (w : Window) : Nat := imgLe w 0 1
def wnFmt (w : Window) : Nat := imgLe w 1 1 % 4
def wnIde (w : Window) : Bool := bit w 10
def wnTc (w : Window) : Nat := imgLe w 2 1 % 8
def wnEnable (w : Window) : Bool := bit w 19
def wnReq (w : Window) : Nat := imgLe w 4 4
def wnResp (w : Window) : Nat := imgLe w 8 4
def wnTmo (w : Window) : Nat := imgLe w 12 2

/-- The window in force of a partition. -/
def State.window (s : State) (p : Part) (k : Nat) : Window := kvGet 0 s.tab.windows (p.val * 32 + k)

/-- A slot's states (BRG_SLOTk_STAT). -/
def slFree : BitVec 2 := 0
def slPending : BitVec 2 := 1
def slReady : BitVec 2 := 2
def slError : BitVec 2 := 3

/-- Where slot `k`'s data buffer lies in the mailbox. -/
def slotBase (p : Part) (k : Nat) : Nat := p.val * 512 + k * 64

/-- A write of a slot's data buffer. -/
def State.setSlotData (s : State) (p : Part) (k : Nat) (l : List Byte) : State :=
  { s with reg.mailbox := Memory.writeBytes s.reg.mailbox (slotBase p k) l }

/-- The bytes of a slot's data buffer. -/
def State.slotData (s : State) (p : Part) (k n : Nat) : List Byte := Memory.readBytes s.reg.mailbox (slotBase p k) n

/-- A slot returns to FREE; a request of it that is still open has no slot any more (R132). -/
def State.freeSlot (s : State) (p : Part) (k : Nat) : State :=
  let t := s.setSlot p k {}
  { t with cmd.openReqs := t.cmd.openReqs.map (fun r =>
      if r.part = p ∧ r.slot = some k then { r with slot := none } else r) }

/-- The result of a remote read: its data bytes, byte 0 least significant (R8). -/
def remoteResult (l : List Byte) : Nat := leNat (l.take 8)

/-- A transaction's slot takes its outcome: a REMOTE_ACCESS completes and frees its slot with the reply; otherwise the slot is held
in READY or ERROR (R132, R133). -/
def State.endSlot (s : State) (p : Part) (k : Nat) (far : Nat) (data : List Byte) : State :=
  let x := s.slot p k
  match x.cmd with
  | some (tag, irq) =>
    let r : Reply := { tag := tag, status := if far = 0 then St.ok else St.farError
                       result := BitVec.ofNat 64 (if far = 0 then (if x.write then 0 else remoteResult data) else far)
                       irq := irq }
    (s.freeSlot p k).complete p r
  | none =>
    let s1 := s.setSlot p k { x with state := if far = 0 then slReady else slError, far := BitVec.ofNat 8 far }
    if far = 0 ∧ ¬ x.write then s1.setSlotData p k data else s1

/-- A request is answered or given up. -/
def State.closeReq (s : State) (r : OpenReq) : State :=
  { s with cmd.openReqs := s.cmd.openReqs.filter (fun x => !(x == r)) }

/-- A far-side error (R133): logged and counted; the slot goes to ERROR while it is held. -/
def State.farError (s : State) (r : OpenReq) (far : Nat) : State :=
  let s1 := ((s.closeReq r).modRgp r.part R.farErr (fun w => satInc w 1)).report 0x0112 kTransient r.part.val 0xFF
    (far + r.window * 2 ^ 8 + r.tag.toNat * 2 ^ 16)
  match r.slot with
  | some k => s1.endSlot r.part k far []
  | none => s1

/-- A response: status 0x00 completes the transaction; another status is a far-side error. Missing read data is a free value. -/
def State.farResponse (s : State) (r : OpenReq) (status : Nat) (data : List Byte) : State :=
  if status ≠ 0 then s.farError r status
  else match r.slot with
    | none => s.closeReq r
    | some k =>
      let x := s.slot r.part k
      let (pad, s1) := drawBytes (x.len - data.length) s
      (s1.closeReq r).endSlot r.part k 0 ((data ++ pad).take x.len)

/-- Whether a frame is the response to an open request of a window: port, resp_id and, in its second byte, the tag (R131). -/
def State.answers (s : State) (c : Nat) (h : BitVec 128) (l : List Byte) (r : OpenReq) : Bool :=
  let e := s.window r.part r.window
  let ident := if isC c then canIdent h else if isL c then imgLe h 0 1 else imgLe h 0 2 % 2048
  let data := if isC c ∧ canType h = 2 then l.drop 16 else l
  decide (wnPort e = c ∧ wnResp e = ident ∧ 2 ≤ data.length) && byteAt data 1 == r.tag

/-- A received bus frame that answers an open request completes it, and goes no further (R131, step 3). -/
def State.bridgeTake (s : State) (c : Nat) (h : BitVec 128) (l : List Byte) : Option State :=
  match s.cmd.openReqs.find? (fun r => s.answers c h l r) with
  | none => none
  | some r =>
    let data := if isC c ∧ canType h = 2 then l.drop 16 else l
    some (s.farResponse r (byteAt data 0).toNat (data.drop 4))

/-- A request frame that is dropped under TX_FAIL or LINK_DOWN could not be sent (R133). -/
def State.unsendable (s : State) (frame : Nat) : State :=
  match s.cmd.openReqs.find? (fun r => r.frame == some frame) with
  | some r => s.farError r 0xF3
  | none => s

end Sys2Proof.Machine
end

