-- ==== Sys2Proof/Machine/Crypto.lean ====
section
/-! DEFINITION. The ciphers and curves of CRY: AES (FIPS 197), ECB, CBC, CTR, GCM, CMAC (SP 800-38A, 38B, 38D), P-256 and P-384
(FIPS 186-5), as the standards that R7 and R238 to R240 name give them. -/

namespace Sys2Proof.Machine

/-! ### AES -/

/-- Multiplication by x in GF(2^8) of AES. -/
def xtime (a : Nat) : Nat := if a < 128 then 2 * a else Nat.xor (2 * a - 256) 0x1B

/-- Multiplication in GF(2^8), over the low `fuel` bits of `b`. -/
def gmul (fuel a b : Nat) : Nat :=
  match fuel with
  | 0 => 0
  | k + 1 => Nat.xor (if b % 2 = 1 then a else 0) (gmul k (xtime a) (b / 2))

/-- The inverse in GF(2^8), as the power 254. -/
def ginv (a : Nat) : Nat :=
  let sq := fun x => gmul 8 x x
  let a2 := sq a
  let a4 := sq a2
  let a8 := sq a4
  let a16 := sq a8
  let a32 := sq a16
  let a64 := sq a32
  let a128 := sq a64
  gmul 8 a2 (gmul 8 a4 (gmul 8 a8 (gmul 8 a16 (gmul 8 a32 (gmul 8 a64 a128)))))

/-- A byte rotated left. -/
def rotl8 (v k : Nat) : Nat := (v * 2 ^ k + v / 2 ^ (8 - k)) % 256

/-- The S-box. -/
def sbox (a : Nat) : Nat :=
  let i := ginv a
  Nat.xor i (Nat.xor (rotl8 i 1) (Nat.xor (rotl8 i 2) (Nat.xor (rotl8 i 3) (Nat.xor (rotl8 i 4) 0x63))))

/-- The inverse S-box. -/
def sboxInv (a : Nat) : Nat := ginv (Nat.xor (rotl8 a 1) (Nat.xor (rotl8 a 3) (Nat.xor (rotl8 a 6) 0x05)))

/-- Bytes XORed place by place. -/
def xorL : List Nat → List Nat → List Nat
  | a :: r, b :: t => Nat.xor a b :: xorL r t
  | _, _ => []

/-- The round constant of step `i`. -/
def rcon : Nat → Nat
  | 0 => 1
  | n + 1 => xtime (rcon n)

/-- A word of the key schedule, from the word before it and the one `nk` before it, at index `i`. -/
def nextWord (nk i : Nat) (prev back : List Nat) : List Nat :=
  if i % nk = 0 then
    match (prev.drop 1 ++ prev.take 1).map sbox with
    | t :: r => xorL back (Nat.xor t (rcon (i / nk - 1)) :: r)
    | [] => back
  else if nk = 8 ∧ i % 8 = 4 then xorL back (prev.map sbox)
  else xorL back prev

/-- Key expansion: words newest first, extended `fuel` times from index `i`. -/
def expand (nk : Nat) : Nat → Nat → List (List Nat) → List (List Nat)
  | 0, _, ws => ws
  | fuel + 1, i, ws => expand nk fuel (i + 1) (nextWord nk i (ws.headD []) (ws.getD (nk - 1) []) :: ws)

/-- Bytes cut into pieces of `n`. -/
def chunks {α : Type} (n : Nat) : Nat → List α → List (List α)
  | 0, _ => []
  | fuel + 1, l => if l.isEmpty then [] else l.take n :: chunks n fuel (l.drop n)

/-- The round keys of 16 or 32 key bytes, 16 bytes each, in order. -/
def roundKeys (key : List Nat) : List (List Nat) :=
  let nk := key.length / 4
  let ws := (expand nk (4 * (nk + 7) - nk) nk (chunks 4 nk key).reverse).reverse
  (chunks 4 (nk + 7) ws).map List.flatten

/-- ShiftRows: byte 4c + r takes column c + r. -/
def shiftRows (b : List Nat) : List Nat :=
  (List.range 16).map (fun i => b.getD (4 * ((i / 4 + i % 4) % 4) + i % 4) 0)

/-- InvShiftRows. -/
def shiftRowsInv (b : List Nat) : List Nat :=
  (List.range 16).map (fun i => b.getD (4 * ((i / 4 + 4 - i % 4) % 4) + i % 4) 0)

/-- A column mix with coefficients m0 to m3 of the first row. -/
def mixWith (m : List Nat) (b : List Nat) : List Nat :=
  (List.range 16).map (fun i =>
    let c := i / 4
    let r := i % 4
    (List.range 4).foldl (fun a k => Nat.xor a (gmul 8 (b.getD (4 * c + k) 0) (m.getD ((k + 4 - r) % 4) 0))) 0)

/-- The rounds of encryption. -/
def encRounds : List (List Nat) → List Nat → List Nat
  | [], b => b
  | [k], b => xorL (shiftRows (b.map sbox)) k
  | k :: r, b => encRounds r (xorL (mixWith [2, 3, 1, 1] (shiftRows (b.map sbox))) k)

/-- The rounds of decryption, keys from the last. -/
def decRounds : List (List Nat) → List Nat → List Nat
  | [], b => b
  | [k], b => xorL ((shiftRowsInv b).map sboxInv) k
  | k :: r, b => decRounds r (mixWith [14, 11, 13, 9] (xorL ((shiftRowsInv b).map sboxInv) k))

/-- A byte list as numbers, and back. -/
def natsOf (l : List Byte) : List Nat := l.map BitVec.toNat
def bytesOf (l : List Nat) : List Byte := l.map (BitVec.ofNat 8)

/-- AES encryption of a block under round keys. -/
def aesEnc (ks : List (List Nat)) (b : List Nat) : List Nat :=
  match ks with
  | [] => b
  | k :: r => encRounds r (xorL b k)

/-- AES decryption of a block under round keys. -/
def aesDec (ks : List (List Nat)) (b : List Nat) : List Nat :=
  match ks.reverse with
  | [] => b
  | k :: r => decRounds r (xorL b k)

/-! ### Modes -/

/-- A 16-byte block as a number, most significant byte first, and back. -/
def blockNat (b : List Nat) : Nat := b.foldl (fun a x => a * 256 + x) 0
def natBlock (v : Nat) : List Nat := natsOf (beBytes 16 v)

/-- ECB. -/
def ecb (ks : List (List Nat)) (enc : Bool) (l : List Nat) : List Nat :=
  ((chunks 16 (l.length / 16) l).map (if enc then aesEnc ks else aesDec ks)).flatten

/-- CBC over blocks. -/
def cbc (ks : List (List Nat)) (enc : Bool) : List Nat → List (List Nat) → List Nat
  | _, [] => []
  | iv, b :: r =>
    if enc then
      let c := aesEnc ks (xorL b iv)
      c ++ cbc ks enc c r
    else xorL (aesDec ks b) iv ++ cbc ks enc b r

/-- CTR over blocks, the counter incremented modulo 2^`w` in its low bits. -/
def ctr (ks : List (List Nat)) (w : Nat) : Nat → List (List Nat) → List Nat
  | _, [] => []
  | c, b :: r =>
    let next := c / 2 ^ w * 2 ^ w + (c + 1) % 2 ^ w
    xorL b (aesEnc ks (natBlock c)) ++ ctr ks w next r

/-- The blocks of a text, the last one possibly short. -/
def blocks (l : List Nat) : List (List Nat) := chunks 16 (l.length / 16 + 1) l

/-- A short block filled with zeros. -/
def padZero (b : List Nat) : List Nat := b ++ List.replicate (16 - b.length) 0

/-- Multiplication in GF(2^128) of GHASH, over the bits of `x` from the most significant. -/
def ghMul : Nat → Nat → Nat → Nat → Nat
  | 0, _, _, z => z
  | k + 1, x, v, z =>
    let z' := if x / 2 ^ k % 2 = 1 then Nat.xor z v else z
    let v' := if v % 2 = 1 then Nat.xor (v / 2) (0xE1 * 2 ^ 120) else v / 2
    ghMul k x v' z'

/-- GHASH of blocks. -/
def ghash (h : Nat) (bs : List (List Nat)) : Nat :=
  bs.foldl (fun y b => ghMul 128 (Nat.xor y (blockNat (padZero b))) h 0) 0

/-- GCM with a 12-byte IV: the output text and the tag, which covers the ciphertext in both directions. -/
def gcm (key : List Nat) (enc : Bool) (iv aad text : List Nat) : List Nat × List Nat :=
  let ks := roundKeys key
  let h := blockNat (aesEnc ks (List.replicate 16 0))
  let j0 := blockNat (iv ++ [0, 0, 0, 1])
  let out := ctr ks 32 (j0 / 2 ^ 32 * 2 ^ 32 + (j0 + 1) % 2 ^ 32) (blocks text)
  let c := if enc then out else text
  let len := natBlock (aad.length * 8 * 2 ^ 64 + c.length * 8)
  (out, xorL (natBlock (ghash h (blocks aad ++ blocks c ++ [len]))) (aesEnc ks (natBlock j0)))

/-- Doubling in GF(2^128) of CMAC. -/
def dbl (v : Nat) : Nat := if v < 2 ^ 127 then 2 * v else Nat.xor (2 * v - 2 ^ 128) 0x87

/-- The chain of CMAC over full blocks and the last block. -/
def cmacChain (ks : List (List Nat)) (last : List Nat → List Nat) : List Nat → List (List Nat) → List Nat
  | x, [] => aesEnc ks (xorL x (last []))
  | x, [b] => aesEnc ks (xorL x (last b))
  | x, b :: r => cmacChain ks last (aesEnc ks (xorL x b)) r

/-- AES-CMAC. -/
def cmac (key msg : List Nat) : List Nat :=
  let ks := roundKeys key
  let k1 := dbl (blockNat (aesEnc ks (List.replicate 16 0)))
  let last := fun (b : List Nat) =>
    if b.length = 16 then xorL b (natBlock k1) else xorL (padZero (b ++ [0x80])) (natBlock (dbl k1))
  cmacChain ks last (List.replicate 16 0) (blocks msg)

/-! ### Curves -/

/-- A curve y² = x³ − 3x + b over a prime field. -/
structure Curve where
  bytes : Nat
  p     : Nat
  b     : Nat
  n     : Nat
  gx    : Nat
  gy    : Nat

/-- P-256 and P-384. -/
def curveOf (p384 : Bool) : Curve :=
  if p384 then
    { bytes := 48
      p := 0xFFFFFFFFFFFFFFFFFFFFFFFFFFFFFFFFFFFFFFFFFFFFFFFFFFFFFFFFFFFFFFFEFFFFFFFF0000000000000000FFFFFFFF
      b := 0xB3312FA7E23EE7E4988E056BE3F82D19181D9C6EFE8141120314088F5013875AC656398D8A2ED19D2A85C8EDD3EC2AEF
      n := 0xFFFFFFFFFFFFFFFFFFFFFFFFFFFFFFFFFFFFFFFFFFFFFFFFC7634D81F4372DDF581A0DB248B0A77AECEC196ACCC52973
      gx := 0xAA87CA22BE8B05378EB1C71EF320AD746E1D3B628BA79B9859F741E082542A385502F25DBF55296C3A545E3872760AB7
      gy := 0x3617DE4A96262C6F5D9E98BF9292DC29F8F41DBD289A147CE9DA3113B5F0B8C00A60B1CE1D7E819D7A431D7C90EA0E5F }
  else
    { bytes := 32
      p := 0xFFFFFFFF00000001000000000000000000000000FFFFFFFFFFFFFFFFFFFFFFFF
      b := 0x5AC635D8AA3A93E7B3EBBD55769886BC651D06B0CC53B0F63BCE3C3E27D2604B
      n := 0xFFFFFFFF00000000FFFFFFFFFFFFFFFFBCE6FAADA7179E84F3B9CAC2FC632551
      gx := 0x6B17D1F2E12C4247F8BCE6E563A440F277037D812DEB33A0F4A13945D898C296
      gy := 0x4FE342E2FE1A7F9B8EE7EB4A7C0F9E162BCE33576B315ECECBB6406837BF51F5 }

/-- A power modulo `m`, over the low `fuel` bits of the exponent. -/
def powMod (m : Nat) : Nat → Nat → Nat → Nat
  | 0, _, _ => 1 % m
  | fuel + 1, a, e =>
    let r := powMod m fuel (a * a % m) (e / 2)
    if e % 2 = 1 then a * r % m else r

/-- The inverse modulo a prime. -/
def invMod (m a : Nat) : Nat := powMod m 384 (a % m) (m - 2)

/-- A point: `none` is the point at infinity. -/
abbrev Pt := Option (Nat × Nat)

/-- Whether a pair of coordinates is a point of the curve (R240). -/
def Curve.on (c : Curve) (x y : Nat) : Bool :=
  decide (x < c.p ∧ y < c.p) && decide (y * y % c.p = (x * x % c.p * x + (c.p - 3) * x + c.b) % c.p)

/-- The sum of two points. -/
def Curve.add (c : Curve) (a b : Pt) : Pt :=
  match a, b with
  | none, q => q
  | q, none => q
  | some (x1, y1), some (x2, y2) =>
    if x1 = x2 ∧ (y1 + y2) % c.p = 0 then none
    else
      let l :=
        if x1 = x2 then (3 * x1 * x1 + (c.p - 3)) * invMod c.p (2 * y1) % c.p
        else (y2 + c.p - y1) * invMod c.p (x2 + c.p - x1) % c.p
      let x := (l * l + 2 * c.p - x1 - x2) % c.p
      some (x, (l * (x1 + c.p - x) + (c.p - y1)) % c.p)

/-- A multiple of a point, over the low `fuel` bits of the scalar. -/
def Curve.mul (c : Curve) : Nat → Nat → Pt → Pt
  | 0, _, _ => none
  | fuel + 1, k, q =>
    let r := c.mul fuel (k / 2) (c.add q q)
    if k % 2 = 1 then c.add q r else r

/-- The bit length of a curve's numbers. -/
def Curve.bits (c : Curve) : Nat := 8 * c.bytes

/-- The base point. -/
def Curve.g (c : Curve) : Pt := some (c.gx, c.gy)

/-- Whether a scalar is 0 or at least n (R240). -/
def Curve.badScalar (c : Curve) (k : Nat) : Bool := k == 0 || decide (c.n ≤ k)

/-- ECDSA verification of a truncated digest (FIPS 186-5). -/
def Curve.verify (c : Curve) (e qx qy r s : Nat) : Bool :=
  let w := invMod c.n s
  match c.add (c.mul c.bits (e * w % c.n) c.g) (c.mul c.bits (r * w % c.n) (some (qx, qy))) with
  | none => false
  | some (x, _) => x % c.n == r

/-- The bytes of a coordinate, most significant first. -/
def Curve.coord (c : Curve) (v : Nat) : List Byte := beBytes c.bytes v

end Sys2Proof.Machine
end

