-- ==== Sys2Proof/Machine/Keys.lean ====
section
/-! DEFINITION. The key family (08_security.md): key slots, the raw block services, the public-key engine, entropy. -/

namespace Sys2Proof.Machine

/-! ### Fields of a key slot (R220) -/

/-- A key slot image of R220. -/
abbrev KeySlot := BitVec 1024

def ksType (k : KeySlot) : Nat := imgLe k 0 1
def ksOwner (k : KeySlot) : Nat := imgLe k 1 1 % 8
def ks256 (k : KeySlot) : Bool := bit k 16
def ksXpn (k : KeySlot) : Bool := bit k 17
def ksP384 (k : KeySlot) : Bool := bit k 18
def ksConf (k : KeySlot) : Bool := bit k 24
def ksOffset (k : KeySlot) : Nat := fld k 26 25
def ksSc (k : KeySlot) : Bool := bit k 27
def ksEs (k : KeySlot) : Bool := bit k 28
def ksScb (k : KeySlot) : Bool := bit k 29
def ksActive (k : KeySlot) : Bool := bit k 30
def ksPort (k : KeySlot) : Nat := imgLe k 4 1
def ksAn (k : KeySlot) : Nat := imgLe k 5 1 % 4
def ksAlt (k : KeySlot) : Option Nat := if bit k 63 then some (imgLe k 6 2 % 2048) else none
/-- The SCI, most significant byte first. -/
def ksSci (k : KeySlot) : Nat := beAt (imgBytes k) 8 8
def ksInitPn (k : KeySlot) : Nat := imgLe k 16 8
def ksPnWarn (k : KeySlot) : Nat := imgLe k 24 8
def ksWindow (k : KeySlot) : Nat := imgLe k 32 4
def ksSsci (k : KeySlot) : Nat := beAt (imgBytes k) 36 4
def ksSalt (k : KeySlot) : Nat := beAt (imgBytes k) 40 12
/-- The 48 bytes of key material. -/
def ksMaterial (k : KeySlot) : BitVec 384 := BitVec.ofNat 384 (imgLe k 64 48)
/-- The AES key bytes. -/
def ksAes (k : KeySlot) : List Nat := natsOf (slice (imgBytes k) 64 (if ks256 k then 32 else 16))
/-- The EC scalar. -/
def ksScalar (k : KeySlot) : Nat := beAt (imgBytes k) 64 (if ksP384 k then 48 else 32)

/-- A slot image with other key material. -/
def ksWithMaterial (k : KeySlot) (m : BitVec 384) : KeySlot := setImg k 64 48 m.toNat

/-- The key slot in force. -/
def State.keySlot (s : State) (i : Nat) : KeySlot := kvGet 0 s.tab.keys i

/-- The SA state of a slot: next_pn or lowest_pn (R222). -/
def State.sa (s : State) (i : Nat) : W64 := kvGet 0 s.live.saState i

/-- A write of a slot's SA state. -/
def State.setSa (s : State) (i : Nat) (v : W64) : State :=
  { s with live.saState := kvSet 0 s.live.saState i v, live.saCopy := kvSet 0 s.live.saCopy i v }

/-! ### KEY_WRITE, KEY_ERASE, KEY_READ -/

/-- KEY_WRITE stages a slot, with or without new key material. A slot that names a retired port is refused (R338). -/
def keyWriteBody (p : Part) (d : CmdDesc) (s : State) : Ans :=
  let img : KeySlot := d.image 1024 8
  if 1 < d.b 4 then fail s St.badParam
  else onIndex p d .key (d.le 0 2)
    (stagePort (ksPort img) p d.ctag (.key (d.le 0 2) (d.b 4 == 1) img)) s

/-- The form of KEY_WRITE. -/
def keyWriteForm (d : CmdDesc) : Form :=
  { kind := .staging, size := fun l => l == 136, clean := d.le 2 2 == 0 && d.le 5 3 == 0 && slotClean (d.params.drop 8) }

def execKeyWrite (p : Part) (d : CmdDesc) (s : State) : Res := .next (runCommand (keyWriteForm d) p d (keyWriteBody p d) s)

/-- KEY_ERASE stages the erasure of a slot. -/
def keyEraseBody (p : Part) (d : CmdDesc) : State → Ans :=
  onIndex p d .key (d.le 0 2) (fun s => stageItem s p d.ctag (.keyErase (d.le 0 2)))

/-- The form of KEY_ERASE. -/
def keyEraseForm : Form := { kind := .staging, size := fun l => l == 2 }

def execKeyErase (p : Part) (d : CmdDesc) (s : State) : Res := .next (runCommand keyEraseForm p d (keyEraseBody p d) s)

/-- The slot image that a command sees: staged, or in force. -/
def seenKey (s : State) (p : Part) (d : CmdDesc) (i : Nat) : KeySlot :=
  match findSlot (stagedView s p d) (10, i) with
  | some (.key _ _ img) => img
  | some (.keyErase _) => 0
  | _ => s.keySlot i

/-- KEY_READ returns the slot image with key bytes 0, then the SA state (R221). -/
def keyReadBody (p : Part) (d : CmdDesc) : State → Ans :=
  onIndex p d .key (d.le 0 2) (fun s =>
    withOutput d s s 0 (imgBytes (ksWithMaterial (seenKey s p d (d.le 0 2)) 0) ++ imgBytes (s.sa (d.le 0 2))))

def execKeyRead (p : Part) (d : CmdDesc) (s : State) : Res :=
  .next (runCommand (readForm 2 true) p d (keyReadBody p d) s)

/-! ### Commands that wait for a crypto resource -/

/-- Whether a command already waits for the public-key engine or for the slices. -/
def State.inCrypto (s : State) (p : Part) (tag : BitVec 12) : Bool :=
  s.cry.pkQ.any (fun o => o.part == p && o.tag == tag) ||
    s.cry.work.any (fun w => match w.use with
      | .raw o => o.part == p && o.tag == tag
      | _ => false)

/-- A command whose checks give a status ends with it; else its operation waits, once, as `waits` says it does. -/
def runWaiting (waits : State → Bool) (f : Form) (p : Part) (d : CmdDesc) (body : State → Except Ans State) : State → State :=
  onForm f p d (fun s =>
    if waits s then s
    else match body s with
      | .error a => finish p d a
      | .ok t => t)

/-- A command that waits for the public-key engine or for the slices. -/
def runCrypto (f : Form) (p : Part) (d : CmdDesc) (body : State → Except Ans State) : State → State :=
  runWaiting (fun s => s.inCrypto p d.ctag) f p d body

/-! ### Raw block services (R238) -/

/-- A raw block operation waits for the slices: `n` bytes of it in bursts of 4 cells, by requester 34 (R38, R135). -/
def State.queueRaw (s : State) (p : Part) (d : CmdDesc) (result : Nat) (out : List Byte) (n : Nat) : State :=
  let b := max 1 (ceilDiv n 256)
  let o : PkOp :=
    { part := p, tag := d.ctag, irq := d.irq, status := St.ok, result := BitVec.ofNat 64 result, outAt := d.outPtr, out := out
      micros := 0 }
  { s with cry.work := s.cry.work ++ [{ req := 34, total := b, bursts := b, use := .raw o }] }

/-- A raw operation on a raw-service key the issuer holds; the command uses the indirect form. `body` gives a status, or result and output;
an output longer than the issuer's buffer is BAD_SIZE. `n` is the number of bytes that the slices take. -/
def onRaw (p : Part) (d : CmdDesc) (n : Nat) (body : KeySlot → Except Byte (Nat × List Byte)) (s : State) : Except Ans State :=
  if 2048 ≤ d.le 0 2 then .error (fail s St.badParam)
  else match targetCheck s p d .key (d.le 0 2) with
    | some a => .error a
    | none =>
      if ¬ d.indirect then .error (fail s St.badSize)
      else if ksType (s.keySlot (d.le 0 2)) ≠ 5 then .error (fail s St.badParam)
      else match body (s.keySlot (d.le 0 2)) with
        | .error st => .error (fail s st)
        | .ok (v, out) => if d.outLen.toNat < out.length then .error (fail s St.badSize) else .ok (s.queueRaw p d v out n)

/-- The output of RAW_CIPHER, or the status that its lengths give. -/
def rawCipher (k : KeySlot) (d : CmdDesc) : Except Byte (List Byte) :=
  let mode := d.b 2
  let enc := d.b 3 == 0
  let iv := natsOf (slice d.params 4 16)
  let aadLen := d.le 20 4
  let data := natsOf (d.params.drop 24)
  let ks := roundKeys (ksAes k)
  let n := data.length
  if 3 < mode ∨ 1 < d.b 3 ∨ (mode ≠ 3 ∧ aadLen ≠ 0) then .error St.badParam
  else if mode ≤ 1 then
    if n < 16 ∨ 65536 < n ∨ n % 16 ≠ 0 then .error St.lengthLimit
    else .ok (bytesOf (if mode = 0 then ecb ks enc data else cbc ks enc iv (chunks 16 (n / 16) data)))
  else if mode = 2 then
    if n < 1 ∨ 65536 < n then .error St.lengthLimit
    else .ok (bytesOf (ctr ks 128 (blockNat iv) (blocks data)))
  else if n < aadLen then .error St.badSize
  else if 65536 < n then .error St.lengthLimit
  else
    let g := gcm (ksAes k) enc (iv.take 12) (data.take aadLen) (data.drop aadLen)
    .ok (bytesOf (g.1 ++ g.2))

/-- RAW_CIPHER. -/
def rawCipherBody (p : Part) (d : CmdDesc) : State → Except Ans State :=
  onRaw p d (d.len - 24) (fun k => (rawCipher k d).map (fun out => (0, out)))

/-- The form of RAW_CIPHER. -/
def rawCipherForm : Form := { kind := .immediate, size := fun l => decide (24 ≤ l), output := true }

def execRawCipher (p : Part) (d : CmdDesc) (s : State) : Res :=
  .next (runCrypto rawCipherForm p d (rawCipherBody p d) s)

/-- The result and output of RAW_CMAC, or the status that its lengths give: generation writes the tag, verification answers 1 or 0. -/
def rawCmac (k : KeySlot) (d : CmdDesc) : Except Byte (Nat × List Byte) :=
  let n := d.b 3
  if 1 < d.b 2 then .error St.badParam
  else if n < 4 ∨ 16 < n ∨ 65536 < d.len - 20 then .error St.lengthLimit
  else
    let tag := (bytesOf (cmac (ksAes k) (natsOf (d.params.drop 20)))).take n
    if d.b 2 = 1 then .ok (boolNat (tag == (slice d.params 4 16).take n), []) else .ok (0, tag)

/-- RAW_CMAC. -/
def rawCmacBody (p : Part) (d : CmdDesc) : State → Except Ans State := onRaw p d (d.len - 20) (fun k => rawCmac k d)

/-- RAW_CMAC writes output unless it verifies. -/
def rawCmacForm (d : CmdDesc) : Form :=
  { kind := .immediate, size := fun l => decide (20 ≤ l), output := d.b 2 == 0 }

def execRawCmac (p : Part) (d : CmdDesc) (s : State) : Res :=
  .next (runCrypto (rawCmacForm d) p d (rawCmacBody p d) s)

/-! ### The public-key engine (R239, R240) -/

/-- What a public-key operation answers. -/
structure PkAns where
  status : Byte := St.ok
  result : Nat := 0
  out    : List Byte := []
  deriving DecidableEq, Repr

/-- A point of a parameter buffer: x and y, most significant byte first. -/
def ptAt (c : Curve) (d : CmdDesc) (o : Nat) : Nat × Nat :=
  (beAt d.params o c.bytes, beAt d.params (o + c.bytes) c.bytes)

/-- ECDSA verification with the checks of R240 in their order; the digest's leftmost bits count. -/
def pkVerifyAns (d : CmdDesc) : PkAns :=
  let c := curveOf (d.b 0 == 1)
  let e := beAt d.params 4 c.bytes
  let (x, y) := ptAt c d 68
  let (r, v) := ptAt c d (68 + 2 * c.bytes)
  if ¬ c.on x y then { status := St.invalidPoint }
  else if c.badScalar r || c.badScalar v then { status := St.invalidScalar }
  else { result := boolNat (c.verify e x y r v) }

/-- ECDH with a slot's scalar. -/
def pkEcdhAns (k : KeySlot) (d : CmdDesc) : PkAns :=
  let c := curveOf (ksP384 k)
  let (x, y) := ptAt c d 4
  if ¬ c.on x y then { status := St.invalidPoint }
  else if c.badScalar (ksScalar k) then { status := St.invalidScalar }
  else match c.mul c.bits (ksScalar k) (some (x, y)) with
    | none => { status := St.invalidPoint }
    | some (sx, _) => { out := c.coord sx }

/-- The key pair of a scalar. -/
def pkPublic (c : Curve) (k : Nat) : List Byte :=
  match c.mul c.bits k c.g with
  | none => []
  | some (x, y) => c.coord x ++ c.coord y

/-- The nominal time of an operation in µs (R239). -/
def pkMicros (verify p384 : Bool) : Nat :=
  match verify, p384 with
  | true, false => 180
  | true, true => 420
  | false, false => 150
  | false, true => 350

/-- An operation joins the engine's queue; its command waits for the engine. -/
def State.queuePk (s : State) (p : Part) (d : CmdDesc) (a : PkAns) (micros : Nat) (store : Option (Nat × BitVec 384)) :
    State :=
  { s with cry.pkQ := s.cry.pkQ ++ [{ part := p, tag := d.ctag, irq := d.irq, status := a.status
                                      result := BitVec.ofNat 64 a.result, outAt := d.outPtr, out := a.out
                                      micros := micros, store := store }] }

/-- The plen of PK_VERIFY and PK_ECDH by curve. -/
def pkVerifySize (d : CmdDesc) (l : Nat) : Bool := l == (if d.b 0 == 1 then 260 else 196)
def pkEcdhSize (d : CmdDesc) (l : Nat) : Bool := l == (if d.b 0 == 1 then 100 else 68)

/-- PK_VERIFY queues a verification. -/
def pkVerifyBody (p : Part) (d : CmdDesc) (s : State) : Except Ans State :=
  if 1 < d.b 0 then .error (fail s St.badParam)
  else .ok (s.queuePk p d (pkVerifyAns d) (pkMicros true (d.b 0 == 1)) none)

/-- The form of PK_VERIFY. -/
def pkVerifyForm (d : CmdDesc) : Form := { kind := .immediate, size := pkVerifySize d, clean := d.le 1 3 == 0 }

def execPkVerify (p : Part) (d : CmdDesc) (s : State) : Res :=
  .next (runCrypto (pkVerifyForm d) p d (pkVerifyBody p d) s)

/-- A public-key body on a type 0x06 slot of the named curve that the issuer holds. -/
def onEcSlot (p : Part) (d : CmdDesc) (need : Nat) (body : KeySlot → State → Except Ans State) (s : State) : Except Ans State :=
  let k := s.keySlot (d.le 2 2)
  if 1 < d.b 0 ∨ 2048 ≤ d.le 2 2 then .error (fail s St.badParam)
  else match targetCheck s p d .key (d.le 2 2) with
    | some a => .error a
    | none =>
      if ksType k ≠ 6 ∨ ksP384 k ≠ (d.b 0 == 1) then .error (fail s St.badParam)
      else if d.outLen.toNat < need then .error (fail s St.badSize)
      else body k s

/-- PK_ECDH queues an ECDH computation. -/
def pkEcdhBody (p : Part) (d : CmdDesc) : State → Except Ans State :=
  onEcSlot p d (curveOf (d.b 0 == 1)).bytes (fun k s =>
    .ok (s.queuePk p d (pkEcdhAns k d) (pkMicros false (d.b 0 == 1)) none))

/-- The form of PK_ECDH. -/
def pkEcdhForm (d : CmdDesc) : Form := { kind := .immediate, size := pkEcdhSize d, clean := d.b 1 == 0, output := true }

def execPkEcdh (p : Part) (d : CmdDesc) (s : State) : Res :=
  .next (runCrypto (pkEcdhForm d) p d (pkEcdhBody p d) s)

/-- CRY_ENT_STATUS.permanent: the entropy source is retired. -/
def State.entropyGone (s : State) : Bool := s.bt R.entStatus 4

/-- PK_KEYGEN queues a key pair generation: the scalar is random, a free value from 1 to n − 1. -/
def pkKeygenBody (p : Part) (d : CmdDesc) : State → Except Ans State :=
  onEcSlot p d (2 * (curveOf (d.b 0 == 1)).bytes) (fun k s =>
    let c := curveOf (ksP384 k)
    let m := pkMicros false (d.b 0 == 1)
    if s.entropyGone then .ok (s.queuePk p d { status := St.resourceGone } m none)
    else
      let (r, t) := drawNat s
      let x := r % (c.n - 1) + 1
      .ok (t.queuePk p d { out := pkPublic c x } m (some (d.le 2 2, imgOf 384 (c.coord x)))))

/-- The form of PK_KEYGEN. -/
def pkKeygenForm (d : CmdDesc) : Form := { kind := .immediate, size := fun l => l == 4, clean := d.b 1 == 0, output := true }

def execPkKeygen (p : Part) (d : CmdDesc) (s : State) : Res :=
  .next (runCrypto (pkKeygenForm d) p d (pkKeygenBody p d) s)

/-- The answer of an operation to its command. -/
def PkOp.reply (o : PkOp) : Reply :=
  { tag := o.tag, status := o.status, result := o.result, irq := o.irq, outAt := o.outAt, out := o.out }

/-- The operation in the engine ends: its reply follows, and a new key pair waits for the issuer's next pour. A key generation that ends after
the entropy source was retired answers RESOURCE_GONE (R219, R240). -/
def pkEngineDone (s : State) : State :=
  match s.cry.pkQ with
  | [] => s
  | o :: r =>
    let s1 := { s with cry.pkQ := r }
    match o.store with
    | none => s1.complete o.part o.reply
    | some (slot, m) =>
      if s.entropyGone then s1.complete o.part { o.reply with status := St.resourceGone, out := [] }
      else
        ({ s1 with live.keyStaged := kvInsert (kvErase s1.live.keyStaged slot) slot (o.part, m) } : State).complete o.part o.reply

def execPkEngineDone (s : State) : Res := .next (clocked pkEngineDone s)

/-! ### Random bytes and the entropy source (R218, R219) -/

/-- CRY_RANDOM returns 1 to 4,096 random bytes: free values. -/
def cryRandomBody (d : CmdDesc) (s : State) : Ans :=
  let n := d.le 0 4
  if n < 1 ∨ 4096 < n then fail s St.badParam
  else if s.entropyGone then fail s St.resourceGone
  else if d.outLen.toNat < n then fail s St.badSize
  else { s := (drawBytes n s).2, out := (drawBytes n s).1 }

/-- The form of CRY_RANDOM. -/
def cryRandomForm : Form := { kind := .immediate, size := fun l => l == 4, output := true }

def execCryRandom (p : Part) (d : CmdDesc) (s : State) : Res :=
  .next (runCommand cryRandomForm p d (cryRandomBody d) s)

/-- A unit's window closes: its next fault starts a new one (R329), and LNK_ETH_STATUS.retrains counts anew (R46). -/
def retryWindowClose (u : RetryUnit) (s : State) : State :=
  let t : State := { s with err.windows := kvSet 0 s.err.windows (retryKey u) 0 }
  match u with
  | .lane n => t.setFd (R.ethStatus n) 9 8 0
  | _ => t

def execRetryWindowClose (u : RetryUnit) (s : State) : Res := .next (clocked (retryWindowClose u) s)

/-- A health test fails: the source restarts, or is retired at the third failure within 1 s (R219). -/
def entropyHealthFail (apt : Bool) (s : State) : State :=
  if s.entropyGone then s
  else
    let s1 := ((s.setBt R.entStatus (if apt then 3 else 2) true).setBt R.entStatus 0 false).count (R.cryDev 4)
    let s2 : State := { (s1.countFault .entropy) with cry.entStops := true }
    if s2.faults .entropy < 3 then s2.report 0x0703 kTransient 0xFF 0xFF (boolNat apt)
    else
      let s3 := (s2.report 0x0703 kTransient 0xFF 0xFF (boolNat apt)).setBt R.entStatus 4 true
      (s3.report 0x0704 kPermanent 0xFF 0xFF 0 true).setFault 4

def execEntropyHealthFail (apt : Bool) (s : State) : Res := .next (clocked (entropyHealthFail apt) s)

/-- The start-up test passes: the source delivers again and seeds the DRBG (R218). -/
def entropyStartupDone (s : State) : State :=
  if s.entropyGone then s
  else { ((s.setBt R.entStatus 0 true).setBt R.entStatus 1 true) with cry.entStops := false, cry.drbgSeeded := true }

def execEntropyStartupDone (s : State) : Res := .next (clocked entropyStartupDone s)

/-- The DRBG is reseeded, unless the source restarts or is retired (R218, R219). -/
def drbgReseed (s : State) : State :=
  if s.cry.entStops || s.entropyGone || !s.bt R.entStatus 0 then s else { s with cry.drbgSeeded := true }

def execDrbgReseed (s : State) : Res := .next (clocked drbgReseed s)

/-- A slice's mask generator is reseeded from the DRBG (R216): the reseedings of each slice are counted. -/
def maskReseed (k : Fin 8) (s : State) : State :=
  { s with cry.maskSeeds := kvSet 0 s.cry.maskSeeds k.val (kvGet 0 s.cry.maskSeeds k.val + 1) }

def execMaskReseed (k : Fin 8) (s : State) : Res := .next (clocked (maskReseed k) s)

/-- Old key material is overwritten with zeros (R221). -/
def keyZeroize (slot : Fin 2048) (s : State) : State := { s with live.keyOld := kvErase s.live.keyOld slot.val }

def execKeyZeroize (slot : Fin 2048) (s : State) : Res := .next (clocked (keyZeroize slot) s)

end Sys2Proof.Machine
end

