-- ==== Sys2Proof/Machine/Security.lean ====
section
/-! DEFINITION. MACsec and bus security: verification, protection, freshness (R224 to R233, R237). -/

namespace Sys2Proof.Machine

/-! ### MACsec (R224 to R228); the SecTAG is that of IEEE 802.1AE-2018 -/

/-- CRY_PORT_CFGn fields. -/
def State.validate (s : State) (n : Nat) : Nat := s.fd (R.cryPort n) 1 0
def State.protects (s : State) (n : Nat) : Bool := s.bt (R.cryPort n) 2
def State.replayOn (s : State) (n : Nat) : Bool := s.bt (R.cryPort n) 3

/-- A SecTAG: whether it is malformed whatever the suite, C, AN, the explicit SCI or ES/SCB, SL, the 32 bits of PN, and the offset after
it. -/
structure SecTag where
  bad  : Bool
  c    : Bool
  an   : Nat
  sci  : Option Nat
  es   : Bool
  scb  : Bool
  sl   : Nat
  pn   : Nat
  off  : Nat
  deriving DecidableEq, Repr

/-- The SecTAG of a frame with EtherType 0x88E5 at byte 12. An SL of 0 stands for at least 48 bytes of secure data
(IEEE 802.1AE-2018). -/
def secTag (l : List Byte) : SecTag :=
  let tci := byteAt l 14
  let sc := bit tci 5
  let sl := beAt l 15 1
  let off := if sc then 28 else 20
  { bad := bit tci 7 || (sc && (bit tci 6 || bit tci 4)) || decide (48 ≤ sl) || (bit tci 3 != bit tci 2) ||
      decide (l.length < off + 16 + (if sl = 0 then 48 else sl))
    c := bit tci 2, an := fld tci 1 0, sci := if sc then some (beAt l 20 8) else none
    es := bit tci 6, scb := bit tci 4, sl := sl, pn := beAt l 16 4, off := off }

/-- The receive SA of (port, SCI, AN) (R225). Without SC, ES and SCB the port's receive channel is the one that has the AN. -/
def State.rxSa (s : State) (n : Nat) (t : SecTag) (sa : Nat) : Option Nat :=
  let sci : Option Nat := match t.sci with
    | some x => some x
    | none => if t.scb then some (sa * 65536) else if t.es then some (sa * 65536 + 1) else none
  (s.tab.keys.find? (fun k =>
    ksType k.2 == 1 && ksPort k.2 == n && ksAn k.2 == t.an &&
      (match sci with | some x => ksSci k.2 == x | none => true))).map (·.1)

/-- The 64-bit PN recovered from the 32 bits carried, against the lowest acceptable one (IEEE 802.1AE-2018). -/
def recoverPn (xpn : Bool) (lowest pn : Nat) : Nat :=
  if ¬ xpn then pn
  else
    let hi := lowest / 2 ^ 32
    if lowest % 2 ^ 32 ≥ 2 ^ 31 ∧ pn < 2 ^ 31 ∧ pn < lowest % 2 ^ 32 then (hi + 1) * 2 ^ 32 + pn else hi * 2 ^ 32 + pn

/-- The 12-byte IV of a frame. -/
def secIv (k : KeySlot) (sci pn : Nat) : List Nat :=
  if ksXpn k then natsOf (beBytes 12 (Nat.xor (ksSalt k) (ksSsci k * 2 ^ 64 + pn % 2 ^ 64)))
  else natsOf (beBytes 12 (sci * 2 ^ 32 + pn % 2 ^ 32))

/-- The confidentiality offset in bytes. -/
def ksConfOffset (k : KeySlot) : Nat :=
  match ksOffset k with
  | 1 => 30
  | 2 => 50
  | _ => 0

/-- The secure data after cipher and its ICV: addresses and SecTAG (and, for integrity only or below the offset, the data) are
authenticated; the rest is enciphered. -/
def secGcm (k : KeySlot) (enc conf : Bool) (iv : List Nat) (head data : List Byte) : List Byte × List Byte :=
  let o := if conf then min (ksConfOffset k) data.length else data.length
  let g := gcm (ksAes k) enc iv (natsOf (head ++ data.take o)) (natsOf (data.drop o))
  (data.take o ++ bytesOf g.1, bytesOf g.2)

/-- Verification as the cells are written (R225): what it found, and the frame without SecTAG and ICV. A PN of 0 is malformed under a
suite without XPN (IEEE 802.1AE-2018); a slot marked failed verifies nothing (R326). -/
def State.verifyRx (s : State) (n : Nat) (l : List Byte) : SecFound × List Byte :=
  if s.validate n = 0 then (.off, l)
  else if isEapol l then (.eapol, l)
  else if beAt l 12 2 ≠ 0x88E5 then (.untagged, l)
  else
    let t := secTag l
    if t.bad then (.badTag, l)
    else
      let len := if t.sl = 0 then l.length - t.off - 16 else t.sl
      let data := slice l t.off len
      let icv := slice l (t.off + len) 16
      match s.rxSa n t (beAt l 6 6) with
      | none => (.noSa t.c, l.take 12 ++ data)
      | some i =>
        let k := s.keySlot i
        let pn := recoverPn (ksXpn k) (s.sa i).toNat t.pn
        let g := secGcm k false t.c (secIv k (ksSci k) pn) (l.take t.off) data
        if ¬ ksXpn k ∧ t.pn = 0 then (.badTag, l)
        else if kvGet false s.live.keyFailed i then (.failed, l.take 12 ++ data)
        else (.checked i pn t.c (g.2 == icv), l.take 12 ++ g.1)

/-- What step 7 answers: a drop reason (0 = none) and whether the frame was verified. -/
structure Verdict where
  s        : State
  drop     : Nat := 0
  verified : Bool := false

/-- Step 7 for a frame of an Ethernet port (R226), under the epoch of its parse step. -/
def State.ethVerdict (s : State) (n : Nat) (h : Held) (f : SecFound) : Verdict :=
  let strict := h.validate == 2
  match f with
  | .off => { s := s }
  | .eapol => { s := s }
  | .failed => { s := s, drop := 0x0C }
  | .untagged => if strict then { s := s, drop := 0x0B } else { s := s.count (R.cryCnt n 2) }
  | .badTag => { s := s.count (R.cryCnt n 3), drop := 0x0C }
  | .noSa c =>
    if strict ∨ c then { s := if strict then s.count (R.cryCnt n 4) else s, drop := 0x0C }
    else { s := s.count (R.cryCnt n 4) }
  | .checked i pn c ok =>
    let low := (s.sa i).toNat
    if h.replay ∧ pn < low then { s := s, drop := 0x0D }
    else if ok then
      { s := (s.count (R.cryCnt n 0)).setSa i (BitVec.ofNat 64 (max low (pn + 1 - ksWindow h.slot))), verified := true }
    else if strict ∨ c then { s := s, drop := 0x0C }
    else { s := s.count (R.cryCnt n 1) }

/-- The active transmit SA of a port (R227). -/
def State.txSa (s : State) (n : Nat) : Option Nat :=
  (s.tab.keys.find? (fun k => ksType k.2 == 2 && ksPort k.2 == n && ksActive k.2)).map (·.1)

/-- The bytes that protection adds: SecTAG and ICV (R227). -/
def State.secAdds (s : State) (n : Nat) (eapol : Bool) : Nat :=
  if ¬ s.protects n ∨ eapol then 0
  else match s.txSa n with
    | some i => if ksSc (s.keySlot i) then 32 else 24
    | none => 24

/-- A frame protected under a slot with a PN. -/
def secProtect (k : KeySlot) (pn : Nat) (l : List Byte) : List Byte :=
  let data := l.drop 12
  let tci := ksAn k + (if ksConf k then 12 else 0) + (if ksScb k then 16 else 0) + (if ksSc k then 32 else 0) +
    (if ksEs k then 64 else 0)
  let sl := if data.length < 48 then data.length else 0
  let head := l.take 12 ++ [0x88, 0xE5, BitVec.ofNat 8 tci, BitVec.ofNat 8 sl] ++ beBytes 4 pn ++
    (if ksSc k then beBytes 8 (ksSci k) else [])
  let g := secGcm k true (ksConf k) (secIv k (ksSci k) pn) head data
  head ++ g.1 ++ g.2

/-- The first copy that an exhausted or missing transmit SA stops sets GLB_EVT_STAT.key of the owning partition (R228). DESIGN CHOICE
(log entry 37): with no active SA there is no slot and so no owner of one; the event is that of the partition that holds the port. -/
def State.noTxSa (s : State) (n : Nat) : State :=
  let s1 := s.count (R.cryCnt n 6)
  if kvGet false s.live.exhausted n then s1
  else
    let p : Part := match s.txSa n with
      | some i => Fin.ofNat 5 (ksOwner (s.keySlot i))
      | none => s.portHolder n
    { s1 with live.exhausted := kvSet false s1.live.exhausted n true }.event p 1

/-- A PN for a copy of port `n` at its grant: the slot and the PN, or `none` when the copy cannot be sent; the rollover notice is
raised once per slot write (R227, R228). A slot marked failed protects nothing (R326). -/
def State.takePn (s : State) (n : Nat) : Option (Nat × Nat) × State :=
  match s.txSa n with
  | none => (none, s.noTxSa n)
  | some i =>
    let k := s.keySlot i
    let pn := (s.sa i).toNat
    if kvGet false s.live.keyFailed i then (none, s)
    else if pn = 0 ∨ (¬ ksXpn k ∧ 2 ^ 32 ≤ pn) then (none, s.noTxSa n)
    else
      let s1 := (s.setSa i (BitVec.ofNat 64 (pn + 1))).count (R.cryCnt n 5)
      let next := pn + 1
      if ksPnWarn k ≠ 0 ∧ ksPnWarn k ≤ next ∧ ¬ kvGet false s1.live.keyWarned i then
        let s2 := { s1 with live.keyWarned := kvSet false s1.live.keyWarned i true }
        (some (i, pn), (s2.report 0x0705 kInfo (ksOwner k) n i).event (Fin.ofNat 5 (ksOwner k)) 1)
      else (some (i, pn), s1)

/-! ### Bus security (R229 to R233) -/

/-- The last freshness value. -/
def freshMax : Nat := 2 ^ 48 - 1

/-- The freshness reconstructed from `r`, carried in `b` bits (R233). -/
def reconstruct (f b r : Nat) : Nat :=
  if b = 48 then r
  else if b = 0 then f + 1
  else
    let c := f / 2 ^ b * 2 ^ b + r
    if c ≤ f then c + 2 ^ b else c

/-- The CMAC of R230 over an identifier and a payload with a full freshness value. -/
def busMac (k : KeySlot) (did ident fresh : Nat) (payload : List Byte) : List Byte :=
  bytesOf (cmac (ksAes k) (natsOf (beBytes 2 did ++ beBytes 4 ident ++ payload ++ beBytes 6 fresh)))

/-- The entry of a node as it now is: its configured fields may be those of a later epoch, and a pour may have moved or erased it. -/
def State.liveNode (s : State) (e : Node) : Option (Nat × Node) := s.node (ndKey e)

/-- The freshness of a node: that of its live entry, or of the entry that a frame was parsed under when there is none any more. -/
def State.freshOf (s : State) (e : Node) : Nat := ((s.liveNode e).map (fun x => ndFresh x.2)).getD (ndFresh e)

/-- A write of a node's freshness; it lands in the live field (R236). -/
def State.setFresh (s : State) (e : Node) (v : Nat) : State :=
  match s.liveNode e with
  | some (i, x) => s.setNode i (setImg x 8 6 v)
  | none => s

/-- What step 7 has to do with a bus frame (R231): nothing, drop it, or judge a freshness of `b` bits with value `r` under entry `e` and
then, by the slices' requester `req`, a MAC or ICV. -/
inductive BusCheck where
  | pass
  | drop (code : Nat)
  | judge (e : Node) (b r req : Nat) (good : Nat → Bool)

/-- Whether cells are a CAN XL frame with the SEC bit set (R58). -/
def isSec (c : Nat) (h : BitVec 128) (l : List Byte) : Bool := isC c && canType h == 2 && bit (byteAt l 6) 0

/-- The CANsec slot whose key version a frame names: the entry's slot or its alt (R231), with its image in the frame's epoch. -/
def cansecSlot (g : Held) (e : Node) (h : BitVec 128) (l : List Byte) : Option (Nat × KeySlot) :=
  match ndSlot e with
  | none => none
  | some i =>
    let v := Config.cansecVersion h l
    if ksAn g.slot = v then some (i, g.slot)
    else match ksAlt g.slot with
      | some j => if ksAn g.alt = v then some (j, g.alt) else none
      | none => none

/-- The payload of a CMAC PDU, its freshness bytes and its MAC (R230). -/
def busCmacGood (k : KeySlot) (e : Node) (h : BitVec 128) (l : List Byte) (v : Nat) : Bool :=
  let n := l.length - ndTfv e - ndTmac e
  (busMac k (ndDid e) (canIdent h) v (l.take n)).take (ndTmac e) == slice l (n + ndTfv e) (ndTmac e)

/-- Step 7's task for a bus frame, by the node entry found at step 6 (R231, R238). -/
def State.busCheck (s : State) (c : Nat) (h : BitVec 128) (l : List Byte) (g : Held) : BusCheck :=
  let failed := fun (i : Nat) => kvGet false s.live.keyFailed i
  match isSec c h l, g.node with
  | true, none => .drop 0x0C
  | true, some e =>
    if ndMode e ≠ 1 then .drop 0x0C
    else match cansecSlot g e h l with
      | none => .drop 0x0C
      | some (i, k) =>
        .judge e Config.cansecWidth (Config.cansecFresh h l) 32 (fun v => Config.cansecGood k v h l && !failed i)
  | false, none => .pass
  | false, some e =>
    if ndMode e = 2 ∧ isC c ∧ canType h < 2 then
      match ndSlot e with
      | none => .drop 0x0C
      | some i =>
        if l.length < ndTfv e + ndTmac e then .drop 0x0C
        else .judge e (8 * ndTfv e) (beAt l (l.length - ndTfv e - ndTmac e) (ndTfv e)) 33
          (fun v => busCmacGood g.slot e h l v && !failed i)
    else if ndRequired e then .drop 0x0B
    else .pass

/-- The freshness value that a node accepts: a carried one inside its window (R233). -/
def State.freshIn (s : State) (e : Node) (b r : Nat) : Option Nat :=
  let f := s.freshOf e
  let v := reconstruct f b r
  if f = freshMax ∨ v ≤ f ∨ ndWin e < v - f ∨ freshMax < v then none else some v

/-- The requester for whose bursts a bus frame waits: a MAC or ICV is computed only for a freshness inside the window (R233). -/
def State.busMacReq (s : State) (c : Nat) (h : BitVec 128) (l : List Byte) (g : Held) : Option Nat :=
  match s.busCheck c h l g with
  | .judge e b r req _ => if (s.freshIn e b r).isSome then some req else none
  | _ => none

/-- Step 7 for a bus frame (R231, R233). -/
def State.busVerdict (s : State) (c : Nat) (h : BitVec 128) (l : List Byte) (g : Held) : Verdict :=
  match s.busCheck c h l g with
  | .pass => { s := s }
  | .drop code => { s := s, drop := code }
  | .judge e b r _ good =>
    match s.freshIn e b r with
    | none => { s := if s.freshOf e = freshMax then s.count (R.cryDev 2) else s, drop := 0x0D }
    | some v => if good v then { s := (s.setFresh e v).count (R.cryDev 0), verified := true } else { s := s, drop := 0x0C }

/-- Step 7's effect on the frame's node (R237): `e` is the entry of the frame's epoch, `hold` auth_hold_ms of that epoch. -/
def State.authResult (s : State) (e : Node) (hold drop : Nat) (verified : Bool) : State :=
  match s.liveNode e with
  | none => s
  | some (i, x) =>
    if verified then s.setNode i (setImg x 26 1 0)
    else if drop = 0x0C ∨ drop = 0x0D then
      let k := min 255 (ndAuthFail x + 1)
      let s1 := s.setNode i (setImg x 26 1 k)
      if ndAuthMax e ≠ 0 ∧ k = ndAuthMax e then s1.holdNode i 2 hold else s1
    else s

/-! ### Protection at a CAN egress port (R230, R232, R233) -/

/-- The lengths of a CAN FD data field. -/
def fdLengths : List Nat := [0, 1, 2, 3, 4, 5, 6, 7, 8, 12, 16, 20, 24, 32, 48, 64]

/-- The DLC of a data length (R57): the first that holds it. -/
def dlcOf (n : Nat) : Nat := (fdLengths.findIdx? (fun k => decide (n ≤ k))).getD 15

/-- A CAN header slot with a data length and its DLC. -/
def canWithLen (h : BitVec 128) (n : Nat) : BitVec 128 :=
  setImg (if canType h = 2 then h else setImg h 5 1 (dlcOf n)) 6 2 n

/-- The first data length of a frame type that holds `n` bytes; none above its limit (R238). -/
def canRoom (ty n : Nat) : Option Nat :=
  if ty = 0 then (if n ≤ 8 then some n else none) else fdLengths.find? (fun k => decide (n ≤ k))

/-- The data field of a CMAC PDU of `n` bytes (R230, R238). DESIGN CHOICE (log entry 39): the zeros up to a legal FD length stand between
payload and freshness, so that freshness and MAC stay the last bytes and the CMAC covers what lies before them. -/
def cmacPdu (k : KeySlot) (e : Node) (h : BitVec 128) (l : List Byte) (n : Nat) : List Byte :=
  let v := ndFresh e
  let p := l ++ List.replicate (n - l.length - ndTfv e - ndTmac e) 0
  p ++ (beBytes 6 v).drop (6 - ndTfv e) ++ (busMac k (ndDid e) (canIdent h) v p).take (ndTmac e)

/-- The protected frame under a slot: none when it is longer than R238 allows. -/
def protectedBus (k : KeySlot) (e : Node) (h : BitVec 128) (l : List Byte) : Option (BitVec 128 × List Byte) :=
  if ndMode e = 1 then
    let o := Config.cansecProtect k (ndFresh e) h l
    if 16 + 2048 < o.2.length then none else some o
  else (canRoom (canType h) (l.length + ndTfv e + ndTmac e)).map (fun n => (canWithLen h n, cmacPdu k e h l n))

/-- The local node entry that protects frames of a CAN port's identifier (R232). -/
def State.localNode (s : State) (c : Nat) (h : BitVec 128) (l : List Byte) : Option (Nat × Node) :=
  (s.node (nodeKey c h l)).filter (fun x => ndLocal x.2 && ndMode x.2 != 0)

/-- A frame as a CAN egress port sends it when a local node entry protects it, or the reason under which its copy ends: a protected frame
that is too long is EGRESS_LEN (R238), one that has no freshness or key is TX_FAIL. -/
def State.protectBus (s : State) (c : Nat) (h : BitVec 128) (l : List Byte) : Except Nat (BitVec 128 × List Byte) × State :=
  match s.localNode c h l with
  | none => (.ok (h, l), s)
  | some (i, e) =>
    match ndSlot e with
    | none => (.error 0x1A, s)
    | some k =>
      if ndFresh e = freshMax then (.error 0x1A, s.count (R.cryDev 2))
      else if kvGet false s.live.keyFailed k then (.error 0x1A, s)
      else match protectedBus (s.keySlot k) e h l with
        | none => (.error 0x15, s)
        | some o => (.ok o, (s.setNode i (setImg e 8 6 (ndFresh e + 1))).count (R.cryDev 1))

end Sys2Proof.Machine
end

