-- ==== Sys2Proof/Machine/Egress.lean ====
section
/-! DEFINITION. Egress: queues, admission at dequeue, shapers, grants, preemption, committed departure, link loss (R49, R89, R102,
R139 to R163, R179 to R183, R339). -/

namespace Sys2Proof.Machine

/-! ### Work of the AES slices (R38, R135, R215) -/

/-- Bursts of 4 cells of a frame of `len` bytes. -/
def burstsOf (len : Nat) : Nat := ceilDiv (cellsOf len) 4

/-- Work waits for the AES slices. -/
def State.addCrypto (s : State) (req bursts : Nat) (use : CryptoUse) : State :=
  { s with cry.work := s.cry.work ++ [{ req := req, total := bursts, bursts := bursts, use := use }] }

/-- The protection of a copy that ends has no work left. -/
def State.noProtect (s : State) (port : PortCode) (id : Nat) : State :=
  if s.cry.work.any (fun w => w.use == .protect port id) then
    { s with cry.work := s.cry.work.filter (fun w => w.use != .protect port id) }
  else s

/-- Whether bursts of a copy's protection have still to be granted. -/
def State.protecting (s : State) (port : PortCode) (id : Nat) : Bool := s.cry.work.any (fun w => w.use == .protect port id)

/-- The slices that committed copies lock (R38, R181). -/
def State.lockedSlices (s : State) : List Nat := s.fwd.eg.filterMap (fun e => e.2.commit.bind Commit.slice)

/-- The slices that serve: enabled by the band, not retired, not under rolling self-test, not locked (R41, R162, R215). -/
def State.openSlices (s : State) : List Nat :=
  (List.range 8).filter (fun k =>
    s.bt R.sliceStatus k && !s.bt R.sliceStatus (8 + k) && kvGet 16 s.err.testUnit 0 != k && !s.lockedSlices.contains k)

/-! ### Ends of a copy -/

/-- A copy ends under a reason: counted, reported to the bridge when its request cannot be sent (R133), and its frame settles. -/
def State.endCopy (s : State) (code : Nat) (c : Copy) : State :=
  let s1 := if code = 0x1A ∧ isC c.port.toNat then s.count (R.canCnt (c.port.toNat - 0x20) 5) else s
  let s2 := s1.countDrop code
  ((if code = 0x15 ∨ code = 0x18 ∨ code = 0x1A then s2.unsendable c.frame else s2).noProtect c.port c.frame).settleFrame c.frame

/-- A copy ends sent: its frame settles (R16). -/
def State.sentCopy (s : State) (c : Copy) : State := s.settleFrame c.frame

/-! ### Length on the line and bytes of a copy (R89, R135) -/

/-- The length on the line of a copy: FCS, VLAN tag, R-TAG and protection included (R89, R135). -/
def State.lineLength (s : State) (f : Frame) (c : Copy) : Nat :=
  let base := f.desc.length.toNat + 4 + (if c.retag = some true then 4 else 0)
  base - (if c.retag = some false then 4 else 0) - (if c.strip then 6 else 0) +
    (if isE c.port.toNat then s.secAdds c.port.toNat (isEapol f.bytes) else 0)

/-- A frame without its R-TAG. -/
def stripRtag (l : List Byte) : List Byte :=
  let p := parseEth l
  if p.etype = 0xF1C1 then l.take p.etOff ++ l.drop (p.etOff + 6) else l

/-- The bytes of a copy before protection, FCS not included. The priority bits of a tag that the port adds are a free value. -/
def State.copyBytes (s : State) (f : Frame) (c : Copy) : List Byte × State :=
  let b := if c.strip then stripRtag f.bytes else f.bytes
  match c.retag with
  | none => (b, s)
  | some false => (b.take 12 ++ b.drop 16, s)
  | some true =>
    let (k, t) := drawNat s
    (b.take 12 ++ [0x81, 0x00] ++ beBytes 2 (k % 16 * 4096 + f.vid.toNat) ++ b.drop 12, t)

/-! ### Cut-through (R91) -/

/-- Whether a copy of a frame may start before the frame's last cell is written. -/
def State.ctOk (s : State) (f : Frame) (c : Copy) : Bool :=
  let i := f.desc.ingress.toNat
  let o := c.port.toNat
  s.bt R.fwdCtl 0 && isE i && isE o && s.bt (R.portCfg i) 15 && decide (s.rate o ≤ s.rate i) &&
    decide (s.ethMaxLen i ≤ s.ethMaxLen o) && f.held.validate == 0 && f.eprof == 0 && !(s.protects o && !isEapol f.bytes) &&
    !f.desc.wrap && !f.desc.unwrap

/-- Whether a copy may start as far as its frame goes. -/
def State.copyReady (s : State) (f : Frame) (c : Copy) : Bool := f.complete || s.ctOk f c

/-! ### Admission policy (R157 to R163) -/

/-- The policy register of the current band. -/
def State.policy (s : State) : W32 := s.rg (R.admPol (s.fd R.band 2 0))

/-- The action of the current band on an admission class: 0 admit, 1 rate-limit, 2 defer, 3 refuse; A is always admitted. -/
def State.polAct (s : State) (adm : Nat) : Nat :=
  match adm with
  | 0 => 0
  | k + 1 => fld s.policy (4 * k + 1) (4 * k)

/-- Whether an excess copy of a class is deferred (1) or refused (0). -/
def State.polExc (s : State) (adm : Nat) : Bool := bit s.policy (4 * (adm - 1) + 2)

/-- The shaper rate field of a class. -/
def State.polRate (s : State) (adm : Nat) : Nat := fld s.policy (4 * (adm - 1) + 15) (4 * (adm - 1) + 12)

/-- What a shaper's bucket holds now, in 1/128,000 byte (R160). -/
def State.shaperLevel (s : State) (c adm : Nat) : Int :=
  let b := kvGet ({} : Bucket) (s.egOf c).shapers adm
  let depth : Int := s.fd R.admShape 7 0 * 1024 * 128000
  if ¬ b.used then depth
  else min depth (b.level + ((s.upNs - b.at_ : Nat) : Int) * (s.polRate adm + 1) * s.rate c)

/-- A shaper's debit of a granted copy of `len` bytes (R160). -/
def State.shaperDebit (s : State) (c adm len : Nat) : State :=
  let l := max (-9216 * 128000) (s.shaperLevel c adm - len * 128000)
  let e := s.egOf c
  s.setEg c { e with shapers := kvSet {} e.shapers adm { used := true, level := l, at_ := s.upNs } }

/-- A refused copy ends under ADMIT_REFUSED. -/
def State.refuseCopy (s : State) (c : Copy) : State := (s.countDrop 0x11).settleFrame c.frame

/-- A deferred copy becomes a capture copy of the partition that holds the egress port, or is refused (R161). -/
def State.deferCopy (s : State) (c : Copy) : State :=
  let w := s.rgp (s.portHolder c.port.toNat) R.admDefer
  match s.frame c.frame with
  | none => s
  | some f =>
    if bit w 6 then ((s.countDrop 0x12).makeCapture (fld w 5 0) f f.desc true c.port).settleFrame c.frame
    else s.refuseCopy c

/-! ### Queues (R139) -/

/-- A queue of a port. -/
def EgPort.queue (e : EgPort) (q : Nat) : List Copy := kvGet [] e.queues q

/-- A write of a queue. -/
def EgPort.setQueue (e : EgPort) (q : Nat) (l : List Copy) : EgPort := { e with queues := kvSet [] e.queues q l }

/-- A write of a port's queue. -/
def State.setQueue (s : State) (c q : Nat) (l : List Copy) : State := s.setEg c ((s.egOf c).setQueue q l)

/-- The heads of a queue are judged, and handled as excess while a class A copy waits behind an empty shaper (R158 to R160). -/
def settleHead (c q : Nat) : Nat → State → State
  | 0, s => s
  | k + 1, s =>
    match (s.egOf c).queue q with
    | [] => s
    | h :: r =>
      if h.locked ∨ h.started ∨ h.shaped = some false then s
      else
        let act := if h.shaped = some true then 1 else s.polAct h.adm
        let t := s.setQueue c q r
        if act = 2 then settleHead c q k (t.deferCopy h)
        else if act = 3 then settleHead c q k (t.refuseCopy h)
        else if act = 1 ∧ isES c then
          if s.shaperLevel c h.adm ≤ 0 ∧ r.any (fun x => x.adm == 0) then
            settleHead c q k (if s.polExc h.adm then t.deferCopy h else t.refuseCopy h)
          else s.setQueue c q ({ h with shaped := some true } :: r)
        else s.setQueue c q ({ h with shaped := some false } :: r)

/-- A queue's heads settle. -/
def State.settleQueue (s : State) (c q : Nat) : State := settleHead c q (((s.egOf c).queue q).length + 1) s

/-- Every queue of a port settles: its queues share the shapers (R160, R163). -/
def State.settleQueues (s : State) (c : Nat) : State := (List.range 8).foldl (fun a q => a.settleQueue c q) s

/-- Every shaper that is not full takes what it holds now, before its rate or its depth changes (R160). -/
def State.settleShapers (s : State) : State :=
  (kvKeys s.fwd.eg).foldl (fun a c =>
    let e := a.egOf c
    a.setEg c { e with shapers := e.shapers.map (fun b => (b.1, { b.2 with level := a.shaperLevel c b.1, at_ := a.upNs })) }) s

/-- A copy joins the queue of its traffic class. -/
def State.pushCopy (s : State) (c : Copy) : State :=
  let p := c.port.toNat
  (s.setQueue p c.tc ((s.egOf p).queue c.tc ++ [c])).settleQueue p c.tc

/-- A copy for a port that no longer exists: redirected once to the port's alternate when that is UP, else dropped under PORT_GONE
(R102, R339). DESIGN CHOICE (log entry 47): the copy keeps the VLAN tag handling that its first port decided, and is not pruned again for
the alternate. -/
def State.goneCopy (s : State) (c : Copy) : State :=
  let w := s.rg (R.portCfg c.port.toNat)
  let alt := fld w 30 24
  if bit w 31 ∧ ¬ c.redirected ∧ s.portUp alt then
    s.pushCopy { c with port := BitVec.ofNat 8 alt, redirected := true, shaped := none, heldBack := false }
  else s.endCopy 0x19 c

/-- A copy arrives at its egress port (R49, R339). -/
def State.enqueue (s : State) (c : Copy) : State :=
  let st := s.portState c.port.toNat
  if st = pUp then s.pushCopy c
  else if st = pDown ∨ st = pTraining then s.endCopy 0x18 c
  else s.goneCopy c

/-- A copy meets the admission policy at branch, then its port (R89, R158). -/
def State.admitCopy (s : State) (c : Copy) : State :=
  match s.polAct c.adm with
  | 2 => s.deferCopy c
  | 3 => s.refuseCopy c
  | _ => s.enqueue c

/-! ### Link loss and lost ports (R49, R183, R339) -/

/-- The FlexRay copies that wait in the buffers of a channel. -/
def State.frWaiting (s : State) (c : Nat) : List (Nat × Copy) :=
  s.lnk.frWait.filterMap (fun w => if w.1 / 128 = c - 0x68 ∧ isF c then w.2.map (fun x => (w.1, x)) else none)

/-- Every copy of a port ends: those queued by `f`, the one being sent, a preempted one and a committed one under LINK_DOWN. -/
def State.purgePort (s : State) (c : Nat) (f : State → Copy → State) : State :=
  let e := s.egOf c
  let fr := s.frWaiting c
  let s1 := s.setEg c { e with queues := [], tx := none, preempted := none, commit := none, next := none }
  let s2 : State := { s1 with lnk.frWait := s1.lnk.frWait.filter (fun w => !(fr.any (fun x => x.1 == w.1))) }
  let started := (e.tx.map Tx.copy).toList ++ (e.preempted.map Tx.copy).toList
  let held := match e.commit with
    | some m => if m.launched then [] else [m.copy]
    | none => []
  let s3 := if e.commit.isSome then s2.count R.ostepLost else s2
  let s4 := (started ++ held).foldl (fun a x => a.endCopy 0x18 x) s3
  ((e.next.map Tx.copy).toList ++ (e.queues.flatMap (·.2)) ++ fr.map (·.2)).foldl f s4

/-- A port leaves UP: everything queued for it is dropped under LINK_DOWN. -/
def State.linkLoss (s : State) (c : Nat) : State := s.purgePort c (fun a x => a.endCopy 0x18 x)

/-- A port is retired or disabled while copies wait: they are dropped under PORT_GONE or redirected. -/
def State.portGone (s : State) (c : Nat) : State := s.purgePort c (fun a x => a.goneCopy x)

/-! ### Readiness on an Ethernet port (R135, R148) -/

/-- The length that the length check takes: that of the ingress port's longest frame for a copy that is cut through. -/
def State.checkLen (s : State) (f : Frame) (c : Copy) : Nat :=
  if f.complete then s.lineLength f c else s.ethMaxLen f.desc.ingress.toNat

/-- The length check of R148 for queue `q`'s head, when it would start at `line` ps. -/
def State.fits (s : State) (n q len line : Nat) : Bool :=
  match s.nextClose n q with
  | none => true
  | some d => decide (line + s.linePs n (len + 8) ≤ d)

/-- Whether a head passes its judgement and shaper. -/
def State.shaperOpen (s : State) (c : Nat) (h : Copy) : Bool :=
  h.shaped != some true || decide (0 < s.shaperLevel c h.adm)

/-- Whether the port protects a frame with MACsec (R227). -/
def State.protectsFrame (s : State) (n : Nat) (f : Frame) : Bool := s.protects n && !isEapol f.bytes

/-- Whether a queue is ready for a start at `line`, leaving out what is in flight. The protection of a committed copy waits for a slice that
it can lock (R41). -/
def State.queueReady (s : State) (n q line : Nat) : Bool :=
  match (s.egOf n).queue q with
  | [] => false
  | h :: _ =>
    match s.frame h.frame with
    | none => false
    | some f => s.copyReady f h && s.shaperOpen n h && s.gateOpen n q && s.fits n q (s.checkLen f h) line &&
        !(h.locked && s.protectsFrame n f && s.openSlices.isEmpty)

/-- Whether a queue's head competes as express: an express or locked copy, or no preemption active (R141, R181). -/
def State.headExpress (s : State) (n q : Nat) : Bool :=
  match (s.egOf n).queue q with
  | [] => false
  | h :: _ => h.express || h.locked || !s.mmActive n

/-- A head that fails the length check for a start at `line` is counted once in GTE_HOLDBACK (R148). -/
def State.holdBack (s : State) (n q line : Nat) : State :=
  match (s.egOf n).queue q with
  | [] => s
  | h :: r =>
    match s.frame h.frame with
    | none => s
    | some f =>
      if s.copyReady f h ∧ s.gateOpen n q ∧ ¬ h.heldBack ∧ ¬ s.fits n q (s.checkLen f h) line then
        (s.setQueue n q ({ h with heldBack := true } :: r)).count (R.holdback n)
      else s

/-- Whether a queue competes when only express heads do. -/
def State.competes (s : State) (n : Nat) (onlyExpress : Bool) (q : Nat) : Bool := !onlyExpress || s.headExpress n q

/-- The requesters of an Ethernet port that are ready, by rising index: queue 7 first. Beside a preemptable or preempted frame or under hold
only express heads compete. -/
def State.ethReady (s : State) (n : Nat) (onlyExpress : Bool) (line : Nat) : List Nat :=
  (List.range 8).filter (fun i => s.competes n onlyExpress (7 - i) && s.queueReady n (7 - i) line)

/-! ### Committed departure (R179 to R182) -/

/-- lead of R180 in ps. -/
def State.leadPs (s : State) (n : Nat) (prot : Bool) : Nat := (180 + s.dTx n + (if prot then 120 else 0)) * 1000

/-- Whether a locked copy of length `len` qualifies on its port (R180). -/
def State.qualifies (s : State) (n len : Nat) (prot : Bool) : Bool :=
  isE n && s.portUp n && decide (1000 ≤ s.rate n ∧
    max (s.leadPs n prot) (s.linePs n 160) + s.blockPs n + s.linePs n (len + 8) ≤ 4000000)

/-- Whether a frame is an event message of Layer 2 PTP (R179): Sync, Delay_Req, Pdelay_Req or Pdelay_Resp. -/
def isPtpEvent (l : List Byte) : Bool :=
  let p := parseEth l
  !p.bad && p.etype == 0x88F7 && decide ((byteAt l (p.etOff + 2)).toNat % 16 < 4)

/-- tx_ext of a port in ns (LNK_ETH_COMP). -/
def State.txExt (s : State) (n : Nat) : Int := signedOf 16 (s.fd (R.ethComp n) 31 16)
def State.rxExt (s : State) (n : Nat) : Int := signedOf 16 (s.fd (R.ethComp n) 15 0)

/-- Bit times of a port in ps. -/
def State.bitsPs (s : State) (n bits : Nat) : Nat := bits * 1000000 / max 1 (s.rate n)

/-- The domain whose number a message carries. -/
def State.domOfNumber (s : State) (d : Nat) : Nat := if s.fd (R.domCfg 1) 10 4 = d ∧ s.fd (R.domCfg 0) 10 4 ≠ d then 1 else 0

/-- A list with the bytes from offset `o` replaced. -/
def patch (l : List Byte) (o : Nat) (v : List Byte) : List Byte := l.take o ++ v ++ l.drop (o + v.length)

/-- The frame with its one-step stamp for a departure at `tc` ps of presented time (R182); `none` when nothing is written. The
conversion to domain time carries a free error within ±0.4 ns. -/
def State.stamped (s : State) (n : Nat) (f : Frame) (b : List Byte) (tc : Nat) : Option (List Byte) × State :=
  let o := (parseEth b).etOff + 2
  if f.desc.ingress = 0x7C then
    let (k, t) := drawNat s
    let d := s.domOfNumber (beAt b (o + 4) 1 % 128)
    let dx : Int := ((s.dom d).fine - s.pFine) * 1000 / 2 ^ 32
    let at_ := ((tc : Int) + dx + s.txExt n * 1000 + s.bitsPs n 64 + (k % 801 : Nat) - 400) / 1000
    let ns := at_.toNat
    (some (patch b (o + 34) (beBytes 6 (ns / 1000000000) ++ beBytes 4 (ns % 1000000000))), t)
  else if isE f.desc.ingress.toNat then
    let i := f.desc.ingress.toNat
    let res : Int := ((tc : Int) + s.txExt n * 1000 + s.bitsPs n 64) - (f.stampX.toNat * 1000 + s.bitsPs i 8)
    let corr := signedOf 64 (beAt b (o + 8) 8) + res * 65536 / 1000
    (some (patch b (o + 8) (beBytes 8 (natOfInt 64 corr))), s)
  else (none, s)

/-! ### Grants (R142, R181) -/

/-- A transmission starts: a frame that is still arriving is cut through. -/
def State.startTx (s : State) (n : Nat) (t : Tx) : State :=
  let s1 := s.setEg n { s.egOf n with tx := some t }
  match s1.frame t.copy.frame with
  | some f => if f.complete then s1 else s1.setFrame { f with desc := f.desc.setRx 3 }
  | none => s1

/-- A granted copy's transmission begins, or waits for the end of the frame in transmission (R142). -/
def State.beginTx (s : State) (n : Nat) (c : Copy) (at_ : Nat) : State :=
  let e := s.egOf n
  let t : Tx := { copy := { c with started := true }, start := at_ }
  if e.tx.isSome then s.setEg n { e with next := some t } else s.startTx n t

/-- The granted copy that waited for the line starts. -/
def State.startNext (s : State) (n : Nat) : State :=
  let e := s.egOf n
  match e.tx, e.next with
  | none, some t => (s.setEg n { e with next := none }).startTx n { t with start := max s.pPs t.start }
  | _, _ => s

/-- The length that the qualifying test takes (R180): that of R135, and for a cut-through copy that of the PTP message with its headers, FCS,
SecTAG and ICV, at least 64. -/
def State.oneStepLen (s : State) (n : Nat) (f : Frame) (c : Copy) : Nat :=
  if f.complete then s.lineLength f c
  else
    let o := (parseEth f.bytes).etOff + 2
    let tags := (if c.retag = some true then 4 else 0) + o - (if c.retag = some false then 4 else 0) - (if c.strip then 6 else 0)
    max 64 (beAt f.bytes (o + 2) 2 + tags + 4 + s.secAdds n (isEapol f.bytes))

/-- The slice that a committed copy's protection locks: a free value among the open ones (R38, R181). -/
def State.lockSlice (s : State) : Option Nat × State :=
  let (k, t) := drawNat s
  (s.openSlices[k % max 1 s.openSlices.length]?, t)

/-- A copy granted on an Ethernet port starts, or is committed. `line` is the instant at which the line is free. -/
def State.startEth (s : State) (n : Nat) (c : Copy) (f : Frame) (line : Nat) : State :=
  let len := s.lineLength f c
  let prot := s.protectsFrame n f
  let commit := c.locked && s.qualifies n (s.oneStepLen n f c) prot
  let (sa, s1) : Option (Nat × Nat) × State := if prot then s.takePn n else (none, s)
  if prot ∧ sa.isNone then s1.endCopy 0x1A c
  else
    let img := sa.map (fun x => (s1.keySlot x.1, x.2))
    let x : Copy := { c with len := len, sa := img, locked := commit }
    let s2 := if prot then s1.addCrypto (16 + n) (burstsOf len) (.protect (BitVec.ofNat 8 n) c.frame) else s1
    if commit then
      let (k, s3) := drawNat s2
      let tc := max (s.pPs + s.leadPs n prot) line + k % (s.blockPs n + 1)
      let (sl, s4) : Option Nat × State := if prot then s3.lockSlice else (none, s3)
      s4.setEg n { s4.egOf n with commit := some { copy := x, tc := tc, slice := sl } }
    else
      let s3 := if f.desc.stampInsert ∨ c.locked then s2.count R.ostepSkip else s2
      if f.complete then
        let (b, s4) := s3.copyBytes f x
        s4.beginTx n { x with bytes := some (match img with | some (k, pn) => secProtect k pn b | none => b) } line
      else s3.beginTx n x line

/-- An Ethernet port makes a grant to queue `q`. -/
def State.grantEth (s : State) (n : EPort) (q line : Nat) : State :=
  match (s.egOf n).queue q with
  | [] => s
  | h :: r =>
    match s.frame h.frame with
    | none => s
    | some f =>
      let len := s.lineLength f h
      let s1 := (s.granted (.eth n) (7 - q) (ceilDiv len 64)).setQueue n q r
      let s2 := if h.shaped = some true then s1.shaperDebit n h.adm len else s1
      (s2.startEth n h f line).settleQueues n

/-- Whether an Ethernet port's queues are judged at all: UP, and not in step 1 or 2 of a rate change. -/
def State.ethOpen (s : State) (n : Nat) : Bool := s.portUp n && !(s.lane n).retune

/-- Which queues of an Ethernet port compete (R142): none while an express frame is being sent, those with an express head beside a preemptable
or preempted frame or under hold, else all of them (`some false`). -/
def State.contest (s : State) (n : Nat) : Option Bool :=
  let e := s.egOf n
  match e.tx with
  | some t => if s.preemptable n t then some true else none
  | none => some (e.preempted.isSome || s.holdNow n)

/-- An Ethernet port's arbiter makes one grant: none while a committed copy or a granted one waits for the line (R39, R142, R144). A
preemptable frame in transmission is preempted at its next legal point for the queue that wins, which else follows it. -/
def egressGrantEth (n : EPort) (s0 : State) : State :=
  if ¬ s0.ethOpen n then s0
  else match s0.contest n with
    | none => s0
    | some only =>
      let line := s0.lineFree n
      let s := (List.range 8).foldl (fun a q => if a.competes n only q then a.holdBack n q line else a) s0
      if (s.egOf n).commit.isSome ∨ (s.egOf n).next.isSome then s
      else match s.pick (.eth n) (s.ethReady n only line) with
        | none => s
        | some i => (s.preemptTx n).grantEth n (7 - i) line

/-! ### Other egress ports -/

/-- The enabled transmit buffers of a FlexRay channel for a frame id (R65). -/
def State.frBuffersOf (s : State) (c id : Nat) : List Nat :=
  let f := (c - 0x68) / 2
  (List.range 128).filter (fun b =>
    s.bt (R.frMbCfg f b) 13 && s.bt (R.frMbCfg f b) (11 + (c - 0x68) % 2) && s.fd (R.frMbCfg f b) 10 0 == id)

/-- Whether a buffer sends in a cycle (R65). -/
def State.frSends (s : State) (f b cycle : Nat) : Bool :=
  (cycle + 128 - s.fd (R.frMbCyc f b) 5 0) % 2 ^ s.fd (R.frMbCyc f b) 8 6 == 0

/-- The buffer that takes a copy. DESIGN CHOICE (log entry 44): of several enabled buffers with its frame_id and channel, which send in
different cycles, the one that sends in the cycle of the copy's header slot, else the first; the spec does not say which. -/
def State.frBuffer (s : State) (c id cycle : Nat) : Option Nat :=
  let l := s.frBuffersOf c id
  (l.find? (fun b => s.frSends ((c - 0x68) / 2) b cycle)).or l.head?

/-- Whether a payload fits its FlexRay buffer. -/
def State.frFits (s : State) (c b id len : Nat) : Bool :=
  let f := (c - 0x68) / 2
  if id ≤ s.fd (R.frStatic f) 9 0 then len == 2 * s.fd (R.frStatic f) 25 20
  else decide (len ≤ 2 * s.fd (R.frMbCfg f b) 20 15)

/-- A frame that is sent without its one-step stamp is counted (R179, R180, R193). -/
def State.countUnstamped (s : State) (x : Copy) (f : Frame) : State := if x.locked ∨ f.desc.stampInsert then s.count R.ostepSkip else s

/-- A copy goes into a FlexRay transmit buffer, in place of one that waits there (R65). -/
def State.startFr (s : State) (c : Nat) (x : Copy) (f : Frame) : State :=
  let id := imgLe f.hslot 0 2 % 2048
  match s.frBuffer c id (imgLe f.hslot 2 1 % 64) with
  | none => s.endCopy 0x1A x
  | some b =>
    if ¬ s.frFits c b id f.desc.length.toNat then s.endCopy 0x1A x
    else
      let k := (c - 0x68) * 128 + b
      let old := kvGet none s.lnk.frWait k
      let s1 : State := { s with lnk.frWait := kvSet none s.lnk.frWait k (some { x with len := f.desc.length.toNat }) }
      match old with
      | some o => s1.endCopy 0x1A o
      | none => s1

/-- Whether a frame originates in the QX: a port code 0x70 to 0x74 or 0x7C, or carried out of an IEEE 1722 frame (R232). -/
def Frame.fromQx (f : Frame) : Bool := decide (0x70 ≤ f.desc.ingress.toNat) || bit f.desc.rxFlags 4

/-- The header slot of a LIN frame on the bus (R57, R61): the checksum that LNK_LIN_CKS gives its identifier, who sent header and response,
and its length. The slot of a frame of another medium stands. -/
def State.linHeaderSlot (s : State) (c : Nat) (h : BitVec 128) (own publish : Bool) (len : Nat) : BitVec 128 :=
  let id := imgLe h 0 1 % 64
  let enhanced := !s.bt (R.linCks (c - 0x50) (id / 32)) (id % 32)
  setImg (setImg (setImg 0 0 1 (imgLe h 0 1)) 1 1 (boolNat enhanced + 2 * boolNat own + 4 * boolNat publish)) 2 2 len

/-- The header slot of a frame that a LIN port sends as the response to the last header. -/
def State.linSlotOf (s : State) (c : Nat) (h : BitVec 128) : BitVec 128 :=
  if isL c then s.linHeaderSlot c h (s.lin (c - 0x50)).own true (imgLe h 2 2) else h

/-- A copy granted on a CAN port starts, protected when R232 asks it; a frame of a format above the controller's proto cannot be sent. -/
def State.startCan (s : State) (c : Nat) (x : Copy) (f : Frame) : State :=
  if s.fd (R.canCfg (c - 0x20)) 3 2 < canType f.hslot then s.endCopy 0x1A x
  else
    let (o, s1) := if f.fromQx then s.protectBus c f.hslot f.bytes else (.ok (f.hslot, f.bytes), s)
    match o with
    | .error code => s1.endCopy code x
    | .ok (h, b) =>
      let s2 := match (if f.fromQx then s.localNode c f.hslot f.bytes else none) with
        | some (_, e) => s1.addCrypto (if ndMode e = 2 then 33 else 32) (burstsOf b.length) (.protect x.port x.frame)
        | none => s1
      (s2.countUnstamped x f).beginTx c { x with len := b.length, locked := false, bytes := some b, hslot := some h } s.pPs

/-- A copy granted on a port of another medium starts. -/
def State.startOther (s : State) (c : Nat) (x : Copy) (f : Frame) : State :=
  if isF c then s.startFr c x f
  else if isC c then s.startCan c x f
  else
    let (b, s2) := (s.countUnstamped x f).copyBytes f x
    s2.beginTx c { x with len := s.lineLength f x, locked := false, bytes := some b, hslot := some (s.linSlotOf c f.hslot) } s.pPs

/-- Whether a port's controller can take a frame: none is being sent; a CAN controller is in normal mode; a LIN controller takes a
frame only with a header (R59, R61). -/
def State.canTake (s : State) (c : Nat) : Bool :=
  s.portUp c && (s.egOf c).tx.isNone && !isL c && (!isC c || s.fd (R.canCfg (c - 0x20)) 1 0 == 1)

/-- Whether queue `q` of a port of another medium is ready. -/
def State.otherReady (s : State) (c q : Nat) : Bool :=
  match (s.egOf c).queue q with
  | [] => false
  | h :: _ => ((s.frame h.frame).map Frame.complete).getD false && s.shaperOpen c h

/-- A port of another medium makes a grant to queue `q`. -/
def State.grantOther (s : State) (c q : Nat) : State :=
  match (s.egOf c).queue q with
  | [] => s
  | h :: r =>
    match s.frame h.frame with
    | none => s
    | some f =>
      let s1 := (s.granted (.other (BitVec.ofNat 8 c)) (7 - q) 1).setQueue c q r
      let s2 := if h.shaped = some true then s1.shaperDebit c h.adm (s.lineLength f h) else s1
      (s2.startOther c h f).settleQueues c

def egressGrantOther (c : Nat) (s : State) : State :=
  if ¬ s.canTake c then s
  else match s.pick (.other (BitVec.ofNat 8 c)) ((List.range 8).filter (fun i => s.otherReady c (7 - i))) with
    | none => s
    | some i => s.grantOther c (7 - i)

/-- An egress port's arbiter makes one grant. -/
def egressGrant (c : PortCode) (s : State) : State :=
  if isE c.toNat then egressGrantEth (Fin.ofNat 16 c.toNat) s else egressGrantOther c.toNat s

/-! ### Resuming and launching -/

/-- A preempted frame resumes when no express copy is ready, no committed copy waits or is sent, and no hold is in force (R143). In step 2
of a rate change no other copy is granted, and it completes whatever waits. -/
def preemptResume (n : EPort) (s : State) : State :=
  let e := s.egOf n
  match e.preempted with
  | none => s
  | some t =>
    if e.tx.isSome ∨ e.next.isSome ∨ e.commit.isSome ∨ s.holdNow n ∨ ¬ s.portUp n ∨
        (¬ (s.lane n).retune ∧ ¬ (s.ethReady n true (s.lineFree n)).isEmpty) then s
    else s.setEg n { e with tx := some { t with start := s.lineFree n }, preempted := none }

def execPreemptResume (n : EPort) (s : State) : Res := .next (clocked (preemptResume n) s)

/-- A committed frame leaves at its committed instant with its inserted stamp, then protected (R181, R182). -/
def committedLaunch (n : EPort) (s : State) : State :=
  let e := s.egOf n
  match e.commit with
  | none => s
  | some m =>
    if m.launched ∨ e.tx.isSome then s
    else
      match s.frame m.copy.frame with
      | none => s
      | some f =>
        let (b, s1) := s.copyBytes f m.copy
        let (r, s2) := s1.stamped n f b m.tc
        let s3 := if r.isNone then s2.count R.ostepSkip else s2.count R.ostepSent
        let plain := r.getD b
        let line := match m.copy.sa with
          | some (k, pn) => secProtect k pn plain
          | none => plain
        let s4 := s3.setEg n { s3.egOf n with commit := some { m with launched := true } }
        s4.beginTx n { m.copy with bytes := some line } m.tc

def execCommittedLaunch (n : EPort) (s : State) : Res := .next (clocked (committedLaunch n) s)

/-- A shaped head copy has waited max_wait_us: it is handled as excess (R160). -/
def shaperWaitExpire (c : PortCode) (q : Fin 8) (s : State) : State :=
  match (s.egOf c.toNat).queue q with
  | [] => s
  | h :: r =>
    if h.shaped = some true ∧ s.shaperLevel c.toNat h.adm ≤ 0 ∧ ¬ h.locked then
      let t := s.setQueue c.toNat q r
      (if s.polExc h.adm then t.deferCopy h else t.refuseCopy h).settleQueue c.toNat q
    else s

def execShaperWaitExpire (c : PortCode) (q : Fin 8) (s : State) : Res := .next (clocked (shaperWaitExpire c q) s)

/-- Every head is judged again under a new band or a poured policy (R33, R155, R159); locked heads, and copies that started before, are
not. -/
def State.rejudge (s : State) : State :=
  (List.range 0x70).foldl (fun a c =>
    (List.range 8).foldl (fun b q =>
      match (b.egOf c).queue q with
      | [] => b
      | h :: r => if h.started ∨ h.locked then b else (b.setQueue c q ({ h with shaped := none } :: r)).settleQueue c q) a) s

/-! ### Ends of a transmission -/

/-- Counters of a frame sent complete. -/
def State.countSent (s : State) (c : Nat) (t : Tx) : State :=
  if isE c then
    let s1 := (s.countWide (R.ethCnt c 6)).countWide (R.ethCnt c 7) t.copy.len
    if 0 < t.frags then s1.countWide (R.ethCnt c 8) else s1
  else if isS c then s.count (R.t1sCnt (c - 0x10) 2)
  else if isC c then (s.count (R.canCnt (c - 0x20) 1)).canTally (c - 0x20) (-1) 0
  else if isL c then s.count (R.linCnt (c - 0x50) 1)
  else if isF c then s.count (R.frCnt ((c - 0x68) / 2) ((c - 0x68) % 2) 1)
  else s.count (R.senCnt (c - 0x6C) 1)

/-- The lane of a port in step 2 of a rate change is idle: the port drops its queue and enters DOWN, or DISABLED when the new mode is 0
(R47, R49, 02_ports.md, *Rate change*). -/
def State.finishRetune (s : State) (n : Nat) : State :=
  let e := s.egOf n
  if (s.lane n).retune ∧ s.fd (R.ethStatus n) 2 0 = pUp ∧ e.tx.isNone ∧ e.preempted.isNone ∧ e.commit.isNone ∧ e.next.isNone then
    let off := s.fd (R.ethMode n) 3 0 == 0
    let s1 := (s.linkLoss n).modRg (R.ethStatus n) (fun w => setFld (setFld w 2 0 (if off then pDisabled else pDown)) 23 16 5)
    let s2 := ((s1.countWide (R.ethCnt n 11)).setFd (R.ethStatus n) 5 4 0).setBt (R.gteStatus n) 13 false
    if off then s2.setLane n {} else s2.setLane n { s2.lane n with change := true }
  else s

/-- The instant in ps at which an Ethernet line is free again when a frame ends now. -/
def State.afterGap (s : State) (c : Nat) : Nat := if isE c then s.pPs + s.linePs c 12 else 0

/-- A transmission has ended whole: counted, its bytes shown, its frame settled. -/
def State.txDone (s : State) (c : Nat) (t : Tx) (f : Frame) : State :=
  let (b, s1) := match t.copy.bytes with
    | some x => (x, s)
    | none => s.copyBytes f t.copy
  let e := s1.egOf c
  let s2 := s1.setEg c { e with tx := none, commit := (if t.copy.locked then none else e.commit), free := s1.afterGap c }
  let s4 := ((s2.countSent c t).emit (.frame (BitVec.ofNat 8 c) (t.copy.hslot.getD f.hslot) b false)).sentCopy t.copy
  if isE c then (s4.startNext c).finishRetune c else s4

/-- A transmission ends under a reason, its frame check sequence inverted on Ethernet (R92, R327). -/
def State.txAbort (s : State) (c code : Nat) (t : Tx) : State :=
  let e := s.egOf c
  let s1 := s.setEg c { e with tx := none, commit := (if t.copy.locked then none else e.commit), free := s.afterGap c }
  let s2 := if t.copy.locked then s1.count R.ostepLost else s1
  let s3 := s2.emit (.frame (BitVec.ofNat 8 c) 0 (t.copy.bytes.getD []) true)
  let s4 := s3.endCopy code t.copy
  if isE c then (s4.startNext c).finishRetune c else s4

/-- A bus transmission that failed is tried again unless one_shot (CAN) drops it under TX_FAIL (R60). -/
def State.txRetry (s : State) (c : Nat) (t : Tx) : State :=
  if isC c ∧ s.bt (R.canCfg (c - 0x20)) 6 then
    (s.setEg c { s.egOf c with tx := none }).endCopy 0x1A t.copy
  else if isL c then
    let e := s.egOf c
    s.setEg c ({ e with tx := none }.setQueue t.copy.tc (t.copy :: e.queue t.copy.tc))
  else s.setEg c { s.egOf c with tx := some { t with start := s.pPs } }

/-- A copy finishes transmission, once every burst of its protection has been granted, loses arbitration, or ends in a bus error or
collision. -/
def egressTxComplete (c : PortCode) (x : TxEnd) (s : State) : State :=
  match (s.egOf c.toNat).tx with
  | none => s
  | some t =>
    match s.frame t.copy.frame with
    | none => s
    | some f =>
      match x with
      | .done => if f.complete ∧ ¬ s.protecting c t.copy.frame then s.txDone c.toNat t f else s
      | .arbLost => if isC c.toNat then (s.count (R.canCnt (c.toNat - 0x20) 3)).txRetry c.toNat t else s
      | .busError =>
        if isE c.toNat then s
        else if isS c.toNat then (s.count (R.t1sCnt (c.toNat - 0x10) 3)).txRetry c.toNat t
        else if isC c.toNat then (s.canTally (c.toNat - 0x20) 8 0).txRetry c.toNat t
        else s.txRetry c.toNat t

end Sys2Proof.Machine
end

