-- ==== Sys2Proof/Machine/Classify.lean ====
section
/-! DEFINITION. Classification steps 1 to 8, copies and branch (R71 to R92, R113, R122, R179, R231, R242). -/

namespace Sys2Proof.Machine

/-! ### The class byte -/

/-- The class byte of a descriptor. -/
def mkClass (tc adm : Nat) (express locked : Bool) : Byte :=
  BitVec.ofNat 8 (tc % 8 + 8 * (adm % 4) + 32 * boolNat express + 64 * boolNat locked)

/-- The admission class of a traffic class (FWD_ADM_MAP). -/
def State.admOf (s : State) (tc : Nat) : Nat := s.fd R.admMap (2 * tc + 1) (2 * tc)

/-- The traffic class of a frame from a media port (R75). -/
def State.tcOf (s : State) (c : Nat) (p : Parsed) : Nat :=
  if isES c ∧ p.tagged then s.fd (R.portPcp c) (3 * p.pcp + 2) (3 * p.pcp) else s.fd (R.portCfg c) 18 16

/-- The intake class byte (R75, R95). -/
def State.intakeClass (s : State) (c : Nat) (p : Parsed) : Byte :=
  let tc := s.tcOf c p
  mkClass tc (s.admOf tc) false false

/-- The VID of a frame: its outer tag's, or the port's pvid (R74). -/
def State.vidOf (s : State) (c : Nat) (p : Parsed) : Nat := if p.vid = 0 then s.fd (R.portCfg c) 11 0 else p.vid

/-! ### A classification in progress -/

/-- The state, the frame with its descriptor so far, and the reason under which it was dropped (0 = none). -/
structure Cl where
  s    : State
  f    : Frame
  drop : Nat := 0

/-- The next step runs unless a step has dropped the frame. -/
def Cl.next (c : Cl) (k : State → Frame → Cl) : Cl := if c.drop = 0 then k c.s c.f else c

/-- Step 2 on an Ethernet or T1S frame (R74). -/
def stepVlan (p : Parsed) (s : State) (f : Frame) : Cl :=
  let c := f.desc.ingress.toNat
  let acc := s.fd (R.portCfg c) 13 12
  let wrong := (acc == 1 && p.vid == 0) || (acc == 2 && p.vid != 0)
  { s := s, f := f, drop := if wrong || !bit (s.vlanAt f.vid.toNat) c then 0x03 else 0 }

/-! ### Step 3 (R80, R81) -/

/-- What a lookup found: a table position or TCAM index, whether it is the TCAM's, and the 16 result bytes. -/
structure Found where
  index : Nat
  tcam  : Bool
  res   : BitVec 128

def Found.act (r : Found) (i : Nat) : Bool := bit r.res i
def Found.dset (r : Found) : Nat := imgLe r.res 2 2 % 4096
def Found.capq (r : Found) : Nat := imgLe r.res 4 1 % 64
def Found.tc (r : Found) : Nat := fld r.res 42 40
def Found.tcSet (r : Found) : Bool := bit r.res 43
def Found.adm (r : Found) : Nat := fld r.res 45 44
def Found.admSet (r : Found) : Bool := bit r.res 46
def Found.express (r : Found) : Bool := bit r.res 47
def Found.prof (r : Found) : Nat := imgLe r.res 6 1
def Found.sid (r : Found) : Nat := imgLe r.res 7 1 % 4
def Found.tprof (r : Found) : Nat := imgLe r.res 8 2 % 1024
def Found.eprof (r : Found) : Nat := imgLe r.res 10 1
def Found.dropCode (r : Found) : Nat := imgLe r.res 11 1
def Found.owner (r : Found) : Nat := imgLe r.res 12 1 % 8

/-- The result bytes of a route entry and of a TCAM entry. -/
def routeRes (e : BitVec 256) : BitVec 128 := BitVec.ofNat 128 (e.toNat >>> 128)
def tcamRes (e : BitVec 384) : BitVec 128 := BitVec.ofNat 128 (e.toNat >>> 256)

/-- Whether a TCAM entry matches a key (R79). -/
def tcamMatch (e : BitVec 384) (key : BitVec 128) : Bool :=
  ((BitVec.ofNat 128 e.toNat ^^^ key) &&& BitVec.ofNat 128 (e.toNat >>> 128)) == 0

/-- The winning TCAM entry: valid, of the port's holder, the lowest index (R79). -/
def State.tcamWin (s : State) (owner : Part) (key : BitVec 128) : Option Found :=
  (s.tab.tcam.find? (fun e =>
    bit (tcamRes e.2) 7 && decide (imgLe (tcamRes e.2) 12 1 % 8 = owner.val) && tcamMatch e.2 key)).map
    (fun e => { index := e.1, tcam := true, res := tcamRes e.2 })

/-- The exact hit whose owner holds the port (R80). -/
def State.exactHit (s : State) (owner : Part) (key : BitVec 128) : Option Found :=
  match s.route key with
  | some (pos, e) =>
    if imgLe (routeRes e) 12 1 % 8 = owner.val then some { index := pos, tcam := false, res := routeRes e } else none
  | none => none

/-- The choice of R80. -/
def State.lookup (s : State) (owner : Part) (key tkey : BitVec 128) : Option Found :=
  match s.tcamWin owner tkey with
  | some t => if t.act 6 then some t else match s.exactHit owner key with
    | some e => some e
    | none => some t
  | none => s.exactHit owner key

/-- The descriptor under a route (R17, R81, R179). -/
def routedDesc (r : Found) (ptp : Bool) (d : FrameDesc) : FrameDesc :=
  { d with
    cls := mkClass (if r.tcSet then r.tc else d.tc) (if r.admSet then r.adm else d.adm) r.express (r.act 4 && ptp)
    actions := BitVec.ofNat 16 (fld r.res 5 0)
    capq := BitVec.ofNat 8 r.capq
    route := BitVec.ofNat 32 (r.index + 2 ^ 20 + 2 ^ 21 * boolNat r.tcam) }

/-- Step 3 when a route is found. -/
def stepRouted (r : Found) (s : State) (f : Frame) : Cl :=
  { s := s
    f := { f with
      desc := routedDesc r (isPtpEvent f.bytes && isES f.desc.ingress.toNat) f.desc
      dset := s.dsetAt r.dset, eprof := r.eprof, tprof := r.tprof }
    drop := if r.act 5 then (if r.dropCode = 0 then 0x05 else r.dropCode) else 0 }

/-- Step 3 when the lookup misses: the default action of the port's holder (FWD_DEFAULT). -/
def stepMissed (s : State) (f : Frame) : Cl :=
  let w := s.rgp f.owner R.fwdDefault
  match fld w 1 0 with
  | 1 => { s := s, f := { f with desc := { f.desc with actions := 8, capq := BitVec.ofNat 8 (fld w 7 2) } } }
  | 2 => { s := s, f := { f with desc := { f.desc with actions := 1 }, dset := s.dsetAt (fld w 19 8) } }
  | _ => { s := s, f := f, drop := 0x04 }

/-- The exact key and the TCAM key of a frame (R76). -/
def State.keysOf (s : State) (f : Frame) (p : Parsed) : BitVec 128 × BitVec 128 :=
  let c := f.desc.ingress.toNat
  if isES c then (s.ethKey c f.owner f.vid.toNat p f.bytes, rawKey c f.vid.toNat p f.bytes)
  else (busKey c f.hslot f.bytes, busKey c f.hslot f.bytes)

/-- Whether a frame's route misses and FWD_DEFAULT forwards it (R89). -/
def Frame.byDefault (f : Frame) : Bool := !bit f.desc.route 20

/-! ### Step 4 (R83 to R85) -/

/-- The index that stands for the overflow aggregate. -/
def ovfRec : Nat := 4096

/-- A stream record, or the overflow aggregate. -/
def State.recAt (s : State) (i : Nat) : Stream := if i = ovfRec then s.live.overflow else s.stream i

/-- A write of a stream record or of the overflow aggregate. -/
def State.setRec (s : State) (i : Nat) (r : Stream) : State :=
  if i = ovfRec then { s with live.overflow := r, live.overflowCopy := r } else s.setStream i r

/-- A stream's identity in key format (R85): DA or SA, or the route key. A frame without addresses takes its route key. -/
def streamIdentity (c : Nat) (owner : Part) (vid fn : Nat) (key : BitVec 128) (l : List Byte) : BitVec 128 :=
  if fn = 3 ∨ ¬ isES c then key
  else keyOf ([0, BitVec.ofNat 8 owner.val] ++ vidBytes vid 0 ++ slice l (if fn = 1 then 0 else 6) 6)

/-- The unit of a bucket: 1/8,000,000 byte, so that a rate in kbit/s adds its value each ns. -/
def bucketUnit : Int := 8000000

/-- A record with both buckets of a profile full (R87). -/
def freshRecord (prof : BitVec 256) (now : Nat) (r : Stream) : Stream :=
  { r with cbucket := imgLe prof 8 4 * bucketUnit, ebucket := imgLe prof 16 4 * bucketUnit, mtime := now }

/-- The stream records set aside for the pins of ready pours (R285). -/
def State.keptRecords (s : State) : List Nat := s.cmd.pours.flatMap (fun x => if x.ready then x.pins else [])

/-- The indexes of free records. -/
def State.freeRecords (s : State) : List Nat :=
  (List.range 4096).filter (fun i => !(s.stream i).used && !s.keptRecords.contains i)

/-- The record that a tracked frame uses: matching, newly allocated (which free one is a free value), or the overflow aggregate. -/
def State.findRecord (s : State) (identity : BitVec 128) (owner : Part) (vid : BitVec 12) (prof : Nat) : Nat × State :=
  match s.live.streams.find? (fun r =>
      r.2.used && r.2.identity == identity && r.2.owner == owner && r.2.vid == vid) with
  | some r => (r.1, s)
  | none =>
    match s.freeRecords with
    | [] =>
      let t := s.setBt R.fwdStatus 0 true
      if t.live.overflow.used then (ovfRec, t)
      else (ovfRec, t.setRec ovfRec (freshRecord (t.pprofAt (t.fd R.streamCfg 23 16)) t.upNs { used := true }))
    | x :: l =>
      let (k, t) := drawNat s
      let i := (x :: l).getD (k % (l.length + 1)) x
      (i, t.setStream i (freshRecord (t.pprofAt prof) t.upNs
        { identity := identity, owner := owner, vid := vid, used := true, prof := BitVec.ofNat 8 prof }))

/-- Step 4 for a frame under a route. DESIGN CHOICE (log entry 29): under fn 0b11 "the route key" is the frame's own exact key, also where
the route is a TCAM entry's, whose key holds don't-care bits and another format. -/
def stepStream (r : Found) (key : BitVec 128) (s : State) (f : Frame) : Cl :=
  if r.sid = 0 then { s := s, f := f }
  else
    let owner : Part := Fin.ofNat 5 r.owner
    let id := streamIdentity f.desc.ingress.toNat owner f.vid.toNat r.sid key f.bytes
    let (i, t) := s.findRecord id owner f.vid r.prof
    let x := t.recAt i
    let w := BitVec.ofNat 16 (if i = ovfRec then 2 ^ 12 + 2 ^ 13 else i + 2 ^ 12)
    { s := t.setRec i { x with frames := satInc x.frames 1, lastHit := t.upNs }
      f := { f with srec := some i, desc := { f.desc with stream := w } } }

/-! ### Step 5 (R86, R87) -/

/-- The policy profile of a record. -/
def State.recProf (s : State) (i : Nat) : BitVec 256 :=
  s.pprofAt (if i = ovfRec then s.fd R.streamCfg 23 16 else (s.stream i).prof.toNat)

/-- A frame's length as max_sdu counts it. -/
def Frame.sduLen (f : Frame) : Nat := f.desc.length.toNat + (if isES f.desc.ingress.toNat then 4 else 0)

/-- Whether a frame is longer than `n`, 0 for no limit. -/
def Frame.longerThan (f : Frame) (n : Nat) : Bool := decide (n ≠ 0 ∧ n < f.sduLen)

/-- The IEEE 802.1CB vector recovery algorithm: a drop reason and the record. -/
def recover (hist : Nat) (r : Stream) (seq : Nat) : Nat × Stream :=
  let d := signedOf 16 (seq + 2 ^ 16 - r.rseq.toNat)
  if ¬ r.taken then (0, { r with taken := true, history := 1, rseq := BitVec.ofNat 16 seq })
  else if (hist : Int) ≤ d.natAbs then (0x09, r)
  else if d ≤ 0 then
    if bit r.history d.natAbs then (0x08, r) else (0, { r with history := setBit r.history d.natAbs true })
  else
    (0, { r with rseq := BitVec.ofNat 16 seq
                 history := BitVec.ofNat 32 ((r.history.toNat * 2 ^ d.toNat + 1) % 2 ^ hist) })

/-- The elimination part. -/
def stepFrer (p : Parsed) (i : Nat) (s : State) (f : Frame) : Cl :=
  let pr := s.recProf i
  if bit pr 19 ∧ isES f.desc.ingress.toNat ∧ p.etype = 0xF1C1 then
    let (d, r) := recover (imgLe pr 3 1) (s.recAt i) (beAt f.bytes (p.etOff + 4) 2)
    { s := s.setRec i r, f := { f with rtag := bit pr 20 }, drop := d }
  else { s := s, f := f }

/-- A record's buckets filled up to now. -/
def fillBuckets (pr : BitVec 256) (now : Nat) (r : Stream) : Stream :=
  { r with
    cbucket := min (imgLe pr 8 4 * bucketUnit) (r.cbucket + imgLe pr 4 4 * ((now - r.mtime : Nat) : Int))
    ebucket := min (imgLe pr 16 4 * bucketUnit) (r.ebucket + imgLe pr 12 4 * ((now - r.mtime : Nat) : Int))
    mtime := now }

/-- The node of a frame. -/
def State.nodeOf (s : State) (f : Frame) : Option (Nat × Node) :=
  s.node (nodeKey f.desc.ingress.toNat f.hslot f.bytes)

/-- A red frame: counted, latched under mafre, and the talker held after hold_cnt within hold_win_ms. -/
def State.redFrame (s : State) (i : Nat) (pr : BitVec 256) (f : Frame) (r : Stream) : State :=
  let win := imgLe pr 24 2 * 1000000
  let reds := (r.reds ++ [s.upNs]).filter (fun t => decide (s.upNs ≤ t + win))
  let cnt := imgLe pr 22 2
  let t := s.setRec i { r with red := satInc r.red 1, mafre := r.mafre || bit pr 18,
                               reds := if cnt = 0 then [] else reds.drop (reds.length - cnt) }
  if cnt ≠ 0 ∧ cnt ≤ reds.length then
    match t.nodeOf f with
    | some (k, _) => t.holdNode k 1 (imgLe pr 26 2)
    | none => t
  else t

/-- The meter. -/
def stepMeter (i : Nat) (s : State) (f : Frame) : Cl :=
  let pr := s.recProf i
  if ¬ bit pr 16 then { s := s, f := f }
  else if (s.recAt i).mafre then { s := s, f := f, drop := 0x07 }
  else
    let r := fillBuckets pr s.upNs (s.recAt i)
    if 0 < r.cbucket then { s := s.setRec i r, f := { f with colour := .green } }
    else if 0 < r.ebucket then
      { s := s.setRec i r, f := { f with colour := .yellow }, drop := if bit pr 17 then 0x07 else 0 }
    else { s := s.redFrame i pr f r, f := { f with colour := .red }, drop := 0x07 }

/-- Step 5. The filter judges a frame of several cells that may be cut through only at its end (`late`), under this limit (R31, R92). -/
def stepPolice (p : Parsed) (late : Bool) (s : State) (f : Frame) : Cl :=
  match f.srec with
  | none => { s := s, f := f }
  | some i =>
    let m := imgLe (s.recProf i) 0 2
    if late then (stepFrer p i s { f with maxSdu := m }).next (stepMeter i)
    else if f.longerThan m then { s := s, f := f, drop := 0x06 }
    else (stepFrer p i s f).next (stepMeter i)

/-- The debit of a frame's length when its last cell arrives: green and yellow frames debit their bucket even where another step or a
late error drops them (R87). -/
def State.debit (s : State) (f : Frame) : State :=
  match f.srec with
  | none => s
  | some i =>
    let r := s.recAt i
    let n : Int := f.sduLen * bucketUnit
    let low : Int := -9216 * bucketUnit
    match f.colour with
    | .green => s.setRec i { r with cbucket := max low (r.cbucket - n) }
    | .yellow => s.setRec i { r with ebucket := max low (r.ebucket - n) }
    | _ => s

/-! ### Step 6 (R88, R234) -/

/-- Step 6: the node's index, its last_seen, its hold. -/
def stepHold (s : State) (f : Frame) : Cl :=
  match s.nodeOf f with
  | none => { s := s, f := f }
  | some (i, e) =>
    { s := s.setNode i (setImg e 28 4 f.desc.stamp.toNat)
      f := { f with desc := { f.desc with node := BitVec.ofNat 32 (i + 2 ^ 18) } }
      drop := if ndHeld e then 0x0A else 0 }

/-- The node index of a descriptor. -/
def FrameDesc.nodeIndex (d : FrameDesc) : Option Nat := if bit d.node 18 then some (fld d.node 17 0) else none

/-! ### Step 7 (R226, R231, R237) -/

/-- Whether step 7 has something to judge of a frame that is still arriving. -/
def Frame.needs7 (f : Frame) : Bool := isE f.desc.ingress.toNat && f.held.validate != 0

/-- The configuration that steps 7 and 8 will use for a frame (R31, R236), with the node entry that step 6 found. -/
def State.hold78 (s : State) (f : Frame) : Held :=
  let c := f.desc.ingress.toNat
  let e := (s.nodeOf f).map (·.2)
  let k : KeySlot := if isE c then
      match f.sec with
      | .checked i _ _ _ => s.keySlot i
      | _ => 0
    else ((e.bind ndSlot).map s.keySlot).getD 0
  { validate := if isE c then s.validate c else 0
    replay := isE c && s.replayOn c
    node := e
    slot := k
    alt := ((ksAlt k).map s.keySlot).getD 0
    hold := fld (s.rgp (s.portHolder c) R.cryCfg) 15 0
    e2e := s.eprofAt f.eprof }

/-- Step 7. A verification without a result drops the frame under AUTH_FAIL (R326, R328). -/
def stepVerify (s : State) (f : Frame) : Cl :=
  let c := f.desc.ingress.toNat
  let v : Verdict := if f.sec = .failed then { s := s, drop := 0x0C }
    else if isE c then s.ethVerdict c f.held f.sec
    else if isES c then { s := s } else s.busVerdict c f.hslot f.bytes f.held
  let t := match f.held.node with
    | some e => v.s.authResult e f.held.hold v.drop v.verified
    | none => v.s
  { s := t, f := if v.verified then { f with desc := f.desc.setRx 5 } else f, drop := v.drop }

/-! ### ACF messages (R105, R106) and step 8 (R122) -/

/-- The AVTP header of a PDU: its length, the bytes that follow it, its sequence_num. -/
structure Avtp where
  head : Nat
  len  : Nat
  seq  : Byte

/-- The header of the PDU at offset `o` of a frame: NTSCF or TSCF. -/
def avtpHead (l : List Byte) (o : Nat) : Option Avtp :=
  match (byteAt l o).toNat with
  | 0x82 => some { head := 12, len := beAt l (o + 1) 2 % 2048, seq := byteAt l (o + 3) }
  | 0x05 => some { head := 24, len := beAt l (o + 20) 2, seq := byteAt l (o + 2) }
  | _ => none

/-- An ACF message: its type, and all of its bytes. -/
structure Acf where
  type  : Nat
  bytes : List Byte

/-- The ACF messages of a PDU's content in order, and whether a message's length is 0 or runs beyond the PDU. -/
def acfMessages : Nat → List Byte → List Acf × Bool
  | 0, _ => ([], false)
  | k + 1, l =>
    if l.isEmpty then ([], false)
    else
      let n := 4 * (beAt l 0 2 % 512)
      if n = 0 ∨ l.length < n then ([], true)
      else
        let (r, bad) := acfMessages k (l.drop n)
        ({ type := beAt l 0 2 / 512, bytes := l.take n } :: r, bad)

/-- The messages of an ACF frame; a frame with another subtype, or shorter than its header says, has none and is malformed. -/
def frameAcf (l : List Byte) : Option Avtp × List Acf × Bool :=
  let o := (parseEth l).etOff + 2
  match avtpHead l o with
  | none => (none, [], true)
  | some h =>
    let body := (l.drop (o + h.head)).take h.len
    let (m, bad) := acfMessages (body.length + 1) body
    (some h, m, bad || decide (body.length < h.len))

/-- A CRC right-aligned in 4 bytes, over a data identifier and bytes (R120). -/
def trailerCrc (prof : BitVec 128) (l : List Byte) : List Byte :=
  beBytes 4 (crcFixed (fld prof 3 2) (beBytes 2 (imgLe prof 2 2) ++ l))

/-- The trailer's sequence number when the PDU ends in a trailer with the right CRC. -/
def checkTrailer (prof : BitVec 128) (l : List Byte) : Option Nat :=
  let o := (parseEth l).etOff + 2
  match frameAcf l with
  | (some h, m, false) =>
    match m.getLast? with
    | some x =>
      if x.type = 0x7F ∧ x.bytes.length = 8 ∧
          trailerCrc prof (slice l o (h.head + h.len - 4)) = slice x.bytes 4 4 then some (beAt x.bytes 2 2)
      else none
    | none => none
  | _ => none

/-- A write of an end-to-end profile's read-only state. -/
def State.setEprof (s : State) (i : Nat) (e : BitVec 128) : State :=
  { s with tab.eprofs := kvSet 0 s.tab.eprofs i e }

/-- The count of consecutive E2E_SEQ drops of a profile. -/
def State.setE2eDrops (s : State) (i k : Nat) : State := { s with fwd.e2eDrops := kvSet 0 s.fwd.e2eDrops i k }

/-- Whether step 8 applies: the route names a check profile. -/
def Frame.needs8 (f : Frame) : Bool := f.eprof != 0 && !f.desc.wrap

/-- Step 8: the profile's configuration is that of the frame's epoch, its sequence state is live (R31, R122). -/
def stepE2e (s : State) (f : Frame) : Cl :=
  if ¬ f.needs8 then { s := s, f := f }
  else
    let g := f.held.e2e
    let e := s.eprofAt f.eprof
    match checkTrailer g f.bytes with
    | none => { s := s, f := f, drop := 0x0E }
    | some q =>
      let d := (q + 2 ^ 16 - imgLe e 6 2) % 2 ^ 16
      let synced := bit e 64
      if ¬ synced ∨ (1 ≤ d ∧ d ≤ imgLe g 4 2) then
        let t := (s.setEprof f.eprof (setBit (setImg e 6 2 q) 64 true)).setE2eDrops f.eprof 0
        { s := if synced ∧ 1 < d then t.countWide (R.tunCnt 5) (d - 1) else t, f := f }
      else
        let k := kvGet 0 s.fwd.e2eDrops f.eprof + 1
        let t := if imgLe g 1 1 ≤ k then
            ((s.setEprof f.eprof (setBit e 64 false)).setE2eDrops f.eprof 0).countWide (R.tunCnt 6)
          else s.setE2eDrops f.eprof k
        { s := t, f := f, drop := 0x0F }

/-! ### Copies (R89, R140) -/

/-- What a port does to the VLAN tag of a frame (R74, R89). -/
def State.retagOf (s : State) (c : Nat) (f : Frame) (p : Parsed) : Option Bool :=
  if ¬ isES c then none
  else if bit (s.vlanAt f.vid.toNat) (24 + c) then (if p.tagged then some false else none)
  else if p.tagged then none else some true

/-- The copy of a frame for a port. -/
def State.copyFor (s : State) (c : Nat) (f : Frame) (p : Parsed) : Copy :=
  let tc := f.desc.tc
  { frame := f.id, port := BitVec.ofNat 8 c, tc := tc, adm := f.desc.adm
    express := f.desc.expressBit || !isE c || !s.bt (R.gteCfg c) tc
    locked := f.desc.lockedBit
    retag := s.retagOf c f p
    strip := f.rtag && isES c }

/-- The reason under which a copy is pruned, 0 for a surviving one (R89). `eth` says that the frame is an Ethernet frame, `fam` the
medium family of the frame, `judge` whether a port of another family is a mismatch. -/
def State.pruneReason (s : State) (c : Nat) (f : Frame) (x : Copy) (eth judge : Bool) (fam : Nat) : Nat :=
  if eth && isES c && !bit (s.vlanAt f.vid.toNat) c then 0x13
  else if judge && family c != fam then 0x14
  else match s.lenLimit c with
    | some m => if m < s.lineLength f x then 0x15 else 0
    | none => 0

/-- A destination port's copy of a frame with the reason that prunes it, 0 for none; no copy for the ingress port without hairpin. -/
def State.copyOn (s : State) (f : Frame) (p : Parsed) (eth judge : Bool) (fam : Nat) (c : Nat) : Option (Copy × Nat) :=
  if c = f.desc.ingress.toNat ∧ ¬ s.bt R.fwdCtl 1 then none
  else
    let x := s.copyFor c f p
    some (x, s.pruneReason c f x eth judge fam)

/-- A copy is counted under the reason that prunes it, or meets the admission policy. -/
def State.sendPlanned (s : State) (x : Copy × Nat) : State := if x.2 = 0 then s.admitCopy x.1 else s.countDrop x.2

/-- The ports of a destination set. -/
def dsetPorts (m : BitVec 128) : List Nat := (List.range 0x70).filter (fun c => bit m c && mediaCode c)

/-- The ports that the frame itself may go to. A route with unwrap may name ports of other media, for the frames that it carries out of
the AVTPDU only (R82, R115; log entry 38). -/
def Frame.targets (f : Frame) : List Nat :=
  (dsetPorts f.dset).filter (fun d => !f.desc.unwrap || family d == family f.desc.ingress.toNat)

/-- The copies of a frame's destination set, expanded and pruned under the epoch of its parse step (R31, R89). A frame with wrap leaves as an
Ethernet frame (R82): its destinations are those of its wrap copy, whether or not forward is set (log entry 38). -/
def State.planOf (s : State) (f : Frame) : List (Copy × Nat) :=
  let c := f.desc.ingress.toNat
  let p := parseEth f.bytes
  if f.desc.forward && !f.desc.wrap then f.targets.filterMap (s.copyOn f p (isES c) f.byDefault (family c)) else []

/-- A tunnelling copy waits for the engine. -/
def State.tunnelCopy (s : State) (f : Frame) (wrap : Bool) : State :=
  { s with fwd.tunQ := s.fwd.tunQ ++ [{ frame := f.id, wrap := wrap, port := f.desc.ingress }] }

/-- Branch: the copies of a frame (R72, R89, R242), and then what its charge does when no egress or tunnelling copy was made (R99). -/
def State.branch (s : State) (f : Frame) : State :=
  let s1 := s.setFrame f
  let s2 := if f.desc.capture then s1.makeCapture f.desc.queue f f.desc false 0xFF else s1
  let s3 := if f.desc.forward then f.plan.foldl State.sendPlanned s2 else s2
  let s4 := if f.desc.wrap then s3.tunnelCopy f true else s3
  let s5 := if f.desc.unwrap then s4.tunnelCopy f false else s4
  s5.finishBranch f.id

/-- The descriptor of a dropped frame (R72): only its capture remains. -/
def droppedDesc (d : FrameDesc) (code : Nat) : FrameDesc :=
  { d with actions := (d.actions &&& 0x8) ||| 0x20, drop := BitVec.ofNat 8 code }

/-- A frame is counted under a frame-level reason; FWD_STATUS.buf_full says that one was dropped under BUF_FULL (R101, R394). -/
def State.dropFrame (s : State) (code : Nat) : State :=
  let t := s.countDrop code
  if code = 0x10 then t.setBt R.fwdStatus 1 true else t

/-- A frame that step 7 or 8 dropped, or that passed them, branches; a dropped one keeps its capture when its route sets it (R72). -/
def Cl.end (c : Cl) : State :=
  if c.drop = 0 then c.s.branch c.f else (c.s.dropFrame c.drop).branch { c.f with desc := droppedDesc c.f.desc c.drop }

/-- A frame whose turn has come: steps 7 and 8 unless an earlier step dropped it or TSU consumed it, then the branch. -/
def finishClass (s : State) (f : Frame) : State :=
  if f.desc.drop ≠ 0 ∨ f.gptp then s.branch f else (({ s := s, f := f : Cl }.next stepVerify).next stepE2e).end

/-! ### The order of an ingress port (R20) -/

/-- The frames of an ingress port that have passed step 6 and not branched. -/
def State.orderOf (s : State) (c : Nat) : List Nat := kvGet [] s.fwd.order c

/-- A write of a port's order. -/
def State.setOrder (s : State) (c : Nat) (l : List Nat) : State := { s with fwd.order := kvSet [] s.fwd.order c l }

/-- Whether the slices still have work on a frame's verification. -/
def State.verifying (s : State) (id : Nat) : Bool := s.cry.work.any (fun w => w.use == .verify id)

/-- The slices' requester that a frame's step 7 has still to ask for a MAC (R231). -/
def State.asksMac (s : State) (f : Frame) : Option Nat :=
  if f.desc.drop ≠ 0 ∨ f.macAsked ∨ isES f.desc.ingress.toNat then none
  else s.busMacReq f.desc.ingress.toNat f.hslot f.bytes f.held

/-- Whether a frame waits for its last cell or for a slice before it can branch. -/
def State.waits78 (s : State) (f : Frame) : Bool :=
  f.desc.drop == 0 && !f.gptp && (((f.needs7 || f.needs8) && !f.complete) || s.verifying f.id)

/-- The frames of a port branch in the order in which they crossed its boundary; the first that waits keeps those behind it. -/
def drainOrder (c : Nat) : Nat → State → State
  | 0, s => s
  | k + 1, s =>
    match s.orderOf c with
    | [] => s
    | id :: r =>
      match s.frame id with
      | none => drainOrder c k (s.setOrder c r)
      | some f =>
        if f.branched then drainOrder c k (s.setOrder c r)
        else match s.asksMac f with
          | some q => (s.setFrame { f with macAsked := true }).addCrypto q (burstsOf f.bytes.length) (.verify id)
          | none => if s.waits78 f then s else drainOrder c k (finishClass (s.setOrder c r) f)

/-- A port's order moves on. -/
def State.runOrder (s : State) (c : Nat) : State := drainOrder c (s.orderOf c).length s

/-- A frame that has passed step 6 takes its place in its port's order. -/
def State.queueOrder (s : State) (f : Frame) : State :=
  let c := f.desc.ingress.toNat
  ((s.setFrame f).setOrder c (s.orderOf c ++ [f.id])).runOrder c

/-- What steps 3 to 6 give: the frame dropped, or with its copies and what steps 7 and 8 need, in its port's order. A frame that is there to
its end is debited now, another at its last cell (R87). -/
def Cl.toOrder (c : Cl) : State :=
  let s := if c.f.complete then c.s.debit c.f else c.s
  if c.drop ≠ 0 then (s.dropFrame c.drop).queueOrder { c.f with desc := droppedDesc c.f.desc c.drop }
  else s.queueOrder { c.f with held := s.hold78 c.f, plan := s.planOf c.f }

/-- Steps 4 to 6 under a route. -/
def steps456 (p : Parsed) (late : Bool) (r : Option Found) (key : BitVec 128) (c : Cl) : Cl :=
  let c4 := match r with
    | some x => c.next (stepStream x key)
    | none => c
  (c4.next (stepPolice p late)).next stepHold

/-- Whether TSU consumes a frame at step 1 (R172). -/
def State.gptpFrame (s : State) (c : Nat) (p : Parsed) (l : List Byte) : Bool :=
  isE c && Nat.land (s.rg (R.tsuPort c)).toNat 0xB != 0 && !p.bad &&
    slice l 0 6 == [0x01, 0x80, 0xC2, 0x00, 0x00, 0x0E] && p.etype == 0x88F7

/-- A frame that TSU consumed: only the capture action of its route applies (R172). -/
def consumed (c : Cl) : Cl :=
  { s := c.s, f := { c.f with desc := { c.f.desc with actions := c.f.desc.actions &&& 0x8 }, gptp := true } }

/-- Whether a copy of a frame could start before its last cell, on the ingress side (R91). -/
def State.mayCut (s : State) (f : Frame) : Bool :=
  let i := f.desc.ingress.toNat
  s.bt R.fwdCtl 0 && isE i && s.bt (R.portCfg i) 15 && s.validate i == 0 && decide (64 < f.bytes.length)

/-- A frame that step 1 or 2 drops: counted, and never captured (R72). -/
def State.dropEarly (s : State) (f : Frame) (code : Nat) : State :=
  ((s.dropFrame code).setFrame { f with
    branched := true, desc := { f.desc with actions := 0x20, drop := BitVec.ofNat 8 code } }).settleFrame f.id

/-- Steps 1 to 6 of a frame whose cells are charged; it branches in its port's order, once steps 7 and 8 have judged it. `err` says that the
medium reported a receive error. A frame that is there to its end has `complete` set. -/
def State.classify (s : State) (f : Frame) (err : Bool) : State :=
  let c := f.desc.ingress.toNat
  let p := parseEth f.bytes
  if err then s.dropEarly f 0x01
  else if isES c ∧ p.bad then s.dropEarly f 0x02
  else
    let (key, tkey) := s.keysOf f p
    let r := s.lookup f.owner key tkey
    let step3 := fun (s : State) (f : Frame) => match r with
      | some x => stepRouted x s f
      | none => stepMissed s f
    if s.gptpFrame c p f.bytes then (consumed (step3 s f)).toOrder
    else
      let c2 : Cl := if isES c then stepVlan p s f else { s := s, f := f }
      if c2.drop ≠ 0 then s.dropEarly f c2.drop
      else match (if isES c ∨ isN c then none else s.bridgeTake c f.hslot f.bytes) with
      | some t => t.freeFrame f
      | none => (steps456 p (!f.complete && s.mayCut f) r key (step3 s f)).toOrder

end Sys2Proof.Machine
end

