-- ==== Sys2Proof/Machine/Sources.lean ====
section
/-! DEFINITION. Where frames come from: the stamp and phase of a start of frame (R19, R67, R200), intake (R95, R96), frames that
the QX makes itself, and their queueing. -/

namespace Sys2Proof.Machine

/-! ### Boundary -/

/-- How far a port's replica of P may be from P, in ps (R176). -/
def replicaPs (c : Nat) : Nat := if isE c ∨ isN c then 700 else 1500

/-- The fixed receive compensation of a port in ps (R67, R68). -/
def State.fixedPs (s : State) (c : Nat) : Nat :=
  if isE c then s.dRx c * 1000 else if isS c then 78000 else if isN c then 33900 else 15625

/-- The integrator's compensation of a port in ns; rx_ext is signed (R67). -/
def State.rxComp (s : State) (c : Nat) : Int :=
  if isE c then s.rxExt c
  else if isS c then signedOf 16 (s.fd (R.t1sComp (c - 0x10)) 15 0)
  else if isC c then (s.fd (R.canComp (c - 0x20)) 7 0 : Nat)
  else if isL c then (s.fd (R.linComp (c - 0x50)) 7 0 : Nat)
  else if isF c then (s.fd (R.frComp ((c - 0x68) / 2)) 7 0 : Nat)
  else 0

/-- The stamp `t` of a port with the phase of the turntable that PHW_PORT_TT selects (R200, R213). -/
def State.boundAt (s : State) (c t : Nat) : Boundpt :=
  let w := s.rg (R.portTt c)
  let n := fld w 3 0
  let ok := bit w 4 && s.tracked n t
  { stampX := BitVec.ofNat 64 t, phase := if ok then s.phaseWord n t else 0, valid := ok
    ttSel := BitVec.ofNat 8 (if bit w 4 then n else 0), tselB := s.tsel == 1 }

/-- The starts of frame of a port whose frames have not come to intake. -/
def State.boundsOf (s : State) (c : Nat) : List Boundpt := kvGet [] s.fwd.bounds c

/-- A write of a port's starts of frame. -/
def State.setBounds (s : State) (c : Nat) (l : List Boundpt) : State :=
  { s with fwd.bounds := kvSet [] s.fwd.bounds c l }

/-- Whether a port's controller receives: its link is up, and a FlexRay controller receives on its enabled channels only (R64). -/
def State.receives (s : State) (c : Nat) : Bool :=
  s.portUp c && (!isF c || s.bt (R.frCfg ((c - 0x68) / 2)) (4 + (c - 0x68) % 2))

/-- The stamp of a start of frame that a port detects now: its replica of P less the fixed compensation and the integrator's, truncated to
the nanosecond (R67, R177). The replica's error is free; it does not take the port's stamps backwards (R31). -/
def State.takeStamp (s : State) (c : Nat) : Nat × State :=
  let (k, s1) := drawNat s
  let b := replicaPs c
  let ps : Int := (s.pFine * 1000 / 2 ^ 32) + (k % (2 * b + 1) : Nat) - b - s.fixedPs c - s.rxComp c * 1000
  let t := natOfInt 64 (ps / 1000)
  let last := kvGet 0 s.fwd.lastStamp c
  let x := if t < last ∧ last ≤ t + 3 then last else t
  (x, { s1 with fwd.lastStamp := kvSet 0 s1.fwd.lastStamp c x })

/-- A port controller detects a start of frame and latches stamp and phase. -/
def frameBoundary (c : PortCode) (s : State) : State :=
  let n := c.toNat
  if ¬ s.receives n ∨ ¬ s.intakeOn then s
  else
    let (t, s1) := s.takeStamp n
    s1.setBounds n (s1.boundsOf n ++ [s1.boundAt n t])

def execFrameBoundary (c : PortCode) (s : State) : Res :=
  if mediaCode c.toNat then .next (clocked (frameBoundary c) s) else .fault (.operandOutsideSpec "FRAME_BOUNDARY")

/-! ### Intake -/

/-- The receive flags of a start of frame. -/
def rxFlagsOf (b : Boundpt) : Byte := BitVec.ofNat 8 (boolNat b.tselB + 2 * boolNat b.valid)

/-- The parser lanes that take frames: not retired and not under rolling self-test; with every other lane retired a frame waits for the
one under test (R41). -/
def State.openLanes (s : State) : List Nat :=
  let l := (List.range 4).filter (fun n => !s.bt R.retDp n && kvGet 16 s.err.testUnit 1 != n)
  if l.isEmpty then (List.range 4).filter (fun n => !s.bt R.retDp n) else l

/-- The parser lane that takes a frame: a free value (R21). -/
def State.pickLane (s : State) : Nat × State :=
  let (k, t) := drawNat s
  (s.openLanes.getD (k % max 1 s.openLanes.length) 0, t)

/-- The bytes of a frame that cells are taken for: reception ends at the longest frame (R92, R97). -/
def maxCellBytes : Nat := 9216

/-- A frame with its descriptor's first fields, its banks, its first cell's index and its parser lane. -/
def State.newFrame (s : State) (ingress : PortCode) (owner : Part) (b : Boundpt) (hslot : BitVec 128) (bytes : List Byte)
    (cls : Byte) (vid : Nat) (acct : Nat) : Frame × State :=
  let (banks, s1) := s.pickBanks (cellsOf (min maxCellBytes bytes.length))
  let (buf, s2) := s1.bufferField banks
  let (lane, s3) := s2.pickLane
  let d : FrameDesc :=
    { stamp := b.stampX.setWidth 32, phase := b.phase, ingress := ingress, rxFlags := rxFlagsOf b, ttSel := b.ttSel
      cls := cls, length := BitVec.ofNat 16 bytes.length, buffer := buf }
  ({ id := s3.fwd.nextFrame, desc := d, hslot := hslot, bytes := bytes, stampX := b.stampX, vid := BitVec.ofNat 12 vid
     owner := owner, epoch := s3.epoch, banks := banks, acct := acct, lane := lane },
   { s3 with fwd.nextFrame := s3.fwd.nextFrame + 1 })

/-- A frame that finds its account full is dropped under BUF_FULL (R96, R98). -/
def State.bufFull (s : State) : State := s.dropFrame 0x10

/-- A frame of a port meets intake: its number when it is admitted. -/
def State.intake (s : State) (c : Nat) (b : Boundpt) (hslot : BitVec 128) (bytes : List Byte) : Option Nat × State :=
  let p := parseEth bytes
  let cls := s.intakeClass c p
  let adm := fld cls 4 3
  if ¬ s.admits (acctOf c) adm then (none, s.bufFull)
  else
    let (f, s1) := s.newFrame (BitVec.ofNat 8 c) (s.portHolder c) b hslot bytes cls (if isES c then s.vidOf c p else 0) (acctOf c)
    (some f.id, s1.admitFrame f adm)

/-- The partition whose command or part of the QX sends frames under a port code from 0x70. -/
def sourceOwner (c : PortCode) : Part := if c.toNat < 0x74 then Fin.ofNat 5 (c.toNat - 0x70) else pm

/-- A frame that the QX makes itself: whole, charged to LOCAL, with the stamp of its making; its number when it is admitted. -/
def State.localFrame (s : State) (ingress : PortCode) (tc : Nat) (locked : Bool) (hslot : BitVec 128) (bytes : List Byte) :
    Option Nat × State :=
  let adm := s.admOf tc
  if ¬ s.admits acctLocal adm then (none, s.bufFull)
  else
    let (f, s1) := s.newFrame ingress (sourceOwner ingress) (s.boundAt ingress.toNat s.pNs) hslot bytes
      (mkClass tc adm false locked) 0 acctLocal
    (some f.id, s1.admitFrame { f with complete := true, branched := true } adm)

/-- A frame that is queued directly on a port. -/
def State.sendDirect (s : State) (id c : Nat) : State :=
  match s.frame id with
  | none => s
  | some f =>
    (s.enqueue { frame := id, port := BitVec.ofNat 8 c, tc := f.desc.tc, adm := f.desc.adm
                 express := !isE c || !s.bt (R.gteCfg c) f.desc.tc, locked := f.desc.lockedBit }).settleFrame id

end Sys2Proof.Machine
end

