-- ==== Sys2Proof/Machine/Bridge.lean ====
section
/-! DEFINITION. The bridge: semaphores, mailbox accesses, remote windows and transactions (R128 to R133). -/

namespace Sys2Proof.Machine

/-! ### Request frames (R131) -/

/-- The largest access through a window (R130). -/
def wnLimit (e : Window) : Nat := if isF (wnPort e) ∨ (isC (wnPort e) ∧ wnFmt e ≠ 0) then 60 else 4

/-- The least data length of a CAN FD frame that holds `n` bytes, and its DLC. -/
def fdLength (n : Nat) : Nat × Nat :=
  if n ≤ 8 then (n, n) else
    (([(12, 9), (16, 10), (20, 11), (24, 12), (32, 13), (48, 14)] : List (Nat × Nat)).find? (fun x => decide (n ≤ x.1))).getD (64, 15)

/-- The header slot of a CAN frame (R57). -/
def canHslot (ident fmt dlc len : Nat) : BitVec 128 :=
  BitVec.ofNat 128 (ident % 2 ^ 29 + fmt % 64 * 2 ^ 32 + dlc % 16 * 2 ^ 40 + len * 2 ^ 48)

/-- The CAN XL prefix of a frame that the QX makes (R58): SEC and reserved fields 0, the other fields free values. -/
def xlPrefix (s : State) : List Byte × State :=
  let (b, t) := drawBytes 16 s
  (b.take 6 ++ [0, 0, byteAt b 8, byteAt b 9 &&& 0x1F, 0, 0] ++ b.drop 12, t)

/-- Free bytes after a list that fill it to `n`. -/
def padTo (n : Nat) (l : List Byte) (s : State) : List Byte × State :=
  let (b, t) := drawBytes (n - l.length) s
  (l ++ b, t)

/-- The header slot and cells of a request frame of a window. -/
def State.requestFrame (s : State) (e : Window) (l : List Byte) : BitVec 128 × List Byte × State :=
  let c := wnPort e
  if isC c then
    let ide := if wnIde e then 4 else 0
    match wnFmt e with
    | 0 => (canHslot (wnReq e) ide l.length l.length, l, s)
    | 1 =>
      let (n, dlc) := fdLength l.length
      let (b, t) := padTo n l s
      (canHslot (wnReq e) (1 + ide) dlc n, b, t)
    | _ =>
      let (x, t) := xlPrefix s
      (canHslot (wnReq e) 2 0 l.length, x ++ l, t)
  else if isL c then
    let id := wnReq e % 64
    let classic := s.bt (R.linCks (c - 0x50) (id / 32)) (id % 32)
    (BitVec.ofNat 128 (wnReq e % 256 + ((if classic then 0 else 1) + 6) * 2 ^ 8 + l.length * 2 ^ 16), l, s)
  else
    let f := (c - 0x68) / 2
    let n := if wnReq e ≤ s.fd (R.frStatic f) 9 0 then max l.length (2 * s.fd (R.frStatic f) 25 20) else l.length + l.length % 2
    let (b, t) := padTo n l s
    (BitVec.ofNat 128 (wnReq e % 2048 + (if (c - 0x68) % 2 = 1 then 8 else 0) * 2 ^ 24 + n * 2 ^ 48), b, t)

/-- The tag of a window's next request. -/
def State.winTagOf (s : State) (p : Part) (w : Nat) : Byte := kvGet 0 s.cmd.winTag (p.val * 32 + w)

/-- A LIN commander sends the request frame and then the resp_id header in inserted slots. -/
def State.insertLin (s : State) (e : Window) : State :=
  let n := wnPort e - 0x50
  if isL (wnPort e) then
    let l := s.lin n
    s.setLin n { l with inserted := l.inserted ++ [(BitVec.ofNat 8 (wnReq e), true), (BitVec.ofNat 8 (wnResp e), false)] }
  else s

/-- A transaction starts in a free slot (R132): a disabled window or a length beyond the medium is a local error; otherwise the
request frame is queued on the window's port. -/
def State.startRequest (s : State) (p : Part) (k w : Nat) (write : Bool) (len off : Nat) (data : List Byte)
    (cmd : Option (BitVec 12 × Bool)) : State :=
  let e := s.window p w
  let base : Slot := { state := slPending, window := w, write := write, len := len, cmd := cmd }
  if ¬ wnEnable e then (s.setSlot p k base).endSlot p k 0xF1 []
  else if wnLimit e < len then (s.setSlot p k base).endSlot p k 0xF0 []
  else
    let tag := s.winTagOf p w
    let s1 : State := { s with cmd.winTag := kvSet 0 s.cmd.winTag (p.val * 32 + w) (tag + 1) }
    let op : Byte := if write then 2 else 1
    let body := [op, tag] ++ beBytes 2 off ++ (if write then data.take len else [])
    let (h, b, s2) := s1.requestFrame e body
    let (id, s3) := s2.localFrame (BitVec.ofNat 8 (0x70 + p.val)) (wnTc e) false h b
    let s4 := s3.setSlot p k { base with tag := tag }
    let req : OpenReq := { part := p, window := w, tag := tag, slot := some k, write := write, frame := id }
    let s5 : State := { s4 with cmd.openReqs := s4.cmd.openReqs ++ [req] }
    match id with
    | none => s5
    | some i => (s5.insertLin e).sendDirect i (wnPort e)

/-! ### REMOTE_ACCESS (R279) -/

/-- The free slots of a partition. -/
def State.freeSlots (s : State) (p : Part) : List Nat := (List.range 8).filter (fun k => (s.slot p k).state == slFree)

/-- A REMOTE_ACCESS starts in a free slot, which one is a free value, or waits. -/
def State.tryRemote (s : State) (p : Part) (d : CmdDesc) : State :=
  match s.freeSlots p with
  | [] => { s with cmd.remoteWait := s.cmd.remoteWait ++ [(p, d)] }
  | l =>
    let (i, s1) := drawNat s
    s1.startRequest p (l.getD (i % l.length) 0) (d.b 0) (d.b 1 == 1) (d.b 2) (d.le 4 2) (slice d.params 8 8)
      (some (d.ctag, d.irq))

/-- The waiting REMOTE_ACCESS commands try again, oldest first. -/
def State.startRemotes (s : State) : State :=
  s.cmd.remoteWait.foldl (fun a x => a.tryRemote x.1 x.2) { s with cmd.remoteWait := [] }

def remoteForm (d : CmdDesc) : Form :=
  { kind := .immediate, size := fun l => l == 16, clean := d.b 3 == 0 && d.le 6 2 == 0 }

/-- The range check of REMOTE_ACCESS's parameters. -/
def remoteRange (d : CmdDesc) : Bool := decide (d.b 0 < 32 ∧ d.b 1 ≤ 1 ∧ 1 ≤ d.b 2 ∧ d.b 2 ≤ 8)

/-- Whether a REMOTE_ACCESS of this tag waits already, for a slot or for its response. -/
def State.inRemote (s : State) (p : Part) (tag : BitVec 12) : Bool :=
  s.cmd.remoteWait.any (fun x => x.1 == p && x.2.ctag == tag) ||
    (List.range 8).any (fun k => ((s.slot p k).cmd.map (fun c : BitVec 12 × Bool => c.1 == tag)).getD false)

/-- REMOTE_ACCESS: a window on a port that the issuer does not hold is a violation (R291), and one on a retired port answers
RESOURCE_GONE (R338). -/
def remoteAccess (p : Part) (d : CmdDesc) (s : State) : State :=
  if s.inRemote p d.ctag then s
  else if ¬ remoteRange d then finish p d (fail s St.badParam)
  else
    let e := s.window p (d.b 0)
    match (if wnEnable e then targetCheck s p d .port (wnPort e) else none) with
    | some a => finish p d a
    | none => if wnEnable e && s.retired (wnPort e) then finish p d (fail s St.resourceGone) else s.tryRemote p d

def execRemoteAccess (p : Part) (d : CmdDesc) (s : State) : Res := .next (onForm (remoteForm d) p d (remoteAccess p d) s)

/-! ### WINDOW_WRITE (R130, R279) -/

def windowForm (d : CmdDesc) : Form :=
  { kind := .staging, size := fun l => l == 20, clean := d.le 1 3 == 0 && windowClean (d.params.drop 4) }

def windowBody (p : Part) (d : CmdDesc) (s : State) : Ans :=
  if 32 ≤ d.b 0 then fail s St.badParam
  else onTarget p d .port (d.b 4) (fun t => stageItem t p d.ctag (.window (p.val * 32 + d.b 0) (d.image 128 4))) s

def execWindowWrite (p : Part) (d : CmdDesc) (s : State) : Res := .next (runCommand (windowForm d) p d (windowBody p d) s)

/-! ### Transaction slots (R132, R133) -/

/-- A write of BRG_SLOTk_REQ. -/
def brgSlotReq (p : Part) (k : Fin 8) (v : W32) (s : State) : State :=
  if (s.slot p k).state ≠ slFree then s.report 0x0110 kInfo p.val 0xFF k.val
  else
    let len := fld v 11 6 + 1
    s.startRequest p k (fld v 4 0) (bit v 5) len (fld v 27 12) (s.slotData p k len) none

def execBrgSlotReq (p : Part) (k : Fin 8) (v : W32) (s : State) : Res :=
  .next (onWrite p (0x18_0204 + 0x10 * k.val) (brgSlotReq p k v) s)

/-- A write of BRG_SLOTk_REL: the slot is FREE at once. DESIGN CHOICE (log entry 41): a REMOTE_ACCESS that held it, whose response will be
discarded, ends with FAR_ERROR and the far status of a timeout. -/
def brgSlotRelease (p : Part) (k : Fin 8) (v : W32) (s : State) : State :=
  let x := s.slot p k
  if bit v 0 ∧ x.state ≠ slFree then
    (match x.cmd with
     | some (tag, irq) => (s.freeSlot p k).complete p { tag := tag, status := St.farError, result := 0xF2, irq := irq }
     | none => s.freeSlot p k).startRemotes
  else s

def execBrgSlotRelease (p : Part) (k : Fin 8) (v : W32) (s : State) : Res :=
  .next (onWrite p (0x18_0208 + 0x10 * k.val) (brgSlotRelease p k v) s)

/-- The delayed-read timer of a held slot expires. -/
def delayedReadExpire (p : Part) (k : Fin 8) (s : State) : State :=
  let x := s.slot p k
  if x.state = slReady ∨ x.state = slError then
    (((s.freeSlot p k).modRgp p R.drDiscard (fun w => satInc w 1)).report 0x0111 kInfo p.val 0xFF (k.val + x.tag.toNat * 2 ^ 8)).startRemotes
  else s

def execDelayedReadExpire (p : Part) (k : Fin 8) (s : State) : Res := .next (clocked (delayedReadExpire p k) s)

/-- No response within far_tmo_ms. -/
def bridgeFarTimeout (p : Part) (window : Fin 32) (tag : Byte) (s : State) : State :=
  match s.cmd.openReqs.find? (fun r => r.part == p && r.window == window.val && r.tag == tag) with
  | none => s
  | some r => (s.farError r 0xF2).startRemotes

def execBridgeFarTimeout (p : Part) (window : Fin 32) (tag : Byte) (s : State) : Res :=
  .next (clocked (bridgeFarTimeout p window tag) s)

/-! ### Semaphores (R129) -/

/-- A read of BRG_SEMn takes the semaphore when it was free. -/
def State.takeSem (s : State) (copy : Part) (n : Nat) : W32 × State := (s.rgp copy (R.sem n), s.setRgp copy (R.sem n) 0)

def brgSemTake (p : Part) (n : Fin 64) (s : State) : State :=
  let (v, t) := s.takeSem p n
  answer p (R.sem n) (v.setWidth 64) t

def execBrgSemTake (p : Part) (n : Fin 64) (s : State) : Res := .next (onRead p (R.sem n) (brgSemTake p n) s)

/-- A write of BRG_SEM_REL_LO or _HI sets free in each semaphore whose bit is 1. -/
def brgSemRelease (p : Part) (hi : Bool) (v : W32) (s : State) : State :=
  (List.range 32).foldl (fun a i => if bit v i then a.setRgp p (R.sem (i + if hi then 32 else 0)) 1 else a) s

def execBrgSemRelease (p : Part) (hi : Bool) (v : W32) (s : State) : Res :=
  .next (onWrite p (if hi then R.semRelHi else R.semRelLo) (brgSemRelease p hi v) s)

/-! ### Mailbox space and unsupported requests (R128, R129) -/

/-- Whether an access is a register access of R128: 4 bytes aligned to 4 or 8 aligned to 8, outside mailbox space. -/
def registerShape (a n : Nat) : Bool :=
  decide (((n = 4 ∧ a % 4 = 0) ∨ (n = 8 ∧ a % 8 = 0)) ∧ ¬ (0x18_0400 ≤ a ∧ a < 0x18_0600))

/-- Whether an access lies in mailbox space: 1 to 64 bytes that do not cross a 64-byte boundary. -/
def mailboxShape (a n : Nat) : Bool :=
  decide (0x18_0400 ≤ a ∧ a < 0x18_0600 ∧ 1 ≤ n ∧ a % 64 + n ≤ 64)

/-- An access that R128 does not accept: a read or write receives Unsupported Request; a write is logged. -/
def unsupported (p : Part) (a : Nat) (write : Bool) (s : State) : State :=
  (if write then s.report 0x0113 kInfo p.val 0xFF a else s).emit (.unsupported p (BitVec.ofNat 32 a))

/-- An access to a slot's data buffer: a read in ERROR is aborted. -/
def mailboxAt (p : Part) (a n : Nat) (w : Option (List Byte)) (s : State) : State :=
  let o := a - 0x18_0400
  match w with
  | some l => if s.frozen p then s else { s with reg.mailbox := Memory.writeBytes s.reg.mailbox (p.val * 512 + o) (slice l 0 n) }
  | none =>
    if (s.slot p (o / 64)).state = slError then s.emit (.abort p (BitVec.ofNat 32 a))
    else s.emit (.mailbox p (BitVec.ofNat 32 a) (Memory.readBytes s.reg.mailbox (p.val * 512 + o) n))

def mailboxAccess (p : Part) (a n : Nat) (w : Option (List Byte)) (s : State) : State :=
  if s.dozing then (if w.isSome then s else s.emit (.mailbox p (BitVec.ofNat 32 a) (List.replicate n 0)))
  else if mailboxShape a n then mailboxAt p a n w s
  else unsupported p a w.isSome s

def execMailboxAccess (p : Part) (addr : W32) (len : Nat) (data : Option (List Byte)) (s : State) : Res :=
  if registerShape addr.toNat len then .fault (.operandOutsideSpec "MAILBOX_ACCESS")
  else .next (onAccess p addr.toNat (mailboxAccess p addr.toNat len data) s)

def execLockedRequest (h : HostPort) (addr : W32) (s : State) : Res :=
  .next (if s.linked h.part ∧ ¬ s.unreachable then s.emit (.unsupported h.part addr) else s)

end Sys2Proof.Machine
end

