-- ==== Sys2Proof/Machine/Chk.lean ====
section
/-! DEFINITION. The software CRC engine CHK (R124 to R127). -/

namespace Sys2Proof.Machine

/-- Settings of a channel. -/
def State.chkWidth (s : State) (k : Nat) : Nat := s.fd (R.chkCfg k) 6 0
def State.chkPair (s : State) (off : Nat) : Nat := (s.rg off).toNat + (s.rg (off + 4)).toNat * 2 ^ 32

/-- CHK_RES: the current settings applied to the current v (R125). -/
def State.chkRes (s : State) (k : Nat) : W64 :=
  let v := (s.wide (R.chkVal k)).toNat
  BitVec.ofNat 64 (Nat.xor (if s.bt (R.chkCfg k) 8 then reflect (s.chkWidth k) v else v) (s.chkPair (R.chkXor k 0)))

/-- Bytes are folded into v in order, and counted. -/
def State.chkFold (s : State) (k : Nat) (l : List Byte) : State :=
  let v := crcFold (s.chkWidth k) (s.chkPair (R.chkPoly k 0)) (s.bt (R.chkCfg k) 7) (s.wide (R.chkVal k)).toNat l
  (s.setWide (R.chkVal k) (BitVec.ofNat 64 v)).count (R.chkCnt k) l.length

/-- A write of CHK_CMD: load = 1 sets v from CHK_INIT, and CHK_CNT to 0. -/
def State.chkLoad (s : State) (k : Nat) (v : W32) : State :=
  if bit v 0 then (s.setWide (R.chkVal k) (BitVec.ofNat 64 (s.chkPair (R.chkInit k 0)))).setRg (R.chkCnt k) 0 else s

def execChkLoad (p : Part) (k : Fin 8) (v : W32) (s : State) : Res :=
  .next (onWrite p (0x90_0004 + 0x40 * k.val) (fun t => t.chkLoad k.val v) s)

/-- The offset of a data register, and how many bytes a write of it folds, lowest address first. -/
def chkDataOff : ChkData → Nat × Nat
  | .lo => (0x90_0030, 4)
  | .hi => (0x90_0034, 4)
  | .lo8 => (0x90_0030, 8)
  | .b => (0x90_0038, 1)

/-- A write of a data register. -/
def chkDataWrite (k : Nat) (r : ChkData) (v : W64) (s : State) : State := s.chkFold k (leBytes (chkDataOff r).2 v.toNat)

def execChkDataWrite (p : Part) (k : Fin 8) (r : ChkData) (v : W64) (s : State) : Res :=
  .next (onWrite p ((chkDataOff r).1 + 0x40 * k.val) (chkDataWrite k.val r v) s)

/-- A write of CHK_CFG: a width of 0 or above 64 leaves the channel unchanged and is logged (R126). -/
def State.writeChkCfg (s : State) (m : Part) (k : Nat) (v : W32) : State :=
  if fld v 6 0 = 0 ∨ 64 < fld v 6 0 then s.report 0x0901 kInfo m.val 0xFF v.toNat
  else s.setRg (R.chkCfg k) (v &&& 0x1FF)

def execChkCfgWrite (p : Part) (k : Fin 8) (v : W32) (s : State) : Res :=
  .next (onWrite p (R.chkCfg k) (fun t => t.writeChkCfg p k.val v) s)

end Sys2Proof.Machine
end

