-- ==== Sys2Proof/Machine/Calendar.lean ====
section
/-! DEFINITION. The calendar (R189 to R191): days and dates, the TAI−UTC offset, scheduled leaps. -/

namespace Sys2Proof.Machine

/-- A date of the Gregorian calendar. -/
structure Date where
  year  : Nat
  month : Nat
  day   : Nat
  deriving DecidableEq, Repr

/-- Whether a year is a leap year (R190). -/
def isLeap (y : Nat) : Bool := decide (y % 4 = 0 ∧ (y % 100 ≠ 0 ∨ y % 400 = 0))

/-- The length of a month (R190). -/
def monthDays (y m : Nat) : Nat :=
  match m with
  | 2 => if isLeap y then 29 else 28
  | 4 => 30
  | 6 => 30
  | 9 => 30
  | 11 => 30
  | _ => 31

/-- Days from 1970-01-01 to the first day of a year, 1970 or later: 365 for each year and one for each leap year before it. -/
def daysToYear (y : Nat) : Nat :=
  365 * (y - 1970) + ((y - 1) / 4 - 492) - ((y - 1) / 100 - 19) + ((y - 1) / 400 - 4)

/-- Days of a year before the first day of a month. -/
def daysToMonth (y m : Nat) : Nat := (List.range (m - 1)).foldl (fun a i => a + monthDays y (i + 1)) 0

/-- Days from 1970-01-01 to a date (R189). -/
def daysOf (d : Date) : Nat := daysToYear d.year + daysToMonth d.year d.month + (d.day - 1)

/-- The month that day `r` of year `y` falls in, from month `m` on, with at most `fuel` months to look at. -/
def monthFrom (y : Nat) (m : Nat) : Nat → Nat → Nat × Nat
  | 0, r => (m, r)
  | fuel + 1, r => if r < monthDays y m then (m, r) else monthFrom y (m + 1) fuel (r - monthDays y m)

/-- The date of a day number counted from 1970-01-01: the year is the greatest whose first day is not after it. -/
def dateOf (n : Nat) : Date :=
  let g := 1970 + n * 400 / 146097
  let y := if n < daysToYear g then g - 1 else if daysToYear (g + 1) ≤ n then g + 1 else g
  let (m, r) := monthFrom y 1 11 (n - daysToYear y)
  { year := y, month := m, day := r + 1 }

/-- The weekday of a day number, 0 Monday to 6 Sunday; 1970-01-01 was a Thursday. -/
def weekday (n : Nat) : Nat := (n + 3) % 7

/-- TAI−UTC: TSU_UTC.offset, or what the selected domain announces when TSU_UTC.src = 1 (R189). -/
def State.utcOffset (s : State) : Int :=
  let own : Int := s.fd R.utc 7 0
  if s.bt R.utc 8 then ((s.dom s.tsel).utcOfs).getD own else own

/-- The UTC second of presented time (R189). -/
def State.utcSec (s : State) : Int := (s.pNs / 1000000000 : Nat) - s.utcOffset

/-- A scheduled leap (R189): an insertion or a deletion, the UTC day at whose end it applies, and whether that day had ended when it was
scheduled or when P stepped. -/
structure Leap where
  insert : Bool
  day    : Int
  late   : Bool := false
  deriving DecidableEq, Repr

/-- The leap of TSU_UTC_NEXT. -/
def State.setLeap (s : State) : Option Leap :=
  let k := s.fd R.utcNext 25 24
  if k = 1 ∨ k = 2 then some { insert := k == 1, day := s.fd R.utcNext 23 0, late := s.tsu.leapLate } else none

/-- The leap that the selected domain announces, when TSU_UTC.src = 1. -/
def State.announcedLeap (s : State) : Option Leap :=
  let d := s.dom s.tsel
  if s.bt R.utc 8 && (d.leap61 || d.leap59) then some { insert := d.leap61, day := d.leapDay, late := d.leapLate } else none

/-- Whether two leaps are one: of a kind, at the end of a day. -/
def Leap.same (a b : Leap) : Bool := a.insert == b.insert && a.day == b.day

/-- The scheduled leaps: those of TSU_UTC_NEXT and of the selected domain, which may be one. -/
def State.leaps (s : State) : List Leap :=
  s.setLeap.toList ++ s.announcedLeap.toList.filter (fun a => !s.setLeap.any a.same)

/-- Whether a UTC day has ended. -/
def State.dayEnded (s : State) (day : Int) : Bool := decide ((day + 1) * 86400 ≤ s.utcSec)

/-- Whether a second boundary has come at which a leap changes the offset: at the end of its day, or at once when the day had ended. -/
def State.leapDue (s : State) (l : Leap) : Bool :=
  l.late || decide ((l.day + 1) * 86400 + (if l.insert then 1 else -1) ≤ s.utcSec)

/-- Whether a date and time are possible (R190). -/
def State.possible (s : State) (d : Date) (h mi se : Nat) : Bool :=
  decide (1970 ≤ d.year ∧ d.year ≤ 2553 ∧ 1 ≤ d.month ∧ d.month ≤ 12 ∧ 1 ≤ d.day ∧ d.day ≤ monthDays d.year d.month ∧
    h ≤ 23 ∧ mi ≤ 59) &&
  (decide (se ≤ 59) ||
    (decide (se = 60 ∧ h = 23 ∧ mi = 59) && s.leaps.any (fun l => l.insert && l.day == (daysOf d : Int))))

/-- TAI ns of a UTC date and time (R192). -/
def State.taiOf (s : State) (d : Date) (h mi se ns : Nat) : Int :=
  ((daysOf d * 86400 + h * 3600 + mi * 60 + se : Nat) + s.utcOffset) * 1000000000 + ns

/-- What the calendar shows: the day number, hour, minute and second. During an inserted leap second it shows 23:59:60 (R189). -/
def State.clock (s : State) : Nat × Nat × Nat × Nat :=
  let u := s.utcSec
  let day := u / 86400
  let r := (u % 86400).toNat
  if s.leaps.any (fun l => l.insert && !l.late && u == (l.day + 1) * 86400) then ((day - 1).toNat, 23, 59, 60)
  else (day.toNat, r / 3600, r / 60 % 60, r % 60)

/-- TSU_CAL_DATE of presented time; 0 while UTC is negative (R189). -/
def State.calDateNow (s : State) : W32 :=
  if s.utcSec < 0 then 0
  else
    let n := s.clock.1
    let d := dateOf n
    BitVec.ofNat 32 (d.year % 2 ^ 16 + d.month * 2 ^ 16 + d.day * 2 ^ 20 + weekday n * 2 ^ 25)

/-- TSU_CAL_TIME of presented time; 0 while UTC is negative (R189). -/
def State.calTimeNow (s : State) : W32 :=
  if s.utcSec < 0 then 0
  else
    let (_, h, mi, se) := s.clock
    BitVec.ofNat 32 (se + mi * 2 ^ 6 + h * 2 ^ 12 + (s.pNs % 1000000000 / 1000000) * 2 ^ 17)

/-- A two-digit year windowed by TSU_PIVOT (R191). -/
def State.windowYear (s : State) (yy : Nat) : Nat := if s.fd R.pivot 6 0 ≤ yy then 2000 + yy else 2100 + yy

end Sys2Proof.Machine
end

