-- ==== Sys2Proof/Machine/Servo.lean ====
section
/-! DEFINITION. The servos of the two time domains, the selector and presented time (R164 to R175, R187, R330). -/

namespace Sys2Proof.Machine

/-! ### Domain states (R166) -/

def domOff : Nat := 0
def domAcquire : Nat := 1
def domLocked : Nat := 2
def domHoldover : Nat := 3
def domFault : Nat := 4

/-- TSU_DOMx_STATUS.state. -/
def State.domState (s : State) (x : Nat) : Nat := s.fd (R.domStatus x) 2 0

/-- TSU_DOMx_CFG.src: 0 and 1 gPTP, 2 PPS, 3 free-run. -/
def State.domSrc (s : State) (x : Nat) : Nat := s.fd (R.domCfg x) 3 2

/-- A domain changes state: logged as 0x0201, packed by R396. Entering ACQUIRE starts its counts again (DEDUCED, log entry 30);
LOCKED makes TSU_STATUS.valid 1. -/
def State.toDom (s : State) (x new : Nat) : State :=
  let old := s.domState x
  if old = new then s
  else
    let s1 := s.setFd (R.domStatus x) 2 0 new
    let s2 := s1.report 0x0201 (if new = domFault then kTransient else kInfo) 0xFF x (x + old * 2 ^ 8 + new * 2 ^ 16)
    let d := s2.dom x
    let s3 := s2.setDom x { d with inLock := 0, clamps := 0, lockedUs := 0, stepped := d.stepped && new != domAcquire }
    if new = domLocked then s3.setBt R.tsuStatus 5 true else s3

/-! ### Steps of a time base (R174) -/

/-- A time base at a count of 2^-32 ns. -/
def Domain.setFine (d : Domain) (v : Int) : Domain :=
  { d with ns := BitVec.ofInt 64 (v / 2 ^ 32), frac := BitVec.ofNat 32 (v % 2 ^ 32).toNat }

/-- Δ takes a value, and slewing shows whether it is 0. -/
def State.setDelta (s : State) (v : Int) : State :=
  { s with tsu.delta := v }.setBt R.tsuStatus 1 (v != 0)

/-- A leap that a domain announces from now on is at the end of the current UTC day (R189). -/
def State.fixLeapDay (s : State) (x : Nat) : State :=
  s.setDom x { s.dom x with leapDay := s.utcSec / 86400, leapLate := false }

/-- P has stepped forward from where it stood in `s`: a scheduled leap whose day the step ended is late (R189). -/
def State.leapsStepped (s t : State) : State :=
  let passed := fun (l : Option Leap) => l.any (fun x => !s.dayEnded x.day && t.dayEnded x.day)
  let d := t.dom t.tsel
  let t1 := t.setDom t.tsel { d with leapLate := d.leapLate || passed t.announcedLeap }
  { t1 with tsu.leapLate := t.tsu.leapLate || passed t.setLeap }

/-- Domain `x` steps by `d` in 2^-32 ns: a forward step of the selected domain moves P, a backward one is absorbed by Δ, and a step
of the other domain changes only that domain (R174). -/
def State.stepDomain (s : State) (x : Nat) (d : Int) : State :=
  let b := s.dom x
  let s1 := s.setDom x (b.setFine (b.fine + d))
  if x ≠ s.tsel ∨ d = 0 then s1
  else if 0 < d then
    let s2 := (s1.setBt R.tsuStatus 2 true).count R.fwdSteps
    (s.leapsStepped s2).gatesStepped.eventAll 0
  else ((s1.setDelta (s1.tsu.delta - d)).setBt R.tsuStatus 3 true).eventAll 0

/-! ### The servo (R168) -/

/-- The limit of a rate word, in 1/256 ppb. -/
def rateMax : Int := 500000 * 256

/-- The unit of the integral term: 2^30 × 720,720 to the ppb. -/
def integUnit : Int := 2 ^ 30 * 720720

/-- A rate of `-(sum)` in units of the integral term, rounded to 1/256 ppb; the rounding is a free value. -/
def rateOf (sum : Int) (up : Bool) : Int :=
  let v := -sum * 256
  v / integUnit + (if up ∧ v % integUnit ≠ 0 then 1 else 0)

/-- A value clamped to ±`m`. -/
def clampInt (m v : Int) : Int := max (-m) (min m v)

/-- A value saturated to a 32-bit register at ±(2^31 − 1). -/
def satWord (v : Int) : W32 := BitVec.ofInt 32 (clampInt (2 ^ 31 - 1) v)

/-- The rate word of a domain is `r`, with its register and whether it was clamped. -/
def State.setRate (s : State) (x : Nat) (r : Int) (clamped : Bool) : State :=
  let s1 := s.setDom x { s.dom x with rate := r, mRate := r, mInteg := (s.dom x).integ }
  (s1.setRg (R.domRate x) (BitVec.ofInt 32 r)).setBt (R.domStatus x) 3 clamped

/-- One run of the servo of domain `x` on an offset `th` in 2^-16 ns, with 1/τ in 1/720,720 per second (R168). -/
def State.runServo (s : State) (x : Nat) (th : Int) (inv : Nat) : State :=
  let kp : Int := s.fd (R.domGain x) 15 0
  let ki : Int := s.fd (R.domGain x) 31 16
  let d := s.dom x
  let i := d.integ + ki * th * inv
  let (up, s0) := drawBit s
  let raw := rateOf (kp * th * inv + i) up
  let r := clampInt rateMax raw
  let c := raw != r
  (s0.setDom x { d with integ := i, clamps := if c then d.clamps + 1 else 0 }).setRate x r c

/-- A valid offset of domain `x` in 2^-16 ns (R166, R168). -/
def State.applyOffset (s : State) (x : Nat) (th : Int) (inv : Nat) : State :=
  let (up, s0) := drawBit s
  let shown := th / 2 ^ 16 + (if up ∧ th % 2 ^ 16 ≠ 0 then 1 else 0)
  let s1 := s0.setRg (R.domOffset x) (satWord shown)
  let big := decide ((s.fd (R.domThr x) 31 16 : Int) * 2 ^ 16 < th.natAbs)
  let near := decide ((th.natAbs : Int) ≤ (s.fd (R.domThr x) 15 0 : Int) * 2 ^ 16)
  let st := s.domState x
  if st = domAcquire then
    if big ∧ ¬ (s1.dom x).stepped then
      let s2 := s1.stepDomain x (-th * 2 ^ 16)
      (s2.setDom x { s2.dom x with integ := 0, stepped := true, inLock := 0 }).setRate x 0 false
    else
      let s2 := s1.runServo x th inv
      let k := if near then (s2.dom x).inLock + 1 else 0
      let s3 := s2.setDom x { s2.dom x with inLock := k }
      if 8 ≤ k then s3.toDom x domLocked else s3
  else if st = domLocked then
    if big then s1.toDom x domFault
    else
      let s2 := s1.runServo x th inv
      if 8 ≤ (s2.dom x).clamps then s2.toDom x domFault else s2
  else if st = domHoldover then s1.toDom x (if big then domFault else domAcquire)
  else s1

/-- A LOCKED domain without a valid offset goes to HOLDOVER: r = −i (R166). -/
def syncReceiptTimeout (x : Fin 2) (s : State) : State :=
  if s.domState x = domLocked then
    let (up, s0) := drawBit (s.count (R.syncTmo x))
    let r := clampInt rateMax (rateOf (s0.dom x).integ up)
    (s0.setRate x r (s0.bt (R.domStatus x) 3)).toDom x domHoldover
  else s

def execSyncReceiptTimeout (x : Fin 2) (s : State) : Res := .next (clocked (syncReceiptTimeout x) s)

/-! ### gPTP ports and the slave port (R171) -/

/-- Whether port `n` is a gPTP port of domain `x`. -/
def State.gptpPortOf (s : State) (n x : Nat) : Bool := s.bt (R.tsuPort n) x

/-- TSU_DOMx_CFG.en. -/
def State.domEn (s : State) (x : Nat) : Bool := s.bt (R.domCfg x) 0

/-- Whether `n` is the slave port of domain `x` (TSU_DOMx_STATUS). -/
def State.isSlave (s : State) (x n : Nat) : Bool := s.bt (R.domStatus x) 8 && s.fd (R.domStatus x) 7 4 == n

/-- The slave port of a domain is `n`, or none. -/
def State.setSlave (s : State) (x : Nat) (n : Option Nat) : State :=
  let w := s.rg (R.domStatus x)
  let v := match n with
    | some k => setBit (setFld w 7 4 k) 8 true
    | none => setBit (setFld w 7 4 0) 8 false
  if v = w then s else (s.setRg (R.domStatus x) v).setDom x { s.dom x with sync := none }

/-- The port of the best Announce of a domain. -/
def State.bestPort (s : State) (x : Nat) : Option Nat :=
  ((List.range 16).foldl (fun (b : Option Nat) n =>
    let v := (kvGet ({} : Announced) s.tsu.announce (x * 16 + n)).vector
    if v = 0 ∨ ¬ s.gptpPortOf n x then b
    else match b with
      | none => some v
      | some w => some (min v w)) none).map (· % 16)

/-- The slave port follows TSU_DOMx_CFG.src: fixed, by the BMCA, or none. -/
def State.chooseSlave (s : State) (x : Nat) : State :=
  if ¬ s.domEn x then s.setSlave x none
  else match s.domSrc x with
    | 0 => s.setSlave x (s.bestPort x)
    | 1 => s.setSlave x (some (s.fd (R.domCfg x) 15 12))
    | _ => s.setSlave x none

/-! ### The selector (R173, R175) -/

/-- P changes to domain `y` with Δ absorbing the difference; logged as 0x0202 (R174, R175). -/
def State.switchTo (s : State) (y : Nat) : State :=
  if y = s.tsel then s
  else
    let dl := s.tsu.delta + (s.dom s.tsel).fine - (s.dom y).fine
    let s1 := ((s.setDelta dl).setBt R.tsuStatus 0 (y == 1)).count R.switches
    let s2 := (s1.setBt R.tsuStatus 4 true).fixLeapDay y
    (s2.report 0x0202 kInfo 0xFF y (natOfInt 64 (dl / 2 ^ 32))).eventAll 0

/-- The domain that the selector wants (R173). -/
def State.wanted (s : State) : Nat :=
  let sel := s.fd R.tsuCtl 1 0
  let cur := s.tsel
  if sel < 2 then sel
  else
    let pref := sel - 2
    let other := 1 - cur
    if s.domState cur ≠ domLocked ∧ s.domState other = domLocked then other
    else if s.bt R.tsuCtl 2 ∧ cur ≠ pref ∧ s.domState pref = domLocked ∧
        s.fd R.tsuCtl 15 8 * 1000000 ≤ (s.dom pref).lockedUs then pref
    else cur

/-- One evaluation's bookkeeping of a domain: FAULT goes to ACQUIRE unless its PLL is unlocked, and LOCKED time counts (R166,
R173, R330). -/
def State.evaluateDom (s : State) (x : Nat) : State :=
  if s.domState x = domFault then (if (s.dom x).pllLost then s else s.toDom x domAcquire)
  else if s.domState x = domLocked then s.setDom x { s.dom x with lockedUs := (s.dom x).lockedUs + 1 }
  else s

/-- Announces whose time is over are forgotten, and the slave ports chosen anew. -/
def State.ageAnnounces (s : State) : State :=
  if s.tsu.announce.any (fun a => decide (a.2.until_ < s.upNs)) then
    (({ s with tsu.announce := s.tsu.announce.filter (fun a => decide (s.upNs ≤ a.2.until_)) }).chooseSlave 0).chooseSlave 1
  else s

def selectorEvaluation (s : State) : State :=
  let t := (s.ageAnnounces.evaluateDom 0).evaluateDom 1
  t.switchTo t.wanted

def execSelectorEvaluation (s : State) : Res := .next (clocked selectorEvaluation s)

/-- Δ has reached 0 (R175 step 6). -/
def deltaSlewDone (s : State) : State := s.setBt R.tsuStatus 1 (s.tsu.delta != 0)

def execDeltaSlewDone (s : State) : Res := .next (clocked deltaSlewDone s)

/-! ### Faults of TSU (R326, R330) -/

/-- A TCLK PLL loses lock: the time base is held and an enabled domain stays in FAULT. -/
def tclkPllUnlock (x : Fin 2) (s : State) : State :=
  let s1 := s.setDom x { s.dom x with pllLost := true }
  let s2 := s1.report 0x0205 kTransient 0xFF x x
  if s.domState x = domOff then s2 else s2.toDom x domFault

def execTclkPllUnlock (x : Fin 2) (s : State) : Res := .next (clocked (tclkPllUnlock x) s)

/-- A TCLK PLL relocks: the domain leaves FAULT at a selector evaluation. -/
def tclkPllRelock (x : Fin 2) (s : State) : State :=
  (s.setDom x { s.dom x with pllLost := false }).report 0x0205 kTransient 0xFF x (x + 2 ^ 8)

def execTclkPllRelock (x : Fin 2) (s : State) : Res := .next (clocked (tclkPllRelock x) s)

/-- Servo state fails parity: it is reloaded from its mirror copy (R326). -/
def tsuServoParityError (x : Fin 2) (s : State) : State :=
  let d := s.dom x
  ((s.setDom x { d with rate := d.mRate, integ := d.mInteg }).setRg (R.domRate x) (BitVec.ofInt 32 d.mRate)).report
    0x0204 kTransient 0xFF x x

def execTsuServoParityError (x : Fin 2) (s : State) : Res := .next (clocked (tsuServoParityError x) s)

/-! ### The clocks (R165, R174, R330) -/

/-- Time bases add 2 × (1 + r × 10⁻⁹) ns at a TCLK cycle; the rounding at 2^-32 ns is a free value. -/
def State.advance (s : State) (x : Nat) : State :=
  let d := s.dom x
  if d.pllLost then s
  else
    let (up, s0) := drawBit s
    let n := 2 ^ 33 * (256000000000 + d.rate)
    s0.setDom x (d.setFine (d.fine + n / 256000000000 + (if up ∧ n % 256000000000 ≠ 0 then 1 else 0)))

/-- One TCLK cycle: both time bases advance; P goes on over a held time base; Δ moves toward 0 at TSU_SLEW.ns_per_s, the
rounding at 2^-32 ns being a free value. -/
def State.tclk (s : State) : State :=
  let d := s.dom s.tsel
  let s1 := (s.advance 0).advance 1
  let held : Int := if d.pllLost then 2 ^ 33 + 2 ^ 33 * d.rate / 256000000000 else 0
  let (up, s2) := drawBit s1
  let m : Int := 2 ^ 33 * s.fd R.tsuSlew 15 0 / 1000000000 + (if up then 1 else 0)
  let dl := s2.tsu.delta
  s2.setDelta ((if 0 < dl then max 0 (dl - m) else min 0 (dl + m)) + held)

/-! ### Labelled PPS edges (R186, R187) -/

/-- A PPS input. -/
def State.pps (s : State) (n : Nat) : Pps := kvGet {} s.tsu.pps n

/-- A write of a PPS input. -/
def State.setPps (s : State) (n : Nat) (v : Pps) : State := { s with tsu.pps := kvSet {} s.tsu.pps n v }

/-- A labelled edge's offset from its second in P, in ns (R187). -/
def State.edgeOfs (s : State) (e : PpsEdge) (u : Int) : Int := (e.at_.toNat : Int) - (u + s.utcOffset) * 1000000000

/-- A labelled edge gives an offset to each domain that its input leads (R187). -/
def State.useLabel (s : State) (n : Nat) (e : PpsEdge) (u : Int) : State :=
  let p := s.pFine
  [0, 1].foldl (fun a x =>
    if a.bt (R.domCfg x) 0 && a.domSrc x == 2 && a.fd (R.domCfg x) 15 12 == n then
      let dx := ((s.dom x).fine - p) / 2 ^ 16
      a.applyOffset x (s.edgeOfs e u * 2 ^ 16 + dx) (720720 / max 1 e.k)
    else a) s

/-- The last accepted edge of a PPS input is labelled with a UTC second: TSU_PPSn_OFS and the offsets follow. An offset that 32 bits do
not hold leaves TSU_PPSn_OFS a free value. -/
def State.labelEdge (s : State) (n : Nat) (u : Int) : State :=
  let pp := s.pps n
  match pp.edge with
  | none => s
  | some e =>
    if e.labelled then s
    else
      let ofs := s.edgeOfs e u
      let (k, s0) := if ofs.natAbs < 2 ^ 31 then (natOfInt 32 ofs, s) else drawNat s
      ((s0.setRg (R.ppsOfs n) (BitVec.ofNat 32 k)).setPps n { pp with edge := some { e with labelled := true } }).useLabel n e u

/-- The edge before the last one is labelled: TSU_PPSn_OFS goes on to show the last edge (DEDUCED, log entry 35). -/
def State.labelPrev (s : State) (n : Nat) (u : Int) : State :=
  let pp := s.pps n
  match pp.prev with
  | none => s
  | some e => if e.labelled then s else (s.setPps n { pp with prev := some { e with labelled := true } }).useLabel n e u

/-- A sentence whose start bit has stamp `t` gives a UTC second: it labels the last edge before the start bit, or with label_next = 1 the
first edge after it (R186). -/
def State.labelFrom (s : State) (n t : Nat) (u : Int) : State :=
  let pp := s.pps n
  let after := fun (e : Option PpsEdge) => e.any (fun x => decide (t < x.at_.toNat))
  if s.bt (R.ppsCfg n) 2 then
    if after pp.prev then s.labelPrev n u
    else if after pp.edge then s.labelEdge n u
    else s.setPps n { pp with nextLabel := some u }
  else if after pp.edge then (if after pp.prev then s else s.labelPrev n u)
  else s.labelEdge n u

/-- Which whole number of seconds from 1 to 16 an interval in ns is within `tol` µs of (R185). -/
def ppsInterval (dt tol : Nat) : Option Nat :=
  ((List.range 16).map (· + 1)).find? (fun k => decide (k * 1000000000 ≤ dt + tol * 1000 ∧ dt ≤ k * 1000000000 + tol * 1000))

/-- An edge of PPSn (R185): accepted as a first edge, or at a whole number of seconds, or rejected. -/
def ppsEdge (n : Fin 4) (s : State) : State :=
  if ¬ s.bt (R.ppsCfg n) 0 then s
  else
    let (t, s0) := stampWithin 4 s
    let pp := s0.pps n
    let tol := s.fd (R.ppsCfg n) 15 8
    let accept := fun (k : Nat) =>
      let s1 := (s0.setRg (R.ppsStamp n) (BitVec.ofNat 32 t)).setRg (R.ppsOfs n) 0x8000_0000
      let s2 := s1.setPps n { edge := some { at_ := BitVec.ofNat 64 t, k := k }, prev := pp.edge }
      match pp.nextLabel with
      | some u => s2.labelEdge n u
      | none => s2
    match pp.edge with
    | none => accept 1
    | some e =>
      let dt := t - e.at_.toNat
      if 16000000000 + tol * 1000 < dt then accept 1
      else match ppsInterval dt tol with
        | some k => accept k
        | none => s0.count R.ppsBad

def execPpsEdge (n : Fin 4) (s : State) : Res := .next (clocked (ppsEdge n) s)

end Sys2Proof.Machine
end

