-- ==== Sys2Proof/Machine/Gptp.lean ====
section
/-! DEFINITION. gPTP (R166 to R172, R179 to R183): messages of the signal box, offsets and link delay from received messages, the
slave port. The message layouts are those of IEEE 802.1AS-2020 (PRESUMED). What the spec does not give of a generated
message (identities, clock quality) is a free value. -/

namespace Sys2Proof.Machine

/-! ### Ports and domains -/

/-- TSU_PORT_CFGn.cmlds. -/
def State.cmlds (s : State) (n : Nat) : Bool := s.bt (R.tsuPort n) 3

/-- A port's link delay state. -/
def State.gport (s : State) (n : Nat) : GptpPort := kvGet {} s.tsu.gptp n

/-- A write of a port's link delay state. -/
def State.setGport (s : State) (n : Nat) (g : GptpPort) : State := { s with tsu.gptp := kvSet {} s.tsu.gptp n g }

/-- The enabled domain of a domainNumber. -/
def State.domNumbered (s : State) (d : Nat) : Option Nat :=
  [0, 1].find? (fun x => s.domEn x && s.fd (R.domCfg x) 10 4 == d)

/-- D_X = T_X − P in 2^-16 ns. -/
def State.domOfs (s : State) (x : Nat) : Int := ((s.dom x).fine - s.pFine) / 2 ^ 16

/-! ### Messages -/

/-- The offset of the gPTP header in a frame. -/
def gptpOff (l : List Byte) : Nat := (parseEth l).etOff + 2

/-- A 10-byte timestamp as 2^-16 ns. -/
def tsAt (l : List Byte) (o : Nat) : Int := (beAt l o 6 * 1000000000 + beAt l (o + 6) 4 : Nat) * 65536

/-- A time in 2^-16 ns as a 10-byte timestamp of whole ns. -/
def tsBytes (t : Int) : List Byte :=
  let ns := (t / 65536).toNat
  beBytes 6 (ns / 1000000000) ++ beBytes 4 (ns % 1000000000)

/-- The fraction of a ns that a timestamp leaves to the correctionField. -/
def tsFrac (t : Int) : Nat := (t % 65536).toNat

/-- The correctionField of a message. -/
def corrAt (l : List Byte) (o : Nat) : Int := signedOf 64 (beAt l (o + 8) 8)

/-- A message of the signal box for port `n`, padded to 60 bytes: type, domainNumber, the first flag byte, correction, sequenceId,
body. Source address and port identity are free. -/
def State.gptpMessage (s : State) (n type dnum flags corr seq : Nat) (body : List Byte) : List Byte × State :=
  let (sa, s1) := drawBytes 6 s
  let id := beBytes 10 (Config.portIdentity n).toNat
  let (tail, s3) := drawBytes 2 s1
  let m := [BitVec.ofNat 8 (0x10 + type), 0x12] ++ beBytes 2 (34 + body.length) ++ [BitVec.ofNat 8 dnum, 0] ++
    [BitVec.ofNat 8 flags, 0] ++ beBytes 8 corr ++ [0, 0, 0, 0] ++ id ++ beBytes 2 seq ++ tail ++ body
  let l := [0x01, 0x80, 0xC2, 0x00, 0x00, 0x0E] ++ sa ++ [0x88, 0xF7] ++ m
  (l ++ List.replicate (60 - l.length) 0, s3)

/-- The signal box sends a message on a port: port code 0x7C, tc 7 (R75, R179). -/
def State.sendGptp (s : State) (n : Nat) (locked : Bool) (l : List Byte) : State :=
  match s.localFrame 0x7C 7 locked 0 l with
  | (some id, t) => t.sendDirect id n
  | (none, t) => t

/-- Sync: one-step on a port with one_step = 1 that qualifies, else two-step (R171, R180). -/
def State.sendSync (s : State) (n x : Nat) : State :=
  let g := s.gport n
  let one := s.bt (R.tsuPort n) 2 && s.qualifies n (64 + s.secAdds n false) (s.protects n)
  let (l, s1) := s.gptpMessage n 0 (s.fd (R.domCfg x) 10 4) (if one then 0 else 2) 0 g.syncId.toNat (List.replicate 10 0)
  (s1.setGport n { g with syncId := g.syncId + 1 }).sendGptp n one l

/-- Announce: what the spec does not give of it is free. -/
def State.sendAnnounce (s : State) (n x : Nat) : State :=
  let g := s.gport n
  let (body, s1) := drawBytes 30 s
  let (l, s2) := s1.gptpMessage n 0xB (s.fd (R.domCfg x) 10 4) 0 0 g.syncId.toNat body
  (s2.setGport n { g with syncId := g.syncId + 1 }).sendGptp n false l

/-- Pdelay_Req begins an exchange. -/
def State.sendPdelay (s : State) (n : Nat) : State :=
  let g := s.gport n
  let (l, s1) := s.gptpMessage n 2 0 0 0 (g.seq + 1).toNat (List.replicate 20 0)
  (s1.setGport n { g with seq := g.seq + 1, cur := some {} }).sendGptp n false l

/-- The priority vector that port `n` would send as a master under the grandmaster of the slave port's vector `w` (IEEE 802.1AS-2020). -/
def masterVector (w n : Nat) : Nat := ((w / 2 ^ 84 + 1) * 2 ^ 80 + (Config.portIdentity n).toNat) * 16 + n

/-- Whether the BMCA makes port `n` passive: it has received a better Announce than it would send (IEEE 802.1AS-2020). -/
def State.passive (s : State) (x n : Nat) : Bool :=
  let v := fun (k : Nat) => (kvGet ({} : Announced) s.tsu.announce (x * 16 + k)).vector
  s.domSrc x == 0 && v n != 0 && decide (v n < masterVector (v (s.fd (R.domStatus x) 7 4)) n)

/-- Whether port `n` is a master port of domain `x`: the QX is grandmaster only with src = 0b10 or 0b11, and a bridge while it has a slave
port (R171). -/
def State.isMaster (s : State) (x n : Nat) : Bool :=
  if s.domSrc x < 2 then s.bt (R.domStatus x) 8 && !s.isSlave x n && !s.passive x n else true

/-- The signal box sends Sync and Announce of an enabled domain on its master ports, Pdelay_Req on CMLDS ports. -/
def gptpTxTimer (n : EPort) (x : Fin 2) (kind : GptpTx) (s : State) : State :=
  if ¬ s.portUp n then s
  else
    let master := s.domEn x && s.gptpPortOf n x && s.isMaster x n
    match kind with
    | .sync => if master then s.sendSync n x else s
    | .announce => if master then s.sendAnnounce n x else s
    | .pdelayReq => if s.cmlds n then s.sendPdelay n else s

def execGptpTxTimer (n : EPort) (x : Fin 2) (kind : GptpTx) (s : State) : Res := .next (clocked (gptpTxTimer n x kind) s)

/-! ### After transmission -/

/-- The transmit stamp of a message at the message timestamp point, in 2^-16 ns of presented time: within ±4 ns (R67, R172). -/
def State.txStamp (s : State) (n : Nat) (t : Tx) : Int × State :=
  let (k, s1) := drawNat s
  let ps : Int := t.start + (s.dTx n + s.txExt n) * 1000 + s.bitsPs n 64
  (ps * 65536 / 1000 + (k % (8 * 65536) : Nat) - 4 * 65536, s1)

/-- What the signal box does after a message it sent: the Follow_Up of a two-step Sync, t1 of a Pdelay_Req, the
Pdelay_Resp_Follow_Up. -/
def gptpSent (n : Nat) (f : Frame) (t : Tx) (s : State) : State :=
  let l := f.bytes
  let o := gptpOff l
  if f.desc.ingress ≠ 0x7C then s
  else
    let (at_, s1) := s.txStamp n t
    match (byteAt l o).toNat % 16 with
    | 0 =>
      if bit (byteAt l (o + 6)) 1 then
        let x := s.domOfNumber (byteAt l (o + 4)).toNat
        let v := at_ + s.domOfs x
        let (m, s2) := s1.gptpMessage n 8 (byteAt l (o + 4)).toNat 0 (tsFrac v) (beAt l (o + 30) 2) (tsBytes v)
        s2.sendGptp n false m
      else s
    | 2 =>
      let g := s1.gport n
      if beAt l (o + 30) 2 = g.seq.toNat then s1.setGport n { g with cur := g.cur.map (fun c : Pdelay => { c with t1 := at_ }) }
      else s
    | 3 =>
      let (m, s2) := s1.gptpMessage n 0xA 0 0 (tsFrac at_) (beAt l (o + 30) 2) (tsBytes at_ ++ slice l (o + 44) 10)
      s2.sendGptp n false m
    | _ => s

/-! ### Received messages -/

/-- The receive stamp of a frame at the message timestamp point, in 2^-16 ns (R172). -/
def State.rxStamp (s : State) (f : Frame) : Int :=
  (f.stampX.toNat : Int) * 65536 + s.bitsPs f.desc.ingress.toNat 8 * 65536 / 1000

/-- An offset of domain `x` from a Sync (R167). The conversion to domain time carries a free error within ±0.4 ns. -/
def State.syncOffset (s : State) (x n : Nat) (rx origin corr : Int) : State :=
  match (s.gport n).mean with
  | none => s
  | some m =>
    let (k, s1) := drawNat s
    let err : Int := (k % 52429 : Nat) - 26214
    s1.applyOffset x (rx + s.domOfs x + err - (origin + corr + m)) (720720 * 2 ^ s.fd (R.domCfg x) 18 16)

/-- A Sync on the slave port: an offset at once, or when its Follow_Up comes. -/
def State.rxSync (s : State) (x n : Nat) (f : Frame) : State :=
  let l := f.bytes
  let o := gptpOff l
  if bit (byteAt l (o + 6)) 1 then
    let w : SyncWait :=
      { port := n, seq := BitVec.ofNat 16 (beAt l (o + 30) 2), rx := s.rxStamp f, corr := corrAt l o, at_ := s.upNs }
    s.setDom x { s.dom x with sync := some w }
  else (s.setDom x { s.dom x with sync := none }).syncOffset x n (s.rxStamp f) (tsAt l (o + 34)) (corrAt l o)

/-- A Follow_Up on the slave port: valid with its Sync's sequenceId within one sync interval. -/
def State.rxFollowUp (s : State) (x n : Nat) (f : Frame) : State :=
  let l := f.bytes
  let o := gptpOff l
  match (s.dom x).sync with
  | none => s
  | some w =>
    let t := s.setDom x { s.dom x with sync := none }
    if w.port = n ∧ w.seq.toNat = beAt l (o + 30) 2 ∧ s.upNs ≤ w.at_ + 1000000000 / 2 ^ s.fd (R.domCfg x) 18 16 then
      t.syncOffset x n w.rx (tsAt l (o + 34)) (w.corr + corrAt l o)
    else t

/-- mean_delay from exchanges j and j − 4 (R167); its rounding to 2^-16 ns is free. -/
def meanDelay (up : Bool) (j i : Pdelay) : Option Int :=
  let den := j.t4 - i.t4
  if den = 0 then none
  else
    let num := (j.t3 - i.t3) * (j.t4 - j.t1) - (j.t3 - j.t2) * den
    some (num / (2 * den) + (if up ∧ num % (2 * den) ≠ 0 then 1 else 0))

/-- A Pdelay exchange is complete. -/
def State.endPdelay (s : State) (n : Nat) (c : Pdelay) : State :=
  let g := s.gport n
  let (up, s1) := drawBit s
  let m := match g.hist[3]? with
    | some i => match meanDelay up c i with
      | some v => some v
      | none => g.mean
    | none => g.mean
  s1.setGport n { g with cur := none, hist := (c :: g.hist).take 4, mean := m }

/-- Pdelay_Req is answered with a two-step Pdelay_Resp. -/
def State.rxPdelayReq (s : State) (n : Nat) (f : Frame) : State :=
  let l := f.bytes
  let o := gptpOff l
  let t2 := s.rxStamp f
  let (m, s1) := s.gptpMessage n 3 0 2 (tsFrac t2) (beAt l (o + 30) 2) (tsBytes t2 ++ slice l (o + 20) 10)
  s1.sendGptp n false m

/-- Pdelay_Resp gives t2 and t4, its Follow_Up after it t3. -/
def State.rxPdelayResp (s : State) (n : Nat) (f : Frame) (followUp : Bool) : State :=
  let l := f.bytes
  let o := gptpOff l
  let g := s.gport n
  match g.cur with
  | none => s
  | some c =>
    if beAt l (o + 30) 2 ≠ g.seq.toNat then s
    else if followUp then (if c.resp then s.endPdelay n { c with t3 := tsAt l (o + 34) + corrAt l o } else s)
    else s.setGport n { g with cur := some { c with t2 := tsAt l (o + 34) + corrAt l o, t4 := s.rxStamp f, resp := true } }

/-! ### The slave port (R171) -/

/-- The priority vector of an Announce received on port `n`, as one number: smaller is better. -/
def announceVector (l : List Byte) (o n : Nat) : Nat :=
  ((beAt l (o + 47) 14 * 2 ^ 16 + beAt l (o + 61) 2) * 2 ^ 80 + beAt l (o + 20) 10) * 16 + n

/-- What an Announce of the slave port says of UTC (R189). -/
def State.takeUtc (s : State) (x : Nat) (l : List Byte) (o : Nat) : State :=
  let fl := byteAt l (o + 7)
  let d := s.dom x
  let s1 := if d.leap61 ∨ d.leap59 then s else s.fixLeapDay x
  s1.setDom x { s1.dom x with
    utcOfs := if bit fl 2 then some (signedOf 16 (beAt l (o + 44) 2)) else none, leap61 := bit fl 0, leap59 := bit fl 1 }

/-- The logMessageInterval of an Announce, 0 to 3 (R171). -/
def announceLog (l : List Byte) (o : Nat) : Nat := min 3 (signedOf 8 (beAt l (o + 33) 1)).toNat

/-- An Announce of domain `x` on port `n`: it counts for three intervals (PRESUMED, log entry 31: IEEE 802.1AS-2020). -/
def State.rxAnnounce (s : State) (x n : Nat) (f : Frame) : State :=
  let o := gptpOff f.bytes
  let a : Announced := { vector := announceVector f.bytes o n, until_ := s.upNs + 3000000000 * 2 ^ announceLog f.bytes o }
  let s1 := { s with tsu.announce := kvSet {} s.tsu.announce (x * 16 + n) a }
  let s2 := s1.chooseSlave x
  if s2.isSlave x n then s2.takeUtc x f.bytes o else s2

/-- A port leaves UP: its Announces and its exchange are forgotten. -/
def State.gptpPortDown (s : State) (n : Nat) : State :=
  let s1 := { s with tsu.announce := (s.tsu.announce.filter (fun a => a.1 % 16 != n)) }
  let s2 := s1.setGport n { s1.gport n with cur := none, hist := [], mean := none }
  (s2.chooseSlave 0).chooseSlave 1

/-- A gPTP message that TSU consumed (R167, R172). -/
def gptpReceived (f : Frame) (s : State) : State :=
  let l := f.bytes
  let o := gptpOff l
  let n := f.desc.ingress.toNat
  let type := (byteAt l o).toNat % 16
  let onDomain := fun (k : Nat → State) =>
    match s.domNumbered (byteAt l (o + 4)).toNat with
    | some x => if s.gptpPortOf n x ∧ s.domSrc x < 2 then k x else s
    | none => s
  match type with
  | 0 => onDomain (fun x => if s.isSlave x n then s.rxSync x n f else s)
  | 8 => onDomain (fun x => if s.isSlave x n then s.rxFollowUp x n f else s)
  | 0xB => onDomain (fun x => s.rxAnnounce x n f)
  | 2 => if s.cmlds n then s.rxPdelayReq n f else s
  | 3 => if s.cmlds n then s.rxPdelayResp n f false else s
  | 0xA => if s.cmlds n then s.rxPdelayResp n f true else s
  | _ => s

end Sys2Proof.Machine
end

