-- ==== Sys2Proof/Machine/Tsu.lean ====
section
/-! DEFINITION. Commands and events of the time family (06_time.md): TIME_SET, TIME_READ, TSU_LATCH, ZDA, leaps, sentences. -/

namespace Sys2Proof.Machine

/-! ### TIME_SET and TIME_READ (R192, R279) -/

/-- The UTC date and time fields of TIME_SET: date, hour, minute, second, ns. -/
def setDate (d : CmdDesc) : Date := { year := d.le 2 2, month := d.b 4, day := d.b 5 }

/-- The TAI ns count that a TIME_SET names, `none` for an impossible date or time. -/
def setTai (d : CmdDesc) (s : State) : Option Int :=
  if d.b 1 = 1 then some (d.le 2 8)
  else if s.possible (setDate d) (d.b 6) (d.b 7) (d.b 8) ∧ d.le 10 4 < 1000000000 then
    some (s.taiOf (setDate d) (d.b 6) (d.b 7) (d.b 8) (d.le 10 4))
  else none

/-- TIME_SET: a step of a domain's time base under R174; TSU_STATUS.valid becomes 1. -/
def timeSetBody (d : CmdDesc) (s : State) : Ans :=
  if 1 < d.b 0 ∨ 1 < d.b 1 then fail s St.badParam
  else match setTai d s with
    | none => fail s St.badDate
    | some t =>
      if s.domState (d.b 0) = domLocked ∧ s.domSrc (d.b 0) ≠ 3 then fail s St.badParam
      else { s := (s.stepDomain (d.b 0) (t * 2 ^ 32 - (s.dom (d.b 0)).fine)).setBt R.tsuStatus 5 true }

/-- The form of TIME_SET. -/
def timeSetForm (d : CmdDesc) : Form :=
  { kind := .immediate, pmOnly := true, size := fun l => l == 14
    clean := if d.b 1 == 1 then d.le 10 4 == 0 else d.b 9 == 0 }

def execTimeSet (p : Part) (d : CmdDesc) (s : State) : Res := .next (runCommand (timeSetForm d) p d (timeSetBody d) s)

/-- TIME_READ: extended P in ns. -/
def timeReadBody (s : State) : Ans := { s := s, result := s.pNs }

/-- The form of TIME_READ. -/
def timeReadForm : Form := { kind := .immediate, size := fun l => l == 0 }

def execTimeRead (p : Part) (d : CmdDesc) (s : State) : Res :=
  .next (runCommand timeReadForm p d timeReadBody s)

/-! ### TSU_LATCH (R177) -/

/-- P, its stamp form and the calendar go into a partition's latched registers, all from one cycle. -/
def latchTime (p : Part) (s : State) : State :=
  let sec := s.pNs / 1000000000
  let s1 := s.setRgp p R.latSecLo (BitVec.ofNat 32 sec)
  let s2 := s1.setRgp p R.latSecHi (BitVec.ofNat 32 (sec / 2 ^ 32 % 2 ^ 16))
  let s3 := s2.setRgp p R.latNsec (BitVec.ofNat 32 (s.pNs % 1000000000))
  let s4 := s3.setRgp p R.latStamp (BitVec.ofNat 32 s.pNs)
  (s4.setRgp p R.calDate s.calDateNow).setRgp p R.calTime s.calTimeNow

/-- A write of TSU_LATCH: latch = 1 latches. -/
def tsuLatch (p : Part) (v : W32) (s : State) : State := if bit v 0 then latchTime p s else s

def execTsuLatch (p : Part) (v : W32) (s : State) : Res := .next (onWrite p 0x20_0020 (tsuLatch p v) s)

/-! ### ZDA (R188) -/

/-- A number as `n` decimal digits in ASCII. -/
def digits (n v : Nat) : List Byte :=
  match n with
  | 0 => []
  | k + 1 => digits k (v / 10) ++ [BitVec.ofNat 8 (0x30 + v % 10)]

/-- The checksum of a sentence's characters between `$` and `*`. -/
def xorOf (l : List Byte) : Byte := l.foldl (fun a b => a ^^^ b) 0

/-- A hexadecimal digit in ASCII. -/
def hexDigit (v : Nat) : Byte := BitVec.ofNat 8 (if v < 10 then 0x30 + v else 0x37 + v)

/-- The ZDA sentence of the calendar time at which it starts. -/
def State.zdaText (s : State) : List Byte :=
  let (day, h, m, se) := s.clock
  let d := dateOf day
  let t := s.fd R.senout 23 8
  let body : List Byte := [BitVec.ofNat 8 (t / 256), BitVec.ofNat 8 t, 0x5A, 0x44, 0x41, 0x2C] ++
    digits 2 h ++ digits 2 m ++ digits 2 se ++ [0x2E, 0x30, 0x30, 0x2C] ++ digits 2 d.day ++ [0x2C] ++ digits 2 d.month ++
    [0x2C] ++ digits 4 d.year ++ [0x2C, 0x30, 0x30, 0x2C, 0x30, 0x30]
  let cs := (xorOf body).toNat
  0x24 :: body ++ [0x2A, hexDigit (cs / 16), hexDigit (cs % 16), 0x0D, 0x0A]

/-- A ZDA sentence starts on Nn: a frame of port code 0x7C, ahead of the queued frames of the port. -/
def State.zdaStart (s : State) (n : Nat) : State :=
  let c := 0x6C + n
  match ({ s with tsu.zdaWait := none } : State).localFrame 0x7C 7 false (setImg 0 0 1 3) s.zdaText with
  | (none, t) => t
  | (some id, t) =>
    match t.frame id with
    | none => t
    | some f => (t.startOther c { frame := id, port := BitVec.ofNat 8 c, tc := f.desc.tc, adm := f.desc.adm, express := true } f).settleFrame id

/-- The instant of a ZDA sentence: it starts on the selected port, or waits for the end of a frame that is being sent there (TSU_SEN_LATE);
none while UTC is negative. -/
def zdaSend (s : State) : State :=
  let n := s.fd R.senout 2 1
  if ¬ s.bt R.senout 0 ∨ s.utcSec < 0 ∨ ¬ s.portUp (0x6C + n) then s
  else if (s.egOf (0x6C + n)).tx.isSome then { s.count R.senLate with tsu.zdaWait := some n }
  else s.zdaStart n

/-- A delayed ZDA sentence starts once its port sends nothing. -/
def State.zdaDelayed (s : State) : State :=
  match s.tsu.zdaWait with
  | none => s
  | some n => if (s.egOf (0x6C + n)).tx.isSome then s else if s.utcSec < 0 ∨ ¬ s.portUp (0x6C + n) then { s with tsu.zdaWait := none } else s.zdaStart n

def execZdaSend (s : State) : Res := .next (clocked zdaSend s)

/-! ### Leaps (R189) -/

/-- A leap is no longer scheduled: where TSU_UTC_NEXT holds it, its leap field clears; where the selected domain announces it, its flags do. -/
def State.clearLeap (s : State) (l : Leap) : State :=
  let s1 := if s.announcedLeap.any l.same then
      s.setDom s.tsel { s.dom s.tsel with leap61 := false, leap59 := false, leapLate := false }
    else s
  if s.setLeap.any l.same then { (s1.setFd R.utcNext 25 24 0) with tsu.leapLate := false } else s1

/-- The TAI−UTC offset changes by ±1: TSU_UTC.offset, and what the selected domain announces when that is in use (R189). -/
def State.moveOffset (s : State) (step : Int) : State :=
  let s1 := s.modRg R.utc (fun w => setFld w 7 0 (natOfInt 8 ((fld w 7 0 : Int) + step)))
  if s1.bt R.utc 8 then s1.setDom s1.tsel { s1.dom s1.tsel with utcOfs := (s1.dom s1.tsel).utcOfs.map (· + step) } else s1

/-- A leap applies, and is no longer scheduled. -/
def State.applyLeap (s : State) (l : Leap) : State := (s.clearLeap l).moveOffset (if l.insert then 1 else -1)

/-- A second boundary at which a scheduled leap applies: at the end of its day, or late, with event 0x0207. -/
def leapApply (s : State) : State :=
  match s.leaps.find? s.leapDue with
  | none => s
  | some l =>
    let t := s.applyLeap l
    if l.late then t.report 0x0207 kInfo 0xFF 0xFF (t.fd R.utc 7 0) else t

def execLeapApply (s : State) : Res := .next (clocked leapApply s)

/-! ### Sentences (R186, R190, R191); field layout of RMC and ZDA from IEC 61162-1 (PRESUMED, log entry 34) -/

/-- A sentence cut at its commas. -/
def splitComma (l : List Byte) : List (List Byte) :=
  match l with
  | [] => [[]]
  | b :: r => if b = 0x2C then [] :: splitComma r
    else match splitComma r with
      | [] => [[b]]
      | x :: y => (b :: x) :: y

/-- The value of a list of decimal digits, `none` when it holds another character or nothing. -/
def decOf (l : List Byte) : Option Nat :=
  if l.isEmpty then none
  else l.foldl (fun a b => a.bind fun v => if 0x30 ≤ b.toNat ∧ b.toNat ≤ 0x39 then some (v * 10 + (b.toNat - 0x30)) else none)
    (some 0)

/-- A sentence's characters after `$` and before `*`. -/
def sentenceBody (l : List Byte) : List Byte := (l.drop 1).takeWhile (fun b => b != 0x2A)

/-- What a sentence says: nothing to use, or a date and time that may not parse. -/
inductive SenSays where
  | unused
  | bad
  | says (d : Date) (h mi se : Nat)
  deriving DecidableEq, Repr

/-- A date and time from text fields. -/
def senTime (t dd mm yy : List Byte) (year : Nat → Nat) : SenSays :=
  match decOf (t.take 2), decOf ((t.drop 2).take 2), decOf ((t.drop 4).take 2), decOf dd, decOf mm, decOf yy with
  | some h, some mi, some se, some d, some m, some y =>
    if t.length < 6 then .bad else .says { year := year y, month := m, day := d } h mi se
  | _, _, _, _, _, _ => .bad

/-- RMC with status A and ZDA are used; other sentences are not (R186). -/
def State.senSays (s : State) (l : List Byte) : SenSays :=
  let f := splitComma (sentenceBody l)
  let kind := (f.headD []).drop 2
  if kind = [0x52, 0x4D, 0x43] then
    if f.getD 2 [] = [0x41] then
      let dt := f.getD 9 []
      if dt.length = 6 then senTime (f.getD 1 []) (dt.take 2) ((dt.drop 2).take 2) (dt.drop 4) s.windowYear else .bad
    else .unused
  else if kind = [0x5A, 0x44, 0x41] then senTime (f.getD 1 []) (f.getD 2 []) (f.getD 3 []) (f.getD 4 []) id
  else .unused

/-- A sentence with a correct checksum, received on Nn with a start bit of stamp `t`, labels an edge of PPSn, or is rejected (R186). -/
def State.sentence (s : State) (n t : Nat) (l : List Byte) : State :=
  if ¬ s.bt (R.ppsCfg n) 3 then s
  else
    let reject := (s.count R.senReject).report 0x0203 kTransient 0xFF (0x6C + n) (0x6C + n)
    match s.senSays l with
    | .unused => s
    | .bad => reject
    | .says d h mi se =>
      if s.possible d h mi se then
        s.labelFrom n t (daysOf d * 86400 + h * 3600 + mi * 60 + se : Nat)
      else reject

end Sys2Proof.Machine
end

