-- ==== Sys2Proof/Machine/Wake.lean ====
section
/-! DEFINITION. The wake-up frame test and the sources that assert in RUN and ENTRY (R307, R309, R321). -/

namespace Sys2Proof.Machine

/-- The DM byte `k` of a decoder. -/
def State.cwDmByte (s : State) (n k : Nat) : Byte := imgByte (s.rg (R.cwDm n (k / 4))) (k % 4)

/-- The test of R307. -/
def State.wakeMatch (s : State) (n : Nat) (f : WakeFrame) : Bool :=
  let cfg := s.rg (R.cwCfg n)
  let w := if f.ide then 29 else 11
  let diff := Nat.land (Nat.xor f.ident.toNat (s.rg (R.cwId n)).toNat) (s.rg (R.cwIdm n)).toNat
  f.ok && !f.fd && !f.rtr && f.ide == bit cfg 2 && decide (diff % 2 ^ w = 0) &&
    (!bit cfg 3 || (decide (f.dlc.toNat = fld cfg 11 8 ∧ f.dlc ≠ 0) &&
      (List.range (min f.dlc.toNat 8)).any (fun k => byteAt f.data k &&& s.cwDmByte n k != 0)))

/-- What the test reads of a frame that the controller has received. -/
def wakeFrameOf (h : BitVec 128) (l : List Byte) : WakeFrame :=
  { ok := true, fd := canType h != 0, ide := canIde h, rtr := canRtr h, ident := BitVec.ofNat 29 (canIdent h)
    dlc := BitVec.ofNat 4 (canDlc h), data := l }

/-- Whether a source asserts (PWR_WAK_ASSERT). -/
def State.asserts (s : State) (src : Nat) : Bool := s.bt R.wakAssert src

/-- RUN and ENTRY. -/
def State.asserting (s : State) : Bool := s.fd R.pwrState 2 0 == 0 || s.fd R.pwrState 2 0 == 1

/-- WAKE_INn in level mode asserts while the pin is at its active level; a pin in edge mode keeps what its edges gave (R321). -/
def State.refreshPin (s : State) (n : Nat) : State :=
  if s.bt (R.winCfg n) 0 then s else s.setBt R.wakAssert (16 + n) (s.slp.pinHigh.getLsbD n != s.bt (R.winCfg n) 1)

/-- A frame received on C0 to C15 asserts its source when it passes the test of R307 and its node is a wake member (R321). -/
def State.canAsserts (s : State) (n : Nat) (h : BitVec 128) (l : List Byte) : State :=
  if ¬ s.asserting ∨ ¬ s.bt (R.cwCfg n) 0 ∨ ¬ s.wakeMatch n (wakeFrameOf h l) then s
  else match s.node (nodeKey (0x20 + n) h l) with
    | some (i, e) =>
      if ndMember e then
        let t := s.setBt R.wakAssert n true
        { t with slp.lastNode := kvSet 0 t.slp.lastNode n (i + 1) }
      else s
    | none => s

/-- The first frame that a port's controller receives without error after RUN ends fall-back (R309). -/
def State.endFallback (s : State) (n : Nat) : State :=
  if s.fd R.pwrState 2 0 = 0 ∧ s.bt (R.cwStat n) 6 then s.modRg (R.cwStat n) (fun w => setFld w 6 0 0) else s

end Sys2Proof.Machine
end

