-- ==== Sys2Proof/Machine/Intake.lean ====
section
/-! DEFINITION. Frames that enter: intake and last cell of Ethernet and T1S frames (R92, R96), bus frames and sentences (R57, R66), and the
ages of stream records (R85, R87); egress grants and ends of transmission with what follows from them. -/

namespace Sys2Proof.Machine

/-! ### Frames in reception -/

/-- The frames in reception on a port, oldest first. -/
def State.rxOf (s : State) (c : Nat) : List RxFrame := kvGet [] s.lnk.rx c

/-- A write of a port's frames in reception. -/
def State.setRx (s : State) (c : Nat) (l : List RxFrame) : State := { s with lnk.rx := kvSet [] s.lnk.rx c l }

/-- The last cell of a frame is written: its port's order moves on. -/
def State.completeFrame (s : State) (f : Frame) : State :=
  ((s.modFrame f.id (fun g => { g with complete := true })).runOrder f.desc.ingress.toNat).settleFrame f.id

/-- The longest frame that a descriptor's length field can tell. -/
def maxFrame : Nat := 65535

/-! ### FRAME_INTAKE (R46, R73, R96, R225) -/

/-- The slices verify a frame whose SA is known while its cells are written (R38, R225). -/
def State.verifyWork (s : State) (c len id : Nat) (sec : SecFound) : State :=
  match sec with
  | .checked _ _ _ _ => s.addCrypto c (burstsOf len) (.verify id)
  | _ => s

/-- A frame of an E or S port meets intake; a frame shorter than 64 bytes carries a receive error. -/
def State.ethIntake (s : State) (c : Nat) (b : Boundpt) (l : List Byte) : State :=
  let (sec, plain) := if isE c then s.verifyRx c l else (.off, l)
  let runt := isE c && decide (l.length + 4 < 64)
  let (id, s1) := s.intake c b 0 plain
  let s2 := s1.setRx c (s1.rxOf c ++ [{ frame := id, len := l.length + 4 }])
  match (id.bind s2.frame : Option Frame) with
  | none => s2
  | some f =>
    let f1 := { f with sec := sec, lineLen := l.length + 4, desc := if runt then f.desc.setRx 2 else f.desc }
    ((s2.setFrame f1).verifyWork c (l.length + 4) f.id sec).classify f1 runt

def frameIntake (c : Nat) (l : List Byte) (s : State) : State :=
  match s.boundsOf c with
  | [] => s
  | b :: r =>
    if ¬ s.portUp c then s
    else
      let s1 := s.setBounds c r
      if isE c ∧ beAt l 12 2 = 0x8808 then
        (s1.countWide (R.ethCnt c 4)).setRx c (s1.rxOf c ++ [{ frame := none, len := l.length + 4 }])
      else s1.ethIntake c b l

def execFrameIntake (c : PortCode) (bytes : List Byte) (s : State) : Res :=
  if isES c.toNat ∧ bytes ≠ [] ∧ bytes.length ≤ maxFrame then .next (clocked (frameIntake c.toNat bytes) s)
  else .fault (.operandOutsideSpec "FRAME_INTAKE")

/-! ### FRAME_END (R92) -/

/-- Copies of a frame in a list. -/
def withoutFrame (id : Nat) (l : List Copy) : List Copy := l.filter (fun x => x.frame != id)

/-- A frame's copies leave a port's queues. -/
def State.pullPort (s : State) (c id : Nat) : State :=
  (List.range 8).foldl (fun a q =>
    let l := (a.egOf c).queue q
    if l.any (fun x => x.frame == id) then (a.setQueue c q (withoutFrame id l)).settleQueue c q else a) s

/-- A frame's committed copy that has not been launched goes with its departure (R183). -/
def State.pullCommit (s : State) (c id : Nat) : State :=
  let e := s.egOf c
  match e.commit with
  | some m =>
    if m.copy.frame = id ∧ ¬ m.launched then ((s.setEg c { e with commit := none }).noProtect (BitVec.ofNat 8 c) id).count R.ostepLost
    else s
  | none => s

/-- A frame's copy that was granted and waits for the line goes. -/
def State.pullNext (s : State) (c id : Nat) : State :=
  match (s.egOf c).next with
  | some t => if t.copy.frame = id then (s.setEg c { s.egOf c with next := none }).noProtect (BitVec.ofNat 8 c) id else s
  | none => s

/-- A frame's copies that have started end with an inverted FCS under CT_STOMP (R92). -/
def State.stompPort (s : State) (c id : Nat) : State :=
  let s1 := match (s.egOf c).preempted with
    | some t =>
      if t.copy.frame = id then
        ((s.setEg c { s.egOf c with preempted := none }).emit (.frame (BitVec.ofNat 8 c) 0 (t.copy.bytes.getD []) true)).endCopy 0x16 t.copy
      else s
    | none => s
  match (s1.egOf c).tx with
  | some t => if t.copy.frame = id then s1.txAbort c 0x16 t else s1
  | none => s1

/-- Whether a copy of a frame has not started: queued, committed, or waiting for the engine or the ladle. -/
def State.waitsUnstarted (s : State) (id : Nat) : Bool :=
  s.fwd.eg.any (fun p => p.2.queues.any (fun q => q.2.any (fun x => x.frame == id)) ||
      (p.2.commit.map (fun m : Commit => m.copy.frame == id && !m.launched)).getD false ||
      (p.2.next.map (fun t : Tx => t.copy.frame == id)).getD false) ||
    s.fwd.tunQ.any (fun t => t.frame == id) || s.captureHolds id

/-- A frame's capture copies go. -/
def State.pullCaptures (s : State) (id : Nat) : State :=
  (kvKeys s.cap.qs).foldl (fun a q =>
    a.setCapq q { a.capq q with copies := (a.capq q).copies.filter (fun x => x.frame != id) }) s

/-- A frame's capture copies become those of a dropped frame (R72). -/
def State.dropCaptures (s : State) (id code : Nat) : State :=
  (kvKeys s.cap.qs).foldl (fun a q =>
    a.setCapq q { a.capq q with copies := (a.capq q).copies.map (fun x =>
      if x.frame = id then { x with desc := droppedDesc x.desc code } else x) }) s

/-- A frame's egress and tunnelling copies end: started ones are stomped, the others go. -/
def State.pullFrame (s : State) (id : Nat) : State :=
  let s1 := (kvKeys s.fwd.eg).foldl (fun a c => (((a.pullPort c id).pullCommit c id).pullNext c id).stompPort c id) s
  { s1 with fwd.tunQ := s1.fwd.tunQ.filter (fun t => t.frame != id) }

/-- A late receive error (R92): started copies are stomped; the frame is dropped under RX_ERROR for every copy not started. -/
def State.lateError (s : State) (f : Frame) : State :=
  let n := if f.desc.drop = 0 ∧ (¬ f.branched ∨ s.waitsUnstarted f.id) then s.countDrop 0x01 else s
  let s1 := ((n.setFrame { f with branched := true, desc := f.desc.setRx 2 }).pullFrame f.id).pullCaptures f.id
  (s1.debit f).completeFrame f

/-- A frame that its filter finds too long at its end, after it may have been cut through (R92). -/
def State.lateFilter (s : State) (f : Frame) : State :=
  let s1 := (s.countDrop 0x06).setFrame { f with desc := droppedDesc f.desc 0x06 }
  let s2 := if f.branched then (s1.pullFrame f.id).dropCaptures f.id 0x06 else s1
  s2.completeFrame f

/-- A frame whose reception ended well: its debit, TSU's reading of it, and steps 7 and 8 in its port's order. -/
def State.goodEnd (s : State) (f : Frame) : State :=
  let s1 := s.debit f
  if f.desc.drop = 0 ∧ f.longerThan f.maxSdu then s1.lateFilter f
  else (if f.gptp then gptpReceived f s1 else s1).completeFrame f

/-- The longest frame that a port accepts, and whether a length counts as an error of the port (R46). -/
def State.overlong (s : State) (c len : Nat) : Bool := isE c && decide (s.ethMaxLen c < len)

/-- The reception counters of a frame's end (R51, R70): an error of length counts beside one of content, and a frame that intake
refused is not counted as received. -/
def State.countRx (s0 : State) (c : Nat) (x : RxFrame) (e : RxEnd) : State :=
  if isE c then
    let bad := decide (x.len < 64) || s0.overlong c x.len
    let s := if bad then s0.countWide (R.ethCnt c 3) else s0
    match e with
    | .fcs => s.countWide (R.ethCnt c 2)
    | .reassembly => s.countWide (R.ethCnt c 2)
    | .symbol => s.countWide (R.ethCnt c 5)
    | _ => if ¬ bad ∧ x.frame.isSome then (s.countWide (R.ethCnt c 0)).countWide (R.ethCnt c 1) x.len else s
  else
    match e with
    | .fcs => s0.count (R.t1sCnt (c - 0x10) 1)
    | .good => if x.frame.isSome then s0.count (R.t1sCnt (c - 0x10) 0) else s0
    | _ => s0

/-- The newest frame in reception ends. -/
def State.endRx (s : State) (c : Nat) (e : RxEnd) : State :=
  match (s.rxOf c).getLast? with
  | none => s
  | some x =>
    let s1 := (s.setRx c (s.rxOf c).dropLast).countRx c x e
    match (x.frame.bind s1.frame : Option Frame) with
    | none => s1
    | some f => if e = .good ∧ ¬ s1.overlong c x.len then s1.goodEnd f else s1.lateError f

/-- The link partner's answer to a verify frame (R141). -/
def State.mmAnswer (s : State) (n : Nat) (a : Fin 4) : State :=
  let e := s.egOf n
  let s1 := s.setEg n { e with addFrag := a.val, mmReplied := true }
  if s.portUp n ∧ 1 ≤ e.mmTries ∧ e.mmTries ≤ 3 then s1.setBt (R.gteStatus n) 13 true else s1

def frameEnd (c : Nat) (e : RxEnd) (s : State) : State :=
  match e with
  | .mmReply a => if isE c then s.mmAnswer c a else s
  | .codewords ok bad =>
    if isE c ∧ s.ethFec c ≠ 0 then (s.countWide (R.ethCnt c 9) ok.toNat).countWide (R.ethCnt c 10) bad.toNat else s
  | _ => s.endRx c e

/-- Reception stops with the link: the frames in reception end in error and starts of frame are forgotten. -/
def State.abortRx (s : State) (c : Nat) : State :=
  let s1 := (s.rxOf c).foldl (fun a x =>
    match (x.frame.bind a.frame : Option Frame) with
    | none => a
    | some f => a.lateError f) (s.setRx c [])
  s1.setBounds c []

/-! ### BUS_FRAME_HANDOVER (R57, R66) -/

/-- A bus frame or sentence enters FWD as one unit. -/
def State.busEnter (s : State) (c : Nat) (b : Boundpt) (h : BitVec 128) (l : List Byte) (err : Bool) : State :=
  let (id, s1) := s.intake c b h l
  match (id.bind s1.frame : Option Frame) with
  | none => s1
  | some f =>
    let f1 := { f with complete := true, desc := if err then f.desc.setRx 2 else f.desc }
    (s1.setFrame f1).classify f1 err

/-- The data bytes that a CAN frame of a header slot carries, when its format fixes them; a CAN XL frame carries 1 to 2,048. -/
def canDataLen (h : BitVec 128) : Option Nat :=
  let dlc := imgLe h 5 1 % 16
  match canType h with
  | 0 => some (if bit (imgByte h 4) 3 then 0 else min dlc 8)
  | 1 => some (fdLengths.getD dlc 64)
  | _ => none

/-- Whether `len` bytes in cells are a frame of the port's medium (R57, R58, R63, R66). -/
def mediumLen (c : Nat) (h : BitVec 128) (len : Nat) : Bool :=
  if isC c then
    match canType h, canDataLen h with
    | 3, _ => false
    | _, some n => len == n
    | _, none => decide (17 ≤ len ∧ len ≤ 16 + 2048)
  else if isL c then decide (1 ≤ len ∧ len ≤ 8)
  else if isF c then decide (len ≤ 64) && len % 2 == 0
  else decide (len ≤ 82)

/-- The value of a hexadecimal character. -/
def hexVal (b : Byte) : Option Nat :=
  let n := b.toNat
  if 48 ≤ n ∧ n ≤ 57 then some (n - 48) else if 65 ≤ n ∧ n ≤ 70 then some (n - 55) else if 97 ≤ n ∧ n ≤ 102 then some (n - 87) else none

/-- The flags of a sentence's header slot (R57): bit 0 a checksum is present, bit 1 it is the exclusive or of the characters between the
start delimiter and the asterisk (IEC 61162-1). -/
def sentenceFlags (l : List Byte) : Nat :=
  let body := (l.drop 1).takeWhile (fun b => b != 0x2A)
  match l.drop (1 + body.length) with
  | _ :: a :: b :: _ =>
    let sum := (body.foldl (fun (x : Byte) y => x ^^^ y) 0).toNat
    match hexVal a, hexVal b with
    | some x, some y => 1 + 2 * boolNat (x * 16 + y == sum)
    | _, _ => 1
  | _ :: _ => 1
  | [] => 0

/-- The header slot that a controller forms (R56, R57): the fields that it read from the line, the length of the data, and what it knows
itself: the checksum of a LIN identifier and who sent header and response, the FlexRay channel, a sentence's checksum. Reserved bits
are 0. -/
def State.headerSlot (s : State) (c : Nat) (h : BitVec 128) (l : List Byte) : BitVec 128 :=
  let len := l.length
  if isC c then
    let t := canType h
    let b := (imgByte h 4)
    let xl := t == 2
    let fmt := t + 4 * boolNat (bit b 2 && !xl) + 8 * boolNat (bit b 3) + 16 * boolNat (bit b 4 && t == 1) + 32 * boolNat (bit b 5 && t == 1)
    let ident := imgLe h 0 4 % (if bit b 2 && !xl then 2 ^ 29 else 2 ^ 11)
    setImg (setImg (setImg (setImg 0 0 4 ident) 4 1 fmt) 5 1 (if xl then 0 else imgLe h 5 1 % 16)) 6 2 (if xl then len - 16 else len)
  else if isL c then s.linHeaderSlot c h (s.lin (c - 0x50)).own (s.lin (c - 0x50)).publish len
  else if isF c then
    let ind := imgLe h 3 1 % 8 + 8 * ((c - 0x68) % 2)
    setImg (setImg (setImg (setImg (setImg 0 0 2 (imgLe h 0 2 % 2 ^ 11)) 2 1 (imgLe h 2 1 % 64)) 3 1 ind) 4 2 (imgLe h 4 2 % 2 ^ 11)) 6 2 len
  else setImg 0 0 1 (sentenceFlags l)

/-- Whether a sentence's checksum field is present and wrong. -/
def sumWrong (h : BitVec 128) : Bool := bit h 0 && !bit h 1

/-- What a port's controller does with a valid frame of start `b` beside handing it over. -/
def State.busReceived (s : State) (c : Nat) (b : Boundpt) (h : BitVec 128) (l : List Byte) : State :=
  if isC c then
    let n := c - 0x20
    let s1 := (s.count (R.canCnt n 0)).canTally n 0 (-1)
    if n < 16 then (s1.endFallback n).canAsserts n h l else s1
  else if isL c then
    let s1 := s.count (R.linCnt (c - 0x50) 0)
    s1.setLin (c - 0x50) { s1.lin (c - 0x50) with header := none, own := false, publish := false }
  else if isF c then s.count (R.frCnt ((c - 0x68) / 2) ((c - 0x68) % 2) 0)
  else
    let s1 := s.count (R.senCnt (c - 0x6C) 0)
    if sumWrong h then s1.count (R.senCnt (c - 0x6C) 2)
    else if bit h 0 then s1.sentence (c - 0x6C) b.stampX.toNat l
    else s1

/-- Whether a port code is that of a bus or sentence port. -/
def isBus (c : Nat) : Bool := isC c || isL c || isF c || isN c

/-! ### BUS_RECEIVE_ERROR (R57, R61, R63, R66, R70) -/

/-- The counter of what a frame failed on. A longer sentence is counted in SEN_LONG, a null frame in FR_NULL. -/
def busErrorCnt (c : Nat) (e : BusError) : Option Nat :=
  if isC c then
    match e with
    | .format => some (R.canCnt (c - 0x20) 2)
    | .crc => some (R.canCnt (c - 0x20) 2)
    | _ => none
  else if isL c then
    match e with
    | .crc => some (R.linCnt (c - 0x50) 2)
    | .syncLoss => some (R.linCnt (c - 0x50) 4)
    | _ => none
  else if isF c then
    let k := fun j => some (R.frCnt ((c - 0x68) / 2) ((c - 0x68) % 2) j)
    match e with
    | .crc => k 2
    | .nullFrame => k 3
    | .longFrame => k 4
    | .syncLoss => k 5
    | _ => none
  else if isN c then
    match e with
    | .longFrame => some (R.senCnt (c - 0x6C) 3)
    | .framing => some (R.senCnt (c - 0x6C) 4)
    | _ => none
  else if isS c then
    match e with
    | .collision => some (R.t1sCnt (c - 0x10) 3)
    | _ => none
  else none

/-- A frame that fails its medium checks is counted and not handed over. -/
def busReceiveError (c : Nat) (e : BusError) (s : State) : State :=
  if ¬ s.receives c then s
  else
    let s0 := if isC c ∧ e ≠ .arbLost then s.canTally (c - 0x20) 0 1 else s
    let s1 := if isBus c then s0.setBounds c (s0.boundsOf c).tail else s0
    match busErrorCnt c e with
    | some k => s1.count k
    | none => s1

def execBusReceiveError (c : PortCode) (e : BusError) (s : State) : Res :=
  if isBus c.toNat ∨ isS c.toNat then .next (clocked (busReceiveError c.toNat e) s)
  else .fault (.operandOutsideSpec "BUS_RECEIVE_ERROR")

/-! ### The hand-over -/

/-- A controller hands over a valid frame, or counts one that is longer than the medium's frames or has no length of them (R63, R66). -/
def busFrameHandover (c : Nat) (h0 : BitVec 128) (l : List Byte) (s : State) : State :=
  match s.boundsOf c with
  | [] => s
  | b :: r =>
    if ¬ s.receives c then s
    else if ¬ mediumLen c h0 l.length then busReceiveError c (if isF c ∨ isN c then .longFrame else .format) s
    else
      let h := s.headerSlot c h0 l
      (((s.setBounds c r).busReceived c b h l).busEnter c b h l (isN c && sumWrong h)).startRemotes

def execBusFrameHandover (c : PortCode) (hslot : BitVec 128) (bytes : List Byte) (s : State) : Res :=
  if isBus c.toNat ∧ bytes.length ≤ maxFrame then .next (clocked (busFrameHandover c.toNat hslot bytes) s)
  else .fault (.operandOutsideSpec "BUS_FRAME_HANDOVER")

/-! ### Ages (R85, R87) -/

/-- A dynamic record that no frame has matched for age_s is freed. -/
def streamAgeExpire (i : Fin 4096) (s : State) : State :=
  let x := s.stream i
  if x.used ∧ ¬ x.pinned ∧ s.fd R.streamCfg 15 0 ≠ 0 ∧ ¬ s.keptRecords.contains i.val then s.setStream i {} else s

def execStreamAgeExpire (i : Fin 4096) (s : State) : Res := .next (clocked (streamAgeExpire i) s)

/-- No frame was accepted for frer_reset_ms: the history is reset. -/
def frerResetExpire (i : Fin 4096) (s : State) : State :=
  let x := s.stream i
  if x.used then s.setStream i { x with taken := false, history := 0 } else s

def execFrerResetExpire (i : Fin 4096) (s : State) : Res := .next (clocked (frerResetExpire i) s)

/-! ### Egress (R36, R139 to R144) -/

def execEgressGrant (c : PortCode) (s : State) : Res :=
  if mediaCode c.toNat then .next (clocked (fun t => (egressGrant c t).startRemotes) s) else .fault (.operandOutsideSpec "EGRESS_GRANT")

/-- A transmission that ends whole and was a gPTP frame of the signal box gives it the stamp (R167, R170). -/
def txEnds (c : PortCode) (e : TxEnd) (s : State) : State :=
  let t := (s.egOf c.toNat).tx
  let f := t.bind (fun x => s.frame x.copy.frame)
  let s1 := ((egressTxComplete c e s).startRemotes).zdaDelayed
  match t, f with
  | some x, some g =>
    if e = .done ∧ isE c.toNat ∧ g.desc.ingress = 0x7C ∧ g.complete ∧ ¬ s.protecting c g.id then gptpSent c.toNat g x s1 else s1
  | _, _ => s1

end Sys2Proof.Machine
end

