-- ==== Sys2Proof/Machine/Retire.lean ====
section
/-! DEFINITION. The end of a pour in the pour queue (R285), what a pour's content names, its abort by a retirement (R286), and the
retirement of a port (R326, R338). -/

namespace Sys2Proof.Machine

/-! ### The end of a pour -/

/-- The result of a pour that ends without applying and concerns no staged item: no index and no tag (R285). -/
def noItem : Nat := 0xFFFF_FFFF + 0xFFF * 2 ^ 32

/-- A pour leaves the queue: its POUR completes; on OK its reply carries the new epoch and closes the mould at its release, on any
other status it unseals it. -/
def State.endPour (s : State) (x : Pour) (status : Byte) (result : Nat) : State :=
  let t : State := { s with cmd.pours := s.cmd.pours.filter (fun y => !(y.part == x.part && y.tag == x.tag)) }
  let ok := status == St.ok
  t.complete x.part
    { tag := x.tag, status := status, result := BitVec.ofNat 64 result, irq := x.irq
      epochOf := if ok then some (s.epoch.setWidth 32) else none, mould := if ok then 1 else 2 }

/-- The items of a pour's mould. -/
def State.pourItems (s : State) (x : Pour) : List Staged := ((s.mould x.part).map Mould.items).getD []

/-! ### What an item names (R338) -/

/-- Whether a view is that of a port. -/
def viewNames (v : View) (c : Nat) : Bool :=
  match v with
  | .port x => x == c
  | .fr f => c == 0x68 + 2 * f || c == 0x69 + 2 * f
  | _ => false

/-- Whether an item configures a port: a write of one of its registers, its timetable, a key slot or node entry of it, a
port-keyed route of it, a VLAN item that sets one of its bits. -/
def Item.namesPort (logger : Bool) (x : Item) (c : Nat) : Bool :=
  match x with
  | .reg k _ => ((regInfo logger (k % 2 ^ 26)).map (fun r => viewNames r.view c || viewNames r.stage c)).getD false
  | .gate n _ => n == c
  | .key _ _ img => imgLe img 4 1 == c
  | .node _ e => ndPort e == c
  | .route e => let k := BitVec.ofNat 128 e.toNat; !ownerKeyed k && imgLe k 1 1 == c
  | .vlan _ b => decide (c < 24) && (bit b c || bit b (24 + c))
  | _ => false

/-- The pours that wait ready for their boundary and name a port complete with EPOCH_ABORTED (R286). -/
def State.abortNaming (s : State) (c : Nat) : State :=
  (s.cmd.pours.filter (fun x => x.ready && (s.pourItems x).any (fun y => y.item.namesPort s.logger c))).foldl
    (fun a x => a.endPour x St.epochAborted noItem) s

/-! ### The retirement of a port -/

/-- The bit of a port in the ERR_RET registers. -/
def State.setRetired (s : State) (c : Nat) : State :=
  if isES c then s.setBt R.retEth c true
  else if isC c then (if c < 0x40 then s.setBt R.retCanLo (c - 0x20) true else s.setBt R.retCanHi (c - 0x40) true)
  else if isL c then s.setBt R.retBus (c - 0x50) true
  else if isF c then s.setBt R.retBus (24 + (c - 0x68) / 2) true
  else s.setBt R.retBus (26 + (c - 0x6C)) true

/-- The port codes that a retirement takes: both channels of a FlexRay controller, one code otherwise. -/
def retiredCodes (c : Nat) : List Nat := if isF c then [0x68 + (c - 0x68) / 2 * 2, 0x69 + (c - 0x68) / 2 * 2] else [c]

/-- A permanent fault retires a port: its copies are redirected or dropped, its status shows RETIRED. -/
def State.retirePort (s : State) (c : Nat) : State :=
  if s.retired c then s
  else
    let s1 := (retiredCodes c).foldl (fun a x => a.abortNaming x) s
    let s2 := s1.setRetired c
    let s3 := if isE c then s2.setFd (R.ethStatus c) 2 0 pRetired
      else if isS c then s2.setFd (R.t1sStatus (c - 0x10)) 2 0 pRetired else s2
    let s4 := (retiredCodes c).foldl (fun a x => (a.portGone x).abortRx x) s3
    let s5 := if isL c then s4.setLin (c - 0x50) {} else s4
    ((s5.report 0x0603 kPermanent 0xFF c c true).setFault (if isE c then 0 else 1)).startRemotes

end Sys2Proof.Machine
end

