-- ==== Sys2Proof/Machine/Links.lean ====
section
/-! DEFINITION. Links of the Ethernet and T1S ports (R47 to R50, R54, R55, R141), and MDIO (R52, R53). -/

namespace Sys2Proof.Machine

/-! ### Retrains (R48) -/

/-- A lane retrain is counted; the fourth within 1 s retires the port. -/
def State.countRetrain (s : State) (n : EPort) : State :=
  let s1 := s.countFault (.lane n)
  let k := s1.faults (.lane n)
  let s2 := (s1.setFd (R.ethStatus n) 9 8 (min k 3)).report 0x0602 kTransient 0xFF n.val k
  if 4 ≤ k then s2.retirePort n.val else s2

/-- Whether a lane still has signal, and its PHY its link where it is polled. -/
def State.laneGood (s : State) (n : EPort) : Bool :=
  s.bt (R.ethStatus n) 3 && (s.bt (R.ethStatus n) 6 || !s.phyPoll n)

/-- A lane retrain is counted for a port that has left UP, or TRAINING on timeout, with its lane good (R48). -/
def State.retrainIfGood (s : State) (n : EPort) : State := if s.laneGood n then s.countRetrain n else s

/-! ### States (R47) -/

/-- The state of an Ethernet port. -/
def State.ethState (s : State) (n : Nat) : Nat := s.fd (R.ethStatus n) 2 0

/-- A write of an Ethernet port's state. -/
def State.setEthState (s : State) (n v : Nat) : State := s.setFd (R.ethStatus n) 2 0 v

/-- Signal on a lane: a port in DOWN whose lane is tuned goes to TRAINING. -/
def ethSignalDetect (n : EPort) (s : State) : State :=
  if s.ethModeNo n = 0 ∨ s.retired n ∨ s.portsStopped then s
  else
    let s1 := s.setBt (R.ethStatus n) 3 true
    if s1.ethState n = pDown ∧ ¬ (s1.lane n).retune then s1.setEthState n pTraining else s1

def execEthSignalDetect (n : EPort) (s : State) : Res := .next (clocked (ethSignalDetect n) s)

/-- The verify exchange starts at each entry to UP; with verify_dis preemption is active at once (R141). -/
def State.startVerify (s : State) (n : EPort) : State :=
  if s.bt (R.gteCfg n) 16 then s.setBt (R.gteStatus n) 13 true
  else
    let s1 := s.setEg n { s.egOf n with mmTries := 1, mmReplied := false, addFrag := 0 }
    (s1.setBt (R.gteStatus n) 13 false).emit (.mm n)

/-- The conditions of UP hold for 1 ms; a rate change ends with UP. -/
def ethTrainingDone (n : EPort) (speedOk : Bool) (s : State) : State :=
  if s.ethState n ≠ pTraining ∨ s.retired n then s
  else if s.ethInband n ∧ ¬ speedOk then (s.setBt (R.ethStatus n) 7 true).countRetrain n
  else if s.phyPoll n ∧ ¬ s.bt (R.ethStatus n) 6 then s
  else
    let s1 := s.modRg (R.ethStatus n) (fun w =>
      setBit (setBit (setBit (setFld w 2 0 pUp) 4 true) 5 (s.ethFec n != 0)) 7 false)
    (s1.setLane n {}).startVerify n

def execEthTrainingDone (n : EPort) (speedOk : Bool) (s : State) : Res := .next (clocked (ethTrainingDone n speedOk) s)

/-- The training timer expires. -/
def ethTrainingTimeout (n : EPort) (s : State) : State :=
  if s.ethState n ≠ pTraining ∨ s.retired n then s
  else
    let s1 := s.modRg (R.ethStatus n) (fun w => setFld (setFld w 2 0 pDown) 23 16 4)
    s1.retrainIfGood n

def execEthTrainingTimeout (n : EPort) (s : State) : Res := .next (clocked (ethTrainingTimeout n) s)

/-- down_cause of a loss; for a lost FEC alignment R47 states none, and the value is free. -/
def downCause (c : LossCause) (s : State) : Nat × State :=
  match c with
  | .signal => (1, s)
  | .blockLock => (2, s)
  | .phyLink => (3, s)
  | .fecBurst => (6, s)
  | .fecAlign => let (k, t) := drawNat s; (k % 7, t)

/-- The status bits after a loss. DESIGN CHOICE (log entry 25): block_lock and fec_lock both read 0 after an FEC uncorrectable burst; the
spec does not say. -/
def lossBits (c : LossCause) (w : W32) : W32 :=
  match c with
  | .signal => setFld w 5 3 0
  | .phyLink => setBit w 6 false
  | .fecAlign => setBit w 5 false
  | _ => setBit (setBit w 4 false) 5 false

/-- Whether a loss is a lane fault (R48). -/
def laneFault : LossCause → Bool
  | .signal => false
  | .phyLink => false
  | _ => true

/-- A port leaves UP. -/
def State.leaveUp (s : State) (n : EPort) (down : Nat) : State :=
  let s1 := (s.modRg (R.ethStatus n) (fun w => setFld (setFld w 2 0 pDown) 23 16 down)).countWide (R.ethCnt n 11)
  let s2 := (((s1.linkLoss n).abortRx n).setBt (R.gteStatus n) 13 false).gptpPortDown n
  (s2.report 0x0601 kTransient 0xFF n.val down).startRemotes

/-- A loss that a port sees while it is not UP: signal lost in steps 3 to 5 of a rate change abandons the change (R50). -/
def State.lossSeen (s : State) (n : EPort) (c : LossCause) : State :=
  let s1 := s.modRg (R.ethStatus n) (lossBits c)
  if c = .signal ∧ (s.lane n).change then
    ((s1.setEthState n pDown).setLane n { s1.lane n with change := false }).report 0x0601 kTransient 0xFF n.val
      (s1.fd (R.ethStatus n) 23 16)
  else s1

/-- A port loses its link (R47, R49). The 8 codewords of an FEC burst are counted (R51). -/
def ethLinkLost (n : EPort) (c : LossCause) (s0 : State) : State :=
  let s := if c = .fecBurst ∧ s0.ethFec n ≠ 0 then s0.countWide (R.ethCnt n 10) 8 else s0
  if s.ethState n = pDisabled ∨ s.retired n then s0
  else if s.ethState n ≠ pUp then s.lossSeen n c
  else
    let (down, s1) := downCause c s
    let s2 := (s1.leaveUp n down).modRg (R.ethStatus n) (lossBits c)
    if laneFault c then s2.retrainIfGood n else s2

def execEthLinkLost (n : EPort) (cause : LossCause) (s : State) : Res := .next (clocked (ethLinkLost n cause) s)

/-- A lane is tuned to the new mode (02_ports.md, *Rate change*); signal lost meanwhile abandons the change (R50). -/
def laneRetuneDone (n : EPort) (lost : Bool) (s : State) : State :=
  if ¬ (s.lane n).retune ∨ s.ethState n = pUp then s
  else
    let s1 := s.setLane n { s.lane n with retune := false }
    if lost then s1.lossSeen n .signal
    else if s1.bt (R.ethStatus n) 3 ∧ s1.ethState n = pDown then s1.setEthState n pTraining
    else s1

def execLaneRetuneDone (n : EPort) (lost : Bool) (s : State) : Res := .next (clocked (laneRetuneDone n lost) s)

/-- verify_ms has passed since a verify frame: it is sent again, at most three times (R141). -/
def mmVerifyTimer (n : EPort) (s : State) : State :=
  let e := s.egOf n
  if ¬ s.portUp n ∨ s.bt (R.gteCfg n) 16 ∨ e.mmReplied ∨ e.mmTries = 0 ∨ 3 < e.mmTries then s
  else
    let s1 := s.setEg n { e with mmTries := e.mmTries + 1 }
    if e.mmTries < 3 then s1.emit (.mm n) else s1

def execMmVerifyTimer (n : EPort) (s : State) : Res := .next (clocked (mmVerifyTimer n) s)

/-! ### T1S (R54, R55) -/

/-- Whether an S port is a PLCA follower. -/
def State.t1sFollower (s : State) (n : Nat) : Bool := s.bt (R.t1sPlca n) 0 && s.fd (R.t1sPlca n) 20 16 != 0

/-- The state of an S port. -/
def State.t1sState (s : State) (n : Nat) : Nat := s.fd (R.t1sStatus n) 2 0

/-- 100 µs after a port was enabled. -/
def t1sUpTimer (n : Fin 8) (s : State) : State :=
  if s.t1sState n = pDown ∧ s.bt (R.t1sCfg n) 0 ∧ ¬ s.t1sFollower n ∧ ¬ s.portsStopped then s.setFd (R.t1sStatus n) 2 0 pUp else s

def execT1sUpTimer (n : Fin 8) (s : State) : Res := .next (clocked (t1sUpTimer n) s)

/-- A follower receives a BEACON. -/
def t1sBeaconReceived (n : Fin 8) (s : State) : State :=
  if s.t1sState n = pDown ∧ s.bt (R.t1sCfg n) 0 ∧ s.t1sFollower n ∧ ¬ s.portsStopped then s.setFd (R.t1sStatus n) 2 0 pUp else s

def execT1sBeaconReceived (n : Fin 8) (s : State) : Res := .next (clocked (t1sBeaconReceived n) s)

/-- A follower sees no BEACON for 4 cycles. -/
def t1sBeaconLoss (n : Fin 8) (s : State) : State :=
  if s.t1sState n = pUp ∧ s.t1sFollower n then
    let s1 := ((s.setFd (R.t1sStatus n) 2 0 pDown).count (R.t1sCnt n 4)).count (R.t1sCnt n 5)
    (s1.linkLoss (0x10 + n)).abortRx (0x10 + n)
  else s

def execT1sBeaconLoss (n : Fin 8) (s : State) : Res := .next (clocked (t1sBeaconLoss n) s)

/-! ### MDIO (R52, R53) -/

/-- The accesses of a bus, the one in progress first. -/
def State.mdioQ (s : State) (m : Nat) : List MdioReq := kvGet [] s.lnk.mdio m

/-- A write of a bus's accesses. -/
def State.setMdioQ (s : State) (m : Nat) (l : List MdioReq) : State := { s with lnk.mdio := kvSet [] s.lnk.mdio m l }

/-- An access starts on the bus, at the PHY address of its port (LNK_ETH_MODE.phy_addr). -/
def State.mdioShow (s : State) (m : Nat) (x : MdioReq) : State :=
  s.emit (.mdio m (BitVec.ofNat 5 (s.fd (R.ethMode x.port) 12 8)) x.dev x.reg (if x.read then none else some x.data))

/-- The order in which a bus serves pairs: TC10 accesses, then those of partitions, then link polls (R53, R313). -/
def MdioWho.rank : MdioWho → Nat
  | .tc10 => 0
  | .tc10Read => 0
  | .part _ => 1
  | .poll => 2

/-- An access joins the accesses that wait, behind those that are served before it; the access in progress is never split. -/
def mdioInsert (x : MdioReq) (l : List MdioReq) : List MdioReq :=
  let before := fun (y : MdioReq) => decide (y.who.rank ≤ x.who.rank)
  l.takeWhile before ++ [x] ++ l.dropWhile before

/-- An access joins its bus. -/
def State.mdioAdd (s : State) (m : Nat) (x : MdioReq) : State :=
  match s.mdioQ m with
  | [] => (s.setMdioQ m [x]).mdioShow m x
  | h :: r => s.setMdioQ m (h :: mdioInsert x r)

/-- A write of a partition's copy of LNK_MDIO_ACC by a master. DESIGN CHOICE (log entry 45): a write while busy = 1 replaces data and read
and starts nothing; the spec does not say what it does. -/
def State.mdioStart (s : State) (master p : Part) (m : Fin 4) (v : W32) : State :=
  let s1 := s.modRgp p (R.mdioAcc m) (fun w => setFld w 16 0 (fld v 16 0))
  let a := s.rgp p (R.mdioReg m)
  let port := 4 * m.val + fld a 22 21
  if ¬ bit v 31 ∨ bit (s.rgp p (R.mdioAcc m)) 31 then s1
  else if ¬ s.holds master .port port then s.violate master 1 (R.mdioAcc m)
  else
    let s2 := s1.modRgp p (R.mdioAcc m) (fun w => setBit (setBit w 31 true) 30 false)
    s2.mdioAdd m { who := .part p, port := port, dev := BitVec.ofNat 5 (fld a 20 16), reg := BitVec.ofNat 16 (fld a 15 0)
                   read := bit v 16, data := BitVec.ofNat 16 (fld v 15 0) }

def mdioAccessStart (p : Part) (m : Fin 4) (v : W32) (s : State) : State := s.mdioStart p p m v

def execMdioAccessStart (p : Part) (m : Fin 4) (v : W32) (s : State) : Res :=
  .next (onWrite p (R.mdioAcc m) (mdioAccessStart p m v) s)

/-- What a link poll read: bit 2 of PMA/PMD status 1 is phy_link (R52). -/
def State.pollRead (s : State) (n : EPort) (status : BitVec 16) : State :=
  if ¬ s.phyPoll n ∨ s.ethModeNo n = 0 ∨ s.retired n ∨ s.portsStopped then s
  else
    let up := bit status 2
    if ¬ up ∧ s.ethState n = pUp then ethLinkLost n .phyLink s
    else s.setBt (R.ethStatus n) 6 up

/-- `ms` milliseconds have passed since a PHY's last link poll: once poll_ms have, a poll joins its bus (R52, R53). -/
def mdioLinkPoll (n : EPort) (ms : Nat) (s : State) : State :=
  if ms < s.fd (R.mdioCfg (n.val / 4)) 23 16 ∨ ¬ s.phyPoll n ∨ s.ethModeNo n = 0 ∨ s.retired n ∨ s.portsStopped then s
  else s.mdioAdd (n.val / 4) { who := .poll, port := n.val, dev := 1, reg := 1, read := true, data := 0 }

def execMdioLinkPoll (n : EPort) (ms : Nat) (s : State) : Res := .next (clocked (mdioLinkPoll n ms) s)

/-! ### The end of a rate change's step 2 (02_ports.md, *Rate change*; R48) -/

/-- An Ethernet port that a rate change took out of UP forgets its receptions and its gPTP exchange, and the exit counts as R48 says. -/
def State.afterRetune (t s : State) (n : EPort) : State :=
  if s.portUp n ∧ (s.lane n).retune ∧ (t.ethState n = pDown ∨ t.ethState n = pDisabled) then
    ((t.abortRx n).gptpPortDown n).retrainIfGood n
  else t

/-- An event that may end the frame in progress of any port in step 2 of a rate change. -/
def onLanes (f : State → State) (s : State) : State :=
  (List.range 16).foldl (fun (a : State) n => a.afterRetune s (Fin.ofNat 16 n)) (f s)

def execFrameEnd (c : PortCode) (e : RxEnd) (s : State) : Res :=
  if isES c.toNat then .next (clocked (onLanes (frameEnd c.toNat e)) s) else .fault (.operandOutsideSpec "FRAME_END")

def execEgressTxComplete (c : PortCode) (e : TxEnd) (s : State) : Res :=
  if mediaCode c.toNat then .next (clocked (onLanes (txEnds c e)) s) else .fault (.operandOutsideSpec "EGRESS_TX_COMPLETE")

end Sys2Proof.Machine
end

