-- ==== Sys2Proof/Machine/Log.lean ====
section
/-! DEFINITION. The error log (12_faults.md, *The error log*), and the diagnostic commands NOP, ERR_READ and SELF_TEST. -/

namespace Sys2Proof.Machine

/-! ### ERROR_LOG_WRITE (R341, R342) -/

/-- An entry marked for PM sets SEC_PM_EVENT.err (R341). -/
def State.tellPm (s : State) (e : LogEntry) : State :=
  if bit e.sev 2 then { (s.setBt R.secPmEvent 4 true) with cmd.spiEvent := true } else s

/-- The newest entry of the log, if it holds one. -/
def State.newestEntry (s : State) : Option (Nat × LogEntry) :=
  s.err.log.find? (fun x => x.1 == (s.fd R.errWr 11 0 + 4095) % 4096)

/-- A report becomes a new entry, over the oldest one when the log is full. -/
def State.writeEntry (s : State) (r : LogEntry) : State :=
  let i := s.fd R.errWr 11 0
  let b := r.block.toNat
  let e := { r with seq := s.rg R.errSeq, sev := setBit r.sev 4 (kvGet false s.err.fifoGap b) }
  let s1 := if s.err.full then (s.count R.errLost).setBt R.errStatus 0 true else s
  let s2 : State := { s1 with
    err.log := kvInsert (kvErase s1.err.log i) i e
    err.fifoGap := kvSet false s1.err.fifoGap b false
    err.full := s1.err.full || i == 4095 }
  (s2.modRg R.errSeq (· + 1)).setFd R.errWr 11 0 (i + 1)

/-- ERR takes the oldest report of a block's FIFO: it merges into the newest entry or becomes a new one. -/
def errorLogWrite (block : Fin 14) (s : State) : State :=
  match kvGet [] s.err.fifos block.val with
  | [] => s
  | r :: rest =>
    let s1 : State := { s with err.fifos := kvSet [] s.err.fifos block.val rest }
    let s2 := match s1.newestEntry with
      | some (i, e) =>
        if e.same r ∧ e.repeat_.toNat + r.repeat_.toNat ≤ 0xFFFF then
          { s1 with err.log := kvInsert (kvErase s1.err.log i) i { e with repeat_ := e.repeat_ + r.repeat_, last := r.last } }
        else s1.writeEntry r
      | none => s1.writeEntry r
    s2.tellPm r

def execErrorLogWrite (block : Fin 14) (s : State) : Res := .next (clocked (errorLogWrite block) s)

/-! ### Reading the log (R343) -/

/-- The 32 bytes of an entry (R341). -/
def LogEntry.bytes (e : LogEntry) : List Byte :=
  imgBytes e.time ++ imgBytes e.seq ++ [e.block, e.sev] ++ imgBytes e.code ++ [e.part, e.unit] ++ imgBytes e.repeat_ ++
    imgBytes e.last ++ imgBytes e.detail

/-- An entry as a partition sees it: a host sees code, unit and detail only of its own entries and of those of no partition. -/
def LogEntry.masked (e : LogEntry) (p : Part) : LogEntry :=
  if p = pm ∨ e.part.toNat = p.val ∨ e.part = 0xFF then e else { e with code := 0, unit := 0, detail := 0 }

/-- The bytes of the entry at a ring index; an index that holds none yet gives zeros. -/
def State.entryBytes (s : State) (p : Part) (i : Nat) : List Byte :=
  match s.err.log.find? (fun x => x.1 == i) with
  | some x => (x.2.masked p).bytes
  | none => List.replicate 32 0

/-- ERR_READ. -/
def errReadBody (p : Part) (d : CmdDesc) (s : State) : Ans :=
  let first := d.le 0 2
  let n := d.le 2 2
  if 4096 ≤ first ∨ n < 1 ∨ 128 < n then fail s St.badParam
  else withOutput d s s 0 ((List.range n).flatMap (fun k => s.entryBytes p ((first + k) % 4096)))

/-- The form of ERR_READ. -/
def errReadForm : Form := { kind := .immediate, size := fun l => l == 4, output := true }

def execErrRead (p : Part) (d : CmdDesc) (s : State) : Res :=
  .next (runCommand errReadForm p d (errReadBody p d) s)

/-! ### NOP and SELF_TEST (R279) -/

/-- The form of NOP. -/
def nopForm : Form := { kind := .immediate, size := fun l => l == 0 }

def execNop (p : Part) (d : CmdDesc) (s : State) : Res :=
  .next (runCommand nopForm p d (fun t => { s := t }) s)

/-- CHK_MODE.multi is set, unless it was: channels 1 to 7 start at their reset values (R124). -/
def State.chkEnter (s : State) : State :=
  let other := fun (k : Nat) => decide (k < 0x90_0040 ∨ 0x90_0200 ≤ k)
  if s.bt R.chkMode 0 then s
  else
    ({ s with reg.regs := s.reg.regs.filter (fun x => other x.1), reg.wide := s.reg.wide.filter (fun x => other x.1) } : State).setBt
      R.chkMode 0 true

/-- CHK_MODE.multi is cleared at the end of a diagnostic or test command, unless a boot or a recovery keeps it (R124). -/
def State.chkLeave (s : State) (was : Bool) : State := s.setBt R.chkMode 0 was

/-- The LPDDR5X channels of the variant (R1, R2). -/
def State.channelCount (s : State) : Nat := if s.logger then 4 else 2

/-- The Unit byte of SELF_TEST that names the LPDDR5X channels, its index the channel. DESIGN CHOICE (log entry 1): the spec gives no unit
codes. -/
def unitChannel : Nat := 2

/-- SELF_TEST: a channel that does not exist is BAD_PARAM (R2); whether any other unit passes, and its fail code, is a free value. CHK runs
in multi mode while the test runs. -/
def selfTestBody (d : CmdDesc) (s : State) : Ans :=
  if d.b 0 = unitChannel ∧ s.channelCount ≤ d.b 1 then fail s St.badParam
  else
    let (k, t) := drawNat s
    { s := t.chkEnter.chkLeave (s.bt R.chkMode 0), result := k % 2 ^ 64 }

/-- The form of SELF_TEST. -/
def selfTestForm : Form := { kind := .immediate, size := fun l => l == 2, pmOnly := true }

def execSelfTest (p : Part) (d : CmdDesc) (s : State) : Res :=
  .next (runCommand selfTestForm p d (selfTestBody d) s)

end Sys2Proof.Machine
end

