-- ==== Sys2Proof/Machine/Nodes.lean ====
section
/-! DEFINITION. The node family (R88, R234 to R237) and the commands on partitions and their grants (R289 to R294) but PART_THAW. -/

namespace Sys2Proof.Machine

/-! ### Node registry commands -/

/-- The form of NODE_WRITE. -/
def nodeWriteForm (d : CmdDesc) : Form :=
  { kind := .staging, size := fun l => l == 40, clean := decide (d.b 0 < 4 ∧ d.le 1 7 = 0) && nodeClean (d.params.drop 8) }

/-- NODE_WRITE stages a node entry; the issuer must hold the node's port. -/
def nodeWriteBody (p : Part) (d : CmdDesc) : State → Ans :=
  onTarget p d .port (d.b 8) (stagePort (d.b 8) p d.ctag (.node (BitVec.ofNat 8 (d.b 0)) (d.image 256 8)))

def execNodeWrite (p : Part) (d : CmdDesc) (s : State) : Res :=
  .next (runCommand (nodeWriteForm d) p d (nodeWriteBody p d) s)

/-- The node key of a command. -/
def cmdNkey (d : CmdDesc) : BitVec 64 := d.image 64 0

/-- NODE_ERASE stages the erasure of a node. -/
def nodeEraseBody (p : Part) (d : CmdDesc) : State → Ans :=
  onTarget p d .port (d.b 0) (fun s =>
    stageItem s p d.ctag (.nodeErase (cmdNkey d) (stagedAdd s p (Item.nodeErase (cmdNkey d) false).slot)))

/-- The form of NODE_ERASE. -/
def nodeEraseForm : Form := { kind := .staging, size := fun l => l == 8 }

def execNodeErase (p : Part) (d : CmdDesc) (s : State) : Res := .next (runCommand nodeEraseForm p d (nodeEraseBody p d) s)

/-- An entry with the remaining time of its hold (R234): a hold in force never shows 0 while it runs. -/
def State.holdShown (s : State) (i : Nat) (e : Node) : Node :=
  let ms := imgLe e 24 2
  if ndHeld e ∧ ms ≠ 0 then setImg e 24 2 (max 1 (ms - (s.upNs - kvGet 0 s.live.holdAt i) / 1000000)) else e

/-- An entry with the hardware-owned fields of another, but those that a reset flag writes (R236). -/
def keepLive (flags : Byte) (e old : Node) : Node :=
  let e1 := setImg (setImg e 26 1 (imgLe old 26 1)) 28 4 (imgLe old 28 4)
  let e2 := if bit flags 0 then e1 else setImg e1 8 6 (ndFresh old)
  if bit flags 1 then e2 else setImg (setImg e2 23 1 (imgLe old 23 1)) 24 2 (imgLe old 24 2)

/-- NODE_READ returns an entry and its index. The index of a node that is only staged is a free value. -/
def nodeReadBody (p : Part) (d : CmdDesc) : State → Ans :=
  onTarget p d .port (d.b 0) (fun s =>
    let live := (s.node (cmdNkey d)).map (fun x => (x.1, s.holdShown x.1 x.2))
    match findSlot (stagedView s p d) (Item.nodeErase (cmdNkey d) false).slot, live with
    | some (.node fl e), some (i, old) => withOutput d s s i (imgBytes (keepLive fl e old))
    | some (.node _ e), none => withOutput d s (drawNat s).2 ((drawNat s).1 % 262144) (imgBytes e)
    | some _, _ => fail s St.notFound
    | none, some (i, e) => withOutput d s s i (imgBytes e)
    | none, none => fail s St.notFound)

def execNodeRead (p : Part) (d : CmdDesc) (s : State) : Res :=
  .next (runCommand (readForm 8 true) p d (nodeReadBody p d) s)

/-- A node's hold ends; a mask bit that the hold caused clears with it (R321). -/
def State.releaseNode (s : State) (i : Nat) : State :=
  match s.nodeAt i with
  | none => s
  | some e =>
    let t := s.setNode i (setImg (setImg e 23 1 0) 24 2 0)
    (List.range 16).foldl (fun a n =>
      if kvGet 0 a.slp.abuseNode n = i + 1 then
        { a.setBt R.wakMask n false with slp.abuseNode := kvSet 0 a.slp.abuseNode n 0 }
      else a) t

/-- NODE_RELEASE ends a hold at once. -/
def nodeReleaseBody (p : Part) (d : CmdDesc) : State → Ans :=
  onTarget p d .port (d.b 0) (fun s =>
    if s.retired (d.b 0) then fail s St.resourceGone
    else match s.node (cmdNkey d) with
      | none => fail s St.notFound
      | some (i, e) => if ndHeld e then { s := s.releaseNode i } else fail s St.okAlready)

/-- The form of NODE_RELEASE. -/
def nodeReleaseForm : Form := { kind := .immediate, size := fun l => l == 8 }

def execNodeRelease (p : Part) (d : CmdDesc) (s : State) : Res :=
  .next (runCommand nodeReleaseForm p d (nodeReleaseBody p d) s)

/-- NODE_HOLD holds a node under cause 4. -/
def nodeHoldBody (p : Part) (d : CmdDesc) : State → Ans :=
  onTarget p d .port (d.b 0) (fun s =>
    if s.retired (d.b 0) then fail s St.resourceGone
    else match s.node (cmdNkey d) with
      | none => fail s St.notFound
      | some (i, _) => { s := s.holdNode i 4 (d.le 8 2) })

/-- The form of NODE_HOLD. -/
def nodeHoldForm : Form := { kind := .immediate, size := fun l => l == 10 }

def execNodeHold (p : Part) (d : CmdDesc) (s : State) : Res :=
  .next (runCommand nodeHoldForm p d (nodeHoldBody p d) s)

/-- A timed hold expires. -/
def nodeHoldExpire (i : Fin 262144) (s : State) : State :=
  match s.nodeAt i.val with
  | none => s
  | some e => if ndHeld e ∧ imgLe e 24 2 ≠ 0 then s.releaseNode i.val else s

def execNodeHoldExpire (i : Fin 262144) (s : State) : Res := .next (clocked (nodeHoldExpire i) s)

/-! ### Grants -/

/-- PART_GRANT stages a grant record in PM's mould. -/
def partGrantBody (p : Part) (d : CmdDesc) (s : State) : Ans :=
  stageItem s p d.ctag (.grant (d.b 0) (d.image 1728 0))

/-- The form of PART_GRANT. -/
def grantForm (d : CmdDesc) : Form :=
  { kind := .staging, pmOnly := true, size := fun l => l == 216, clean := grantClean d.params }

def execPartGrant (p : Part) (d : CmdDesc) (s : State) : Res := .next (runCommand (grantForm d) p d (partGrantBody p d) s)

/-- The owner byte of a route result (R81). -/
def resOwner {n : Nat} (e : BitVec n) (o : Nat) : Nat := imgLe e o 1

/-- The exact routes, node entries and pinned records that a partition uses in a set of tables. -/
def routesUsed (m : List (Nat × Option (BitVec 256))) (p : Nat) : Nat :=
  (m.filter (fun x => (x.2.map (fun e => resOwner e 28 == p)).getD false)).length
def nodesUsed (hold : Nat → Nat) (m : List (Nat × Option Node)) (p : Nat) : Nat :=
  (m.filter (fun x => (x.2.map (fun e => hold (ndPort e) == p)).getD false)).length
def pinsUsed (m : List (Nat × Stream)) (p : Nat) : Nat := (m.filter (fun x => x.2.pinned && x.2.owner.val == p)).length

/-- PART_READ's usage block. -/
def State.usage (s : State) (p : Part) : List Byte :=
  leBytes 4 (routesUsed s.tab.routes p.val) ++ leBytes 4 (nodesUsed (fun c => (s.portHolder c).val) s.tab.nodes p.val) ++
    leBytes 2 (pinsUsed s.live.streams p.val) ++ [0, 0] ++ leBytes 4 (s.mouldItems p)

/-- The grant record that PART_READ sees; its partition field names the partition. -/
def seenGrant (s : State) (p : Part) (d : CmdDesc) (x : Part) : Grant :=
  match findSlot (stagedView s p d) (12, x.val) with
  | some (.grant _ r) => r
  | _ => setImg (s.grant x) 0 1 x.val

/-- PART_READ: a host may name only itself. -/
def partReadBody (p : Part) (d : CmdDesc) (s : State) : Ans :=
  if p ≠ pm ∧ d.b 0 ≠ p.val then fail s St.noRight
  else if 3 < d.b 0 then fail s St.badParam
  else
    let x : Part := Fin.ofNat 5 (d.b 0)
    withOutput d s s 0 (imgBytes (seenGrant s p d x) ++ s.usage x)

def execPartRead (p : Part) (d : CmdDesc) (s : State) : Res :=
  .next (runCommand (readForm 1 true) p d (partReadBody p d) s)

/-- PART_FREEZE freezes a host partition under cause 5. -/
def partFreezeBody (d : CmdDesc) (s : State) : Ans :=
  if 3 < d.b 0 then fail s St.badParam else { s := s.violate (Fin.ofNat 5 (d.b 0)) 5 0 }

/-- The form of PART_FREEZE. -/
def partFreezeForm : Form := { kind := .immediate, pmOnly := true, size := fun l => l == 1 }

def execPartFreeze (p : Part) (d : CmdDesc) (s : State) : Res :=
  .next (runCommand partFreezeForm p d (partFreezeBody d) s)

end Sys2Proof.Machine
end

