-- ==== Sys2Proof/Machine/Apply.lean ====
section
/-! DEFINITION. What the items of a mould make of the configured tables and registers: the shadow tables that a pour builds (R78,
R85, R221, R222, R235, R236, R279 to R285), and the entries that a revoked grant purges (R292). -/

namespace Sys2Proof.Machine

/-! ### Placement (R78, R235) -/

/-- Puts an entry into one of its positions: a free one, if there is one; else it takes the position of a resident, which moves on,
with up to `fuel` moves. Which position is taken is a free choice each time. `none` when the moves do not place it. -/
def placeEntry {n : Nat} (pos : BitVec n → List Nat) :
    Nat → List (Nat × Option (BitVec n)) → BitVec n → Nat → Option (List (Nat × Option (BitVec n)) × Nat)
  | fuel, m, e, seed =>
    let open_ := (pos e).filter (fun i => (kvGet none m i).isNone)
    match open_, fuel with
    | a :: r, _ => some (kvSet none m ((a :: r).getD (Config.freeNat seed % (r.length + 1)) a) (some e), seed + 1)
    | [], 0 => none
    | [], k + 1 =>
      let i := (pos e).getD (Config.freeNat seed % 4) 0
      match kvGet none m i with
      | some v => placeEntry pos k (kvSet none m i (some e)) v (seed + 1)
      | none => none

/-- The most moves for one key (R78). -/
def maxMoves : Nat := 512

/-! ### The shadow tables -/

/-- What building the shadow tables gives: the state with the items in force, the index of the next free value, the slots of the items
that found no place, and of those that found no entry to delete, the stream records that its pins took, in their order, and those that were
set aside for pins to come. -/
structure Built where
  s      : State
  seed   : Nat
  full   : List (Nat × Nat) := []
  absent : List (Nat × Nat) := []
  pins   : List Nat := []
  kept   : List Nat := []

/-- A register takes the RWP bits of a poured value. Bits 28 and 29 of LNK_LIN_CKS_HI stay 1 (R61), and line sync forces idx_en. -/
def State.mergeReg (s : State) (k : Nat) (v : W32) : State :=
  let off := k % 2 ^ 26
  let m := ((regInfo s.logger off).map RegInfo.rwp).getD 0
  let w := (s.key k &&& ~~~m) ||| (v &&& m)
  let w1 := if 0x60_C000 ≤ off ∧ off < 0x60_CC00 ∧ off % 0x80 = 0x0C then w ||| 0x3000_0000 else w
  let w2 := if 0x30_0000 ≤ off ∧ off < 0x30_1000 ∧ off % 0x100 = 0 ∧ fld w1 2 1 = 2 then setBit w1 5 true else w1
  s.setKey k w2

/-- A route takes force: in the place of its key, or in a place of its own. -/
def Built.route (b : Built) (x : Item) (e : BitVec 256) : Built :=
  match routeIn b.s.tab.routes (routeKey e) with
  | some (i, _) => { b with s := { b.s with tab.routes := kvSet none b.s.tab.routes i (some e) } }
  | none =>
    match placeEntry (fun r => routePositions (routeKey r)) maxMoves b.s.tab.routes e b.seed with
    | some (m, sd) => { b with s := { b.s with tab.routes := m }, seed := sd }
    | none => { b with full := x.slot :: b.full }

/-- Both copies of the node table. -/
def State.setNodes (s : State) (m : List (Nat × Option Node)) : State := { s with tab.nodes := m, live.nodeCopy := m }

/-- What the indexes of the nodes of `old` become in a table: state that goes with a node follows its cuckoo moves. -/
def movedTo (old m : List (Nat × Option Node)) (i : Nat) : Nat :=
  match kvGet none old i with
  | some e => ((nodeIn m (ndKey e)).map (·.1)).getD i
  | none => i

/-- State kept beside the node table follows moves of its entries. -/
def State.followMoves (s : State) (old : List (Nat × Option Node)) : State :=
  let f := movedTo old s.tab.nodes
  let g := fun (l : List (Nat × Nat)) => l.map (fun x => (x.1, f (x.2 - 1) + 1))
  { s with
    live.holdAt := s.live.holdAt.foldl (fun a x => kvSet 0 a (f x.1) x.2) []
    slp.lastNode := g s.slp.lastNode
    slp.abuseNode := g s.slp.abuseNode
    fwd.frames := s.fwd.frames.map (fun (fr : Frame) =>
      match fr.desc.nodeIndex with
      | some i => { fr with desc := { fr.desc with node := setFld fr.desc.node 17 0 (f i) } }
      | none => fr) }

/-- A node takes force: an existing entry keeps its live fields but those that a flag resets (R236). -/
def Built.node (b : Built) (x : Item) (flags : Byte) (e : Node) : Built :=
  match nodeIn b.s.tab.nodes (ndKey e) with
  | some (i, old) =>
    let t := b.s.setNodes (kvSet none b.s.tab.nodes i (some (keepLive flags e old)))
    { b with s := if bit flags 1 then { t with live.holdAt := kvSet 0 t.live.holdAt i t.upNs } else t }
  | none =>
    match placeEntry (fun r => nodePositions (ndKey r)) maxMoves b.s.tab.nodes (keepLive flags e 0) b.seed with
    | some (m, sd) => { b with s := (b.s.setNodes m).followMoves b.s.tab.nodes, seed := sd }
    | none => { b with full := x.slot :: b.full }

/-- A record of an identity and owner, and its index. -/
def State.recordOf (s : State) (identity : BitVec 128) (owner : Part) (pinned : Bool) : Option (Nat × Stream) :=
  s.live.streams.find? (fun r => r.2.used && r.2.identity == identity && r.2.owner == owner && (r.2.pinned || !pinned))

/-- The VID in the identity of an Ethernet record. -/
def identityVid (identity : BitVec 128) : BitVec 12 :=
  if (imgByte identity 0).toNat < 3 then BitVec.ofNat 12 (imgLe identity 2 2) else 0

/-- A record of an identity that no frame has matched is pinned at an index. -/
def Built.pinAt (b : Built) (i : Nat) (owner : Part) (identity : BitVec 128) (prof : Byte) : Built :=
  let r : Stream := { identity := identity, owner := owner, vid := identityVid identity, used := true, prof := prof
                      pinned := true, lastHit := b.s.upNs }
  { b with s := b.s.setStream i (freshRecord (b.s.pprofAt prof.toNat) b.s.upNs r), pins := b.pins ++ [i], kept := b.kept.tail }

/-- A record is pinned: the one of its identity, the one set aside for it at step 4, or a free one, which is a free choice (R85, R285). -/
def Built.pin (b : Built) (x : Item) (owner : Part) (identity : BitVec 128) (prof : Byte) : Built :=
  match b.s.recordOf identity owner false with
  | some (i, r) =>
    { b with s := b.s.setStream i { r with pinned := true, prof := prof }, pins := b.pins ++ [i], kept := b.kept.tail }
  | none =>
    match b.kept.head?, b.s.freeRecords with
    | some i, _ => b.pinAt i owner identity prof
    | none, [] => { b with full := x.slot :: b.full }
    | none, a :: l =>
      { b with seed := b.seed + 1 }.pinAt ((a :: l).getD (Config.freeNat b.seed % (l.length + 1)) a) owner identity prof

/-- A slot's old key material waits to be overwritten with zeros (R221). -/
def State.dropMaterial (s : State) (i : Nat) : State :=
  let m := ksMaterial (s.keySlot i)
  if m = 0 then s else { s with live.keyOld := kvInsert (kvErase s.live.keyOld i) i m }

/-- A key slot takes an image; what told its failures and notices starts again. An SA that it activates ends its port's exhaustion (R228). -/
def State.putKey (s : State) (i : Nat) (k : KeySlot) : State :=
  let t : State := { s with
    tab.keys := kvSet 0 s.tab.keys i k
    live.keyFailed := kvErase s.live.keyFailed i
    live.keyWarned := kvErase s.live.keyWarned i }
  if ksType k = 2 ∧ ksActive k then { t with live.exhausted := kvErase t.live.exhausted (ksPort k) } else t

/-- KEY_WRITE takes force: with its new material or the material in force, and the SA state from init_pn (R221, R222). Under the same
key, a transmit SA that has passed init_pn between step 4 and the boundary goes on, so that no packet number is used again (DEDUCED, log
entry 37). -/
def State.writeKey (s : State) (i : Nat) (fresh : Bool) (k : KeySlot) : State :=
  if fresh then ((s.dropMaterial i).putKey i k).setSa i (BitVec.ofNat 64 (ksInitPn k))
  else
    let next := if ksType k = 2 ∧ ksType (s.keySlot i) = 2 ∧ (s.sa i = 0 ∨ ksInitPn k < (s.sa i).toNat) then s.sa i else BitVec.ofNat 64 (ksInitPn k)
    (s.putKey i (ksWithMaterial k (ksMaterial (s.keySlot i)))).setSa i next

/-- KEY_ERASE takes force. -/
def State.eraseKey (s : State) (i : Nat) : State := ((s.dropMaterial i).putKey i 0).setSa i 0

/-- The key pairs that PK_KEYGEN made for a partition come into force at its pour, in slots that still have type 0x06 (R239). -/
def State.takeKeygen (s : State) (p : Part) : State :=
  let mine := s.live.keyStaged.filter (fun x => x.2.1 == p)
  let t := mine.foldl (fun (a : State) x =>
    if ksType (a.keySlot x.1) = 6 then (a.dropMaterial x.1).putKey x.1 (ksWithMaterial (a.keySlot x.1) x.2.2) else a) s
  { t with live.keyStaged := t.live.keyStaged.filter (fun x => x.2.1 != p) }

/-- A timetable is written: pending, or in force at once with en = 0 (R152). -/
def State.writeGate (s : State) (n : Nat) (t : Timetable) : State :=
  if ttbEn t then { s with live.gatePend := kvSet {} s.live.gatePend n t }
  else { s with tab.gates := kvSet {} s.tab.gates n t, live.gatePend := kvErase s.live.gatePend n }

/-- One item comes into force. `g` holds the grants by which its partition's VLAN bits are known. -/
def applyItem (g : State) (b : Built) (y : Staged) : Built :=
  let s := b.s
  match y.item with
  | .reg k v => { b with s := s.mergeReg k v }
  | .route e => b.route y.item e
  | .routeDel k added =>
    match routeIn s.tab.routes k with
    | some (i, _) => { b with s := { s with tab.routes := kvErase s.tab.routes i } }
    | none => if added then b else { b with absent := y.item.slot :: b.absent }
  | .tcam i e => { b with s := { s with tab.tcam := kvSet 0 s.tab.tcam i e } }
  | .dset i m => { b with s := { s with tab.dsets := kvSet 0 s.tab.dsets i m } }
  | .vlan v m => { b with s := { s with tab.vlans := kvSet 0 s.tab.vlans v (mergeVlan (s.vlanAt v) m (g.heldVlanBits y.by_)) } }
  | .pprof i e => { b with s := { s with tab.pprofs := kvSet 0 s.tab.pprofs i e } }
  | .tprof i e => { b with s := { s with tab.tprofs := kvSet 0 s.tab.tprofs i e, fwd.avtpTx := kvSet 0 s.fwd.avtpTx i 0 } }
  | .eprof i e =>
    { b with s := { s with tab.eprofs := kvSet 0 s.tab.eprofs i (setImg e 6 3 0), fwd.e2eDrops := kvSet 0 s.fwd.e2eDrops i 0 } }
  | .pin k prof => b.pin y.item y.by_ k prof
  | .unpin k added =>
    match s.recordOf k y.by_ true with
    | some (i, _) => { b with s := s.setStream i {} }
    | none => if added then b else { b with absent := y.item.slot :: b.absent }
  | .gate n t => { b with s := s.writeGate n t }
  | .key i fresh k => { b with s := s.writeKey i fresh k }
  | .keyErase i => { b with s := s.eraseKey i }
  | .node fl e => b.node y.item fl e
  | .nodeErase k added =>
    match nodeIn s.tab.nodes k with
    | some (i, _) => { b with s := s.setNodes (kvErase s.tab.nodes i) }
    | none => if added then b else { b with absent := y.item.slot :: b.absent }
  | .grant p r => { b with s := { s with tab.grants := kvSet 0 s.tab.grants p r } }
  | .window k e => { b with s := { s with tab.windows := kvSet 0 s.tab.windows k e } }

/-- The shadow tables of a list of items, built in staging order (R281), with the stream records set aside for its pins. -/
def buildTables (g s : State) (seed : Nat) (items : List Staged) (kept : List Nat := []) : Built :=
  items.foldl (applyItem g) { s := s, seed := seed, kept := kept }

/-! ### Entries that name a resource (R292) -/

/-- Whether a route result uses a resource. -/
def resNames (res : BitVec 128) (k : Kind) (i : Nat) : Bool :=
  let r : Found := { index := 0, tcam := false, res := res }
  match k with
  | .dset => (r.act 0 || r.act 1 || r.act 2) && r.dset == i
  | .capq => r.act 3 && r.capq == i
  | .pprof => r.sid != 0 && r.prof == i
  | .tprof => (r.act 1 || r.act 2) && r.tprof == i
  | .eprof => r.eprof != 0 && r.eprof == i
  | _ => false

/-- Whether a route of a partition names a resource: a port by its key, the others by its result. -/
def routeNames (p : Part) (k : Kind) (i : Nat) (e : BitVec 256) : Bool :=
  decide ((routeRes e).toNat / 2 ^ 96 % 8 = p.val) &&
    (resNames (routeRes e) k i || (k == .port && !ownerKeyed (routeKey e) && (imgByte (routeKey e) 1).toNat == i))

/-- Whether a TCAM entry of a partition names a resource: its own index, or one that its result uses. -/
def tcamNames (p : Part) (k : Kind) (i j : Nat) (e : BitVec 384) : Bool :=
  bit (tcamRes e) 7 && decide (imgLe (tcamRes e) 12 1 % 8 = p.val) && (resNames (tcamRes e) k i || (k == .tcam && i == j))

/-- Whether a node entry names a port of its own or a key slot. -/
def nodeNames (k : Kind) (i : Nat) (e : Node) : Bool :=
  match k with
  | .port => ndPort e == i
  | .key => ndMode e != 0 && ndSlot e == some i
  | _ => false

/-- Whether a key slot is, or refers to, a slot, or stands for a port. -/
def keyNames (k : Kind) (i j : Nat) (e : KeySlot) : Bool :=
  ksType e != 0 &&
    match k with
    | .port => ksPort e == i
    | .key => i == j || (ksType e == 3 && ksAlt e == some i)
    | _ => false

/-- Whether a timetable names its port or its turntable. -/
def gateNames (k : Kind) (i n : Nat) (t : Timetable) : Bool :=
  ttbEn t &&
    match k with
    | .port => n == i
    | .tt => ttbSrc t == 3 && ttbTt t == i
    | _ => false

/-- What revoked resource is looked for: the partition that loses it, its old and its new grant. -/
structure Revoke where
  p : Part
  old : Grant
  new : Grant
  k : Kind
  i : Nat

/-- Whether an index lies in what the partition held of a kind. -/
def Revoke.mine (r : Revoke) (k : Kind) (i : Nat) : Bool := r.old.holds k i

/-- Whether a pinned record of the partition names a policy profile or its key's port. -/
def pinNames (p : Part) (k : Kind) (i : Nat) (x : Stream) : Bool :=
  x.pinned && x.owner == p &&
    match k with
    | .pprof => x.prof.toNat == i
    | .port => !ownerKeyed x.identity && (imgByte x.identity 1).toNat == i
    | _ => false

/-- Whether a table at the revoked index, or a set or profile that names the revoked port, holds something. -/
def Revoke.setNames (r : Revoke) (j : Nat) (m : BitVec 128) : Bool :=
  (r.k == .dset && r.i == j) || (r.k == .port && r.mine .dset j && bit m r.i && !r.new.tx r.i)
def Revoke.tprofNames (r : Revoke) (j : Nat) (e : BitVec 512) : Bool :=
  (r.k == .tprof && r.i == j) ||
    (r.k == .port && imgLe e 27 1 % 8 == r.p.val && (List.range 32).any (fun b => imgLe e (32 + b) 1 == r.i))
def Revoke.winNames (r : Revoke) (w : Nat) (e : BitVec 128) : Bool :=
  r.k == .port && w / 32 == r.p.val && bit e 19 && imgLe e 0 1 == r.i

/-- Whether a value of FWD_DEFAULT or of FWD_ADM_DEFER names the resource. -/
def Revoke.defaultNames (r : Revoke) (d : W32) : Bool :=
  (r.k == .capq && fld d 1 0 == 1 && fld d 7 2 == r.i) || (r.k == .dset && fld d 1 0 == 2 && fld d 19 8 == r.i)
def Revoke.deferNames (r : Revoke) (f : W32) : Bool := r.k == .capq && bit f 6 && fld f 5 0 == r.i

/-- Whether the partition's own registers name the resource. -/
def State.regNames (s : State) (r : Revoke) : Bool :=
  r.defaultNames (s.rgp r.p R.fwdDefault) || r.deferNames (s.rgp r.p R.admDefer)

/-- Whether the partition's port is one of the node's or key's: a node entry belongs to the partition that held its port. -/
def Revoke.nodeOf (r : Revoke) (e : Node) : Bool := r.mine .port (ndPort e) && nodeNames r.k r.i e

/-- Whether an entry of the partition names the revoked resource (R292). -/
def State.names (s : State) (r : Revoke) : Bool :=
  s.tab.routes.any (fun x => (x.2.map (routeNames r.p r.k r.i)).getD false) ||
  s.tab.tcam.any (fun x => tcamNames r.p r.k r.i x.1 x.2) ||
  s.tab.dsets.any (fun x => r.setNames x.1 x.2) ||
  s.tab.pprofs.any (fun x => r.k == .pprof && x.1 == r.i) ||
  s.tab.tprofs.any (fun x => r.tprofNames x.1 x.2) ||
  s.tab.eprofs.any (fun x => r.k == .eprof && x.1 == r.i) ||
  s.tab.keys.any (fun x => r.mine .key x.1 && keyNames r.k r.i x.1 x.2) ||
  s.tab.nodes.any (fun x => (x.2.map r.nodeOf).getD false) ||
  (s.tab.gates ++ s.live.gatePend).any (fun x => r.mine .port x.1 && gateNames r.k r.i x.1 x.2) ||
  s.tab.windows.any (fun x => r.winNames x.1 x.2) ||
  s.live.streams.any (fun x => pinNames r.p r.k r.i x.2) ||
  s.regNames r

/-- A timetable with en = 0. -/
def Timetable.off (t : Timetable) : Timetable := { t with header := setBit t.header 0 false }

/-- The same pour erases every entry that names the revoked resource, and resets what the partition's own registers name (R292). -/
def State.purge (s : State) (r : Revoke) : State :=
  let s1 : State := { s with
    tab.routes := s.tab.routes.filter (fun x => !(x.2.map (routeNames r.p r.k r.i)).getD false)
    tab.tcam := s.tab.tcam.filter (fun x => !tcamNames r.p r.k r.i x.1 x.2)
    tab.dsets := s.tab.dsets.filter (fun x => !r.setNames x.1 x.2)
    tab.pprofs := s.tab.pprofs.filter (fun x => !(r.k == .pprof && x.1 == r.i))
    tab.tprofs := s.tab.tprofs.filter (fun x => !r.tprofNames x.1 x.2)
    tab.eprofs := s.tab.eprofs.filter (fun x => !(r.k == .eprof && x.1 == r.i))
    tab.windows := s.tab.windows.filter (fun x => !r.winNames x.1 x.2)
    live.streams := s.live.streams.filter (fun x => !pinNames r.p r.k r.i x.2)
    live.streamCopy := s.live.streamCopy.filter (fun x => !pinNames r.p r.k r.i x.2) }
  let s2 := s1.setNodes (s1.tab.nodes.filter (fun x => !(x.2.map r.nodeOf).getD false))
  let s3 := ((s2.tab.keys.filter (fun x => r.mine .key x.1 && keyNames r.k r.i x.1 x.2)).map (·.1)).foldl
    (fun (a : State) i => a.eraseKey i) s2
  let gone := ((s3.tab.gates ++ s3.live.gatePend).filter (fun x => r.mine .port x.1 && gateNames r.k r.i x.1 x.2)).map (·.1)
  let s4 := gone.foldl (fun (a : State) n => a.writeGate n (a.gateOf n).off) s3
  let s5 := if r.k == .capq then s4.setBt (R.capCfg r.i) 0 false else s4
  let s6 := if r.defaultNames (s5.rgp r.p R.fwdDefault) then s5.modRgp r.p R.fwdDefault (fun d => setFld d 1 0 0) else s5
  if r.deferNames (s6.rgp r.p R.admDefer) then s6.modRgp r.p R.admDefer (fun f => setBit f 6 false) else s6

/-- The resources that a partition loses between two grants. -/
def revoked (p : Part) (old new : Grant) : List Revoke :=
  if old = new then []
  else allKinds.flatMap (fun k =>
    ((List.range k.size).filter (fun i => old.holds k i && !new.holds k i)).map (fun i => { p := p, old := old, new := new, k := k, i := i }))

/-- The resources that the grants of a new epoch revoke. -/
def State.revokes (s t : State) : List Revoke := hostParts.flatMap (fun p => revoked p (s.grant p) (t.grant p))

/-- The purges of a new epoch's grants, before the checks of R290 and R292. -/
def State.purged (s t : State) : State :=
  (s.revokes t).foldl (fun (a : State) r => if r.new.purge then a.purge r else a) t

end Sys2Proof.Machine
end

