-- ==== Sys2Proof/Machine/Tunnel.lean ====
section
/-! DEFINITION. The tunnelling engine: wrapping, aggregation, unwrapping (R103 to R115, R120, R121), and the bursts of the crypto
slices (R135). Field places of the IEEE 1722 headers are those of the standard (PRESUMED). -/

namespace Sys2Proof.Machine

/-! ### Profiles (R104) -/

/-- A tunnel profile of R104. -/
abbrev Tprof := BitVec 512

def tpVid (t : Tprof) : Nat := imgLe t 12 2 % 4096
def tpPcp (t : Tprof) : Nat := fld t 110 108
def tpTagged (t : Tprof) : Bool := bit t 111
def tpTscf (t : Tprof) : Bool := bit t 112
def tpBrief (t : Tprof) : Bool := bit t 113
def tpMtv (t : Tprof) : Bool := bit t 114
def tpAgg (t : Tprof) : Bool := bit t 115
def tpBus (t : Tprof) : Nat := imgLe t 15 1 % 32
def tpMaxAcf (t : Tprof) : Nat := imgLe t 24 2
def tpMaxMsgs (t : Tprof) : Nat := imgLe t 26 1
def tpOwner (t : Tprof) : Nat := imgLe t 27 1 % 8
def tpPres (t : Tprof) : Nat := imgLe t 30 2
def tpMap (t : Tprof) (i : Nat) : Nat := imgLe t (32 + i) 1

/-- The bus identifier of an ingress port (R109). -/
def tpBusOf (t : Tprof) (c : Nat) : Nat := ((List.range 32).find? (fun i => tpMap t i == c)).getD (tpBus t)

/-! ### ACF messages (R106 to R110) -/

/-- A message from its type, the bytes after the common header and the payload, with its pad. The pad count stands in bits [7:6] of
the byte after the common header. -/
def acfMessage (type : Nat) (head payload : List Byte) : List Byte :=
  let pad := (4 - (2 + head.length + payload.length) % 4) % 4
  let n := (2 + head.length + payload.length + pad) / 4
  let head1 := match head with
    | [] => []
    | b :: r => (b ||| BitVec.ofNat 8 (pad * 64)) :: r
  beBytes 2 (type * 512 + n % 512) ++ head1 ++ payload ++ List.replicate pad 0

/-- The message_timestamp of a frame. -/
def acfStamp (t : Tprof) (f : Frame) : List Byte := beBytes 8 (if tpMtv t then f.stampX.toNat else 0)

/-- The ACF message of a foreign frame; none for a frame of another medium. DESIGN CHOICE (log entry 38): a CAN brief message, which carries no
timestamp, has mtv 0 whatever fmt.mtv says. -/
def wrapMessage (t : Tprof) (f : Frame) : Option (List Byte) :=
  let c := f.desc.ingress.toNat
  let h := f.hslot
  let bus := tpBusOf t c
  let mtv := if tpMtv t then 32 else 0
  if isC c then
    if canType h = 2 then
      some (acfMessage 0x79 ([BitVec.ofNat 8 (bus + mtv), 0] ++ acfStamp t f ++ beBytes 4 (canIdent h % 2048) ++ slice f.bytes 0 16)
        (f.bytes.drop 16))
    else
      let fmt := canFmt h
      let flags := boolNat (canRtr h) * 16 + boolNat (canIde h) * 8 + fmt / 16 % 2 * 4 + (if canType h = 1 then 2 else 0) + fmt / 32 % 2
      let id := beBytes 4 (canIdent h % 2 ^ 29)
      if tpBrief t then some (acfMessage 0x02 ([BitVec.ofNat 8 flags, BitVec.ofNat 8 bus] ++ id) f.bytes)
      else some (acfMessage 0x01 ([BitVec.ofNat 8 (flags + mtv), BitVec.ofNat 8 bus] ++ acfStamp t f ++ id) f.bytes)
  else if isL c then some (acfMessage 0x03 ([BitVec.ofNat 8 (bus + mtv), imgByte h 0] ++ acfStamp t f) f.bytes)
  else if isF c then
    let ind := imgLe h 3 1
    let b3 := (if bit h 27 then 16 else 0) + ind / 4 % 2 * 8 + ind / 2 % 2 * 4 + ind % 2 * 2 + 1
    some (acfMessage 0x00 ([BitVec.ofNat 8 (bus + mtv), BitVec.ofNat 8 b3] ++ acfStamp t f ++
      beBytes 4 (imgLe h 0 2 % 2048 * 2 ^ 21 + imgLe h 2 1 % 64)) f.bytes)
  else if isN c then
    some (acfMessage 0x78 ([BitVec.ofNat 8 (bus + mtv), imgByte h 0] ++ acfStamp t f ++ beBytes 2 f.bytes.length ++ [0, 0]) f.bytes)
  else none

/-- The longest ACF message (R110). -/
def maxMessage (t : Tprof) : Nat := min (tpMaxAcf t) 2044

/-! ### Closing an AVTPDU (R105, R113, R120, R121) -/

/-- The AVTP header of a profile over a content of `n` bytes. -/
def avtpHeader (t : Tprof) (seq : Byte) (stampX : W64) (n : Nat) : List Byte :=
  let sid := slice (imgBytes t) 16 8
  if tpTscf t then
    let tv := tpPres t ≠ 0
    let ts := if tv then (stampX.toNat + tpPres t * 1000) % 2 ^ 32 else 0
    [0x05, if tv then 0x81 else 0x80, seq, 0] ++ sid ++ beBytes 4 ts ++ [0, 0, 0, 0] ++ beBytes 2 n ++ [0, 0]
  else [0x82, BitVec.ofNat 8 (0x80 + n / 256 % 8), BitVec.ofNat 8 n, seq] ++ sid

/-- The Ethernet header of a profile. -/
def wrapEth (t : Tprof) : List Byte :=
  slice (imgBytes t) 0 12 ++
    (if tpTagged t then [0x81, 0x00] ++ beBytes 2 (tpPcp t * 8192 + tpVid t) else []) ++ [0x22, 0xF0]

/-- The sequence number that a trailer takes, and the append profile after it (R121). -/
def State.takeTrailer (s : State) (i : Nat) : Nat × State :=
  let e := s.eprofAt i
  (imgLe e 6 2, s.setEprof i (setImg e 6 2 (imgLe e 6 2 + 1)))

/-- The PDU of an AVTP header and content, with the trailer of an append profile. -/
def State.pduBytes (s : State) (t : Tprof) (seq : Byte) (stampX : W64) (eprof : Nat) (msgs : List Byte) : List Byte × State :=
  if eprof = 0 then (avtpHeader t seq stampX msgs.length ++ msgs, s)
  else
    let (q, s1) := s.takeTrailer eprof
    let b := avtpHeader t seq stampX (msgs.length + 8) ++ msgs ++ beBytes 2 (0x7F * 512 + 2) ++ beBytes 2 q
    (b ++ trailerCrc (s.eprofAt eprof) b, s1)

/-- A frame that the engine built enters the buffer whole, in the tunnel reserve's kept part (R98), with the descriptor of another. -/
def State.engineFrame (s : State) (d : FrameDesc) (stampX : W64) (hslot : BitVec 128) (bytes : List Byte) (vid : Nat)
    (owner : Part) (epoch : W64) : Frame × State :=
  let (banks, s1) := s.pickBanks (cellsOf bytes.length)
  let (buf, s2) := s1.bufferField banks
  let f : Frame :=
    { id := s2.fwd.nextFrame, desc := { d with length := BitVec.ofNat 16 bytes.length, buffer := buf }, hslot := hslot, bytes := bytes
      stampX := stampX, vid := BitVec.ofNat 12 vid, owner := owner, epoch := epoch, banks := banks, acct := acctTunnel
      complete := true }
  (f, ({ s2 with fwd.nextFrame := s2.fwd.nextFrame + 1 }).admitFrame f d.adm)

/-- The descriptor of a closed AVTPDU: stamp, phase, tt_sel, rx_flags and ingress of its first message, the highest classes. DESIGN CHOICE
(log entry 38): class.express is that of the first message, which R113 does not name. -/
def OpenPdu.frameDesc (o : OpenPdu) : FrameDesc :=
  { o.desc with cls := mkClass o.tc o.adm.toNat o.desc.expressBit false, actions := 1, stream := 0, drop := 0, capq := 0, node := 0 }

/-- A profile's open AVTPDU closes and becomes one Ethernet frame. -/
def State.closePdu (s : State) (prof : Nat) : State :=
  match s.fwd.openPdu.find? (fun x => x.1 == prof) with
  | none => s
  | some (_, o) =>
    let seq := kvGet 0 s.fwd.avtpTx prof
    let s1 : State := { s with fwd.openPdu := kvErase s.fwd.openPdu prof, fwd.avtpTx := kvSet 0 s.fwd.avtpTx prof (seq + 1) }
    let (pdu, s2) := s1.pduBytes o.image seq o.stampX o.eprof o.msgs.flatten
    let (f, s3) := s2.engineFrame o.frameDesc o.stampX 0 (wrapEth o.image ++ pdu) (tpVid o.image) (Fin.ofNat 5 (tpOwner o.image)) o.epoch
    let s4 := s3.countWide (R.tunCnt 1)
    let plan := (dsetPorts o.dset).filterMap (s4.copyOn { f with dset := o.dset } (parseEth f.bytes) true false 0)
    (plan.foldl State.sendPlanned s4).finishBranch f.id

/-- A message joins the profile's open AVTPDU, which closes when it has to (R111). DESIGN CHOICE (log entry 38): where the routes of its messages
name different end-to-end profiles, the first message's adds the trailer, as its destination set stands. -/
def State.appendMessage (s : State) (prof : Nat) (t : Tprof) (f : Frame) (m : List Byte) : State :=
  let full := match s.fwd.openPdu.find? (fun x => x.1 == prof) with
    | some (_, o) => decide (tpMaxAcf t < o.bytes + m.length)
    | none => false
  let s1 := if full then s.closePdu prof else s
  let o : OpenPdu := match s1.fwd.openPdu.find? (fun x => x.1 == prof) with
    | some (_, o) => { o with msgs := o.msgs ++ [m], bytes := o.bytes + m.length, tc := max o.tc f.desc.tc
                              adm := BitVec.ofNat 2 (min o.adm.toNat f.desc.adm) }
    | none => { msgs := [m], bytes := m.length, desc := f.desc, stampX := f.stampX, tc := f.desc.tc
                adm := BitVec.ofNat 2 f.desc.adm, dset := f.dset, eprof := f.eprof, image := t, epoch := f.epoch }
  let s2 : State := { s1 with fwd.openPdu := kvInsert (kvErase s1.fwd.openPdu prof) prof o }
  let s3 := s2.countWide (R.tunCnt 0)
  if ¬ tpAgg t ∨ tpMaxMsgs t ≤ o.msgs.length ∨ f.desc.adm = 0 then s3.closePdu prof else s3

/-- A wrap copy is served. DESIGN CHOICE (log entry 38): the profile is the one in force when the copy is served, also for a frame that was
classified before a pour changed it; R112 keeps only the reverse apart. -/
def State.wrapCopy (s : State) (f : Frame) : State :=
  let t := s.tprofAt f.tprof
  match wrapMessage t f with
  | none => s.dropCopy 0x1C f.id
  | some m =>
    if maxMessage t < m.length then s.dropCopy 0x1C f.id
    else (s.appendMessage f.tprof t f m).settleFrame f.id

/-! ### Unwrapping (R114, R115) -/

/-- A frame that a message carries: bus identifier, medium family, header slot, cells. -/
structure Carried where
  bus   : Nat
  fam   : Nat
  hslot : BitVec 128
  bytes : List Byte

/-- The payload of a message after a header of `n` bytes, without its pad. -/
def acfPayload (m : List Byte) (n : Nat) : List Byte := (m.take (m.length - (byteAt m 2).toNat / 64)).drop n

/-- Whether `n` is a length of a CAN FD data field. -/
def fdLegal (n : Nat) : Bool := decide ((fdLength n).1 = n)

/-- A CAN or CAN brief message with a header of `n` bytes. -/
def carriedCan (m : List Byte) (n : Nat) : Option Carried :=
  let b := (byteAt m 2).toNat
  let p := acfPayload m n
  let fd := b / 2 % 2
  let fmt := fd + b / 8 % 2 * 4 + b / 16 % 2 * 8 + b / 4 % 2 * 16 + b % 2 * 32
  if m.length < n ∨ (fd = 0 ∧ 8 < p.length) ∨ (fd = 1 ∧ ¬ fdLegal p.length) then none
  else some { bus := (byteAt m 3).toNat % 32, fam := 1, bytes := p
              hslot := canHslot (beAt m (n - 4) 4) fmt (fdLength p.length).2 p.length }

/-- The frame of a message of a known type; none when its payload length is illegal. The FlexRay header CRC is a free value `crc`. -/
def carried (x : Acf) (crc : Nat) : Option Carried :=
  let m := x.bytes
  let b := (byteAt m 2).toNat
  let b3 := (byteAt m 3).toNat
  match x.type with
  | 0x01 => carriedCan m 16
  | 0x02 => carriedCan m 8
  | 0x03 =>
    let p := acfPayload m 12
    if m.length < 12 ∨ p.length < 1 ∨ 8 < p.length then none
    else some { bus := b % 32, fam := 2, hslot := BitVec.ofNat 128 (b3 + p.length * 2 ^ 16), bytes := p }
  | 0x00 =>
    let p := acfPayload m 16
    let q := beAt m 12 4
    let ind := b3 / 2 % 2 + b3 / 4 % 2 * 2 + b3 / 8 % 2 * 4 + b3 / 16 % 2 * 8
    if m.length < 16 ∨ 64 < p.length then none
    else some { bus := b % 32, fam := 3, bytes := p
                hslot := BitVec.ofNat 128 (q / 2 ^ 21 + q % 64 * 2 ^ 16 + ind * 2 ^ 24 + crc % 2048 * 2 ^ 32 + p.length * 2 ^ 48) }
  | 0x79 =>
    let p := acfPayload m 32
    if m.length < 32 ∨ p.length < 1 ∨ 2012 < p.length then none
    else some { bus := b % 32, fam := 1, hslot := canHslot (beAt m 12 4 % 2048) 2 0 p.length, bytes := slice m 16 16 ++ p }
  | _ =>
    let n := beAt m 12 2
    let p := (m.drop 16).take n
    if m.length < 16 + n ∨ n < 6 ∨ 82 < n ∨ p.getLast? ≠ some 0x0A then none
    else some { bus := b % 32, fam := 4, hslot := BitVec.ofNat 128 b3, bytes := p }

/-- A carried frame goes to its port. -/
def State.deliver (s : State) (f : Frame) (x : Carried) (c : Nat) : State :=
  if family c ≠ x.fam then s.countDrop 0x14
  else
    let d := { f.desc with rxFlags := setBit f.desc.rxFlags 4 true, actions := 1, stream := 0, drop := 0, capq := 0, node := 0 }
    let (g, s1) := s.engineFrame d f.stampX (x.hslot) x.bytes 0 f.owner f.epoch
    ((s1.countWide (R.tunCnt 3)).admitCopy (s1.copyFor c g (parseEth []))).finishBranch g.id

/-- The messages of a PDU in order; a malformed one ends the delivery. `bad` says that the PDU ends in one. -/
def State.unwrapMessages (t : Tprof) (f : Frame) (bad : Bool) : List Acf → State → State
  | [], s => if bad then s.countDrop 0x1D else s
  | x :: r, s =>
    if x.type = 0x7F then s.unwrapMessages t f bad r
    else if ¬ (x.type ≤ 3 ∨ x.type = 0x78 ∨ x.type = 0x79) then (s.countDrop 0x1D).unwrapMessages t f bad r
    else
      let (k, s1) := if x.type = 0 then drawNat s else (0, s)
      match carried x k with
      | none => s1.countDrop 0x1D
      | some y =>
        let c := tpMap t y.bus
        if c = 0xFF ∨ ¬ bit f.dset c then s1.countDrop 0x1D
        else (s1.deliver f y c).unwrapMessages t f bad r
termination_by structural l => l

/-- A gap in a profile's received sequence_num is counted. -/
def State.checkSeq (s : State) (prof : Nat) (seq : Byte) : State :=
  let s1 := match kvGet none s.fwd.avtpRx prof with
    | some q => if seq = q + 1 then s else s.countWide (R.tunCnt 4)
    | none => s
  { s1 with fwd.avtpRx := kvSet none s1.fwd.avtpRx prof (some seq) }

/-- An unwrap copy is served. -/
def State.unwrapCopy (s : State) (f : Frame) : State :=
  let t := s.tprofAt f.tprof
  match frameAcf f.bytes with
  | (none, _, _) => s.dropCopy 0x1D f.id
  | (some h, m, bad) =>
    (((s.checkSeq f.tprof h.seq).countWide (R.tunCnt 2)).unwrapMessages t f bad m).settleFrame f.id

/-! ### TUNNEL_GRANT, AGG_HOLD_EXPIRE -/

/-- The oldest copy of a port that waits for the engine and whose frame is whole. -/
def State.tunHead (s : State) (c : Nat) : Option (TunCopy × Frame) :=
  s.fwd.tunQ.findSome? (fun x =>
    if x.port.toNat = c then
      match s.frame x.frame with
      | some f => if f.complete then some (x, f) else none
      | none => none
    else none)

/-- The engine's arbiter makes one grant: one cell of the oldest copy of a port (R37, R38). The copy is served with its last cell. -/
def tunnelGrant (s : State) : State :=
  match s.pick .tunnel ((List.range 0x70).filter (fun c => (s.tunHead c).isSome)) with
  | none => s
  | some c =>
    match s.tunHead c with
    | none => s
    | some (x, f) =>
      let s1 := s.granted .tunnel c 1
      if x.taken + 1 < f.banks.length then
        { s1 with fwd.tunQ := s1.fwd.tunQ.map (fun y => if y = x then { y with taken := y.taken + 1 } else y) }
      else
        let s2 : State := { s1 with fwd.tunQ := s1.fwd.tunQ.erase x }
        if x.wrap then s2.wrapCopy f else s2.unwrapCopy f

def execTunnelGrant (s : State) : Res := .next (clocked tunnelGrant s)

/-- hold_us has passed since a profile's first message. -/
def aggHoldExpire (prof : Fin 1024) (s : State) : State := s.closePdu prof.val

def execAggHoldExpire (prof : Fin 1024) (s : State) : Res := .next (clocked (aggHoldExpire prof) s)

/-! ### CRYPTO_GRANT (R38, R39, R135, R215) -/

/-- Whether work is the protection of a copy that locks a slice (R181). -/
def State.lockedWork (s : State) (w : CryptoWork) : Bool :=
  match w.use with
  | .protect c id =>
    match (s.egOf c.toNat).commit with
    | some m => m.slice.isSome && m.copy.frame == id
    | none => false
  | _ => false

/-- Whether a slice can serve work: the one that its locked sequence holds, or an open one (R39, R41). -/
def State.servable (s : State) (w : CryptoWork) : Bool := s.lockedWork w || !s.openSlices.isEmpty

/-- The oldest work of a requester that a slice can serve. -/
def State.cryptoHead (s : State) (i : Nat) : Option CryptoWork := s.cry.work.find? (fun w => w.req == i && s.servable w)

/-- The requesters of the slices that have a burst which a slice can take. -/
def State.cryptoReady (s : State) : List Nat := (List.range 35).filter (fun i => (s.cryptoHead i).isSome)

/-- Work whose last burst has been granted ends: a verified frame's port moves on, a raw block operation is answered (R231, R238). -/
def State.cryptoEnds (s : State) (w : CryptoWork) : State :=
  match w.use with
  | .verify id =>
    match s.frame id with
    | some f => s.runOrder f.desc.ingress.toNat
    | none => s
  | .protect _ _ => s
  | .raw o => s.complete o.part o.reply

/-- The slices' arbiter grants one burst of 4 cells. -/
def cryptoGrant (s : State) : State :=
  match s.pick .crypto s.cryptoReady with
  | none => s
  | some i =>
    match s.cryptoHead i with
    | none => s
    | some w =>
      let s1 := s.granted .crypto i 1
      if 1 < w.bursts then
        { s1 with cry.work := s1.cry.work.map (fun y => if y = w then { y with bursts := y.bursts - 1 } else y) }
      else ({ s1 with cry.work := s1.cry.work.erase w } : State).cryptoEnds w

def execCryptoGrant (s : State) : Res := .next (clocked cryptoGrant s)

end Sys2Proof.Machine
end

