-- ==== Sys2Proof/Machine/Checks.lean ====
section
/-! DEFINITION. The checks of a pour (step 4 of R285): retired resources, ranges and encodings, rights, quotas, conflicts, placement.
`s` is the epoch in force, `t` the epoch that the pour would make, `g` the state whose grants count. -/

namespace Sys2Proof.Machine

/-- What a failed check says: its status, and the slots of the items that it concerns. -/
structure Flaw where
  status : Byte
  slots  : List (Nat × Nat) := []
  deriving DecidableEq, Repr

/-- A flaw where a condition holds. -/
def flawIf (bad : Bool) (st : Byte) (slots : List (Nat × Nat) := []) : Option Flaw := if bad then some { status := st, slots := slots } else none

/-- The first flaw of several. -/
def firstFlaw (l : List (Option Flaw)) : Option Flaw := l.findSome? id

/-- A range check that fails with BAD_PARAM. -/
def rangeIf (bad : Bool) (slots : List (Nat × Nat) := []) : Option Flaw := flawIf bad St.badParam slots

/-- The slot of a register that exists once. -/
def regSlot (o : Nat) : Nat × Nat := (0, o)

/-! ### Ranges of registers -/

/-- Whether a number lies outside a range. -/
def outside (lo hi v : Nat) : Bool := decide (v < lo ∨ hi < v)

/-- ARB_CFG (R136). -/
def arbRange (v : W32) : Option Flaw := rangeIf (decide (fld v 15 0 < 100) || outside 2 64 (fld v 22 16))

/-- The stability region of R169 and R199, with gains in units of 2^-14. -/
def unstable (a b : Nat) : Bool := decide (a = 0 ∨ b = 0 ∨ 2 * 2 ^ 14 ≤ a ∨ 4 * 2 ^ 14 ≤ 2 * a + b)

/-- TSU registers (R169, R171, R173, R174, R185, R191; offsets in the block). -/
def tsuRange (t : State) (o : Nat) (v : W32) : Option Flaw :=
  if o = 0x00 then rangeIf (fld v 15 8 == 0)
  else if o = 0x08 then rangeIf (fld v 15 0 == 0)
  else if o = 0x44 then rangeIf (fld v 25 24 == 3)
  else if o = 0x48 then rangeIf (decide (99 < fld v 6 0))
  else if 0x100 ≤ o ∧ o < 0x300 ∧ o % 0x100 = 0 then
    firstFlaw [rangeIf (decide (fld v 27 20 < 2)), rangeIf (fld v 3 2 == 2 && decide (3 < fld v 15 12)),
      rangeIf (t.bt (R.domCfg 0) 0 && t.bt (R.domCfg 1) 0 && t.fd (R.domCfg 0) 10 4 == t.fd (R.domCfg 1) 10 4)
        [regSlot (R.domCfg 0), regSlot (R.domCfg 1)]]
  else if 0x100 ≤ o ∧ o < 0x300 ∧ o % 0x100 = 4 then rangeIf (unstable (fld v 15 0) (fld v 31 16))
  else if 0x100 ≤ o ∧ o < 0x300 ∧ o % 0x100 = 0x14 then
    rangeIf (fld v 15 0 == 0 || decide (fld v 31 16 ≤ fld v 15 0))
  else if 0x300 ≤ o ∧ o < 0x340 then rangeIf (decide (3 < signedOf 4 (fld v 7 4) ∨ signedOf 4 (fld v 7 4) < -3))
  else if 0x400 ≤ o ∧ o < 0x440 ∧ o % 0x10 = 0 then rangeIf (fld v 15 8 == 0)
  else none

/-- PHW registers (R195, R199, R206, R209, R211). -/
def phwRange (t : State) (o : Nat) (v : W32) : Option Flaw :=
  if o < 0x1000 then
    let n := o / 0x100
    let pos := rangeIf (decide (t.cpr n ≤ t.fd (R.ttIdx n) 19 0)) [regSlot (R.ttCpr n), regSlot (R.ttIdx n)]
    match o % 0x100 with
    | 0x00 => rangeIf (fld v 2 1 == 3 || fld v 15 8 == 0 || decide (fld v 23 16 < 2) || fld v 27 24 == 0)
    | 0x04 => firstFlaw [rangeIf (outside 1 1048576 (fld v 20 0)), pos]
    | 0x08 => pos
    | 0x0C => rangeIf (unstable (fld v 15 0) (fld v 31 16))
    | 0x10 => rangeIf (fld v 15 0 == 0 || fld v 31 16 == 0)
    | _ => none
  else if o < 0x1400 then
    let m := (o - 0x1000) / 0x20
    let fit := rangeIf (decide ((t.rg (R.trgPeriod m)).toNat ≤ 4 * t.fd (R.trgWidth m) 23 0))
      [regSlot (R.trgPeriod m), regSlot (R.trgWidth m)]
    match o % 0x20 with
    | 0x00 => rangeIf (fld v 7 6 == 3)
    | 0x08 => firstFlaw [rangeIf (decide (fld v 23 0 < 2)), fit]
    | 0x0C => firstFlaw [rangeIf (decide (v.toNat < 1000)), fit]
    | _ => none
  else none

/-- FWD registers (R74, R96, R136, R157, R160, R394). -/
def fwdRange (o : Nat) (v : W32) : Option Flaw :=
  if o = 0x0C then rangeIf (fld v 1 0 == 3)
  else if 0x100 ≤ o ∧ o < 0x2C0 then rangeIf (fld v 13 12 == 3 || (bit v 31 && !mediaCode (fld v 30 24)))
  else if 0x300 ≤ o ∧ o ≤ 0x340 then rangeIf (fld v 2 0 == 7 || fld v 6 4 == 7 || decide (2048 < fld v 19 8))
  else if 0x600 ≤ o ∧ o ≤ 0x610 then rangeIf (outside 2 8 (fld v 27 24))
  else if o = 0x618 then rangeIf (fld v 7 0 == 0 || fld v 23 16 == 0)
  else if o = 0x800 ∨ o = 0xC00 ∨ (0x4000 ≤ o ∧ o % 0x400 = 0) then arbRange v
  else none

/-- LNK_ETH_MODE (R44, R45). -/
def ethModeBad (v : W32) : Bool :=
  let m := fld v 3 0
  let f := fld v 5 4
  decide (8 < m) || f == 3 || (f == 1 && m != 1 && m != 2) || (f == 2 && m != 1) || (bit v 6 && !decide (3 ≤ m)) ||
    outside 64 9216 (fld v 29 16)

/-- The bit timing of a CAN port that is on: each bit of 8 to 160 quanta, an arbitration rate of 50 kbit/s to 1 Mbit/s, a data rate to
8 Mbit/s for FD and for XL without mode switching, to 20 Mbit/s with it (R44, R59). -/
def canTimingBad (bt cfg : W32) : Bool :=
  let arb := (fld bt 7 0 + 1) * (fld bt 15 8 + 1)
  let data := (fld bt 23 16 + 1) * (fld bt 31 24 + 1)
  let proto := fld cfg 3 2
  outside 160 3200 arb || (proto == 1 && decide (data < 20)) ||
    (proto == 2 && decide (data < (if bit cfg 4 then 8 else 20)))

/-- Whether the quanta of a LNK_CAN_BT are outside 8 to 160. -/
def canQuantaBad (bt : W32) : Bool := outside 7 159 (fld bt 15 8) || outside 7 159 (fld bt 31 24)

/-- The checks of a CAN port. -/
def canRange (t : State) (n : Nat) (isBt : Bool) : Option Flaw :=
  let bt := t.rg (R.canBt n)
  let cfg := t.rg (R.canCfg n)
  let both := [regSlot (R.canBt n), regSlot (R.canCfg n)]
  firstFlaw [rangeIf (!isBt && fld cfg 3 2 == 3), rangeIf (isBt && canQuantaBad bt),
    rangeIf (fld cfg 1 0 != 0 && (canQuantaBad bt || canTimingBad bt cfg)) both]

/-- The enabled transmit buffers of a FlexRay controller. -/
def State.frBuffers (t : State) (f : Nat) : List Nat := (List.range 128).filter (fun b => t.bt (R.frMbCfg f b) 13)

/-- Whether two buffers share a frame_id and a channel and send in a common cycle (R65). -/
def State.frClash (t : State) (f a b : Nat) : Bool :=
  let x := t.rg (R.frMbCfg f a)
  let y := t.rg (R.frMbCfg f b)
  let k := min (t.fd (R.frMbCyc f a) 8 6) (t.fd (R.frMbCyc f b) 8 6)
  a != b && fld x 10 0 == fld y 10 0 && Nat.land (fld x 12 11) (fld y 12 11) != 0 &&
    decide ((t.fd (R.frMbCyc f a) 5 0) % 2 ^ k = (t.fd (R.frMbCyc f b) 5 0) % 2 ^ k)

/-- The checks of R64 on a controller's own registers. -/
def frCtrlRange (t : State) (f : Nat) : Option Flaw :=
  let c := t.rg (R.frCfg f)
  let y := t.rg (R.frCyc f)
  let st := t.rg (R.frStatic f)
  let dy := t.rg (R.frDyn f)
  let nd := t.rg (R.frNode f)
  let key := fld nd 10 0
  let slots := fld st 9 0
  let keyBufs := (t.frBuffers f).any (fun b => t.fd (R.frMbCfg f b) 10 0 == key)
  firstFlaw
    [rangeIf (fld c 1 0 == 3 || (bit c 2 && !bit c 3) || (fld c 1 0 == 1 && fld c 5 4 == 0)) [regSlot (R.frCfg f)],
     rangeIf (outside 10 16000 (fld y 13 0) || outside 1 6 (fld y 18 16) || decide (16000 < fld y 13 0 * fld y 18 16))
       [regSlot (R.frCyc f)],
     rangeIf (decide (slots < 2) || outside 4 659 (fld st 19 10) || decide (32 < fld st 25 20)) [regSlot (R.frStatic f)],
     rangeIf (decide (7986 < fld dy 12 0) || decide (fld dy 18 13 < 2) || fld dy 23 19 == 0 || fld dy 29 24 == 0)
       [regSlot (R.frDyn f)],
     rangeIf (decide (1023 < key) || outside 2 805 (fld nd 20 11) || decide (162 < fld nd 28 21)) [regSlot (R.frNode f)],
     rangeIf (bit c 3 && (key == 0 || !keyBufs))
       ([regSlot (R.frCfg f), regSlot (R.frNode f)] ++ (List.range 128).map (fun b => regSlot (R.frMbCfg f b))),
     rangeIf (decide (slots < key)) [regSlot (R.frStatic f), regSlot (R.frNode f)],
     rangeIf (decide (fld y 13 0 < slots * fld st 19 10 + fld dy 12 0 * fld dy 18 13 + fld nd 28 21 + fld nd 20 11))
       [regSlot (R.frCyc f), regSlot (R.frStatic f), regSlot (R.frDyn f), regSlot (R.frNode f)]]

/-- The checks of a buffer (R65). -/
def frBufRange (t : State) (f b : Nat) : Option Flaw :=
  let c := t.rg (R.frMbCfg f b)
  let y := t.rg (R.frMbCyc f b)
  let own := [regSlot (R.frMbCfg f b), regSlot (R.frMbCyc f b)]
  firstFlaw
    [rangeIf (decide (6 < fld y 8 6) || decide (2 ^ fld y 8 6 ≤ fld y 5 0)) [regSlot (R.frMbCyc f b)],
     rangeIf (decide (32 < fld c 20 15) || (bit c 13 && (fld c 10 0 == 0 || fld c 12 11 == 0))) [regSlot (R.frMbCfg f b)],
     rangeIf (bit c 13 && decide (t.fd (R.frStatic f) 9 0 + t.fd (R.frDyn f) 12 0 < fld c 10 0))
       [regSlot (R.frMbCfg f b), regSlot (R.frStatic f), regSlot (R.frDyn f)],
     if bit c 13 then
       ((t.frBuffers f).find? (fun a => t.frClash f a b)).bind (fun a =>
         rangeIf true (own ++ [regSlot (R.frMbCfg f a), regSlot (R.frMbCyc f a)]))
     else none]

/-- Every check of a FlexRay controller and its buffers. -/
def frRange (t : State) (f : Nat) : Option Flaw := firstFlaw (frCtrlRange t f :: (t.frBuffers f).map (frBufRange t f))

/-- The checks of an enabled window (R130): its port's medium, a LIN commander, a transmit buffer for a FlexRay req_id. -/
def windowRange (t : State) (k : Nat) : Option Flaw :=
  let e : Window := kvGet 0 t.tab.windows k
  let c := wnPort e
  let f := (c - 0x68) / 2
  firstFlaw
    [rangeIf (wnFmt e == 3 || outside 1 1000 (wnTmo e) || !(isC c || isL c || isF c)) [(13, k)],
     rangeIf (isL c && t.fd (R.linCfg (c - 0x50)) 1 0 != 1) [(13, k), regSlot (R.linCfg (c - 0x50))],
     rangeIf (isF c && !(t.frBuffers f).any (fun b =>
         t.fd (R.frMbCfg f b) 10 0 == wnReq e && t.bt (R.frMbCfg f b) (11 + (c - 0x68) % 2)))
       ((13, k) :: (List.range 128).map (fun b => regSlot (R.frMbCfg f b)))]

/-- The checks of every window on some ports. -/
def windowsOn (t : State) (on : Nat → Bool) : Option Flaw :=
  firstFlaw ((t.tab.windows.filter (fun w => on (wnPort w.2))).map (fun w => windowRange t w.1))

/-- LNK registers (R44 to R66), by region. -/
def lnkRange (t : State) (o : Nat) (v : W32) : Option Flaw :=
  if o < 0x4000 then (if o % 0x400 = 0 then rangeIf (ethModeBad v) else none)
  else if o < 0x5000 then
    rangeIf (o % 0x200 == 0 && ((fld v 20 16 == 0 && outside 1 32 (fld v 15 8)) || fld v 31 24 == 0))
  else if 0x8000 ≤ o ∧ o < 0xB000 then
    let n := (o - 0x8000) / 0x100
    if o % 0x100 = 0 then canRange t n true else if o % 0x100 = 4 then canRange t n false else none
  else if 0xC000 ≤ o ∧ o < 0xCC00 then
    if o % 0x80 = 0 then firstFlaw [rangeIf (fld v 1 0 == 3 || outside 1000 20000 (fld v 30 16)),
      windowsOn t (fun c => c == 0x50 + (o - 0xC000) / 0x80)]
    else none
  else if 0xD000 ≤ o ∧ o < 0xD800 then (if o % 0x400 = 8 then none else frRange t ((o - 0xD000) / 0x400))
  else if 0xE000 ≤ o ∧ o < 0xE400 then rangeIf (o % 0x100 == 0 && decide (6 < fld v 2 0))
  else if 0xF000 ≤ o ∧ o < 0xF100 then rangeIf (o % 0x40 == 0 && (decide (fld v 7 0 < 4) || fld v 23 16 == 0))
  else if 0x1_0000 ≤ o ∧ o < 0x1_1800 then rangeIf (bit v 16 && fld v 15 8 == 0)
  else if 0x1_4000 ≤ o ∧ o < 0x1_6000 then
    let f := (o - 0x1_4000) / 0x1000
    firstFlaw [frBufRange t f (o % 0x1000 / 8), frRange t f, windowsOn t (fun c => isF c && (c - 0x68) / 2 == f)]
  else none

/-- The capture address space over the channels in service, in 4 MiB units (R251). -/
def State.newSpace (s : State) : Nat := s.channels.length * s.fd R.capMem 12 8 * 256

/-- The space that a pour's regions have to fit: recomputed at the next pour after a retirement (R264). -/
def State.pourSpace (s : State) : Nat := if s.bt R.capMem 16 then s.newSpace else s.fd R.capSpace 14 0

/-- Whether two queues' regions overlap. -/
def State.regionsMeet (t : State) (a b : Nat) : Bool :=
  a != b && t.sidingSize a != 0 && t.sidingSize b != 0 &&
    decide (t.sidingBase a < t.sidingBase b + t.sidingSize b ∧ t.sidingBase b < t.sidingBase a + t.sidingSize a)

/-- The range checks of a capture queue's registers (R247, R252, R257, R262). -/
def capRange (t : State) (o : Nat) (v : W32) : Option Flaw :=
  if 0x4000 ≤ o then (if o = 0xF000 then arbRange v else none)
  else
    let q := o / 0x100
    let size := rangeIf (t.capEn q && t.sidingSize q == 0 && (t.capSnap q == 0 || decide (31 < t.capSnap q)))
      [regSlot (R.capCfg q), regSlot (R.capSiding q)]
    let notice := rangeIf (if t.capLevel q then t.rg (R.capHi q) == 0
        else t.bt (R.capCfg q) 7 && decide ((t.rg (R.capHi q)).toNat ≤ (t.rg (R.capLo q)).toNat))
      [regSlot (R.capCfg q), regSlot (R.capHi q), regSlot (R.capLo q)]
    match o % 0x100 with
    | 0x00 => firstFlaw [rangeIf (outside 0 144 (fld v 15 8)), size, notice]
    | 0x04 => firstFlaw [rangeIf (decide (t.pourSpace < t.sidingBase q + t.sidingSize q)), size]
    | 0x08 => notice
    | 0x0C => notice
    | 0x20 => rangeIf (fld v 11 0 != 0)
    | 0x28 => rangeIf (outside 6 23 (fld v 4 0))
    | 0x2C => rangeIf (fld v 5 0 != 0)
    | _ => none

/-- PWR registers (R307, R311, R321; 11_power_wake.md, *Registers*). -/
def pwrRange (t : State) (o : Nat) (v : W32) : Option Flaw :=
  let timer := rangeIf (t.fd R.pwrTimer 23 0 == 0 && t.bt R.wakEnHi 5) [regSlot R.pwrTimer, regSlot R.wakEnHi]
  if o = 0x04 then rangeIf (fld v 7 0 == 0 || fld v 23 8 == 0)
  else if o = 0x0C ∨ o = 0x14 then timer
  else if 0x40 ≤ o ∧ o < 0x60 then rangeIf (fld v 15 8 == 0)
  else if 0x1000 ≤ o ∧ o < 0x1200 ∧ o % 0x20 = 0 then rangeIf (decide (8 < fld v 11 8))
  else none

/-- The range checks of a poured register. -/
def regRange (t : State) (k : Nat) : Option Flaw :=
  let off := k % 2 ^ 26
  let v := t.key k
  let o := off % 0x10_0000
  match off / 0x10_0000 with
  | 0x1 => if o = 0x3C then rangeIf (fld v 15 0 == 0) else if o = 0xF000 then arbRange v else none
  | 0x2 => tsuRange t o v
  | 0x3 => phwRange t o v
  | 0x4 => rangeIf (o % 0x100 == 0 && outside 1 128 (fld v 15 8))
  | 0x5 => fwdRange o v
  | 0x6 => lnkRange t o v
  | 0x7 => if o < 0x40 then rangeIf (fld v 1 0 == 3) else if o = 0xF000 then arbRange v else none
  | 0x8 => capRange t o v
  | 0xA => pwrRange t o v
  | 0xB => if o = 0x30 then rangeIf (fld v 15 0 == 0) else none
  | _ => none

/-! ### Ranges and references of table entries -/

/-- Whether a destination set names a port outside a set of medium families. -/
def dsetOutside (m : BitVec 128) (fams : List Nat) : Bool :=
  (List.range 0x70).any (fun c => bit m c && mediaCode c && !fams.contains (family c))

/-- The medium family of the frames of a key type (R76, R82). -/
def typeFamily : Nat → Nat
  | 3 => 1
  | 4 => 2
  | 5 => 3
  | 6 => 4
  | _ => 0

/-- The checks of a route's result against the tables that it names: the families of its set (R82), its drop code (R101), its profiles'
direction (R118). -/
def resRange (t : State) (fams : List Nat) (res : BitVec 128) (own : Nat × Nat) : Option Flaw :=
  let r : Found := { index := 0, tcam := false, res := res }
  let mode := fld (t.eprofAt r.eprof) 1 0
  firstFlaw
    [rangeIf (decide (0x10 < r.dropCode)) [own],
     rangeIf ((r.act 0 || r.act 1) && !r.act 2 && dsetOutside (t.dsetAt r.dset) (if r.act 1 then [0] else fams)) [own, (3, r.dset)],
     rangeIf (r.eprof != 0 && mode == (if r.act 1 then 2 else 1)) [own, (7, r.eprof)]]

/-- The checks of an exact route. -/
def routeRange (t : State) (e : BitVec 256) : Option Flaw :=
  resRange t [typeFamily (imgByte (routeKey e) 0).toNat] (routeRes e) (Item.route e).slot

/-- The families of the frames that a TCAM entry can match: those whose key type its mask lets pass. -/
def tcamFamilies (e : BitVec 384) : List Nat :=
  ((List.range 8).filter (fun ty => 3 ≤ ty ∧ Nat.land (Nat.xor ty (imgLe e 0 1)) (imgLe e 16 1) = 0)).map typeFamily

/-- The checks of a valid TCAM entry. -/
def tcamRange (t : State) (i : Nat) (e : BitVec 384) : Option Flaw :=
  if bit (tcamRes e) 7 then resRange t (tcamFamilies e) (tcamRes e) (2, i) else none

/-- The checks of every route and TCAM entry that a predicate on results picks. -/
def routesWith (t : State) (f : Found → Bool) : Option Flaw :=
  let pick := fun (res : BitVec 128) => f { index := 0, tcam := false, res := res }
  firstFlaw ((t.tab.routes.map (fun x => x.2.bind (fun e => if pick (routeRes e) then routeRange t e else none))) ++
    (t.tab.tcam.map (fun x => if pick (tcamRes x.2) then tcamRange t x.1 x.2 else none)))

/-- A policy profile: FRER's fields are in range where FRER is on (R86). -/
def pprofRange (e : BitVec 256) : Option Flaw :=
  rangeIf (bit e 19 && (outside 1 32 (imgLe e 3 1) || imgLe e 20 2 == 0))

/-- A tunnel profile (R104). -/
def tprofRange (g : State) (e : BitVec 512) : Option Flaw :=
  let own : Part := Fin.ofNat 5 (min 4 (tpOwner e))
  rangeIf (decide (4 < tpOwner e) || tpMaxAcf e % 4 != 0 || outside 16 8192 (tpMaxAcf e) || tpMaxMsgs e == 0 ||
    outside 1 10000 (imgLe e 28 2) ||
    (List.range 32).any (fun b =>
      let c := tpMap e b
      c != 0xFF && !((isC c || isL c || isF c || isN c) && g.holds own .port c)))

/-- An end-to-end profile (R118). -/
def eprofRange (e : BitVec 128) : Option Flaw :=
  rangeIf ((fld e 1 0 != 1 && fld e 1 0 != 2) || imgLe e 1 1 == 0 || imgLe e 4 2 == 0)

/-- A timetable (R145). -/
def gateRange (t : Timetable) : Option Flaw :=
  let ivs := t.entries.map entInterval
  firstFlaw
    [flawIf (decide (1024 < ttbCount t)) St.tableFull,
     rangeIf (ttbEn t && (ttbCount t == 0 || t.entries.any (fun e => entOp e == 3) ||
       (if ttbSrc t = 3 then
          ttbCycle t != 0 || decide (2 ^ 24 ≤ ttbBase t) || ivs.any (outside 1 (2 ^ 24)) || decide (2 ^ 24 < ivs.foldl (· + ·) 0)
        else decide (ttbCycle t < 100) || ivs.any (fun n => decide (n < 8)))))]

/-- The fields of a key slot (R220). -/
def slotRange (k : KeySlot) : Bool :=
  let ty := ksType k
  let macsec := ty == 1 || ty == 2
  ty != 0 &&
    (decide (6 < ty) || decide (4 < ksOwner k) || (macsec && (ksOffset k == 3 || ksInitPn k == 0)) ||
      !(if macsec then isE (ksPort k) else if ty = 3 then isC (ksPort k) else ksPort k == 0xFF) ||
      (ty != 3 && imgLe k 6 2 != 0))

/-- The node entries and alts that refer to a slot (R223), as the slots of the items that would stage them, with the partition that
each belongs to and the type it needs. -/
structure KeyRef where
  item  : Nat × Nat
  owner : Nat
  type  : Nat

/-- The partition that a node belongs to (R234). -/
def nodeOwner (g : State) (e : Node) : Nat := (g.portHolder (ndPort e)).val

/-- The type of slot that a node's mode needs. -/
def nodeNeeds (e : Node) : Nat := if ndMode e = 1 then 3 else 4

/-- The references to a slot in an epoch. -/
def State.keyRefs (t g : State) (i : Nat) : List KeyRef :=
  (t.tab.nodes.filterMap (fun x => x.2.bind (fun e =>
    if ndMode e ≠ 0 ∧ ndSlot e = some i then some ⟨(Item.node 0 e).slot, nodeOwner g e, nodeNeeds e⟩ else none))) ++
  (t.tab.keys.filterMap (fun x =>
    if ksType x.2 = 3 ∧ ksAlt x.2 = some i then some ⟨(10, x.1), ksOwner x.2, 3⟩ else none))

/-- A reference whose slot's type does not fit. -/
def refRange (t : State) (i : Nat) (r : KeyRef) : Option Flaw :=
  rangeIf (ksType (t.keySlot i) != r.type) [r.item, (10, i)]

/-- next_pn of a transmit slot; after its last PN of 2^64 − 1 it is beyond every init_pn (R222, R228). -/
def State.nextPn (s : State) (i : Nat) : Nat := if s.sa i = 0 then 2 ^ 64 else (s.sa i).toNat

/-- The range checks of a slot in the epoch: its fields, its alt, and what refers to it. -/
def keyRange (s t g : State) (i : Nat) (fresh : Bool) : Option Flaw :=
  let k := t.keySlot i
  firstFlaw ([rangeIf (slotRange k) [(10, i)],
    rangeIf (ksType k == 2 && !fresh && ksType (s.keySlot i) == 2 && decide (ksInitPn k < s.nextPn i)) [(10, i)],
    (if ksType k = 3 then ksAlt k else none).bind (fun a => refRange t a ⟨(10, i), ksOwner k, 3⟩)] ++
    (t.keyRefs g i).map (refRange t i))

/-- A node entry (R234). -/
def nodeRange (t g : State) (e : Node) : Option Flaw :=
  let cmac := ndMode e == 2
  firstFlaw
    [rangeIf (!mediaCode (ndPort e) || ndMode e == 3 || (ndMode e != 0 && ndWin e == 0) ||
       (cmac && (decide (6 < ndTfv e) || outside 4 16 (ndTmac e)))),
     if ndMode e = 0 then none else (ndSlot e).bind (fun i => refRange t i ⟨(Item.node 0 e).slot, nodeOwner g e, nodeNeeds e⟩)]

/-- A grant record (R289, R290). -/
def grantRange (r : Grant) : Option Flaw :=
  let past := fun (b c size : Nat) => decide (size < c ∨ (c ≠ 0 ∧ size < b + c))
  rangeIf (past (imgLe r 8 2) (imgLe r 10 2) 256 || past (imgLe r 12 2) (imgLe r 14 2) 4096 ||
    past (imgLe r 16 2) (imgLe r 18 2) 256 || past (imgLe r 20 2) (imgLe r 22 2) 1024 ||
    past (imgLe r 24 1) (imgLe r 25 1) 256 || (imgLe r 25 1 != 0 && imgLe r 24 1 == 0) ||
    past (imgLe r 32 2) (imgLe r 34 2) 2048 || decide (1048576 < r.routeQuota ∨ 4096 < r.pinQuota ∨ 262144 < r.nodeQuota) ||
    (List.range 8).any (fun j => decide (r.winBase j % 4096 ≠ 0 ∨ r.winSize j % 4096 ≠ 0 ∨ 2 ^ 64 < r.winBase j + r.winSize j)))

/-- The range and encoding checks of an item. -/
def itemRange (g s t : State) (x : Item) : Option Flaw :=
  match x with
  | .reg k _ => regRange t k
  | .route e => routeRange t e
  | .tcam i e => tcamRange t i e
  | .dset i _ => routesWith t (fun r => r.dset == i)
  | .pprof _ e => pprofRange e
  | .tprof _ e => tprofRange g e
  | .eprof i e => firstFlaw [eprofRange e, routesWith t (fun r => r.eprof == i)]
  | .gate _ w => gateRange w
  | .key i fresh _ => keyRange s t g i fresh
  | .keyErase i => firstFlaw ((t.keyRefs g i).map (refRange t i))
  | .node _ e => nodeRange t g e
  | .grant _ r => grantRange r
  | .window k _ => windowRange t k
  | _ => none

/-! ### Rights (R291, R394) -/

/-- A right that is missing. -/
def rightIf (bad : Bool) (slots : List (Nat × Nat) := []) : Option Flaw := flawIf bad St.noRight slots

/-- A route's references, and its tunnel profile's owner (R103, R291). -/
def resRights (g t : State) (p : Part) (res : BitVec 128) (own : Nat × Nat) : Option Flaw :=
  let r : Found := { index := 0, tcam := false, res := res }
  firstFlaw
    [rightIf (allKinds.any (fun k => match k with
       | .dset => resNames res k r.dset && !g.holds p k r.dset
       | .capq => resNames res k r.capq && !g.holds p k r.capq
       | .pprof => resNames res k r.prof && !g.holds p k r.prof
       | .tprof => resNames res k r.tprof && !g.holds p k r.tprof
       | .eprof => resNames res k r.eprof && !g.holds p k r.eprof
       | _ => false)) [own],
     rightIf ((r.act 1 || r.act 2) && tpOwner (t.tprofAt r.tprof) != p.val) [own, (6, r.tprof)]]

/-- Whether a partition lacks the port of a port-keyed key. -/
def keyPortMissing (g : State) (p : Part) (k : BitVec 128) : Bool := !ownerKeyed k && !g.holds p .port (imgByte k 1).toNat

/-- A reference to a slot that another partition owns (R223). -/
def refRights (t : State) (i : Nat) (r : KeyRef) : Option Flaw := rightIf (ksOwner (t.keySlot i) != r.owner) [r.item, (10, i)]

/-- The rights that a poured register needs (R394, R242). -/
def regRights (g t : State) (p : Part) (k : Nat) : Option Flaw :=
  let off := k % 2 ^ 26
  let q : Part := Fin.ofNat 5 (k / 2 ^ 26)
  let v := t.key k
  firstFlaw
    [rightIf (match regInfo t.logger off with
       | some r => (r.pmStage && p != pm) || !g.inView p r.stage
       | none => true),
     rightIf (off == R.fwdDefault && ((fld v 1 0 == 2 && !g.holds q .dset (fld v 19 8)) || (fld v 1 0 == 1 && !g.holds q .capq (fld v 7 2)))),
     rightIf (off == R.admDefer && bit v 6 && !g.holds q .capq (fld v 5 0))]

/-- The rights that an item of partition `p` needs: its target, and its references. -/
def itemRights (g t : State) (p : Part) (x : Item) : Option Flaw :=
  match x with
  | .reg k _ => regRights g t p k
  | .route e => firstFlaw [rightIf (keyPortMissing g p (routeKey e)), resRights g t p (routeRes e) x.slot]
  | .routeDel k _ => rightIf (keyPortMissing g p k)
  | .tcam i e => firstFlaw [rightIf (!g.holds p .tcam i), if bit (tcamRes e) 7 then resRights g t p (tcamRes e) x.slot else none]
  | .dset i m => rightIf (!g.holds p .dset i || (List.range 0x70).any (fun c => bit m c && !g.mayName p c))
  | .vlan _ _ => none
  | .pprof i _ => rightIf (!g.holds p .pprof i)
  | .tprof i e => firstFlaw (rightIf (!g.holds p .tprof i) ::
      (t.tab.routes.map (fun y => y.2.bind (fun r =>
        rightIf (resNames (routeRes r) .tprof i && imgLe (routeRes r) 12 1 % 8 != tpOwner e) [(Item.route r).slot]))) ++
      (t.tab.tcam.map (fun y =>
        rightIf (bit (tcamRes y.2) 7 && resNames (tcamRes y.2) .tprof i && imgLe (tcamRes y.2) 12 1 % 8 != tpOwner e) [(2, y.1)])))
  | .eprof i _ => rightIf (!g.holds p .eprof i)
  | .pin k _ => rightIf (keyPortMissing g p k)
  | .unpin k _ => rightIf (keyPortMissing g p k)
  | .gate n _ => rightIf (!g.holds p .port n)
  | .key i _ _ =>
    let k := t.keySlot i
    firstFlaw (rightIf (!g.holds p .key i) ::
      ((if ksType k = 3 then ksAlt k else none).bind (fun a =>
        firstFlaw [rightIf (!g.holds p .key a), refRights t a ⟨(10, i), ksOwner k, 3⟩])) ::
      (t.keyRefs g i).map (refRights t i))
  | .keyErase i => rightIf (!g.holds p .key i)
  | .node _ e => firstFlaw [rightIf (!g.holds p .port (ndPort e)),
      if ndMode e = 0 then none else (ndSlot e).bind (fun i =>
        firstFlaw [rightIf (!g.holds p .key i), refRights t i ⟨x.slot, nodeOwner g e, 0⟩])]
  | .nodeErase k _ => rightIf (!g.holds p .port (imgLe k 0 1))
  | .grant _ _ => rightIf (p != pm)
  | .window k e => rightIf (wnEnable e && !g.holds (Fin.ofNat 5 (k / 32)) .port (wnPort e))

/-! ### Quotas (R290) -/

/-- The items of a partition that add an entry of a kind: 0 a route, 1 a node, 2 a pinned record. -/
def adds (kind : Nat) (x : Item) : Bool :=
  match x with
  | .route _ => kind == 0
  | .node _ _ => kind == 1
  | .pin _ _ => kind == 2
  | _ => false

/-- What a partition uses of a kind in an epoch. -/
def State.used (t g : State) (kind : Nat) (p : Part) : Nat :=
  match kind with
  | 0 => routesUsed t.tab.routes p.val
  | 1 => nodesUsed (fun c => (g.portHolder c).val) t.tab.nodes p.val
  | _ => pinsUsed t.live.streams p.val

/-- A partition's quota of a kind. -/
def State.quota (g : State) (kind : Nat) (p : Part) : Nat :=
  match kind with
  | 0 => g.routeQuota p
  | 1 => g.nodeQuota p
  | _ => g.pinQuota p

/-- A partition's staging beyond a quota fails with TABLE_FULL. -/
def quotaFlaw (g t : State) (items : List Staged) : Option Flaw :=
  firstFlaw (allParts.flatMap (fun p => [0, 1, 2].map (fun kind =>
    let mine := (items.filter (fun y => y.by_ == p && adds kind y.item)).map (·.item.slot)
    flawIf (!mine.isEmpty && decide (g.quota kind p < t.used g kind p)) St.tableFull mine)))

/-! ### Conflicts (R223, R252, R290, R292) -/

/-- A conflict. -/
def conflictIf (bad : Bool) (slots : List (Nat × Nat) := []) : Option Flaw := flawIf bad St.conflict slots

/-- Whether two slots conflict (R223). -/
def slotsClash (i : Nat) (a : KeySlot) (j : Nat) (b : KeySlot) : Bool :=
  i != j && ksType a == ksType b &&
    match ksType a with
    | 1 => ksPort a == ksPort b && ksSci a == ksSci b && ksAn a == ksAn b
    | 2 => ksActive a && ksActive b && (ksPort a == ksPort b || ksSci a == ksSci b)
    | 3 => ksPort a == ksPort b && ksAn a == ksAn b && (ksAlt a == some j || ksAlt b == some i)
    | _ => false

/-- A slot's conflicts in an epoch. -/
def keyConflict (t : State) (i : Nat) : Option Flaw :=
  firstFlaw (t.tab.keys.map (fun x => conflictIf (slotsClash i (t.keySlot i) x.1 x.2) [(10, i), (10, x.1)]))

/-- A grant record's conflicts: an overlap with another's, a quota below the partition's use, a revoked resource that an entry
of the partition names without purge. -/
def grantConflict (s t : State) (x : Nat) : Option Flaw :=
  let p : Part := Fin.ofNat 5 x
  firstFlaw
    ((hostParts.map (fun q =>
        conflictIf (p != q && allKinds.any (fun k => (t.grant p).overlap (t.grant q) k)) [(12, p.val), (12, q.val)])) ++
      [conflictIf ([0, 1, 2].any (fun kind => decide (t.quota kind p < t.used t kind p))) [(12, p.val)],
       conflictIf ((revoked p (s.grant p) (t.grant p)).any (fun r => !r.new.purge && t.names r)) [(12, p.val)]])

/-- The conflict checks of an item. -/
def itemConflict (s t : State) (x : Item) : Option Flaw :=
  match x with
  | .reg k _ =>
    let o := k % 2 ^ 26 - 0x80_0000
    if 0x80_0000 ≤ k % 2 ^ 26 ∧ o < 0x4000 ∧ o % 0x100 = 4 then
      firstFlaw ((List.range 64).map (fun q =>
        conflictIf (t.regionsMeet (o / 0x100) q) [regSlot (R.capSiding (o / 0x100)), regSlot (R.capSiding q)]))
    else none
  | .key i _ _ => keyConflict t i
  | .grant p _ => grantConflict s t p
  | _ => none

/-! ### The verdict -/

/-- The ports that an item could name: the listed codes. -/
def itemGone (s : State) (x : Item) : Option Flaw :=
  flawIf (mediaPorts.any (fun c => s.retired c && x.namesPort s.logger c)) St.resourceGone

/-- The first flaw that a check finds among items in staging order; the item itself is concerned. -/
def scan (check : Staged → Option Flaw) (items : List Staged) : Option Flaw :=
  items.findSome? (fun y => (check y).map (fun f => { f with slots := y.item.slot :: f.slots }))

/-- Whether a slot is listed among those that found no entry or no place. -/
def listed (l : List (Nat × Nat)) (st : Byte) (y : Staged) : Option Flaw := flawIf (l.contains y.item.slot) st

/-- The first check of step 4 of R285 that fails: retired resources, ranges, rights, quotas, conflicts, placement, in this order; `b`
is what building the tables gave and `t` the new epoch after its purges. -/
def firstFailure (g s : State) (b : Built) (t : State) (items : List Staged) : Option Flaw :=
  firstFlaw
    [scan (fun y => itemGone s y.item) items,
     scan (fun y => itemRange g s t y.item) items,
     scan (fun y => itemRights g t y.by_ y.item) items,
     quotaFlaw g t items,
     scan (fun y => itemConflict s t y.item) items,
     scan (listed b.absent St.notFound) items,
     scan (listed b.full St.tableFull) items]

/-- The items with their staging indexes. -/
def indexed (items : List Staged) : List (Nat × Staged) := (List.range items.length).zip items

/-- The result of a pour whose check failed: the highest staging index among the items concerned, and the tag of its staging command
(R285). -/
def flawResult (items : List Staged) (f : Flaw) : Nat :=
  match ((indexed items).filter (fun x => f.slots.contains x.2.item.slot)).getLast? with
  | some x => x.1 + x.2.tag.toNat * 2 ^ 32
  | none => noItem

end Sys2Proof.Machine
end

