-- ==== Sys2Proof/Machine/Media.lean ====
section
/-! DEFINITION. Controllers of the CAN, LIN and FlexRay ports (R60 to R65), and their faults (R326). -/

namespace Sys2Proof.Machine

/-! ### CAN (R60); the counting rules of ISO 11898-1 are PRESUMED -/

/-- A controller's state: 0 error-active, 1 error-passive, 2 bus-off, 3 off. -/
def State.canState (s : State) (n : Nat) : Nat := s.fd (R.canStatus n) 17 16

/-- The controller goes bus-off: its queued frames and the one being sent are dropped under LINK_DOWN (R49). -/
def canBusOff (n : Fin 48) (s : State) : State :=
  if ¬ s.portUp (0x20 + n) then s
  else
    let s1 := (s.setFd (R.canStatus n) 17 16 2).count (R.canCnt n 4)
    (s1.linkLoss (0x20 + n)).startRemotes

def execCanBusOff (n : Fin 48) (s : State) : Res := .next (clocked (canBusOff n) s)

/-- 128 occurrences of 11 recessive bits: with auto_recover the controller is error-active again. -/
def canBusOffRecovered (n : Fin 48) (s : State) : State :=
  if s.canState n = 2 ∧ s.bt (R.canCfg n) 5 ∧ ¬ s.retired (0x20 + n) ∧ ¬ s.portsStopped then s.setRg (R.canStatus n) 0 else s

def execCanBusOffRecovered (n : Fin 48) (s : State) : Res := .next (clocked (canBusOffRecovered n) s)

/-! ### LIN (R61, R131) -/

/-- The protected identifier of a frame identifier (ISO 17987 parity, PRESUMED). -/
def linPid (id : Nat) : Nat :=
  let b := fun i => id >>> i % 2
  id % 64 + (b 0 + b 1 + b 2 + b 4) % 2 * 64 + (1 + b 1 + b 3 + b 4 + b 5) % 2 * 128

/-- The first copy of a queue whose frame is whole and has a PID. -/
def State.linMatch (s : State) (l : List Copy) (pid : Byte) : Option (Copy × Frame) :=
  l.findSome? (fun x =>
    match s.frame x.frame with
    | some f => if f.complete ∧ imgByte f.hslot 0 = pid then some (x, f) else none
    | none => none)

/-- The requesters of a LIN port's arbiter for a header: the queues that hold a frame with its PID (R61, R135). -/
def State.linReady (s : State) (c : Nat) (pid : Byte) : List Nat :=
  (List.range 8).filter (fun i => (s.linMatch ((s.egOf c).queue (7 - i)) pid).isSome)

/-- A header is on the bus: the QX publishes the response when a frame with that PID waits, otherwise another responder may. -/
def State.linServe (s : State) (n : Nat) (pid : Byte) (own : Bool) : State :=
  let c := 0x50 + n
  let wait := s.setLin n { s.lin n with header := some pid, own := own, publish := false }
  match s.pick (.other (BitVec.ofNat 8 c)) (s.linReady c pid) with
  | none => wait
  | some i =>
    let q := 7 - i
    match s.linMatch ((s.egOf c).queue q) pid with
    | none => wait
    | some (x, f) =>
      let s1 := (s.setLin n { s.lin n with header := none, own := own, publish := true }).granted (.other (BitVec.ofNat 8 c)) i 1
      ((s1.setQueue c q (((s1.egOf c).queue q).erase x)).startOther c x f).settleQueue c q

/-- Whether a commander's schedule holds slot `k`. -/
def State.linEnabled (s : State) (n k : Nat) : Bool := decide (k < 64) && s.bt (R.linSlot n k) 16

/-- A commander sends the header of a PID. -/
def State.linSend (s : State) (n : Nat) (pid : Byte) : State := (s.emit (.linHeader n pid)).linServe n pid true

/-- A slot boundary of a commander: an inserted bridge slot, or the next slot of the schedule. -/
def linScheduleSlot (n : Fin 24) (s : State) : State :=
  if s.fd (R.linCfg n) 1 0 ≠ 1 ∨ ¬ s.portUp (0x50 + n) ∨ (s.egOf (0x50 + n)).tx.isSome then s
  else
    let l := s.lin n
    match l.inserted with
    | (pid, _) :: r => (s.setLin n { l with inserted := r, header := none }).linSend n pid
    | [] =>
      let k := if s.linEnabled n l.slot then l.slot else 0
      if s.linEnabled n k then
        (s.setLin n { l with slot := k + 1, header := none }).linSend n (BitVec.ofNat 8 (linPid (s.fd (R.linSlot n k) 5 0)))
      else s

def execLinScheduleSlot (n : Fin 24) (s : State) : Res := .next (clocked (linScheduleSlot n) s)

/-- A responder receives a header; a rate more than 15 % away is counted and the header ignored. -/
def linHeaderReceived (n : Fin 24) (pid : Byte) (rate : Nat) (s : State) : State :=
  if s.fd (R.linCfg n) 1 0 ≠ 2 ∨ ¬ s.portUp (0x50 + n) ∨ (s.egOf (0x50 + n)).tx.isSome then s
  else
    let nom := s.fd (R.linCfg n) 30 16
    if 15 * nom < 100 * (max rate nom - min rate nom) then s.count (R.linCnt n 4) else s.linServe n pid false

def execLinHeaderReceived (n : Fin 24) (pid : Byte) (rate : Nat) (s : State) : Res := .next (clocked (linHeaderReceived n pid rate) s)

/-- A header receives no response. -/
def linResponseTimeout (n : Fin 24) (s : State) : State :=
  if (s.lin n).header.isSome then (s.setLin n { s.lin n with header := none }).count (R.linCnt n 3) else s

def execLinResponseTimeout (n : Fin 24) (s : State) : Res := .next (clocked (linResponseTimeout n) s)

/-! ### FlexRay (R62 to R65) -/

/-- The buffer of a channel and slot that sends in a cycle: a pour lets no two send in a common one (R65). -/
def State.frSlotBuffer (s : State) (f ch cycle slot : Nat) : Option Nat :=
  (s.frBuffersOf (0x68 + 2 * f + ch) slot).find? (fun b => s.frSends f b cycle)

/-- The header slot of a frame that a controller sends from a buffer: slot, cycle, indicators, channel, and payload length (R56, R65). -/
def State.frHeader (s : State) (f ch b cycle slot : Nat) (key : Bool) (len : Nat) : BitVec 128 :=
  let ind := boolNat (s.bt (R.frMbCfg f b) 14) + 2 * boolNat key + 4 * boolNat (key && s.bt (R.frCfg f) 2) + 8 * ch
  setImg (setImg (setImg (setImg 0 0 2 slot) 2 1 cycle) 3 1 ind) 6 2 len

/-- A waiting copy of a buffer is sent. -/
def State.frSend (s : State) (c b cycle slot : Nat) (key : Bool) : Option State :=
  let k := (c - 0x68) * 128 + b
  match kvGet none s.lnk.frWait k with
  | none => none
  | some x =>
    let t : State := { s with lnk.frWait := kvSet none s.lnk.frWait k none }
    let u := match t.frame x.frame with
      | some g => t.countUnstamped x g
      | none => t
    some (u.beginTx c { x with hslot := some (s.frHeader ((c - 0x68) / 2) ((c - 0x68) % 2) b cycle slot key x.len) } s.pPs)

/-- The minislots that a frame takes at 10 Mbit/s: header and trailer of 8 bytes, ten bits a byte, and the sequences around them
(ISO 17458, PRESUMED, log entry 44). -/
def State.frMinislots (s : State) (f len : Nat) : Nat :=
  ceilDiv ((10 * (8 + len) + 6) * 100) (max 1 (s.fd (R.frDyn f) 18 13 * s.fd (R.frCyc f) 18 16 * 1000))

/-- Whether what a buffer holds may be sent in a slot: always in the static segment, and in the dynamic one when it fits in the minislots
that are left. -/
def State.frFitsSlot (s : State) (c b slot left : Nat) : Bool :=
  let f := (c - 0x68) / 2
  decide (slot ≤ s.fd (R.frStatic f) 9 0) ||
    ((kvGet none s.lnk.frWait ((c - 0x68) * 128 + b)).map (fun x : Copy => decide (s.frMinislots f x.len ≤ left))).getD true

/-- What a controller sends in a slot: in its key slot the waiting copy of that slot's buffer or a null frame (R64); else the waiting copy
of the buffer that sends in this cycle, in the static segment a null frame when none waits (R65). -/
def State.frTransmit (s : State) (f ch cycle slot left : Nat) : State :=
  let c := 0x68 + 2 * f + ch
  let key := s.bt (R.frCfg f) 3 && s.fd (R.frNode f) 10 0 == slot
  let null := s.emit (.nullFrame (BitVec.ofNat 8 c) (BitVec.ofNat 11 slot))
  if key then
    let l := (s.frSlotBuffer f ch cycle slot).toList ++ s.frBuffersOf c slot
    (l.findSome? (fun b => s.frSend c b cycle slot true)).getD null
  else
    match s.frSlotBuffer f ch cycle slot with
    | none => s
    | some b =>
      if ¬ s.frFitsSlot c b slot left then s
      else (s.frSend c b cycle slot false).getD (if slot ≤ s.fd (R.frStatic f) 9 0 then null else s)

/-- A coldstart node that starts the cluster sends its startup frame in its key slot (R64). -/
def State.frStartup (s : State) (f slot : Nat) : Bool :=
  s.fd (R.frStatus f) 2 0 == 2 && s.bt (R.frCfg f) 2 && s.fd (R.frNode f) 10 0 == slot && !s.portsStopped && !s.retired (0x68 + 2 * f)

/-- A slot of a cycle begins on a channel, with so many minislots left in the dynamic segment; only a controller with mode = 0b01 that is in
normal-active, or a coldstart node in startup, transmits, on an enabled channel. -/
def frSlot (f : Fin 2) (chB : Bool) (cycle : BitVec 6) (slot : BitVec 11) (left : Nat) (s : State) : State :=
  let c := 0x68 + 2 * f.val + boolNat chB
  let sends := s.fd (R.frCfg f) 1 0 == 1 && s.bt (R.frCfg f) (4 + boolNat chB)
  if s.portUp c then
    let s1 := s.setFd (R.frStatus f) 9 4 cycle.toNat
    if s.fd (R.frStatus f) 2 0 ≠ 3 ∨ ¬ sends ∨ (s.egOf c).tx.isSome then s1
    else s1.frTransmit f (boolNat chB) cycle.toNat slot.toNat left
  else if sends ∧ s.frStartup f slot.toNat then
    (s.setFd (R.frStatus f) 9 4 cycle.toNat).emit (.nullFrame (BitVec.ofNat 8 c) slot)
  else s

def execFrSlot (f : Fin 2) (chB : Bool) (cycle : BitVec 6) (slot : SlotAt) (s : State) : Res :=
  .next (clocked (frSlot f chB cycle slot.slot slot.left) s)

/-- Both channels of a controller lose their link. -/
def State.frDown (s : State) (f : Nat) : State := (s.linkLoss (0x68 + 2 * f)).linkLoss (0x69 + 2 * f)

/-- The protocol operation control state changes: leaving normal-active or normal-passive takes the link down, and leaving
synchronised operation is counted on each enabled channel. -/
def frPocChange (f : Fin 2) (poc : Fin 6) (s : State) : State :=
  if s.fd (R.frCfg f) 1 0 = 0 ∨ s.retired (0x68 + 2 * f) ∨ s.portsStopped then s
  else
    let old := s.fd (R.frStatus f) 2 0
    let lost := (old = 3 ∧ (poc.val = 4 ∨ poc.val = 5)) ∨ (old = 4 ∧ poc.val = 5)
    let s1 := s.setFd (R.frStatus f) 2 0 poc.val
    let s2 := if lost then [0, 1].foldl (fun a ch => if a.bt (R.frCfg f) (4 + ch) then a.count (R.frCnt f ch 5) else a) s1 else s1
    if (old = 3 ∨ old = 4) ∧ poc.val ≠ 3 ∧ poc.val ≠ 4 then (s2.frDown f).startRemotes else s2

def execFrPocChange (f : Fin 2) (poc : Fin 6) (s : State) : Res := .next (clocked (frPocChange f poc) s)

/-! ### Controller faults (R326, R329) -/

/-- A controller restarts: its frame in progress is lost as a bus error, which only CAN counts (R60, R70; log entry 44), a transmitted frame
is tried again, and it reintegrates. -/
def State.restartCtrl (s : State) (c : Nat) : State :=
  let s0 := if isBus c ∧ s.boundsOf c ≠ [] then busReceiveError c .format s else s
  let s1 := match (s0.egOf c).tx with
    | some t => s0.txRetry c t
    | none => s0
  let s2 := if isS c then s1.abortRx c else s1.setBounds c []
  if isC c then (if s2.canState (c - 0x20) = 3 then s2 else s2.setRg (R.canStatus (c - 0x20)) 0)
  else if isL c then s2.setLin (c - 0x50) { s2.lin (c - 0x50) with header := none }
  else if isF c then
    let f := (c - 0x68) / 2
    if s2.fd (R.frCfg f) 1 0 = 0 then s2 else (s2.setFd (R.frStatus f) 2 0 2).frDown f
  else s2

/-- A controller's checker reports a mismatch; the second within 1 s retires the port. -/
def busCtrlFault (c : Nat) (s : State) : State :=
  if s.retired c then s
  else
    let u : RetryUnit := .busPort (BitVec.ofNat 8 (if isF c then 0x68 + (c - 0x68) / 2 * 2 else c))
    let s1 := s.countFault u
    if 2 ≤ s1.faults u then s1.retirePort c
    else ((s1.restartCtrl c).report 0x0604 kTransient 0xFF c c).startRemotes

def execBusCtrlFault (c : PortCode) (s : State) : Res :=
  if isBus c.toNat ∨ isS c.toNat then .next (clocked (busCtrlFault c.toNat) s) else .fault (.operandOutsideSpec "BUS_CTRL_FAULT")

end Sys2Proof.Machine
end

