-- ==== Sys2Proof/Machine/Turntables.lean ====
section
/-! DEFINITION. Turntables and trigger outputs (07_turntables.md): commands, edges, stalls and trigger edges. -/

namespace Sys2Proof.Machine

/-! ### Commands (R279) -/

/-- TT_PHASE_AT: the phase word of φ at an instant within 1 ms of now. -/
def ttPhaseAtBody (p : Part) (d : CmdDesc) (s : State) : Ans :=
  let t := d.le 8 8
  if 16 ≤ d.b 0 then fail s St.badParam
  else onTarget p d .tt (d.b 0) (fun s =>
    if s.pNs + 1000000 < t ∨ t + 1000000 < s.pNs then fail s St.badParam
    else { s := s, result := (s.phaseWord (d.b 0) t).toNat + boolNat (s.ttState (d.b 0) == ttTracking) * 2 ^ 32 }) s

/-- The form of TT_PHASE_AT. -/
def ttPhaseAtForm (d : CmdDesc) : Form := { kind := .immediate, size := fun l => l == 16, clean := d.le 1 7 == 0 }

def execTtPhaseAt (p : Part) (d : CmdDesc) (s : State) : Res :=
  .next (runCommand (ttPhaseAtForm d) p d (ttPhaseAtBody p d) s)

/-- TT_NEXT_CROSS: the predicted instant of the next crossing. While the estimate does not move that way the spec predicts no
instant: a free value. -/
def ttNextCrossBody (p : Part) (d : CmdDesc) (s : State) : Ans :=
  if 16 ≤ d.b 0 ∨ 1 < d.b 1 ∨ 2 ^ 24 ≤ d.le 4 4 then fail s St.badParam
  else onTarget p d .tt (d.b 0) (fun s =>
    if s.ttState (d.b 0) ≠ ttTracking then fail s St.notFound
    else match s.nextCross (d.b 0) (d.b 1 == 1) (d.le 4 4) with
      | some t => { s := s, result := t }
      | none => { s := (drawNat s).2, result := (drawNat s).1 }) s

/-- The form of TT_NEXT_CROSS. -/
def ttNextCrossForm (d : CmdDesc) : Form := { kind := .immediate, size := fun l => l == 8, clean := d.le 2 2 == 0 }

def execTtNextCross (p : Part) (d : CmdDesc) (s : State) : Res :=
  .next (runCommand (ttNextCrossForm d) p d (ttNextCrossBody p d) s)

/-- A read of PHW_TTn_PHASE: the phase word now, and its stamp into PHW_TTn_PSTAMP of the master's copy. -/
def State.phaseNow (s : State) (copy : Part) (n : Nat) : W32 × State :=
  (s.phaseWord n s.pNs, s.setRgp copy (R.ttPstamp n) (BitVec.ofNat 32 s.pNs))

def ttPhaseRead (p : Part) (n : Fin 16) (s : State) : State :=
  let (w, t) := s.phaseNow p n
  answer p (R.ttPhase n) (w.setWidth 64) t

def execTtPhaseRead (p : Part) (n : Fin 16) (s : State) : Res :=
  .next (onRead p (R.ttPhase n) (ttPhaseRead p n) s)

/-! ### States (R198) -/

/-- A turntable's state register field changes. -/
def State.setTtState (s : State) (n st : Nat) : State := s.setFd (R.ttStatus n) 1 0 st

/-- The velocity register follows the loop. -/
def State.setVel (s : State) (n : Nat) (v : Int) : State := s.setRg (R.ttVel n) (velWord (s.cpr n) v)

/-- The ready phase pours on a turntable look for their crossing from a phase on, or wait for the turntable to track (R207, R208). -/
def State.markPours (s : State) (n : Nat) (m : Option Int) : State :=
  { s with cmd.pours := s.cmd.pours.map (fun x =>
      match x.bound with
      | .phase k _ => if x.ready ∧ k.val = n then { x with mark := m } else x
      | _ => x) }

/-- The span of TRACKING that is on ends now. -/
def endSpan (now : W64) : List (W64 × Option W64) → List (W64 × Option W64)
  | (a, none) :: r => (a, some now) :: r
  | l => l

/-- A turntable leaves TRACKING: lost, TT_LOST_TRACK, and fallback gates (R150, R198). -/
def State.leaveTracking (s : State) (n : Nat) : State :=
  if s.ttState n = ttTracking then
    let s1 := s.setTt n { s.tt n with spans := endSpan s.extP (s.tt n).spans }
    (((s1.setBt (R.ttStatus n) 4 true).count (R.ttCnt n 10)).markPours n none).gatesLost n
  else s

/-- A turntable enters ACQUIRE: a new run of edges starts, and no index counts yet (R198). -/
def State.enterAcquire (s : State) (n : Nat) : State :=
  let t := ((s.leaveTracking n).setTtState n ttAcquire).setVel n 0
  t.setTt n { t.tt n with acqN := 0, idxSeen := false, extras := 0 }

/-- A turntable enters TRACKING at its last counted edge, with the loop of the acquisition run (R198). A run whose first and last
edge carry the same stamp has no stated velocity: a free value. -/
def State.enterTracking (s : State) (n : Nat) (t : W64) : State :=
  let x := s.tt n
  let dt : Int := (t.toNat : Int) - x.acqT.toNat
  let (k, s0) := if dt = 0 then drawNat s else (0, s)
  let v : Int := if dt = 0 then k else (x.p - x.acqP) * 2 ^ 64 / dt
  let s1 := (s0.setTtState n ttTracking).setVel n v
  let l : Loop := { t := t, phi := x.p * 2 ^ 32, v := v, p := x.p, upd := t }
  let s2 := s1.setTt n { x with loops := (l :: x.loops).take 4, spans := ((t, none) :: x.spans).take 4, extras := 0 }
  (s2.markPours n (some (s2.phi n s2.pNs))).gatesResume n

/-- A turntable enters STALLED: the estimate is frozen and the velocity is 0 (R198). -/
def State.enterStalled (s : State) (n : Nat) : State :=
  let phi := s.phi n s.pNs
  let s1 := ((s.leaveTracking n).setTtState n ttStalled).setVel n 0
  let s2 := (s1.setBt (R.ttStatus n) 5 true).count (R.ttCnt n 9)
  let x := s2.tt n
  s2.setTt n { x with loops := ({ t := s.extP, phi := phi, v := 0, p := x.p, upd := s.extP } :: x.loops).take 4 }

/-- No counted edge for the stall time: from ACQUIRE or TRACKING to STALLED (R198). -/
def ttStallTimeout (n : Fin 16) (s : State) : State :=
  if s.ttState n = ttAcquire ∨ s.ttState n = ttTracking then s.enterStalled n else s

def execTtStallTimeout (n : Fin 16) (s : State) : Res := .next (clocked (ttStallTimeout n) s)

/-! ### Index (R203) -/

/-- Whether the turntable uses its index input: idx_en, forced to 1 in line sync. -/
def State.idxOn (s : State) (n : Nat) : Bool := s.bt (R.ttCfg n) 5 || s.ttMode n == 2

/-- An index edge: it waits for the first counted edge at or after it, that which takes an enabled turntable out of OFF too. Discarded pulses count as glitches (R196). -/
def ttIndexEdge (n : Fin 16) (glitches : Nat) (s : State) : State :=
  if s.ttState n = ttOff ∧ ¬ s.bt (R.ttCfg n) 0 then s
  else
    let s0 := s.count (R.ttCnt n 1) glitches
    if s0.idxOn n then
      let (t, s1) := stampWithin 3 s0
      s1.setTt n { s1.tt n with idxPend := some (BitVec.ofNat 64 t) }
    else s0

def execTtIndexEdge (n : Fin 16) (glitches : Nat) (s : State) : Res := .next (clocked (ttIndexEdge n glitches) s)

/-- d = idx_pos − (p mod cpr), reduced into −cpr/2 < d ≤ cpr/2 (R203). -/
def idxDiff (pos p cpr : Int) : Int :=
  let d := (pos - p) % cpr
  if cpr < 2 * d then d - cpr else d

/-- The newest loop state moved by `d` edges. -/
def shiftPhi (l : List Loop) (d : Int) : List Loop :=
  match l with
  | [] => []
  | x :: r => { x with phi := x.phi + d * 2 ^ 32, p := x.p + d } :: r

/-- The pending index applies at a counted edge (R203). -/
def State.applyIndex (s : State) (n : Nat) : State :=
  let x := s.tt n
  match x.idxPend with
  | none => s
  | some t =>
    let d := idxDiff (s.fd (R.ttIdx n) 19 0) x.p (s.cpr n)
    let big := decide (s.fd (R.ttIdx n) 27 20 < d.natAbs)
    let y := { x with p := x.p + d, acqP := x.acqP + d, idxPend := none, idxSeen := true, idxEver := true, idxP := x.p + d }
    let s1 := (s.setRg (R.ttIdxStamp n) (t.setWidth 32)).setBt (R.ttStatus n) 3 false
    if ¬ x.idxEver ∨ d = 0 then s1.setTt n y
    else if big then
      let s2 := (s1.setTt n y).count (R.ttCnt n 7)
      if s.ttState n = ttTracking then s2.enterAcquire n else s2
    else ((s1.setTt n { y with loops := shiftPhi x.loops d }).count (R.ttCnt n 6))

/-- p has moved 2 × cpr since the last accepted index: idx_lost, and TT_IDX_LOST once (R203). -/
def State.checkIndexLost (s : State) (n : Nat) : State :=
  let x := s.tt n
  if x.idxEver ∧ ¬ s.bt (R.ttStatus n) 3 ∧ 2 * s.cpr n ≤ (x.p - x.idxP).natAbs then
    (s.setBt (R.ttStatus n) 3 true).count (R.ttCnt n 8)
  else s

/-! ### The tracking loop (R199) -/

/-- The loop's gains in units of 2^-14. -/
def State.alpha (s : State) (n : Nat) : Nat := s.fd (R.ttGain n) 15 0
def State.beta (s : State) (n : Nat) : Nat := s.fd (R.ttGain n) 31 16

/-- One update of the loop at an edge with stamp `t` and position `p`; φ is held finer than 2^-16 edge (R197), its rounding a free
value below 2^-17 edge either way. -/
def State.updateLoop (s : State) (n : Nat) (t : W64) : State :=
  let x := s.tt n
  match x.loops with
  | [] => s
  | l :: _ =>
    let dt : Int := (t.toNat : Int) - l.upd.toNat
    if dt ≤ 0 then s
    else
      let (k, s0) := drawNat s
      let pred := l.phi + l.v * ((t.toNat : Int) - l.t.toNat) / 2 ^ 32
      let r := x.p * 2 ^ 32 - pred
      let phi := pred + s.alpha n * r / 2 ^ 14 + ((k % 2 ^ 16 : Nat) - 2 ^ 15 : Int)
      let v := l.v + s.beta n * r * 2 ^ 18 / dt
      (s0.setVel n v).setTt n { x with loops := ({ t := t, phi := phi, v := v, p := x.p, upd := t } :: x.loops).take 4 }

/-- A counted edge that does not update the loop: the extrapolation goes on from it, at its position (R196, R201). -/
def State.carryLoop (s : State) (n : Nat) (t : W64) : State :=
  let x := s.tt n
  match x.loops with
  | [] => s
  | l :: _ =>
    let phi := l.phi + l.v * ((t.toNat : Int) - l.t.toNat) / 2 ^ 32
    s.setTt n { x with loops := ({ l with t := t, phi := phi, p := x.p } :: x.loops).take 4 }

/-- The loop after a counted edge in TRACKING: an edge too near to the one before does not update it (R196). -/
def State.loopEdge (s : State) (n : Nat) (t : W64) (near : Bool) : State := if near then s.carryLoop n t else s.updateLoop n t

/-! ### A counted edge (R195 to R203) -/

/-- What the interval test of R201 says of an edge. -/
inductive EdgeCase where
  | extra
  | normal
  | missing (m : Nat)
  | tooMany (m : Nat)
  deriving DecidableEq, Repr

/-- The interval test of R201: Δ in ns against T̂ = 1 / |v|, with w = win / 16 and m = ⌊Δ / T̂ + 0.5⌋ − 1. -/
def edgeCase (win maxMiss : Nat) (v : Int) (dt : Nat) : EdgeCase :=
  let x := dt * v.natAbs
  let m := (x + 2 ^ 63) / 2 ^ 64 - 1
  if x * 16 < (16 - win) * 2 ^ 64 then .extra
  else if x * 16 ≤ (16 + win) * 2 ^ 64 ∨ m = 0 then .normal
  else if m ≤ maxMiss then .missing m
  else .tooMany m

/-- The edge is counted: `k` positions in a direction, its stamp, TT_EDGES and the direction bit. -/
def State.countEdge (s : State) (n : Nat) (t : W64) (k : Nat) (down : Bool) : State :=
  let x := s.tt n
  let p := if x.first then 0 else if down then x.p - k else x.p + k
  let s1 := ((s.count (R.ttCnt n 0)).setRg (R.ttEdge n) (t.setWidth 32)).setBt (R.ttStatus n) 2 down
  s1.setTt n { x with p := p, first := false, lastEdge := some t, extras := 0 }

/-- A turntable that leaves OFF starts at position 0; an index that waits for its first counted edge, and what past instants may ask for,
stay (R197, R200, R203). -/
def Turntable.restart (x : Turntable) : Turntable := { idxPend := x.idxPend, loops := x.loops, spans := x.spans }

/-- One edge of the acquisition run: a change of direction starts the run again (R198). -/
def State.acquireEdge (s : State) (n : Nat) (t : W64) (turned : Bool) : State :=
  let x := s.tt n
  if x.acqN = 0 ∨ turned then s.setTt n { x with acqN := 1, acqP := x.p, acqT := t }
  else s.setTt n { x with acqN := x.acqN + 1 }

/-- From ACQUIRE to TRACKING: acq_edges in one direction, and an index where one is required (R198). -/
def State.tryTrack (s : State) (n : Nat) (t : W64) : State :=
  let x := s.tt n
  let need := s.bt (R.ttCfg n) 7 || s.ttMode n == 2
  if s.ttState n = ttAcquire ∧ s.fd (R.ttCfg n) 23 16 ≤ x.acqN ∧ (need → x.idxSeen) then s.enterTracking n t else s

/-- A counted edge in TRACKING in single-edge and line-sync modes, under the interval test (R201). -/
def State.trackEdge (s : State) (n : Nat) (t : W64) (near : Bool) : State :=
  let x := s.tt n
  let dt := t.toNat - (x.lastEdge.getD t).toNat
  let blank := s.ttMode n == 2 && decide (x.p % (s.cpr n : Int) = (s.cpr n : Int) - 1)
  if blank then (s.countEdge n t 1 false).carryLoop n t
  else
    match edgeCase (s.fd (R.ttCfg n) 27 24) (s.fd (R.ttCfg n) 30 28) (s.velocity n) dt with
    | .extra =>
      let s1 := (s.count (R.ttCnt n 2)).setTt n { x with extras := x.extras + 1 }
      if x.extras + 1 = 4 then s1.enterAcquire n else s1
    | .normal => (s.countEdge n t 1 false).loopEdge n t near
    | .missing m => ((s.countEdge n t (m + 1) false).count (R.ttCnt n 3) m).loopEdge n t near
    | .tooMany m => ((s.countEdge n t (m + 1) false).count (R.ttCnt n 3) m).enterAcquire n

/-- A counted edge in quadrature, or in any mode outside TRACKING (R197, R198, R202). -/
def State.plainEdge (s : State) (n : Nat) (t : W64) (k : Nat) (down : Bool) (near : Bool) : State :=
  let turned := decide ((s.tt n).first = false) && down != s.bt (R.ttStatus n) 2
  let s1 := s.countEdge n t k down
  if s.ttState n = ttTracking then
    if turned then ((s1.count (R.ttCnt n 5)).enterAcquire n).acquireEdge n t true
    else s1.loopEdge n t near
  else
    let s2 := if s.ttState n = ttStalled then s1.enterAcquire n else s1
    s2.acquireEdge n t turned

/-- A filtered edge of TTn_A or TTn_B (R195 to R203). Discarded pulses count as glitches; an edge less than 48 ns after the
previous counted one does not update the loop (R196). An enabled turntable leaves OFF at its first counted edge (R206). -/
def ttCountedEdge (n : Fin 16) (aLeads both : Bool) (glitches : Nat) (r : State) : State :=
  if r.ttState n = ttOff ∧ ¬ r.bt (R.ttCfg n) 0 then r
  else
    let s := if r.ttState n = ttOff then (r.setTtState n ttAcquire).setTt n (r.tt n).restart else r
    let (tn, s0) := stampWithin 3 (s.count (R.ttCnt n 1) glitches)
    let t : W64 := BitVec.ofNat 64 tn
    let near := match (s0.tt n).lastEdge with
      | some l => decide (tn < l.toNat + 48)
      | none => false
    let quad := s.ttMode n == 0
    let skip := quad && both
    let down := quad && (if both then s.bt (R.ttStatus n) 2 else aLeads == s.bt (R.ttCfg n) 4)
    let s1 := if skip then s0.count (R.ttCnt n 4) else s0
    let extra := !quad && s.ttState n == ttTracking
    let s2 := if extra then s1.trackEdge n t near else s1.plainEdge n t (if skip then 2 else 1) down near
    if (s2.tt n).lastEdge = some t then ((s2.applyIndex n).checkIndexLost n).tryTrack n t else s2

def execTtCountedEdge (n : Fin 16) (aLeads : Bool) (both : Bool) (glitches : Nat) (s : State) : Res :=
  .next (clocked (ttCountedEdge n aLeads both glitches) s)

/-! ### Trigger outputs (R209 to R212) -/

/-- The level of a trigger pin when active: pol = 1 is active low. -/
def State.trgLevel (s : State) (m : Nat) (active : Bool) : Bool := active != s.bt (R.trgCfg m) 8

/-- A trigger pin takes its active or inactive level. -/
def State.driveTrg (s : State) (m : Nat) (active : Bool) : State :=
  let l := s.trgLevel m active
  let s1 := s.setBt (R.trgStat m) 0 active
  ({ s1 with pins.trg := setBit s1.pins.trg m l }).emit (.trigger m l)

/-- A pulse starts: the pin is active for width × 4 ns, and PHW_TRGm_COUNT counts it (R209). -/
def State.firePulse (s : State) (m : Nat) : State :=
  let s1 := (s.driveTrg m true).count (R.trgCount m)
  s1.setTrg m { s1.trg m with width := s.fd (R.trgWidth m) 23 0 }

/-- A crossing or instant of an armed trigger: while the pin is active it is not issued, and overlap is set (R210). -/
def State.issuePulse (s : State) (m : Nat) : State :=
  if s.bt (R.trgStat m) 0 then s.setBt (R.trgStat m) 2 true else s.firePulse m

/-- The revolution count of the crossing of fraction `f` nearest to a phase in 2^-24 revolution. -/
def nearestRev (x : Int) (f : Nat) : Int := (x - f + 2 ^ 23) / 2 ^ 24

/-- Whether an active edge is late: it falls less than 24 ns after the loop update that made it, no later than 40 ns after the
edge; when the update itself comes is a free value from 12 to 40 ns (R210). -/
def State.lateEdge (s : State) (n : Nat) (turns24 : Int) (lead k : Nat) : Bool :=
  match (s.tt n).loops with
  | [] => false
  | l :: _ =>
    let d := turns24 * s.cpr n * 2 ^ 8 - l.phi
    decide (d * 2 ^ 32 < (lead + 24 + 12 + k % 29 : Nat) * (l.v.natAbs : Int) * (if l.v < 0 then -1 else 1)) == decide (0 ≤ l.v)

/-- The active edge of a trigger on a turntable (R209, R210): only while armed and in TRACKING, in its direction, on its
revolutions, and at most once each way per revolution count (R207). -/
def triggerActiveEdge (m : Fin 32) (s : State) : State :=
  let n := s.fd (R.trgCfg m) 5 2
  let dir := s.fd (R.trgCfg m) 7 6
  let lead := s.fd (R.trgCfg m) 29 20
  let f := s.fd (R.trgTgt m) 23 0
  let rev := nearestRev (s.turns n (s.phi n (s.pNs + lead))) f
  let down := decide (s.velocity n < 0)
  let div := s.fd (R.trgCfg m) 11 9
  if s.bt (R.trgCfg m) 0 ∧ ¬ s.bt (R.trgCfg m) 1 ∧ s.ttState n = ttTracking ∧
      (dir = 2 ∨ dir = (if down then 1 else 0)) ∧ ¬ (s.trg m).seen.contains (rev, down) then
    let (k, s0) := drawNat s
    let s1 := s0.setTrg m { s0.trg m with seen := (rev, down) :: (s0.trg m).seen }
    if (rev % 2 ^ div).toNat ≠ s.fd (R.trgCfg m) 18 12 % 2 ^ div then s1
    else
      let late := s.lateEdge n (rev * 2 ^ 24 + f) lead k && !s.bt (R.trgStat m) 0
      let s2 := if late then (s1.setBt (R.trgStat m) 1 true).count R.trgLate else s1
      s2.issuePulse m
  else s

def execTriggerActiveEdge (m : Fin 32) (s : State) : Res := .next (clocked (triggerActiveEdge m) s)

/-- The base of a trigger's instants on presented time (R211). -/
def State.trgBase (s : State) (m : Nat) : Nat := (s.rg (R.trgBaseLo m)).toNat + (s.rg (R.trgBaseHi m)).toNat * 2 ^ 32

/-- The latest presented time of which the present instant can be the lead (log entry 33). -/
def State.trgNow (s : State) (m : Nat) : Nat := s.pNs + s.fd (R.trgCfg m) 29 20 + 3

/-- k of the last instant base + k × period of presented time, less lead_ns, that has come (R209, R211). -/
def State.trgIndex (s : State) (m : Nat) : Nat := (s.trgNow m - s.trgBase m) / max 1 (s.rg (R.trgPeriod m)).toNat

/-- Whether an instant is now, within ±3 ns (R209, R211). -/
def State.atInstant (s : State) (m : Nat) : Bool :=
  decide (s.trgBase m ≤ s.trgNow m) && decide ((s.trgNow m - s.trgBase m) % max 1 (s.rg (R.trgPeriod m)).toNat ≤ 6)

/-- An instant base + k × period of a trigger on presented time: it fires once for each k (R211). -/
def timeTrigger (m : Fin 32) (s : State) : State :=
  let k : Int := s.trgIndex m
  if s.bt (R.trgCfg m) 0 ∧ s.bt (R.trgCfg m) 1 ∧ s.atInstant m ∧ ¬ (s.trg m).seen.contains (k, false) then
    (s.setTrg m { s.trg m with seen := [(k, false)] }).issuePulse m
  else s

def execTimeTrigger (m : Fin 32) (s : State) : Res := .next (clocked (timeTrigger m) s)

/-- The end of a pulse: the pin takes its inactive level (R209, R212). -/
def triggerInactiveEdge (m : Fin 32) (s : State) : State :=
  if s.bt (R.trgStat m) 0 then s.driveTrg m false else s

def execTriggerInactiveEdge (m : Fin 32) (s : State) : Res := .next (clocked (triggerInactiveEdge m) s)

end Sys2Proof.Machine
end

