-- ==== Sys2Proof/Machine/Units.lean ====
section
/-! DEFINITION. Faults of the datapath units, their disposal and retirement, and rolling self-test (R326 to R329, R335 to R337). -/

namespace Sys2Proof.Machine

/-! ### Frames that a fault takes (R327) -/

/-- How many copies of a frame wait unstarted: granted and waiting for the line, queued, committed, in FlexRay buffers, and for the tunnelling engine. -/
def State.unstarted (s : State) (id : Nat) : Nat :=
  (s.fwd.eg.filter (fun e => (e.2.next.map (fun t : Tx => t.copy.frame == id)).getD false)).length +
  (s.fwd.eg.flatMap (fun e => e.2.queues.flatMap (fun q => q.2.filter (fun x => x.frame == id)))).length +
    (s.fwd.eg.filter (fun e => (e.2.commit.map (fun m : Commit => m.copy.frame == id && !m.launched)).getD false)).length +
    (s.lnk.frWait.filter (fun w => (w.2.map (fun x : Copy => x.frame == id)).getD false)).length +
    (s.fwd.tunQ.filter (fun t => t.frame == id)).length

/-- A started copy ends: under CT_STOMP on Ethernet, under TX_FAIL on another medium. -/
def State.endStarted (s : State) (c id : Nat) : State :=
  if isES c then s.stompPort c id
  else match (s.egOf c).tx with
    | some t => if t.copy.frame = id then s.txAbort c 0x1A t else s
    | none => s

/-- The slices' work on a frame's verification is given up. -/
def State.dropWork (s : State) (id : Nat) : State := { s with cry.work := s.cry.work.filter (fun w => w.use != .verify id) }

/-- A record in progress is closed by a word of zeros and counted as lost; its lane goes on to the next (R323, R327). -/
def State.closeWrite (s : State) (q : Nat) : State := ((s.setCapq q { s.capq q with writing := [closingWord], writes := none }).capLost q).pump q

/-- The records in progress of a frame are closed. -/
def State.closeWriting (s : State) (id : Nat) : State :=
  ((kvKeys s.cap.qs).filter (fun q => (s.capq q).writes == some id)).foldl (fun a q => a.closeWrite q) s

/-- A frame that lost a cell: each copy that has not started is dropped under RX_ERROR, a started one ends, its capture copies go. -/
def State.loseFrame (s : State) (f : Frame) : State :=
  let n := s.unstarted f.id + boolNat (!f.branched)
  let s1 := (s.countWide (R.dropCnt 1) n).pullCaptures f.id
  let s2 : State := { s1 with
    fwd.tunQ := s1.fwd.tunQ.filter (fun t => t.frame != f.id)
    lnk.frWait := s1.lnk.frWait.filter (fun w => !((w.2.map (fun x : Copy => x.frame == f.id)).getD false)) }
  let s3 := (kvKeys s2.fwd.eg).foldl (fun a c => (((a.pullPort c f.id).pullCommit c f.id).pullNext c f.id).endStarted c f.id) s2
  let s4 := (kvKeys s3.lnk.rx).foldl (fun a c =>
    a.setRx c ((a.rxOf c).map (fun x => if x.frame = some f.id then { x with frame := none } else x))) s3
  let s5 := (s4.dropWork f.id).closeWriting f.id
  (match s5.frame f.id with
    | some g => s5.freeFrame g
    | none => s5).runOrder f.desc.ingress.toNat

/-- Every frame with a cell in a bank is disposed of. -/
def State.loseBank (s : State) (b : Fin 16) : State :=
  (s.fwd.frames.filter (fun f => f.banks.contains b)).foldl (fun a f => a.loseFrame f) s

/-! ### Retirement of units (R326, R336) -/

/-- A bank is retired. -/
def State.retireBank (s : State) (b : Fin 16) : State :=
  if s.bt R.retDp (4 + b) then s
  else (((s.setBt R.retDp (4 + b) true).loseBank b).report 0x0506 kPermanent 0xFF b b true).setFault 7

/-- A parser lane is retired. -/
def State.retireParser (s : State) (n : Nat) : State :=
  if s.bt R.retDp n then s else ((s.setBt R.retDp n true).report 0x0505 kPermanent 0xFF n n true).setFault 6

/-- A ladle lane is retired. -/
def State.retireLadle (s : State) (n : Nat) : State :=
  if s.bt R.retDp (20 + n) then s else ((s.setBt R.retDp (20 + n) true).report 0x0806 kPermanent 0xFF n n true).setFault 9

/-- The enabled slices: as many surviving ones as the band's slices field asks for, the lowest first (R162, R336). -/
def State.enableSlices (s : State) : State :=
  let live := ((List.range 8).filter (fun n => !s.bt R.sliceStatus (8 + n))).take (fld s.policy 27 24)
  s.setFd R.sliceStatus 7 0 (live.foldl (fun a n => a + 2 ^ n) 0)

/-- An AES slice is retired (CRY_SLICE_STATUS.retired). -/
def State.retireSlice (s : State) (n : Nat) : State :=
  if s.bt R.sliceStatus (8 + n) then s
  else ((s.setBt R.sliceStatus (8 + n) true).enableSlices.report 0x0702 kPermanent 0xFF n n true).setFault 2

/-- The packing of a memory and a number within it (R396). -/
def memDetail (mem n : Nat) : Nat := mem + n % 2 ^ 32 * 2 ^ 32

/-- A segment moves to its memory's repair spare, then to its rotation spare; with both used the move is not made (R324, R345). -/
def State.moveSegment (s : State) (mem seg : Nat) : State :=
  let n := kvGet 0 s.err.spares mem
  let s1 : State := if n < 2 then
      { s.setFd R.retSeg 15 0 (s.fd R.retSeg 15 0 + 1) with err.spares := kvSet 0 s.err.spares mem (n + 1) }
    else s
  (s1.report 0x0504 kPermanent 0xFF 0xFF (memDetail mem seg) true).setFault 8

/-- A segment moves whose number the spec does not fix: a free value. -/
def State.moveSome (s : State) (mem : Nat) : State :=
  let (k, t) := drawNat s
  t.moveSegment mem k

/-! ### The faults of DATAPATH_UNIT_FAULT -/

/-- The record that a ladle lane writes is closed by a word of zeros and counted as lost (R323). -/
def State.closeRecord (s : State) (lane : Nat) : State :=
  match kvGet none s.cap.ladleBusy lane with
  | none => s
  | some q => s.closeWrite q

/-- The frame of an uncorrectable cell: the one whose first cell it is, else a free choice among the frames with a cell in its
bank, or none. -/
def State.cellFrame (s : State) (index : BitVec 19) : Option Frame × State :=
  match s.fwd.frames.find? (fun f => fld f.desc.buffer 18 0 == index.toNat && !f.banks.isEmpty) with
  | some f => (some f, s)
  | none =>
    let l := s.fwd.frames.filter (fun f => f.banks.contains (Fin.ofNat 16 index.toNat))
    let (k, t) := drawNat s
    (l[k % (l.length + 1)]?, t)

/-- A packet buffer cell fails: its frame is lost, and the third such cell of a bank within 1 s retires the bank. -/
def State.cellFault (s : State) (index : BitVec 19) : State :=
  let b : Fin 16 := Fin.ofNat 16 index.toNat
  let (f, s1) := s.cellFrame index
  let s2 := match f with
    | some g => s1.loseFrame g
    | none => s1
  let s3 := (s2.report 0x0502 kTransient 0xFF b index.toNat).countFault (.bank b)
  if 3 ≤ s3.faults (.bank b) then s3.retireBank b else s3

/-- A hardware-owned node field fails: the surviving copy takes its place, or freshness is at its end and the segment moves. -/
def State.nodeFault (s : State) (i : Nat) (both : Bool) : State :=
  if both then
    match kvGet none s.tab.nodes i with
    | some e => (s.setNode i (setImg e 8 6 0xFFFF_FFFF_FFFF)).moveSome 3
    | none => s.moveSome 3
  else
    match kvGet none s.live.nodeCopy i with
    | some e => s.setNode i e
    | none => s

/-- A key slot word fails: the slot is marked failed (R326). -/
def State.keyFault (s : State) (i : Nat) : State :=
  ({ s with live.keyFailed := kvSet false s.live.keyFailed i true }).report 0x0707 kTransient (s.holder .key i).val 0xFF i

/-- The frames that a parser lane is classifying are dropped under RX_ERROR (R326). -/
def State.dropLane (s : State) (n : Nat) : State :=
  (s.fwd.frames.filter (fun f => f.lane == n && !f.branched)).foldl (fun a f =>
    ((a.dropWork f.id).dropEarly f 0x01).runOrder f.desc.ingress.toNat) s

/-- The offsets of the event counters: registers that count, each half of a 64-bit one (R51, R70, R101, R134, R193, R214, R241 and the
counters of GTE, CAP, PWR and ERR). -/
def counterReg (o : Nat) : Bool :=
  let within := fun (a b : Nat) => decide (a ≤ o) && decide (o < b)
  o % 4 == 0 &&
    (within 0x20_0500 0x20_0528 || (within 0x30_0000 0x30_1000 && decide (0x40 ≤ o % 0x100 ∧ o % 0x100 < 0x6C)) ||
      (within 0x30_1000 0x30_1400 && o % 0x20 == 0x1C) || o == R.trgLate || (within 0x40_0000 0x40_1000 && o % 0x100 == 8) ||
      within 0x50_1008 0x50_10F0 || within 0x50_2000 0x50_2038 || (within 0x60_0000 0x60_4000 && decide (0x100 ≤ o % 0x400 ∧ o % 0x400 < 0x160)) ||
      (within 0x60_4000 0x60_5000 && decide (0x40 ≤ o % 0x200 ∧ o % 0x200 < 0x58)) ||
      (within 0x60_8000 0x60_B000 && decide (0x40 ≤ o % 0x100 ∧ o % 0x100 < 0x58)) ||
      (within 0x60_C000 0x60_CC00 && decide (0x40 ≤ o % 0x80 ∧ o % 0x80 < 0x54)) ||
      (within 0x60_D000 0x60_D800 && decide (0x40 ≤ o % 0x400 ∧ o % 0x400 < 0xC0 ∧ o % 0x40 < 0x18)) ||
      (within 0x60_E000 0x60_E400 && decide (0x40 ≤ o % 0x100 ∧ o % 0x100 < 0x54)) || within 0x70_0200 0x70_0214 ||
      (within 0x70_0400 0x70_0600 && decide (o % 0x20 < 0x1C)) || (within 0x80_0000 0x80_4000 && decide (0x44 ≤ o % 0x100 ∧ o % 0x100 < 0x58)) ||
      (within 0xA0_1000 0xA0_1200 && o % 0x20 == 0x18) || o == R.wakAbuse || o == R.bandChg || o == R.errLost || o == R.errDiscard ||
      o == R.eccCorr)

/-- A counter whose own word failed restarts at 0 (R324). -/
def State.restartCounter (s : State) (o : Nat) : State :=
  if ¬ counterReg o then s
  else
    let t := match (regInfo s.logger o).map RegInfo.half with
      | some .lo => s.setWide o 0
      | some .hi => s.setWide (o - 4) 0
      | _ => s.setRg o 0
    t.report 0x0B02 kTransient 0xFF 0xFF o

/-- A committed copy whose protection failed ends with an inverted FCS under LOCK_ABORT. -/
def State.abortCommit (s : State) (n : Nat) (code : Nat) : State :=
  let e := s.egOf n
  match e.commit with
  | none => s
  | some m =>
    if m.launched then
      match e.tx with
      | some t => if t.copy.locked then s.txAbort n code t else s
      | none => s
    else
      let s1 := (s.setEg n { e with commit := none }).count R.ostepLost
      (s1.emit (.frame (BitVec.ofNat 8 n) 0 [] true)).endCopy code m.copy

/-- The committed copies whose protection an AES slice holds end (R183, R328). -/
def State.abortIn (s : State) (slice : Nat) : State :=
  ((kvKeys s.fwd.eg).filter (fun c => ((s.egOf c).commit.bind Commit.slice) == some slice)).foldl (fun a c => a.abortCommit c 0x1B) s

/-- A slice fails its test: the copies that have locked it end, and it is retired unless its retest passes. A fault that its control
checker reports has a row of its own, with the burst it meets (R328). -/
def State.sliceFault (s : State) (n : Nat) (pass : Bool) : State :=
  let t := ((s.abortIn n).count (R.cryDev 3)).report 0x0701 kTransient 0xFF n n
  if pass then t else t.retireSlice n

/-- A datapath unit is found faulty: its work is disposed of, and it is retired unless its retest passes (R335). -/
def datapathUnitFault (u : DpUnit) (pass : Bool) (s : State) : State :=
  match u with
  | .parser n =>
    let t := s.dropLane n
    if pass then t.report 0x0505 kTransient 0xFF n n else t.retireParser n
  | .bank n => if pass then s.loseBank n else s.retireBank n
  | .ladle n =>
    let t := s.closeRecord n
    if pass then t.report 0x0806 kTransient 0xFF n n else t.retireLadle n
  | .slice n => s.sliceFault n pass
  | .segment mem seg => if pass then s else s.moveSegment mem seg
  | .cell index => s.cellFault index
  | .tableWord mem addr => if pass then s.report 0x0503 kTransient 0xFF 0xFF (memDetail mem addr) else s.moveSome mem
  | .nodeField i both => s.nodeFault i both
  | .keyWord slot => if pass then s.keyFault slot else (s.keyFault slot).moveSome 4
  | .counterWord o => s.restartCounter o.toNat
  | .singleBit => s.count R.eccCorr

def execDatapathUnitFault (u : DpUnit) (retestPass : Bool) (s : State) : Res := .next (clocked (onLanes (datapathUnitFault u retestPass)) s)

/-! ### Slice control faults (R183, R328) -/

/-- The frame of a port that work verifies. -/
def State.verifiedFrame (s : State) (c : PortCode) (u : CryptoUse) : Option Nat :=
  match u with
  | .verify id => if (s.frame id).any (fun f => f.desc.ingress == c) then some id else none
  | _ => none

/-- Whether work is a raw block operation. -/
def CryptoWork.isRaw (w : CryptoWork) : Bool :=
  match w.use with
  | .raw _ => true
  | _ => false

/-- The burst in a faulting slice is disposed of: a verified frame has no result (AUTH_FAIL), a protected copy ends, and raw operations run
again from their start. The public-key engine is no slice's burst here: it runs again unseen. -/
def State.sliceWork (s : State) (w : SliceWork) : State :=
  match w with
  | .verify c =>
    match s.cry.work.findSome? (fun x => s.verifiedFrame c x.use) with
    | some id => ((s.modFrame id (fun f => { f with sec := .failed })).dropWork id).runOrder c.toNat
    | none => s
  | .protect c =>
    if (s.egOf c.toNat).commit.isSome then s.abortCommit c.toNat 0x1B
    else match (s.egOf c.toNat).tx with
      | some t => if s.protecting c t.copy.frame then (s.txAbort c.toNat 0x1A t).startRemotes else s
      | none => s
  | .raw => { s with cry.work := s.cry.work.map (fun x => if x.isRaw then { x with bursts := x.total } else x) }

/-- An AES slice's control checker reports a fault; the second within 1 s retires the slice. -/
def sliceControlFault (k : Fin 8) (w : SliceWork) (s : State) : State :=
  if s.bt R.sliceStatus (8 + k) then s
  else
    let t := ((s.report 0x0706 kTransient 0xFF k k).sliceWork w).countFault (.slice k)
    if 2 ≤ t.faults (.slice k) then t.retireSlice k else t

def execSliceControlFault (k : Fin 8) (w : SliceWork) (s : State) : Res := .next (clocked (onLanes (sliceControlFault k w)) s)

/-! ### Rolling self-test (R337) -/

/-- The unit of a kind under test; 16 stands for none. -/
def State.testUnit (s : State) (kind : Nat) : Nat := kvGet 16 s.err.testUnit kind

/-- The units of a kind that rolling self-test takes in turn: enabled slices in service, parser lanes until one is retired, banks in
service. -/
def State.testable (s : State) (kind : Nat) : List Nat :=
  match kind with
  | 0 => (List.range 8).filter (fun n => s.bt R.sliceStatus n && !s.bt R.sliceStatus (8 + n))
  | 1 => if s.fd R.retDp 3 0 = 0 then List.range 4 else []
  | 2 => (List.range 16).filter (fun b => !s.bt R.retDp (4 + b))
  | _ => if (List.range 8).any (fun m => decide (kvGet 0 s.err.spares m < 2)) then [0] else []

/-- CRY_SLICE_STATUS shows the slice under test. -/
def State.showTest (s : State) : State :=
  let u := s.testUnit 0
  s.modRg R.sliceStatus (fun w => setFld w 19 16 (if u < 8 then u + 8 else 0))

/-- The next unit of a kind goes under test. -/
def State.rotateTest (s : State) (kind : Nat) : State :=
  let u := (rotateFrom (s.testUnit kind) (s.testable kind)).getD 16
  { s with err.testUnit := kvSet 16 s.err.testUnit kind u, err.testFail := kvSet false s.err.testFail kind false }

/-- The unit of a kind under test is retired. -/
def State.retireTested (s : State) (kind : Nat) : State :=
  let u := s.testUnit kind
  match kind with
  | 0 => s.retireSlice u
  | 1 => s.retireParser u
  | 2 => s.retireBank (Fin.ofNat 16 u)
  | _ =>
    let (k, t) := drawNat s
    let l := (List.range 8).filter (fun m => decide (kvGet 0 s.err.spares m < 2))
    t.moveSome (l.getD (k % max 1 l.length) 0)

/-- One kind's test step ends: a pass takes the next unit, a first failure repeats the test, a second retires the unit. -/
def State.testKind (s : State) (kind : Nat) (failed : Bool) : State :=
  let u := s.testUnit kind
  if ¬ failed ∨ u ∉ s.testable kind then s.rotateTest kind
  else
    let s1 := if kind = 0 then (s.report 0x0701 kTransient 0xFF u u).count (R.cryDev 3) else if kind = 1 then s.report 0x0505 kTransient 0xFF u u else s
    if kvGet false s.err.testFail kind then (s1.retireTested kind).rotateTest kind
    else { s1 with err.testFail := kvSet false s1.err.testFail kind true }

/-- A step of rolling self-test, in RUN. -/
def selfTestStep (f0 f1 f2 f3 : Bool) (s : State) : State :=
  if ¬ s.running then s
  else ((((s.testKind 0 f0).testKind 1 f1).testKind 2 f2).testKind 3 f3).showTest

def execSelfTestStep (failSlice failParser failBank failSegment : Bool) (s : State) : Res :=
  .next (clocked (onLanes (selfTestStep failSlice failParser failBank failSegment)) s)

/-! ### LPDDR5X channels (R326) -/

/-- A channel's fault: it retrains, and its bursts wait. -/
def lpddrChannelFault (c : Fin 4) (s : State) : State :=
  if s.bt R.capMem c then { s with cap.retrain := kvSet false s.cap.retrain c.val true } else s

def execLpddrChannelFault (c : Fin 4) (s : State) : Res := .next (clocked (lpddrChannelFault c) s)

/-- A channel's retrain ends. -/
def lpddrRetrainDone (c : Fin 4) (ok : Bool) (s : State) : State :=
  if ¬ kvGet false s.cap.retrain c.val then s
  else if ok then
    ({ s with cap.retrain := kvSet false s.cap.retrain c.val false }).report 0x0803 kTransient 0xFF c c
  else s.retireChannel c

def execLpddrRetrainDone (c : Fin 4) (ok : Bool) (s : State) : Res := .next (clocked (lpddrRetrainDone c ok) s)

/-! ### Locked sequences (R40) -/

/-- A hardware path's locked sequence is abandoned; the resource's number in the log is a free value. -/
def State.abandonLock (s : State) (n : Nat) : State :=
  let (k, t) := drawNat s
  (t.abortCommit n 0x1B).report 0x0501 kTransient 0xFF 0xFF (k % 2 ^ 32)

/-- The port whose committed copy has locked a slice for the longest time: the one that departs first (R181). -/
def State.oldestLock (s : State) : Option Nat :=
  let l := s.fwd.eg.filterMap (fun e => e.2.commit.bind (fun m => if m.slice.isSome then some (e.1, m.tc) else none))
  (l.find? (fun x => l.all (fun y => decide (x.2 ≤ y.2)))).map (·.1)

/-- The partition on whose behalf the signal box writes the words of a multi-word table entry (R38, R398). -/
def State.lockOwner (s : State) : Option Part := (s.cmd.box.filter (fun b => decide (2 ≤ b.words))).map BoxStep.part

/-- A locked sequence reaches 4 µs; one of the signal box ends, and the command goes on (R40, R294). -/
def lockedSequenceTimeout (a : ArbId) (s : State) : State :=
  match a with
  | .eth n => if (s.egOf n).commit.isSome then s.abandonLock n else s
  | .crypto =>
    match s.oldestLock with
    | some n => s.abandonLock n
    | none => s
  | .dispatcher =>
    match s.lockOwner with
    | some p => s.endLock.violate p 4 0
    | none => s
  | _ => s

def execLockedSequenceTimeout (a : ArbId) (s : State) : Res := .next (clocked (onLanes (lockedSequenceTimeout a)) s)

end Sys2Proof.Machine
end

