-- ==== Sys2Proof/Machine/Effects.lean ====
section
/-! DEFINITION. What follows a pour at its boundary: the effects that poured registers and tables have on ports, time domains,
turntables, triggers, gates and capture queues. `s` is the state before the boundary, `t` the state with the new epoch's values. -/

namespace Sys2Proof.Machine

/-! ### Ports -/

/-- LNK_ETH_MODE: a new mode or FEC takes a port that is UP out of it after the frame in progress, a committed copy among them (R47, R183,
02_ports.md *Rate change*); mode 0 disables the port, and any other mode has its lane tuned. -/
def ethPoured (s t : State) (n : EPort) : State :=
  let old := s.rg (R.ethMode n)
  let new := t.rg (R.ethMode n)
  let st := t.ethState n
  let t0 := if bit new 13 then t else t.setBt (R.ethStatus n) 6 false
  if fld old 5 0 = fld new 5 0 then t0
  else if fld new 3 0 = 0 ∧ st ≠ pUp then
    if st = pDisabled then t0 else ((t0.setFd (R.ethStatus n) 7 0 pDisabled).portGone n).setLane n {}
  else if st = pDisabled then (t0.setEthState n pDown).setLane n {}
  else
    let t1 := t0.setLane n
      { retune := true, change := st != pUp
        oldMode := if (t0.lane n).retune ∧ st = pUp then (t0.lane n).oldMode else BitVec.ofNat 6 (fld old 5 0) }
    if st = pUp then (t1.finishRetune n).afterRetune t1 n
    else if st = pTraining then t1.modRg (R.ethStatus n) (fun w => setFld (setFld w 6 0 pDown) 23 16 5)
    else t1

/-- A port's waiting copies are dropped or redirected, and the frame in progress goes on (R55). -/
def State.goneButSent (t : State) (c : Nat) : State :=
  let x := (t.egOf c).tx
  let t1 := (t.setEg c { t.egOf c with tx := none }).portGone c
  t1.setEg c { t1.egOf c with tx := x }

/-- LNK_T1S_CFG.en (R55). -/
def t1sPoured (s t : State) (n : Nat) : State :=
  let on := t.bt (R.t1sCfg n) 0
  if s.bt (R.t1sCfg n) 0 = on then t
  else if on then t.setFd (R.t1sStatus n) 2 0 pDown
  else (t.setFd (R.t1sStatus n) 2 0 pDisabled).goneButSent (0x10 + n)

/-- LNK_CAN_CFG: off, on, or a rewrite in bus-off (R60): with auto_recover = 1 the recovery goes on. DESIGN CHOICE (log entry 25): with
auto_recover = 0 the rewrite makes the controller error-active at once with both counters 0. -/
def canPoured (t : State) (n : Nat) : State :=
  let st := t.canState n
  if t.fd (R.canCfg n) 1 0 = 0 then
    if st = 3 then t else (t.setRg (R.canStatus n) 0x3_0000).portGone (0x20 + n)
  else if st = 3 ∨ (st = 2 ∧ ¬ t.bt (R.canCfg n) 5) then t.setRg (R.canStatus n) 0
  else t

/-- LNK_LIN_CFG: a port that changes its role starts anew (R61). -/
def linPoured (s t : State) (n : Nat) : State :=
  if s.fd (R.linCfg n) 1 0 = t.fd (R.linCfg n) 1 0 then t
  else if t.fd (R.linCfg n) 1 0 = 0 then (t.setLin n {}).portGone (0x50 + n)
  else t.setLin n {}

/-- A pour that changes a FlexRay controller's parameters takes it to the POC default-config state (R64). -/
def frPoured (s t : State) (f : Nat) : State :=
  if [R.frCfg f, R.frCyc f, R.frStatic f, R.frDyn f, R.frNode f].all (fun o => s.rg o == t.rg o) then t
  else
    let poc := t.fd (R.frStatus f) 2 0
    let t1 := t.setFd (R.frStatus f) 2 0 0
    if poc = 3 ∨ poc = 4 then t1.frDown f else t1

/-! ### Time domains, turntables, triggers -/

/-- TSU_DOMx_CFG: en takes the domain from or to OFF (R166), and the slave port is chosen anew. -/
def domPoured (s t : State) (x : Nat) : State :=
  let on := t.domEn x
  let t1 := if s.domEn x = on then t
    else if on then t.toDom x (if (t.dom x).pllLost then domFault else domAcquire)
    else t.toDom x domOff
  t1.chooseSlave x

/-- TSU_PPSn_CFG: the first edge after en = 1 is a first edge (R185). -/
def ppsPoured (s t : State) (n : Nat) : State :=
  if t.bt (R.ppsCfg n) 0 = s.bt (R.ppsCfg n) 0 then t else t.setPps n {}

/-- A turntable that a pour changes goes to OFF (R206). -/
def ttPoured (s t : State) (n : Nat) : State :=
  let key := fun (a : State) => (fld (a.rg (R.ttCfg n)) 4 0, a.fd (R.ttCpr n) 20 0, a.fd (R.ttIdx n) 19 0)
  if key s = key t then t
  else 
    let t1 := ((t.leaveTracking n).setTtState n ttOff).setVel n 0
    t1.setTt n { loops := (t1.tt n).loops, spans := (t1.tt n).spans }

/-- A trigger that a pour changes: a pin without a pulse takes the inactive level of the new pol, and a new target has met no
crossing yet (R212). -/
def trgPoured (s t : State) (m : Nat) : State :=
  let same := fun (o : Nat) => s.rg o == t.rg o
  let t1 := if s.fd (R.trgCfg m) 5 1 = t.fd (R.trgCfg m) 5 1 ∧
      [R.trgTgt m, R.trgPeriod m, R.trgBaseLo m, R.trgBaseHi m].all same then t
    else t.setTrg m { t.trg m with seen := [] }
  if t1.bt (R.trgStat m) 0 ∨ t1.pins.trg.getLsbD m = t1.trgLevel m false then t1
  else { t1 with pins.trg := setBit t1.pins.trg m (t1.trgLevel m false) }.emit (.trigger m (t1.trgLevel m false))

/-! ### Capture queues -/

/-- high is judged again, and the level interrupt is not raised (R262). -/
def State.rejudgeHigh (t : State) (q : Nat) : State :=
  let b := t.backlog q
  let c := t.capq q
  let hi := (t.rg (R.capHi q)).toNat
  let lo := (t.rg (R.capLo q)).toNat
  let h := if b ≤ lo then false else if hi ≤ b then true else c.highWas
  t.setCapq q { c with backlogWas := b, highWas := !t.capLevel q && h }

/-- Whether a queue's region lies in the capture address space. -/
def State.regionFits (t : State) (q : Nat) : Bool := decide (t.sidingBase q + t.sidingSize q ≤ t.fd R.capSpace 14 0)

/-- A queue whose registers a pour writes: a new region discards the siding content (R252), new rings start at 0 (R257), and a queue with
en = 0 accepts no more records (R245). -/
def capPoured (s t : State) (q : Nat) : State :=
  let same := fun (o : Nat) => s.rg o == t.rg o
  let t1 := if same (R.capSiding q) then t
    else
      let d := t.discardSiding q
      d.setCapq q { d.capq q with off := d.sidingSize q != 0 && !d.regionFits q }
  let t2 := if [R.capRingLo q, R.capRingHi q, R.capRingSz q, R.capTagLo q, R.capTagHi q].all same then t1
    else (t1.setRg (R.capHwr q) 0).setRg (R.capHrd q) 0
  let t3 := if t2.capEn q then t2 else t2.stopQueue q
  t3.rejudgeHigh q

/-- After a retirement, a pour recomputes the capture address space, and regions inside it resume with an empty siding (R264). -/
def State.restripe (t : State) : State :=
  if ¬ t.bt R.capMem 16 then t
  else
    let t1 := (t.setFd R.capSpace 14 0 t.newSpace).setBt R.capMem 16 false
    (List.range 64).foldl (fun (a : State) q =>
      if (a.capq q).off ∧ a.regionFits q then a.setCapq q { a.capq q with off := false } else a) t1

/-! ### Wake pins -/

/-- PWR_WINn_CFG: a pin that changes to edge mode has seen no edge; one in level mode asserts by its level (R321). -/
def pinPoured (s t : State) (n : Nat) : State :=
  if t.bt (R.winCfg n) 0 ∧ ¬ s.bt (R.winCfg n) 0 then t.setBt R.wakAssert (16 + n) false else t.refreshPin n

/-! ### All effects -/

/-- The effect of one poured register. -/
def regPoured (s t : State) (k : Nat) : State :=
  let off := k % 2 ^ 26
  let o := off % 0x10_0000
  match off / 0x10_0000 with
  | 0x2 =>
    if o = 0x00 then (if s.fd R.tsuCtl 1 0 = t.fd R.tsuCtl 1 0 then t else t.switchTo t.wanted)
    else if o = 0x40 then (if t.bt R.utc 8 ∧ ¬ s.bt R.utc 8 then t.fixLeapDay t.tsel else t)
    else if o = 0x44 then { t with tsu.leapLate := t.setLeap.any (fun l => t.dayEnded l.day) }
    else if o = 0x100 then domPoured s t 0
    else if o = 0x200 then domPoured s t 1
    else if 0x300 ≤ o ∧ o < 0x340 then (t.chooseSlave 0).chooseSlave 1
    else if 0x400 ≤ o ∧ o < 0x440 ∧ o % 0x10 = 0 then ppsPoured s t ((o - 0x400) / 0x10)
    else t
  | 0x3 =>
    if o < 0x1000 then ttPoured s t (o / 0x100)
    else if o < 0x1400 then trgPoured s t ((o - 0x1000) / 0x20)
    else t
  | 0x5 =>
    if 0x600 ≤ o ∧ o ≤ 0x610 then
      (if o = 0x600 + 4 * t.fd R.band 2 0 ∧ s.rg off ≠ t.rg off then t.enableSlices.rejudge else t)
    else t
  | 0x6 =>
    if o < 0x4000 then (if o % 0x400 = 0 then ethPoured s t (Fin.ofNat 16 (o / 0x400)) else t)
    else if o < 0x5000 then (if o % 0x200 = 0x0C then t1sPoured s t ((o - 0x4000) / 0x200) else t)
    else if 0x8000 ≤ o ∧ o < 0xB000 then (if o % 0x100 = 4 then canPoured t ((o - 0x8000) / 0x100) else t)
    else if 0xC000 ≤ o ∧ o < 0xCC00 then (if o % 0x80 = 0 then linPoured s t ((o - 0xC000) / 0x80) else t)
    else if 0xD000 ≤ o ∧ o < 0xD800 then frPoured s t ((o - 0xD000) / 0x400)
    else t
  | 0x8 => if o < 0x4000 then (capPoured s t (o / 0x100)).cfcUpdate else if o = 0x8004 then t.cfcUpdate else t
  | 0xA => if 0x40 ≤ o ∧ o < 0x60 then pinPoured s t ((o - 0x40) / 4) else t
  | _ => t

/-- The gates of a port follow its timetables: pending shows, and one in force with en = 0 opens every gate (R152). -/
def gatePoured (t : State) (n : Nat) : State :=
  let t1 := t.setBt (R.gteStatus n) 12 (t.gatePending n != {})
  if t1.bt (R.gteStatus n) 10 ∧ ¬ ttbEn (t1.gateOf n) then t1.gatesOff n else t1

/-- A partition whose grant changes: its fetched commands remember the grant they were fetched under (R291). -/
def grantPoured (s t : State) (p : Part) : State :=
  if s.grant p = t.grant p then t
  else
    let c := t.path p
    t.setPath p { c with fetched := c.fetched.map (fun f => { f with olds := f.olds ++ [s.grant p] }) }

/-- CHK_MODE shows who holds channel 0: PM unless a host is granted it (R124). -/
def chkPoured (t : State) : State := t.setFd R.chkMode 10 8 (t.holder .chk0 0).val

/-- The effects of a list of items at a boundary. -/
def afterPour (s t : State) (items : List Staged) : State :=
  let t1 := items.foldl (fun (a : State) y =>
    match y.item with
    | .reg k _ => regPoured s a k
    | _ => a) t
  let t2 := ((List.range 16).foldl gatePoured t1)
  let t3 := hostParts.foldl (grantPoured s) t2
  let t4 := ((s.revokes t3).foldl (fun (a : State) r =>
    let b := if r.new.purge && r.k == .capq then (((if a.capEn r.i then a else a.stopQueue r.i).discardQueue r.i).2) else a
    if r.k == .capq && b.capHolder r.i == pm then b.zeroRings r.i else b) t3)
  (chkPoured t4).restripe.startRemotes

end Sys2Proof.Machine
end

