-- ==== Sys2Proof/Machine/Pours.lean ====
section
/-! DEFINITION. Moulds and pours (R280 to R287): MOULD_OPEN, MOULD_DISCARD, MOULD_STAT, POUR, and the pour's readiness, boundary and
timeout. -/

namespace Sys2Proof.Machine

/-! ### Mould commands -/

/-- The form of MOULD_OPEN, MOULD_DISCARD and MOULD_STAT. -/
def mouldForm : Form := { kind := .immediate, size := fun l => l == 0 }

/-- Whether a partition's mould is sealed (R283). -/
def State.sealed_ (s : State) (p : Part) : Bool := ((s.mould p).map Mould.sealed).getD false

/-- MOULD_OPEN. -/
def mouldOpenBody (p : Part) (s : State) : Ans :=
  match s.mould p with
  | some m => { s := s, status := if m.sealed then St.conflict else St.okAlready, result := if m.sealed then 0 else s.epoch.toNat }
  | none => { s := s.setMould p (some {}), result := s.epoch.toNat }

def execMouldOpen (p : Part) (d : CmdDesc) (s : State) : Res := .next (runCommand mouldForm p d (mouldOpenBody p) s)

/-- MOULD_DISCARD. -/
def mouldDiscardBody (p : Part) (s : State) : Ans :=
  match s.mould p with
  | some m => if m.sealed then fail s St.conflict else { s := s.setMould p none, result := m.items.length }
  | none => fail s St.okAlready

def execMouldDiscard (p : Part) (d : CmdDesc) (s : State) : Res := .next (runCommand mouldForm p d (mouldDiscardBody p) s)

/-- MOULD_STAT's result: items, open, sealed. A sealed mould is open still (R280). -/
def State.mouldStat (s : State) (p : Part) : Nat :=
  s.mouldItems p + boolNat (s.mould p).isSome * 2 ^ 32 + boolNat (s.sealed_ p) * 2 ^ 33

def execMouldStat (p : Part) (d : CmdDesc) (s : State) : Res :=
  .next (runCommand mouldForm p d (fun t => { s := t, result := t.mouldStat p }) s)

/-! ### Staged registers (R280, R282, R299) -/

/-- The key of the register that a master writes at an offset through a view: a register that exists once has one key. -/
def regKey (logger : Bool) (copy : Part) (off : Nat) : Nat :=
  match regInfo logger off with
  | some r => if r.scope = .one then off else copyKey copy off
  | none => off

/-- A write of RWP fields joins a mould, under the tag of register writes (R285). -/
def State.stageReg (s : State) (p : Part) (key : Nat) (v : W32) : Ans := stageItem s p 0xFFF (.reg key v)

/-! ### POUR (R284, R285 steps 1 and 2) -/

/-- The boundary that a POUR names. -/
def pourBound (d : CmdDesc) : Boundary :=
  match d.b 0 with
  | 0 => .immediate
  | 1 => .time (BitVec.ofNat 64 (d.le 8 8))
  | _ => .phase (Fin.ofNat 16 (d.b 1)) (BitVec.ofNat 24 (d.le 4 4))

/-- Whether a POUR's parameters lie outside their ranges; a boundary that does not use a field does not check it. -/
def pourRange (d : CmdDesc) : Bool := decide (2 < d.b 0) || (d.b 0 == 2 && decide (16 ≤ d.b 1 ∨ 2 ^ 24 ≤ d.le 4 4))

/-- POUR seals the mould and joins the pour queue. Any partition may name any turntable (R194). -/
def pourBody (p : Part) (d : CmdDesc) (s : State) : Except Ans State :=
  if pourRange d then .error (fail s St.badParam)
  else match s.mould p with
    | none => .error (fail s St.badParam)
    | some m =>
      if m.sealed then .error (fail s St.conflict)
      else
        let t := s.setMould p (some { m with sealed := true })
        .ok { t with cmd.pours := t.cmd.pours ++ [{ part := p, tag := d.ctag, irq := d.irq, bound := pourBound d }] }

/-- The form of POUR. -/
def pourForm (d : CmdDesc) : Form := { kind := .immediate, size := fun l => l == 16, clean := d.le 2 2 == 0 }

def execPour (p : Part) (d : CmdDesc) (s : State) : Res :=
  .next (runWaiting (fun t => t.cmd.pours.any (fun x => x.part == p && x.tag == d.ctag)) (pourForm d) p d (pourBody p d) s)

/-! ### Readiness (R285 steps 3 and 4) -/

/-- The shadow tables of a pour, and the new epoch with its purges. -/
def State.shadow (s : State) (x : Pour) (seed : Nat) : Built × State :=
  let s1 := s.takeKeygen x.part
  let b := buildTables s1 s1 seed (s.pourItems x) x.pins
  (b, s1.purged b.s)

/-- Whether a time boundary lies beyond CMD_POUR_CFG.max_defer_ms (R284). -/
def State.tooFar (s : State) (b : Boundary) : Bool :=
  match b with
  | .time i => decide (s.pNs + s.fd R.pourCfg 15 0 * 1000000 < i.toNat)
  | _ => false

/-- Whether a time boundary is past already (R284). -/
def State.isPast (s : State) (b : Boundary) : Bool :=
  match b with
  | .time i => decide (i.toNat < s.pNs)
  | _ => false

/-- The 8-byte words of a shadow table that an item writes (R398); an erased entry takes one. -/
def Item.words : Item → Nat
  | .reg _ _ => 1
  | .route _ => 4
  | .routeDel _ _ => 1
  | .tcam _ _ => 6
  | .dset _ _ => 2
  | .vlan _ _ => 1
  | .pprof _ _ => 4
  | .tprof _ _ => 8
  | .eprof _ _ => 2
  | .pin _ _ => 4
  | .unpin _ _ => 1
  | .gate _ t => 4 + t.entries.length
  | .key _ _ _ => 16
  | .keyErase _ => 1
  | .node _ _ => 4
  | .nodeErase _ _ => 1
  | .grant _ _ => 27
  | .window _ _ => 2

/-- Whether the checks of step 4 let a pour go on (R285). -/
def State.pourPasses (s : State) (x : Pour) : Bool :=
  let (b, t) := s.shadow x s.free
  (firstFailure s s b t (s.pourItems x)).isNone && !s.tooFar x.bound

/-- The pour at step 4 that has words left to write, and the words of its next entry (R398). -/
def State.pourWords (s : State) : Option (Pour × Nat) :=
  match s.cmd.pours.head? with
  | some x =>
    match (s.pourItems x)[x.built]? with
    | some y => if !x.ready && s.pourPasses x then some (x, y.item.words) else none
    | none => none
  | none => none

/-- φ from where a phase pour that becomes ready looks for its crossing; none outside TRACKING. -/
def State.startMark (s : State) (b : Boundary) : Option Int :=
  match b with
  | .phase n _ => if s.ttState n = ttTracking then some (s.phi n s.pNs) else none
  | _ => none

/-- The pour at the head of the queue is ready: its placement stands, with the stream records of its pins, and is made again from the same
free values at the boundary. -/
def State.readied (s : State) (x : Pour) (b : Built) : State :=
  { s with
    free := b.seed + (s.pourItems x).length
    cmd.pours := { x with ready := true, past := s.isPast x.bound, seed := s.free, pins := b.pins, mark := s.startMark x.bound } ::
      s.cmd.pours.tail }

/-- The pour at the head of the queue has its checks done: it fails, or is ready once its shadow tables are built. -/
def State.makeReady (s : State) (x : Pour) : State :=
  let items := s.pourItems x
  let (b, t) := s.shadow x s.free
  match firstFailure s s b t items with
  | some f => s.endPour x f.status (flawResult items f)
  | none =>
    if s.tooFar x.bound then s.endPour x St.badParam noItem
    else if x.built < items.length then s
    else s.readied x b

/-- POUR_READY. -/
def pourReady (s0 : State) : State :=
  let s := s0.endPourStep
  match s.cmd.pours.head? with
  | some x => if x.ready then s else s.makeReady x
  | none => s

def execPourReady (s : State) : Res := .next (onSignalBox pourReady s)

/-! ### The boundary (R285 step 5, R112, R208) -/

/-- Whether a ready pour's boundary can be now: a time boundary's instant has come, or its turntable, in TRACKING and moving up, has passed
the fraction since the pour was ready (R207, R208). -/
def State.atBoundary (s : State) (x : Pour) : Bool :=
  match x.bound with
  | .immediate => true
  | .time i => x.past || decide (i.toNat ≤ s.pNs)
  | .phase n f =>
    match x.mark with
    | some m => s.movesUp n && decide (crossCount (s.cpr n) m f.toNat < crossCount (s.cpr n) (s.phi n s.pNs) f.toNat)
    | none => false

/-- The open AVTPDUs of profiles that a pour changes close with the old epoch's profile (R111, R112). -/
def State.closeChanged (s t : State) (items : List Staged) : State :=
  (s.fwd.openPdu.map (·.1)).foldl (fun (a : State) i =>
    if items.any (fun y => y.item.slot == (6, i)) || s.tprofAt i != t.tprofAt i then a.closePdu i else a) s

/-- The new epoch: every item in force in one cycle, the epoch counted, and the effects that follow the boundary. -/
def State.apply (s : State) (x : Pour) : State :=
  let items := s.pourItems x
  let s0 := s.settleShapers
  let s1 := s0.closeChanged (s0.shadow x x.seed).2 items
  let t := (s1.shadow x x.seed).2
  afterPour s1 (t.setWide R.epoch (s1.epoch + 1)) items

/-- A ready pour reaches its boundary (R285 steps 5 and 6). -/
def State.pourNow (s : State) (x : Pour) : State :=
  let t := s.apply x
  t.endPour x St.ok (t.epoch.toNat + boolNat x.past * 2 ^ 63)

/-- POUR_BOUNDARY: the pour sequencer is hardware, and works while the signal box does not (R331). -/
def pourBoundary (s : State) : State :=
  match s.cmd.pours.head? with
  | some x => if x.ready && s.atBoundary x then s.pourNow x else s
  | none => s

def execPourBoundary (s : State) : Res := .next (clocked pourBoundary s)

/-- POUR_TIMEOUT: a phase boundary was not reached within pour_tmo_ms (R208). -/
def pourTimeout (s : State) : State :=
  match s.cmd.pours.head? with
  | some x =>
    match x.ready, x.bound with
    | true, .phase _ _ => s.endPour x St.timeout noItem
    | _, _ => s
  | none => s

def execPourTimeout (s : State) : Res := .next (clocked pourTimeout s)

end Sys2Proof.Machine
end

