-- ==== Sys2Proof/Machine/Image.lean ====
section
/-! DEFINITION. The images of the boot flash and the first pour from the route image (R361, R362). -/

namespace Sys2Proof.Machine

/-! ### The image header and body (R361) -/

/-- Failure codes of the ledger (R354). Which of them an image's flaw takes is the model's choice where R354 does not say (DEDUCED, log
entry 53): a wrong CRC is a check mismatch, a wrong key or signature an invalid signature, any other flaw a malformed image. -/
def bootMismatch : Byte := 1
def bootSignature : Byte := 3
def bootMalformed : Byte := 4

/-- The ASCII magic, the largest body and the largest record count of a firmware image or a route image. -/
def imageMagic (route : Bool) : List Byte := if route then [0x51, 0x58, 0x52, 0x49] else [0x51, 0x58, 0x46, 0x57]
def imageMax (route : Bool) : Nat := (if route then 4194304 else 8388608) - 256
def imageItemsMax (route : Bool) : Nat := if route then 262144 else 0

/-- Whether the header's signature over a digest is valid under the header's key. -/
def imageSigned (l digest : List Byte) : Bool :=
  let c := curveOf true
  let at_ := fun (o : Nat) => beAt l o 48
  c.on (at_ 24) (at_ 72) && !c.badScalar (at_ 120) && !c.badScalar (at_ 168) &&
    c.verify (beNat digest) (at_ 24) (at_ 72) (at_ 120) (at_ 168)

/-- The body of an image that passes the checks of its header, or a failure code. The CRC of a body counts for a route image; the signature
covers the header bytes 0 to 119 and the body. -/
def imageBody (route : Bool) (l : List Byte) : Except Byte (List Byte) :=
  let n := leAt l 8 4
  let body := slice l 256 n
  if slice l 0 4 ≠ imageMagic route ∨ leAt l 4 2 ≠ 1 ∨ imageMax route < n ∨ imageItemsMax route < leAt l 12 4 ∨ body.length < n then
    .error bootMalformed
  else if route ∧ crcFixed 3 body ≠ leAt l 16 4 then .error bootMismatch
  else if sha384 (slice l 24 96) ≠ beBytes 48 Config.keyHash.toNat then .error bootSignature
  else if ¬ imageSigned l (sha384 (l.take 120 ++ body)) then .error bootSignature
  else .ok body

/-- A record from its type, part and content. -/
def recOf (type part : Nat) (x : List Byte) : Option ImageRec :=
  let p : Part := Fin.ofNat 5 part
  if 4 < part then none
  else if type = 1 ∧ 4 ≤ x.length ∧ leAt x 2 2 + 4 = x.length then some (.stage p (BitVec.ofNat 16 (leAt x 0 2)) (x.drop 4))
  else if type = 2 ∧ x.length = 8 then some (.reg p (BitVec.ofNat 32 (leAt x 0 4)) (BitVec.ofNat 32 (leAt x 4 4)))
  else none

/-- The `n` records of a body, each padded with zero bytes to a multiple of 4; `none` when the body is anything else. -/
def bodyRecs : Nat → List Byte → Option (List ImageRec)
  | 0, l => if l.isEmpty then some [] else none
  | n + 1, l =>
    let len := leAt l 2 2
    let size := 4 + (len + 3) / 4 * 4
    if l.length < size ∨ (slice l (4 + len) (size - 4 - len)).any (· != 0) then none
    else match recOf (leAt l 0 1) (leAt l 1 1) (slice l 4 len), bodyRecs n (l.drop size) with
      | some r, some rest => some (r :: rest)
      | _, _ => none

/-! ### Staging the records (R362) -/

/-- A staging command: its form and its body. -/
structure StageOp where
  form : CmdDesc → Form
  body : Part → CmdDesc → State → Ans

/-- The staging commands of R279 by opcode. -/
def stageOp : Nat → Option StageOp
  | 0x0101 => some ⟨routeForm .staging 32 false, routeAddBody⟩
  | 0x0102 => some ⟨routeForm .staging 16 false, routeDelBody⟩
  | 0x0104 => some ⟨tcamWriteForm, tcamWriteBody⟩
  | 0x0106 => some ⟨dsetWriteForm, dsetWriteBody⟩
  | 0x0108 => some ⟨fun _ => vlanForm, vlanWriteBody⟩
  | 0x010A => some ⟨profWriteForm, profWriteBody⟩
  | 0x010C => some ⟨pinForm 17, streamPinBody⟩
  | 0x010D => some ⟨pinForm 16, streamUnpinBody⟩
  | 0x0201 => some ⟨gateWriteForm, gateWriteBody⟩
  | 0x0501 => some ⟨keyWriteForm, keyWriteBody⟩
  | 0x0502 => some ⟨fun _ => keyEraseForm, keyEraseBody⟩
  | 0x0A01 => some ⟨nodeWriteForm, nodeWriteBody⟩
  | 0x0A02 => some ⟨fun _ => nodeEraseForm, nodeEraseBody⟩
  | 0x0B01 => some ⟨grantForm, partGrantBody⟩
  | 0x0B05 => some ⟨windowForm, windowBody⟩
  | _ => none

/-- The partition of a record. -/
def recPart : ImageRec → Part
  | .stage p _ _ => p
  | .reg p _ _ => p

/-- Whether a record is well formed: a staging opcode, or an RWP register with view bits 0 (R361). -/
def recFormed (logger : Bool) : ImageRec → Bool
  | .stage _ op _ => (stageOp op.toNat).isSome
  | .reg _ a _ => decide (a.toNat < 2 ^ 26) && ((regInfo logger a.toNat).map (fun r => r.rwp != 0)).getD false

/-- The descriptor that a staging record stands for. -/
def recDesc (op : BitVec 16) (params : List Byte) : CmdDesc :=
  { opcode := op, flags := 0x0A, tag := 0, plen := BitVec.ofNat 16 params.length, inPtr := 0, outPtr := 0, outLen := 0, rsv := 0
    params := params }

/-- The form check of a record: NO_RIGHT for a command that only PM issues, else BAD_PARAM (R362). -/
def recCheck (f : Form) (p : Part) (d : CmdDesc) : Option Byte :=
  match { f with pmOnly := false }.check 0 d with
  | some _ => some St.badParam
  | none => if f.pmOnly ∧ p ≠ pm then some St.noRight else none

/-- A record is staged in its part's mould, or refused with a status for its form or its target. -/
def stageRec (s : State) (r : ImageRec) : Except Byte State :=
  match r with
  | .stage p op params =>
    match stageOp op.toNat with
    | none => .error St.badParam
    | some o =>
      let d := recDesc op params
      match recCheck (o.form d) p d with
      | some st => .error st
      | none =>
        let a := o.body p d s
        if a.status.toNat < 0x10 then .ok a.s else .error a.status
  | .reg p a v =>
    match regInfo s.logger a.toNat with
    | none => .error St.badParam
    | some i =>
      if p ≠ pm ∧ (i.pmStage ∨ ¬ s.inView p i.view ∨ ¬ s.inView p i.stage) then .error St.noRight
      else .ok (s.stageReg p (regKey s.logger p a.toNat) v).s

/-- The records of a body are staged in turn. -/
def stageAll (s : State) : List ImageRec → Except Byte State
  | [] => .ok s
  | r :: rest =>
    match stageRec s r with
    | .error st => .error st
    | .ok t => stageAll t rest

/-- Five open moulds with nothing in them. -/
def State.openMoulds (s : State) : State := allParts.foldl (fun a p => a.setMould p (some {})) s

/-- Every mould closed. -/
def State.closeMoulds (s : State) : State := { s with cmd.moulds := [] }

/-- The grants that an image's PART_GRANT records pour. -/
def imageGrants (s : State) (l : List ImageRec) : State :=
  l.foldl (fun a r =>
    match r with
    | .stage 4 0x0B01 params => { a with tab.grants := kvSet 0 a.tab.grants (leAt params 0 1) (imgOf 1728 params) }
    | _ => a) s

/-- PM's records, then those of P0 to P3, each in image order (R362). -/
def imageOrder (l : List ImageRec) : List ImageRec := [pm, 0, 1, 2, 3].flatMap (fun p => l.filter (fun r => recPart r == p))

/-- The items of the five moulds, PM's first. -/
def State.imageItems (s : State) : List Staged := [pm, 0, 1, 2, 3].flatMap (fun p => ((s.mould p).map Mould.items).getD [])

/-- The epoch of the first pour comes into force. -/
def State.firstEpoch (s t : State) (items : List Staged) : State := (afterPour s (t.setWide R.epoch 1) items).closeMoulds

/-- The pour of the route image's records against the grants that it pours; a refusal answers its status. -/
def pourImage (s : State) (l : List ImageRec) : Except Byte State :=
  match stageAll (imageGrants s l).openMoulds (imageOrder l) with
  | .error st => .error st
  | .ok staged =>
    let items := staged.imageItems
    let b := buildTables staged s s.free items
    match firstFailure b.s s b b.s items with
    | some f => .error f.status
    | none => .ok (s.firstEpoch { b.s with free := b.seed } items)

/-- The records of the route image that a region of the flash holds, or a failure code. -/
def routeRecords (logger : Bool) (l : List Byte) : Except Byte (List ImageRec) :=
  match imageBody true l with
  | .error c => .error c
  | .ok b =>
    match bodyRecs (leAt l 12 4) b with
    | none => .error bootMalformed
    | some r => if r.all (recFormed logger) then .ok r else .error bootMalformed

/-- Under SKIP, five empty moulds are poured. -/
def pourNothing (s : State) : State := s.firstEpoch s []

end Sys2Proof.Machine
end

