-- ==== Sys2Proof/Machine/Retain.lean ====
section
/-! DEFINITION. What follows a wake from either depth: retained frames enter FWD (R310), and TC10 wake requests go out (R313). -/

namespace Sys2Proof.Machine

/-- The extended stamp of a retained frame: P at entry plus the sleep-counter tick of its SOF; 0 after DEEP. -/
def State.retainedStamp (s : State) (tick : Nat) : W64 :=
  if s.slp.recDepth = 2 then 0 else BitVec.ofNat 64 (s.slp.pEntry.toNat + tick * 1000000000 / 32768)

/-- The retained frame of Cn enters classification, with phase 0 and phase_valid = 0. -/
def State.enterRetained (s : State) (n : Nat) : State :=
  match s.slp.retained.find? (fun x => x.1 == n) with
  | none => s
  | some (_, r) =>
    let b : Boundpt := { s.boundAt (0x20 + n) 0 with stampX := s.retainedStamp r.tick.toNat, phase := 0, valid := false }
    let s2 := (s.setBt (R.cwStat n) 7 false).busEnter (0x20 + n) b r.hslot r.data false
    { s2 with slp.retained := s2.slp.retained.filter (fun x => x.1 != n) }

/-- The retained frames enter in port order. -/
def State.enterAllRetained (s : State) : State := (List.range 16).foldl (fun a n => a.enterRetained n) s

/-- A write to the TC10 register of a port's PHY. -/
def State.tc10Write (s : State) (n code : Nat) : State :=
  let r := s.rg R.tc10Reg
  s.mdioAdd (n / 4) { who := .tc10, port := n, dev := BitVec.ofNat 5 (fld r 20 16), reg := BitVec.ofNat 16 (fld r 15 0)
                      read := false, data := BitVec.ofNat 16 code }

/-- The wake request goes to every port with en = 1 and fwd = 1. -/
def State.tc10Wake (s : State) : State :=
  (List.range 16).foldl (fun a n => if a.fd (R.tc10Cfg n) 1 0 = 3 then a.tc10Write n (a.fd R.tc10Codes 31 16) else a) s

end Sys2Proof.Machine
end

