-- ==== Sys2Proof/Machine/Boot.lean ====
section
/-! DEFINITION. Resets, the ten steps of a start, their policies, and the start ledger (13_startup.md). -/

namespace Sys2Proof.Machine

/-! ### The ledger (R353 to R356) -/

/-- A ledger record of R354. -/
abbrev LedgerRec := BitVec 512

/-- Whether a record's marker and crc are correct (R356). -/
def recValid (r : LedgerRec) : Bool :=
  imgLe r 0 2 == 0x5158 &&
    imgLe r 60 4 == crcFixed 3 ((imgBytes r).take 8 ++ slice (imgBytes r) 48 12)

/-- The newest record of a sector. -/
def newestRec (l : List LedgerRec) : Option LedgerRec := l.reverse.find? recValid

/-- A record's start number. -/
def recStart (r : LedgerRec) : Nat := imgLe r 2 2

/-- Whether start number `a` is higher than `b`, modulo 2^16. -/
def startLater (a b : Nat) : Bool := decide (0 < (a + 65536 - b) % 65536 ∧ (a + 65536 - b) % 65536 < 32768)

/-- Whether sector B is the ledger. -/
def Boot.pickB (b : Boot) : Bool :=
  match newestRec b.sectA, newestRec b.sectB with
  | none, some _ => true
  | some x, some y => startLater (recStart y) (recStart x)
  | _, _ => false

/-- The ledger sector, and the other one. -/
def Boot.sector (b : Boot) : List LedgerRec := if b.useB then b.sectB else b.sectA
def Boot.spare (b : Boot) : List LedgerRec := if b.useB then b.sectA else b.sectB

/-- A write of the ledger sector. -/
def Boot.setSector (b : Boot) (l : List LedgerRec) : Boot := if b.useB then { b with sectB := l } else { b with sectA := l }

/-- A new record goes behind the last one, or becomes record 0 of the spare sector, which then is the ledger. -/
def Boot.append (b : Boot) (r : LedgerRec) : Boot :=
  let c := if 64 ≤ b.sector.length then { b with useB := !b.useB }.setSector [r] else b.setSector (b.sector ++ [r])
  { c with opened := true }

/-- Programming this start's record only clears bits. -/
def State.program (s : State) (off size v : Nat) : State :=
  let b := s.boot
  match b.opened, b.sector.getLast? with
  | true, some r =>
    { s with boot := b.setSector (b.sector.dropLast ++ [setImg r off size (Nat.land (imgLe r off size) v)]) }
  | _, _ => s

/-! ### Levels and policies (R350, R357, R358) -/

/-- The fall-back chain of a step: 0 REPEAT, 1 first ALTERNATE, 2 second ALTERNATE, 3 SKIP, 4 HALT. -/
def chain : Nat → List Nat
  | 1 => [0, 4]
  | 2 => [0, 4]
  | 7 => [0, 1, 3]
  | 8 => [0, 1, 2, 3]
  | 10 => [0, 1, 3]
  | _ => [0, 1, 4]

/-- A step's level and consecutive failures. -/
def State.levelOf (s : State) (n : Nat) : Nat := kvGet 0 s.boot.level n
def State.fcntOf (s : State) (n : Nat) : Nat := kvGet 0 s.boot.fcnt n
def State.setLevel (s : State) (n level fcnt : Nat) : State :=
  { s with boot.level := kvSet 0 s.boot.level n level, boot.fcnt := kvSet 0 s.boot.fcnt n fcnt }

/-- The policy of a step at its level. -/
def State.policyOf (s : State) (n : Nat) : Nat := (chain n).getD (s.levelOf n) 0

/-- One more failure at a level; the third in a row takes the step to the next level of its chain. -/
def failedOnce (n level fcnt : Nat) : Nat × Nat :=
  if fcnt + 1 = 3 then (min (level + 1) ((chain n).length - 1), 0) else (level, fcnt + 1)

/-- The level and failure count that the previous record gives a step (R358). -/
def derive (r : LedgerRec) (n : Nat) : Nat × Nat :=
  let level := imgLe r (47 + n) 1 / 16
  let fcnt := imgLe r (47 + n) 1 % 16
  let outcome := imgLe r (6 + 2 * n) 1 % 8
  if ¬ (imgLe r 36 2).testBit n then (0, 0)
  else if outcome = 2 ∨ outcome = 3 then failedOnce n level fcnt
  else if outcome = 1 then (level, 0)
  else (level, fcnt)

/-- The levels of steps 4 to 10 from the previous record; without one, level 0. -/
def State.deriveLevels (s : State) (prev : Option LedgerRec) : State :=
  [4, 5, 6, 7, 8, 9, 10].foldl (fun (a : State) n =>
    let (l, f) := match prev with
      | some r => derive r n
      | none => (0, 0)
    a.setLevel n l f) s

/-- BOOT_POLICY shows the policies of some steps. -/
def State.showPolicy (s : State) (steps : List Nat) : State :=
  steps.foldl (fun (a : State) n => a.setFd R.bootPolicy (3 * n - 1) (3 * n - 3) (a.policyOf n)) s

/-! ### Outcomes -/

/-- The two ledger bytes of a step: outcome, ok, level, code. -/
def State.stepWord (s : State) (n : Nat) : Nat :=
  kvGet 7 s.boot.outcome n + 8 * boolNat (kvGet true s.boot.okBit n) + 16 * s.levelOf n + 256 * (kvGet 0xFF s.boot.code n).toNat

/-- A step's outcome, ok and code, programmed into this start's record (R355). -/
def State.outcome (s : State) (n out : Nat) (ok : Bool) (code : Byte) : State :=
  let t : State := { s with
    boot.outcome := kvSet 7 s.boot.outcome n out
    boot.okBit := kvSet true s.boot.okBit n ok
    boot.code := kvSet 0xFF s.boot.code n code }
  t.program (6 + 2 * n) 2 (t.stepWord n)

/-- Some units are out of service: BOOT_UNITS and the record's units field. -/
def State.unitsOut (s : State) (bits : Nat) : State :=
  (s.modRg R.bootUnits (fun w => w ||| BitVec.ofNat 32 bits)).program 28 4 (2 ^ 32 - 1 - bits)

/-- The record that step 3 programs: bytes 0 to 7, the outcomes of steps 1 to 3, and bytes 48 to 63 (R355). -/
def State.newRecord (s : State) (start : Nat) : LedgerRec :=
  let r0 : LedgerRec := BitVec.allOnes 512
  let r1 := setImg (setImg (setImg r0 0 2 0x5158) 2 2 start) 4 1 (s.fd R.bootCause 3 0)
  let r2 := setImg r1 5 1 (0xFE + boolNat (s.bt R.bootCause 4))
  let r3 := [1, 2, 3].foldl (fun (r : LedgerRec) n => setImg r (6 + 2 * n) 2 (s.stepWord n)) r2
  let r4 := (List.range 10).foldl (fun (r : LedgerRec) k => setImg r (48 + k) 1 (s.fcntOf (k + 1) + 16 * s.levelOf (k + 1))) r3
  setImg r4 60 4 (crcFixed 3 ((imgBytes r4).take 8 ++ slice (imgBytes r4) 48 12))

/-- FAULT_N is asserted during steps 1 to 3, under HALT and shutdown, and while a bit of ERR_FAULT is 1. -/
def State.refreshFault (s : State) : State :=
  { s with pins.faultN := s.pins.bootFault || s.pins.halted || s.pins.shutdown || s.pins.hiZ || s.rg R.errFault != 0 }

/-! ### The end of the start (R362, R363) -/

/-- Step 10 has ended: CHK leaves multi mode, masters are served; a start that a wake from DEEP began reaches RUN, and its retained
frames and TC10 wake requests follow (R310, R313, R317). The sector that is not the ledger is erased, and the
stored value regions take the values of this start (R353). -/
def State.finishBoot (s : State) : State :=
  let s1 := (s.program 32 4 ((s.upNs - s.boot.fromUp) / 1000)).setBt R.chkMode 0 false
  let s2 : State := { s1.setBt R.bootStatus 4 true with
    boot.erasing := !s1.boot.spare.isEmpty
    boot.stored := s1.boot.found.foldl (fun a x => kvSet [] a x.1 x.2) s1.boot.stored
    boot.found := [] }
  if s2.pwr = pwWaking then
    let s3 : State := { s2.setFd R.pwrState 2 0 pwRun with slp.stage := 0 }
    s3.enterAllRetained.tc10Wake
  else s2

/-- The channel bits of a units field, for the channels that the variant has (R1, R2). -/
def State.channelBits (s : State) (bits : Nat) : Nat := bits % 2 ^ s.channelCount * 2 ^ 20

/-- What is left undone when a step is skipped (R352, R362). -/
def State.skipStep (s : State) (n : Nat) : State :=
  match n with
  | 7 => s.unitsOut (s.channelBits 0xF)
  | 8 => s.unitsOut 0x0F_0000
  | 10 => pourNothing s
  | _ => s

/-- Step 11 − `k` starts: under HALT it ends the start, under SKIP the next step follows. -/
def State.enterStep (s : State) (k : Nat) : State :=
  match k with
  | 0 => s.finishBoot
  | k + 1 =>
    let n := 10 - k
    let s1 := (s.setFd R.bootStatus 3 0 n).outcome n 3 true 0xFF
    let s2 := if s1.levelOf n = 0 then s1 else s1.setBt R.bootStatus 6 true
    match s2.policyOf n with
    | 3 => (((s2.skipStep n).outcome n 0 true 0xFF)).enterStep k
    | 4 =>
      let s3 := (s2.outcome n 2 true 0xFF).setBt R.bootStatus 5 true
      ({ s3 with pins.halted := true }).refreshFault
    | _ => s2

/-! ### Resets (R348, R349) -/

/-- Registers of the always-on domain: the PWR wake registers. -/
def alwaysOn (k : Nat) : Bool :=
  (decide (0xA0_0000 ≤ k ∧ k < 0xA0_0100) && k != R.blkStat) || decide (0xA0_1000 ≤ k ∧ k < 0xA0_1200)

/-- What the always-on domain keeps of the sleep sequence: the wake cause record, the retained frames, the entry time. -/
def Sleep.kept (x : Sleep) : Sleep :=
  { depth := x.depth, entryUp := x.entryUp, pEntry := x.pEntry, recDepth := x.recDepth, mask := x.mask, first := x.first
    tick := x.tick, retained := x.retained, pinHigh := x.pinHigh }

/-- The block right after a reset from a source, before step 1 starts. -/
def State.afterReset (s : State) (code : Nat) : State :=
  let cold := decide (code ≤ 2)
  let waking := code == 6 || (!cold && s.pwr == pwWaking && s.slp.stage == 6)
  let slp : Sleep := if cold then { pinHigh := s.slp.pinHigh } else s.slp.kept
  let t : State := { State.reset with
    pending := s.pending, free := s.free, upNs := s.upNs, out := s.out ++ [.reset (BitVec.ofNat 8 code)], logger := s.logger
    reg.regs := if cold then [] else s.reg.regs.filter (fun x => alwaysOn x.1)
    reg.wide := if cold then [] else s.reg.wide.filter (fun x => x.1 == R.slpTicks)
    slp := { slp with stage := if waking then 6 else 0 }
    cmd.linkUp := [(0, false), (1, false), (2, false), (3, false)]
    boot := { level := if cold then [] else s.boot.level.filter (fun x => decide (x.1 ≤ 3))
              fcnt := if cold then [] else s.boot.fcnt.filter (fun x => decide (x.1 ≤ 3))
              sectA := s.boot.sectA, sectB := s.boot.sectB, fromUp := s.upNs, stored := s.boot.stored }
    pins := { hiZ := false, flashOff := false } }
  let latch := s.boot.latchShutdown
  let t1 := t.setRg R.bootCause (BitVec.ofNat 32 (code + 16 * boolNat latch))
  let t2 := t1.setBt R.thermStat 3 (latch || (!cold && s.bt R.thermStat 3))
  (List.range 8).foldl State.refreshPin (t2.setFd R.pwrState 2 0 (if waking then pwWaking else pwRun))

/-- A reset from a source: steps 1 to 10 follow. -/
def State.restart (s : State) (code : Nat) : State := ((s.afterReset code).showPolicy [1, 2, 3]).enterStep 10

/-- POWER_ON_RESET: PORST_N is released. -/
def powerOnReset (s : State) : State := if s.pins.hiZ then s.restart 1 else s

def execPowerOnReset (s : State) : Res := .next (powerOnReset s)

/-- SUPPLY_MONITOR_RESET. In DEEP the rails that it watches are off. -/
def supplyMonitorReset (s : State) : State := if s.pins.hiZ ∨ s.pins.shutdown ∨ s.pwr = pwDeep then s else s.restart 2

def execSupplyMonitorReset (s : State) : Res := .next (supplyMonitorReset s)

/-- HALT at step 1, 2 or 3 ends only with source 0x01 or 0x02 (R359). -/
def State.hardHalt (s : State) : Bool := s.pins.halted && decide (s.bootStep ≤ 3)

/-- RESET_N_ASSERTED. -/
def resetNAsserted (s : State) : State := if s.pins.hiZ ∨ s.pins.shutdown ∨ s.hardHalt then s else s.restart 3

def execResetNAsserted (s : State) : Res := .next (resetNAsserted s)

/-- PORST_N_ASSERTED: outputs but INH and FAULT_N at high impedance, FAULT_N low, no access to the boot flash. -/
def porstNAsserted (s : State) : State :=
  { s with pins.hiZ := true, pins.faultN := true, pins.bootFault := true, pins.flashOff := true, boot.erasing := false }

def execPorstNAsserted (s : State) : Res := .next (porstNAsserted s)

/-- VDDAON_VALID: the always-on domain has power, INH is asserted, FAULT_N is low; only the boot flash and the fuses keep anything. -/
def vddaonValid (s : State) : State :=
  { State.reset with
    pending := s.pending, free := s.free, upNs := s.upNs, out := s.out, logger := s.logger
    boot.sectA := s.boot.sectA, boot.sectB := s.boot.sectB, boot.stored := s.boot.stored }

def execVddaonValid (s : State) : Res := .next (vddaonValid s)

/-- LEDGER_RESTART: after a failed step. -/
def ledgerRestart (s : State) : State := if s.boot.restart ∧ ¬ s.pins.hiZ ∧ ¬ s.pins.shutdown then s.restart 5 else s

def execLedgerRestart (s : State) : Res := .next (ledgerRestart s)

/-- LEDGER_ERASE_DONE: the sector that is not the ledger is empty. -/
def ledgerEraseDone (s : State) : State :=
  if s.boot.erasing then
    let b := s.boot
    { s with boot := { (if b.useB then { b with sectA := [] } else { b with sectB := [] }) with erasing := false } }
  else s

def execLedgerEraseDone (s : State) : Res := .next (clocked ledgerEraseDone s)

/-! ### BOOT_STEP_END -/

/-- The failure counts of steps 1 to 3 stand in the always-on domain (R351). -/
def State.countBoot (s : State) (n : Nat) (failed : Bool) : State :=
  if 3 < n then s
  else
    let (l, f) := if failed then failedOnce n (s.levelOf n) (s.fcntOf n) else (s.levelOf n, 0)
    s.setLevel n l f

/-- Step 3 has passed: the ledger is read, the policies follow, this start's record is programmed, FAULT_N is released. Under ALTERNATE
the pair that passed serves alone; which one is a free choice. -/
def State.step3Done (s : State) (alternate : Bool) : State :=
  let b := { s.boot with useB := s.boot.pickB }
  let prev := newestRec b.sector
  let start := match prev with
    | some r => (recStart r + 1) % 65536
    | none => 0
  let s1 := (({ s with boot := b }).deriveLevels prev).showPolicy [4, 5, 6, 7, 8, 9, 10]
  let s2 : State := { s1 with boot := s1.boot.append (s1.newRecord start), pins.bootFault := false }
  let s3 := (s2.setFd R.bootStatus 31 16 start).refreshFault
  if ¬ alternate then s3
  else
    let (b, s4) := drawBit s3
    { ((s4.setBt R.bootStatus 7 true).setBt R.errStatus 2 true).setBt R.errStatus 3 b with err.sbFailed := true }

/-- Step 5 has passed: under ALTERNATE, unrepaired units are retired (R336, R352). -/
def State.step5Done (s : State) (dp : BitVec 28) : State :=
  let s1 := (List.range 4).foldl (fun (a : State) n => if bit dp n then a.retireParser n else a) s
  let s2 := (List.range 16).foldl (fun (a : State) n => if bit dp (4 + n) then a.retireBank (Fin.ofNat 16 n) else a) s1
  (List.range 8).foldl (fun (a : State) n => if bit dp (20 + n) then a.retireLadle n else a) s2

/-- Step 6 has passed: the Ethernet ports of lanes that failed start RETIRED (R48, R352). -/
def State.step6Done (s : State) (units : BitVec 24) : State :=
  (List.range 16).foldl (fun (a : State) n => if bit units n then a.retirePort n else a) (s.unitsOut (fld units 15 0))

/-- The channels that a variant enables (R1). -/
def State.enabledChannels (s : State) : List Nat := List.range s.channelCount

/-- The channels that train at step 7, and the capacity of the lowest-numbered of them. -/
def State.trained (s : State) (e : BootEnd) : List Nat := s.enabledChannels.filter (fun c => !bit e.units (20 + c))
def State.trainedGib (s : State) (e : BootEnd) : Nat := ((e.gib.toList.getD ((s.trained e).headD 0) 0) : BitVec 5).toNat

/-- The channels that carry the capture address space after step 7: those that train, of the capacity of the lowest-numbered (R352). -/
def State.carrying (s : State) (e : BootEnd) : List Nat :=
  (s.trained e).filter (fun c => (e.gib.toList.getD c 0).toNat == s.trainedGib e)

/-- Step 7 has passed: some channels carry the capture address space, the others of the variant are retired (R251, R352). -/
def State.step7Done (s : State) (e : BootEnd) : State :=
  let up := s.carrying e
  let s1 := up.foldl (fun (a : State) c => a.setBt R.capMem c true)
    ((s.unitsOut (s.channelBits (fld e.units 23 20))).setFd R.capMem 12 8 (s.trainedGib e))
  let s2 := (s.enabledChannels.filter (fun c => !up.contains c)).foldl (fun (a : State) c =>
    ((a.setBt R.capMem (4 + c) true).report 0x0803 kPermanent 0xFF c c true).setFault 3) s1
  s2.setFd R.capSpace 14 0 s2.newSpace

/-- Step 8 has passed: the host ports at L0 are up. -/
def State.step8Done (s : State) (units : BitVec 24) : State :=
  (List.range 4).foldl (fun (a : State) h => { a with cmd.linkUp := kvSet true a.cmd.linkUp h (!bit units (16 + h)) })
    (s.unitsOut (fld units 19 16 * 2 ^ 16))

/-- Step 9 has passed: the time bases start at 0; degraded, one domain stays in FAULT (R330, R352), which one is a free choice. -/
def State.step9Done (s : State) (degraded : Bool) : State :=
  let zero := fun (d : Domain) => { d with ns := 0, frac := 0, rate := 0, integ := 0 }
  let s1 := (s.setDom 0 (zero (s.dom 0))).setDom 1 (zero (s.dom 1))
  if ¬ degraded then s1
  else
    let (b, s2) := drawBit s1
    tclkPllUnlock (if b then 1 else 0) s2

/-- What a step that passed has done. -/
def State.stepDone (s : State) (n : Nat) (degraded : Bool) (e : BootEnd) : State :=
  match n with
  | 3 => s.step3Done (s.levelOf 3 == 1)
  | 5 => if degraded then s.step5Done e.dp else s
  | 6 => if degraded then s.step6Done e.units else s
  | 7 => s.step7Done e
  | 8 => s.step8Done e.units
  | 9 => s.step9Done degraded
  | _ => s

/-- A step fails: its outcome is programmed, and the start ends (R351). -/
def State.stepFailed (s : State) (n : Nat) (code : Byte) : State :=
  let t := (s.outcome n 2 true code).countBoot n true
  { t with boot.restart := true }

/-- The units that a failed step leaves out of service: lanes of step 6, every channel of step 7, host ports not at L0 of step 8, to which
the rate caps of the next start apply (R352, R354). -/
def State.failedUnits (s : State) (n : Nat) (e : BootEnd) : State :=
  match n with
  | 6 => s.unitsOut (fld e.units 15 0)
  | 7 => s.unitsOut (s.channelBits 0xF)
  | 8 => s.unitsOut (fld e.units 19 16 * 2 ^ 16)
  | _ => s

/-- The values with which step 6 or 7 passes at level 0 wait for the end of the start (R353). -/
def State.noteValues (s : State) (n : Nat) (e : BootEnd) : State :=
  if (n = 6 ∨ n = 7) ∧ s.levelOf n = 0 then { s with boot.found := kvSet [] s.boot.found n e.values } else s

/-- A step passes: its effect, its outcome, then the next step. -/
def State.stepPassed (s : State) (n : Nat) (degraded : Bool) (e : BootEnd) : State :=
  let s1 := ((s.noteValues n e).outcome n 1 (!degraded) 0xFF).countBoot n false
  let s2 := (if degraded then s1.setBt R.bootStatus 6 true else s1).stepDone n degraded e
  s2.enterStep (10 - n)

/-- The end of step 10: the route image is checked and its records are poured; a refusal fails the step with the status in BOOT_FAILST
(R361, R362). -/
def State.step10End (s : State) (e : BootEnd) : State :=
  match routeRecords s.logger e.image with
  | .error code => s.stepFailed 10 code
  | .ok l =>
    match pourImage s l with
    | .error st => (s.setFd R.bootFailst 7 0 st.toNat).stepFailed 10 5
    | .ok t => t.stepPassed 10 false e

/-- The end of step 4: the firmware image is authenticated (R350, R361). -/
def State.step4End (s : State) (e : BootEnd) : State :=
  match imageBody false e.image with
  | .error code => s.stepFailed 4 code
  | .ok _ => s.stepPassed 4 false e

/-- Whether a step can pass degraded at its level (R352). -/
def mayDegrade (n level : Nat) : Bool := n == 6 || n == 7 || ((n == 5 || n == 9) && level == 1)

/-- Whether what step 7 found allows it to pass so: whole when every channel of the variant carries, else degraded; under ALTERNATE only with
stored values (R352). -/
def State.trainsSo (s : State) (e : BootEnd) : Bool :=
  !(s.trained e).isEmpty && (s.levelOf 7 == 0 || !(kvGet [] s.boot.stored 7).isEmpty) &&
    (e.res == .degraded) == decide ((s.carrying e).length < s.channelCount)

/-- Whether R352 gives a step such an end. -/
def State.endsSo (s : State) (n : Nat) (e : BootEnd) : Bool :=
  match e.res with
  | .fail _ => true
  | .degraded => mayDegrade n (s.levelOf n) && (n != 7 || s.trainsSo e)
  | .pass => n != 7 || s.trainsSo e

/-- Whether a boot step is in progress. -/
def State.stepping (s : State) : Bool :=
  !s.pins.hiZ && !s.pins.shutdown && !s.pins.halted && !s.bootDone && !s.boot.restart && decide (1 ≤ s.bootStep)

/-- BOOT_STEP_END. An end that R352 does not give the step has no effect. -/
def bootStepEnd (e : BootEnd) (s : State) : State :=
  let n := s.bootStep
  if ¬ s.stepping ∨ ¬ s.endsSo n e then s
  else match e.res with
    | .fail code => (s.failedUnits n e).stepFailed n code
    | .degraded => s.stepPassed n true e
    | .pass => if n = 10 then s.step10End e else if n = 4 then s.step4End e else s.stepPassed n false e

def execBootStepEnd (e : BootEnd) (s : State) : Res := .next (bootStepEnd e s)

/-! ### BOOT_REARM and BOOT_RESET -/

/-- A write of a BOOT register. -/
def onBootWrite (p : Part) (off : Nat) (f : State → State) (s : State) : State :=
  if p = pm ∧ s.haltOpen then f s else onWrite p off f s

/-- BOOT_REARM: bit n programs bit n of the record's rearm field; for steps 1 to 3 the always-on counts start again. -/
def bootRearm (v : W32) (s : State) : State :=
  let bits := (fld v 10 1) * 2
  [1, 2, 3].foldl (fun (a : State) n => if bit v n then a.setLevel n 0 0 else a) (s.program 36 2 (0xFFFF - bits))

def execBootRearm (p : Part) (v : W32) (s : State) : Res := .next (onBootWrite p 0xC0_0010 (bootRearm v) s)

/-- BOOT_RESET: the key resets the QX with source 0x04; any other value is ignored and logged. -/
def bootReset (p : Part) (v : W32) (s : State) : State :=
  if fld v 15 0 = 0x5AFE then s.restart 4 else s.report 0x0C01 kInfo p.val 0xFF (fld v 15 0)

def execBootReset (p : Part) (v : W32) (s : State) : Res := .next (onBootWrite p 0xC0_0014 (bootReset p v) s)

end Sys2Proof.Machine
end

