-- ==== Sys2Proof/Machine/Power.lean ====
section
/-! DEFINITION. Sleep and wake (11_power_wake.md): SLEEP and its sequence, wake sources, WAKING, RESUME, WAKE_READ, wake abuse, idle
gating. -/

namespace Sys2Proof.Machine

/-! ### Sources (R306) -/

/-- The wake sources, and which are enabled, asserting and masked. -/
def State.wakeEnabled (s : State) (src : Nat) : Bool := if src < 32 then s.bt R.wakEnLo src else s.bt R.wakEnHi (src - 32)
def State.wakeMasked (s : State) (src : Nat) : Bool := decide (src < 32) && s.bt R.wakMask src

/-- Whether a source wakes the QX. -/
def State.wakes (s : State) (src : Nat) : Bool := s.wakeEnabled src && !s.wakeMasked src

/-- The whole PWR_WAK_CAUSE. -/
def State.causes (s : State) : Nat := (s.rg R.wakCauseLo).toNat + (s.rg R.wakCauseHi).toNat * 2 ^ 32

/-- A cause bit is set in the registers. -/
def State.setCause (s : State) (src : Nat) : State :=
  if src < 32 then s.setBt R.wakCauseLo src true else s.setBt R.wakCauseHi (src - 32) true

/-- Whether a source's cause is latched. -/
def State.latched (s : State) (src : Nat) : Bool := s.causes.testBit src

/-- The sleep counter (R304, R315): 1/32,768 s since step 7 of R304; before it is reset there, its value is a free one. -/
def State.sleepTick (s : State) : W64 × State :=
  if s.pwr = pwEntry then
    let (k, t) := drawNat s
    (BitVec.ofNat 64 k, t)
  else (BitVec.ofNat 64 ((s.upNs - s.slp.entryUp) * 32768 / 1000000000), s)

/-! ### The start of a wake (R314 to R317) -/

/-- A latched cause ends STANDBY or DEEP. -/
def State.beginWake (s : State) : State :=
  if s.pwr = pwStandby then { s.setFd R.pwrState 2 0 pwWaking with slp.stage := 1 }
  else if s.pwr = pwDeep then ({ s with pins.inh := true }).restart 6
  else s

/-- The first cause of a sleep gives PWR_SLP_TICKS and `first`; of causes in one tick the lowest index is the first. -/
def State.noteFirst (s : State) (src : Nat) (tick : W64) : State :=
  match s.slp.first with
  | none => { s.setWide R.slpTicks tick with slp.first := some src }
  | some f => if kvGet 0 s.slp.tick f = tick ∧ src < f then { s with slp.first := some src } else s

/-- A source is detected between the arming of wake sources and RUN: its cause bit is latched with its tick (R315). -/
def State.latchCause (s : State) (src : Nat) : State :=
  if s.pwr = pwRun ∨ ¬ s.wakes src ∨ s.latched src ∨ s.pins.hiZ ∨ s.pins.shutdown then s
  else
    let (tick, s1) := s.sleepTick
    let s2 := (s1.setCause src).noteFirst src tick
    let s3 : State := { s2 with
      slp.mask := BitVec.ofNat 64 s2.causes
      slp.tick := kvInsert (kvErase s2.slp.tick src) src tick }
    s3.beginWake

/-! ### SLEEP (R303, R304) -/

/-- Whether a SLEEP's parameters are out of range, or no wake source is enabled. -/
def State.sleepBad (s : State) (d : CmdDesc) : Bool :=
  (d.b 0 != 1 && d.b 0 != 2) || decide (10000 < d.le 2 2) || decide (10000 < d.le 4 2) ||
    !(List.range 38).any s.wakeEnabled

/-- Whether work stands in the way of sleep. -/
def State.sleepBusy (s : State) : Bool :=
  s.pwr != pwRun || hostParts.any (fun p => !(s.path p).fetched.isEmpty) || !s.cmd.pours.isEmpty ||
    allParts.any (fun p => s.sealed_ p)

/-- The enabled sources that assert and are not masked. -/
def State.awakeSources (s : State) : Nat :=
  ((List.range 24).filter (fun i => s.asserts i && s.wakes i)).foldl (fun a i => a + 2 ^ i) 0

/-- Step 1 of R304: ENTRY, wake sources armed, causes and fall-back cleared (R309, R315). -/
def State.enterEntry (s : State) (d : CmdDesc) : State :=
  let s1 := ((s.setFd R.pwrState 2 0 pwEntry).setRg R.wakCauseLo 0).setRg R.wakCauseHi 0
  let s2 := (List.range 16).foldl (fun (a : State) n => a.modRg (R.cwStat n) (fun w => setFld w 6 0 0)) s1
  { s2 with slp := { s2.slp with
      cmd := some (d.ctag, d.irq), depth := d.b 0, stage := 3, tc10 := [], okPorts := 0, badPorts := 0
      recDepth := 0, mask := 0, first := none, tick := [] } }

/-- SLEEP. -/
def sleepBody (d : CmdDesc) (s : State) : Except Ans State :=
  if s.sleepBad d then .error (fail s St.badParam)
  else if s.sleepBusy then .error (fail s St.conflict)
  else if s.awakeSources ≠ 0 then .error { s := s, status := St.conflict, result := s.awakeSources }
  else .ok (s.enterEntry d)

/-- The form of SLEEP. -/
def sleepForm (d : CmdDesc) : Form :=
  { kind := .immediate, pmOnly := true, size := fun l => l == 8, clean := decide (d.b 1 = 0 ∧ d.le 6 2 = 0) }

def execSleep (p : Part) (d : CmdDesc) (s : State) : Res :=
  .next (runWaiting (fun t => t.slp.cmd.any (fun x => x.1 == d.ctag)) (sleepForm d) p d (sleepBody d) s)

/-- Every port stops: copies still queued are dropped under LINK_DOWN (R49, R304). -/
def State.stopPorts (s : State) : State :=
  let s1 := mediaPorts.foldl (fun (a : State) c => (a.linkLoss c).abortRx c) s
  let s2 := (List.range 16).foldl (fun (a : State) n =>
    if a.ethState n = pUp ∨ a.ethState n = pTraining then
      (((a.setFd (R.ethStatus n) 2 0 pDown).setBt (R.gteStatus n) 13 false).gptpPortDown n).setLane n {}
    else a) s1
  let s3 := (List.range 8).foldl (fun (a : State) n =>
    if a.t1sState n = pUp then a.setFd (R.t1sStatus n) 2 0 pDown else a) s2
  (List.range 2).foldl (fun (a : State) f => a.setFd (R.frStatus f) 2 0 0) s3

/-- The SLEEP reply (step 6 of R304). -/
def State.sleepReply (s : State) : State :=
  match s.slp.cmd with
  | none => s
  | some (tag, irq) =>
    let t : State := { s with slp.cmd := none, slp.stage := 6 }
    t.complete pm { tag := tag, status := St.ok, irq := irq
                    result := BitVec.ofNat 64 (s.slp.okPorts.toNat + s.slp.badPorts.toNat * 2 ^ 16) }

/-- SLEEP_DRAIN_END: steps 4 and 5 of R304; without a TC10 port the reply follows at once. -/
def sleepDrainEnd (s : State) : State :=
  if s.pwr ≠ pwEntry ∨ s.slp.stage ≠ 3 then s
  else
    let ports := (List.range 16).filter (fun n => s.bt (R.tc10Cfg n) 0)
    let s1 : State := { s.stopPorts with slp.stage := 4, slp.tc10 := ports.map (fun n => (n, 0)) }
    let s2 := ports.foldl (fun (a : State) n => a.tc10Write n (a.fd R.tc10Codes 15 0)) s1
    if ports.isEmpty then s2.sleepReply else s2

def execSleepDrainEnd (s : State) : Res := .next (clocked sleepDrainEnd s)

/-- The read of (devad, regad + 1) of a port's PHY joins its bus (R313). -/
def State.tc10Read (s : State) (n : EPort) : State :=
  let r := s.rg R.tc10Reg
  s.mdioAdd (n.val / 4) { who := .tc10Read, port := n.val, dev := BitVec.ofNat 5 (fld r 20 16), reg := BitVec.ofNat 16 (fld r 15 0 + 1)
                          read := true, data := 0 }

/-- Whether ENTRY waits for the answer of a port's PHY at step 5 of R304. -/
def State.tc10Waits (s : State) (n : EPort) : Bool :=
  s.pwr == pwEntry && s.slp.stage == 4 && s.slp.tc10.any (fun x => x.1 == n.val)

/-- The milliseconds of a port's TC10 handshake at which its status was read. -/
def State.tc10Reads (s : State) (n : EPort) : Nat := ((s.slp.tc10.find? (fun x => x.1 == n.val)).map (fun x => x.2)).getD 0

/-- A port's TC10 handshake ends: acknowledged, or rejected or timed out; the last one brings the SLEEP reply (R304, R313). -/
def State.tc10End (s : State) (n : EPort) (ack : Bool) : State :=
  let s1 : State := { s with slp.tc10 := s.slp.tc10.filter (fun x => x.1 != n.val) }
  let s2 : State := if ack then { s1 with slp.okPorts := setBit s1.slp.okPorts n.val true }
    else { s1 with slp.badPorts := setBit s1.slp.badPorts n.val true }
  if s2.slp.tc10.isEmpty then s2.sleepReply else s2

/-- An instant of a TC10 handshake: with `read` a millisecond point, at which the PHY's status is read, sixteen times at most; with `expired`
the end of the 16 ms, which no handshake meets before its fifteenth read (R313). -/
def tc10Poll (n : EPort) (read expired : Bool) (s : State) : State :=
  if ¬ s.tc10Waits n then s
  else if expired ∧ 15 ≤ s.tc10Reads n then s.tc10End n false
  else if read ∧ s.tc10Reads n < 16 then
    let t : State := { s with slp.tc10 := s.slp.tc10.map (fun x => if x.1 = n.val then (x.1, x.2 + 1) else x) }
    t.tc10Read n
  else s

def execTc10Poll (n : EPort) (read expired : Bool) (s : State) : Res := .next (clocked (tc10Poll n read expired) s)

/-- What a TC10 read found: an acknowledgement, a rejection, or neither, after which the handshake goes on (R313). -/
def State.tc10Found (s : State) (n : EPort) (status : BitVec 16) : State :=
  let ack := bit status (s.fd R.tc10Reg 24 21)
  let rej := bit status (s.fd R.tc10Reg 28 25)
  if ¬ s.tc10Waits n ∨ (¬ ack ∧ ¬ rej) then s else s.tc10End n ack

/-! ### MDIO (R53) -/

/-- What the end of an access gives who asked for it. -/
def State.mdioResult (s : State) (m : Nat) (x : MdioReq) (rdata : BitVec 16) (noTurn : Bool) : State :=
  match x.who with
  | .part p => s.modRgp p (R.mdioAcc m) (fun w =>
      let w1 := setBit w 31 false
      if x.read then setBit (setFld w1 15 0 rdata.toNat) 30 noTurn else w1)
  | .tc10 => s
  | .tc10Read => s.tc10Found (Fin.ofNat 16 x.port) rdata
  | .poll => s.pollRead (Fin.ofNat 16 x.port) rdata

/-- The access in progress ends; the next one starts. -/
def mdioAccessDone (m : Fin 4) (rdata : BitVec 16) (noTurn : Bool) (s : State) : State :=
  match s.mdioQ m with
  | [] => s
  | x :: r =>
    let s1 := (s.setMdioQ m r).mdioResult m x rdata noTurn
    match r with
    | [] => s1
    | y :: _ => s1.mdioShow m y

def execMdioAccessDone (m : Fin 4) (rdata : BitVec 16) (noTurn : Bool) (s : State) : Res :=
  .next (clocked (mdioAccessDone m rdata noTurn) s)

/-- SLEEP_HOLD_END: steps 7 and 8 of R304. A cause latched in ENTRY begins WAKING at once. -/
def sleepHoldEnd (s : State) : State :=
  if s.pwr ≠ pwEntry ∨ s.slp.stage ≠ 6 then s
  else
    let deep := s.slp.depth == 2
    let s1 := s.modRg R.pwrState (fun w => setFld (setFld w 2 0 (if deep then pwDeep else pwStandby)) 5 4 s.slp.depth)
    let s2 : State := { s1 with
      slp.pEntry := s.extP, slp.entryUp := s.upNs, slp.recDepth := s.slp.depth, slp.stage := 0
      pins.inh := s1.pins.inh && !deep }
    if s2.slp.mask ≠ 0 then s2.beginWake else s2

def execSleepHoldEnd (s : State) : Res := .next (clocked sleepHoldEnd s)

/-! ### Detectors (R307 to R312) -/

/-- Whether wake sources are armed: from step 1 of R304 until RUN. -/
def State.armed (s : State) : Bool := s.pwr != pwRun && !s.pins.hiZ && !s.pins.shutdown

/-- One decoding error or one frame without error (R309). -/
def State.decodeCount (s : State) (n : Nat) (error : Bool) : State :=
  let k := s.fd (R.cwStat n) 5 0
  let k' := if error then min 32 (k + 1) else k - 1
  s.modRg (R.cwStat n) (fun w => setBit (setFld w 5 0 k') 6 (bit w 6 || k' == 32))

/-- The first frame that wakes its port is retained (R310). -/
def State.retain (s : State) (n : Nat) (f : WakeFrame) (sof : W64) : State :=
  let data := f.data.take (min f.dlc.toNat 8)
  let r : Retained := { hslot := canHslot f.ident.toNat (if f.ide then 4 else 0) f.dlc.toNat data.length, data := data, tick := sof }
  { s.setBt (R.cwStat n) 7 true with slp.retained := kvInsert (kvErase s.slp.retained n) n r }

/-- A frame retained after FWD is up enters at once (R310, step 4 of R316). -/
def State.lateRetained (s : State) (n : Nat) : State :=
  if s.pwr = pwWaking ∧ s.slp.recDepth = 1 ∧ 4 ≤ s.slp.stage then s.enterRetained n else s

/-- CAN_WAKE_FRAME: a frame that a decoder with wuf_en = 1 decodes in sleep; the decoder of a retired port is disabled (R338). -/
def canWakeFrame (n : Fin 16) (f : WakeFrame) (sof : W64) (s : State) : State :=
  let tol := s.bt (R.cwCfg n) 4
  if ¬ s.armed ∨ ¬ s.bt (R.cwCfg n) 0 ∨ s.bt (R.cwStat n) 6 ∨ s.retired (0x20 + n) then s
  else if ¬ f.ok ∨ (f.fd ∧ ¬ tol) then s.decodeCount n true
  else if f.fd then s
  else
    let s1 := s.decodeCount n false
    if ¬ s1.wakeMatch n f then s1
    else
      let s2 := s1.count (R.cwMatch n)
      (if s2.wakes n ∧ ¬ s2.latched n then (s2.retain n f sof).lateRetained n else s2).latchCause n

def execCanWakeFrame (n : Fin 16) (f : WakeFrame) (sofTick : W64) (s : State) : Res := .next (canWakeFrame n f sofTick s)

/-- CAN_WAKE_PATTERN: the wake-up pattern at a decoder with wup_en = 1. -/
def canWakePattern (n : Fin 16) (s : State) : State :=
  if ¬ s.armed ∨ ¬ s.bt (R.cwCfg n) 1 ∨ s.retired (0x20 + n) then s else (s.count (R.cwMatch n)).latchCause n

def execCanWakePattern (n : Fin 16) (s : State) : Res := .next (canWakePattern n s)

/-- WAKE_IN_EVENT: a debounced level or edge of a pin, and whether its level is then the active one. In level mode the source asserts
while that level lasts, in edge mode from an active edge on (R321). -/
def wakeInEvent (n : Fin 8) (active : Bool) (s : State) : State :=
  let t : State := { s with slp.pinHigh := setBit s.slp.pinHigh n.val (active != s.bt (R.winCfg n) 1) }
  let s1 := if active ∨ ¬ s.bt (R.winCfg n) 0 then t.setBt R.wakAssert (16 + n) active else t
  if active then s1.latchCause (16 + n) else s1

def execWakeInEvent (n : Fin 8) (active : Bool) (s : State) : Res := .next (wakeInEvent n active s)

/-- T1S_ACTIVITY. -/
def t1sActivity (n : Fin 8) (s : State) : State := s.latchCause (24 + n)

def execT1sActivity (n : Fin 8) (s : State) : Res := .next (t1sActivity n s)

/-- WAKE_TIMER_EXPIRE: after step 8 of R304. -/
def wakeTimerExpire (s : State) : State :=
  if s.pwr = pwEntry ∨ s.fd R.pwrTimer 23 0 = 0 then s else s.latchCause 37

def execWakeTimerExpire (s : State) : Res := .next (wakeTimerExpire s)

/-! ### WAKING from STANDBY (R316, R318) -/

/-- The time asleep in 2^-32 ns, counted on ACLK in whole cycles; which of two counts is a free choice. -/
def State.asleepFine (s : State) : Int × State :=
  let (up, t) := drawBit s
  (((s.upNs - s.slp.entryUp) * 32768 / 1000000000 + boolNat up : Nat) * (1000000000 : Int) * 2 ^ 32 / 32768, t)

/-- An enabled time base resumes at its value at entry plus the time asleep at its held rate; LOCKED resumes in HOLDOVER. The
rounding at 2^-32 ns is a free value. -/
def State.resumeDom (s : State) (d : Int) (x : Nat) : State :=
  if ¬ s.domEn x then s
  else
    let b := s.dom x
    let (up, s0) := drawBit s
    let s1 := s0.setDom x (b.setFine (b.fine + d + d * b.rate / 256000000000 + boolNat up))
    if s1.domState x = domLocked then s1.toDom x domHoldover else s1

/-- Time bases and turntables resume. -/
def State.resumeTime (s : State) : State :=
  let (d, s1) := s.asleepFine
  let s2 := (s1.resumeDom d 0).resumeDom d 1
  (List.range 16).foldl (fun (a : State) n => if a.bt (R.ttCfg n) 0 then a.enterAcquire n else a) s2

/-- Ports start: bus controllers in their poured modes; a CAN controller under fall-back keeps its error counters (R309). -/
def State.startPorts (s : State) : State :=
  let s1 := (List.range 48).foldl (fun (a : State) n =>
    if a.fd (R.canCfg n) 1 0 = 0 ∨ (n < 16 ∧ a.bt (R.cwStat n) 6) then a else a.setRg (R.canStatus n) 0) s
  let s2 := (List.range 24).foldl (fun (a : State) n => a.setLin n {}) s1
  s2.tc10Wake

/-- The ring sizes of R268, and head and tail of a partition's SQ. -/
def State.sqSize (s : State) (p : Part) : Nat := if p = pm then 64 else 2 ^ s.fd (copyKey p R.sqSize) 3 0
def State.sqHead (s : State) (p : Part) : Nat := s.fd (copyKey p R.sqHead) 11 0
def State.sqTail (s : State) (p : Part) : Nat := s.fd (copyKey p R.sqTail) 11 0

/-- A doorbell of a master on a partition's SQ takes effect (R269): it is ignored while the partition is frozen (R294), and ignored
and logged while en = 0 or for a value of 2^k or more. -/
def State.ringDoorbell (s : State) (m copy : Part) (v : W32) : State :=
  if s.frozen copy then s
  else if ¬ s.bt (copyKey copy R.cmdCtl) 0 ∨ s.sqSize copy ≤ fld v 11 0 then s.report 0x0101 kInfo m.val 0xFF (fld v 11 0)
  else s.setRgp copy R.sqTail (BitVec.ofNat 32 (fld v 11 0))

/-- A latched doorbell takes effect, and the descriptors that it announced are known (R319, R320). -/
def State.wakeDoorbell (s : State) (h : HostPort) : State :=
  match (s.path h.part).latchedDoorbell with
  | none => s
  | some v =>
    let t := s.ringDoorbell h.part h.part v
    let n := s.sqSize h.part
    let c := t.path h.part
    t.setPath h.part { c with
      latchedDoorbell := none
      coverSkip := (s.sqTail h.part + n - s.sqHead h.part) % n
      cover := (t.sqTail h.part + n - s.sqTail h.part) % n }

/-- Latched PUSHes are the first that PM's SQ gives (R319). -/
def State.wakePush (s : State) : State :=
  let c := s.path pm
  s.setPath pm { c with sq := c.latchedPush ++ c.sq, latchedPush := [], coverSkip := 0, cover := c.latchedPush.length }

/-- RUN: fetching resumes, with the latched doorbells and the PUSH. -/
def State.enterRun (s : State) : State :=
  let s1 : State := { s.setFd R.pwrState 2 0 pwRun with slp.stage := 0 }
  ([0, 1, 2, 3].foldl (fun (a : State) (h : HostPort) => a.wakeDoorbell h) s1).wakePush

/-- WAKING_STEP_DONE: the next step of R316 from STANDBY ends. -/
def wakingStepDone (s : State) : State :=
  if s.pwr ≠ pwWaking ∨ s.slp.recDepth ≠ 1 ∨ s.unreachable then s
  else
    let k := s.slp.stage + 1
    let t : State := { s with slp.stage := k }
    match k with
    | 3 => t.resumeTime
    | 4 => t.enterAllRetained
    | 6 => t.startPorts
    | 7 => t.enterRun
    | _ => t

def execWakingStepDone (s : State) : Res := .next (wakingStepDone s)

/-! ### RESUME and WAKE_READ (R315, R320) -/

/-- The source of a partition's doorbell or PUSH. -/
def wakeSource (p : Part) : Nat := if p = pm then 36 else 32 + p.val

/-- RESUME. -/
def resumeBody (p : Part) (d : CmdDesc) (s : State) : Ans :=
  let src := wakeSource p
  let mine := ((s.fetchedOf p d.ctag).map Fetched.latched).getD false
  if ¬ mine ∨ ¬ s.latched src then fail s St.okAlready
  else
    let others := (List.range 38).filter (fun i => i != src && s.latched i)
    let tick := fun (i : Nat) => (kvGet 0 s.slp.tick i).toNat
    { s := s, status := if others.all (fun i => decide (tick src < tick i)) then St.ok else St.okWaking, result := s.causes }

/-- The form of RESUME. -/
def resumeForm : Form := { kind := .immediate, size := fun l => l == 0 }

def execResume (p : Part) (d : CmdDesc) (s : State) : Res :=
  .next (runCommand resumeForm p d (resumeBody p d) s)

/-- The wake cause record. Without a cause the first cause is a free value. -/
def State.wakeRecord (s : State) : List Byte × State :=
  let (k, t) := drawNat s
  let first := s.slp.first.getD k
  let tick := fun (i : Nat) => match s.slp.tick.find? (fun x => x.1 == i) with
    | some x => x.2
    | none => BitVec.allOnes 64
  (imgBytes s.slp.mask ++ imgBytes s.slp.pEntry ++ [BitVec.ofNat 8 s.slp.recDepth, BitVec.ofNat 8 first] ++ List.replicate 14 0 ++
    (List.range 38).flatMap (fun i => imgBytes (tick i)), t)

/-- WAKE_READ. -/
def wakeReadBody (d : CmdDesc) (s : State) : Ans := withOutput d s s.wakeRecord.2 0 s.wakeRecord.1

def execWakeRead (p : Part) (d : CmdDesc) (s : State) : Res :=
  .next (runCommand (readForm 0 true) p d (wakeReadBody d) s)

/-! ### Wake abuse (R321) -/

/-- WAKE_ABUSE: an asserting source is masked, counted, logged and told to PM; the node of Cn's last counted frame is held. -/
def wakeAbuse (src : Fin 24) (s : State) : State :=
  if ¬ s.asserting ∨ ¬ s.asserts src then s
  else
    let s1 := ((s.setBt R.wakMask src true).count R.wakAbuse).report 0x0A01 kTransient 0xFF 0xFF src
    let s2 : State := { s1.setBt R.secPmEvent 4 true with cmd.spiEvent := true }
    let i := kvGet 0 s2.slp.lastNode src.val
    if 16 ≤ src.val ∨ i = 0 then s2
    else
      let s3 := s2.holdNode (i - 1) 3 (s2.fd R.abuseHold 15 0)
      { s3 with slp.abuseNode := kvSet 0 s3.slp.abuseNode src.val i }

def execWakeAbuse (src : Fin 24) (s : State) : Res := .next (clocked (wakeAbuse src) s)

/-- WAKE_ASSERTION_END: keep_ms without a frame or an edge. -/
def wakeAssertionEnd (src : Fin 24) (s : State) : State :=
  if src.val < 16 ∨ s.bt (R.winCfg (src.val - 16)) 0 then s.setBt R.wakAssert src false else s

def execWakeAssertionEnd (src : Fin 24) (s : State) : Res := .next (clocked (wakeAssertionEnd src) s)

/-! ### Idle gating (R302) -/

/-- The bit of PWR_BLK_STAT of a unit; banks and ladle lanes have none. -/
def gateBit : GateUnit → Option Nat
  | .parser n => some n
  | .slice n => some (4 + n)
  | .channel c => some (12 + c)
  | .ethLane n => some (16 + n)
  | .bank _ => none
  | .ladle _ => none

/-- Whether a unit may be gated: a lane while its port is DISABLED, a channel of the variant while it holds no siding word. -/
def State.mayGate (s : State) : GateUnit → Bool
  | .ethLane n => s.ethState n == pDisabled
  | .channel c => decide (c.val < s.channelCount) && !s.holdsWord c
  | _ => true

/-- Whether a unit is gated at every instant: a slice beyond the band's count that is not under test. -/
def State.mustGate (s : State) : GateUnit → Bool
  | .slice n => !s.bt R.sliceStatus n && s.testUnit 0 != n.val
  | _ => false

/-- The units that PWR_BLK_STAT shows, in the order of its bits. -/
def gateUnits : List GateUnit :=
  (List.range 4).map (fun n => .parser (Fin.ofNat 4 n)) ++ (List.range 8).map (fun n => .slice (Fin.ofNat 8 n)) ++
    (List.range 4).map (fun n => .channel (Fin.ofNat 4 n)) ++ (List.range 16).map (fun n => .ethLane (Fin.ofNat 16 n))

/-- What a read of PWR_BLK_STAT shows: the units that have gated themselves and still may, and those that are always gated. -/
def State.gatedNow (s : State) : W32 :=
  BitVec.ofNat 32 ((gateUnits.zip (List.range 32)).foldl (fun a x =>
    a + boolNat ((s.bt R.blkStat x.2 && s.mayGate x.1) || s.mustGate x.1) * 2 ^ x.2) 0)

/-- IDLE_CLOCK_GATING: it changes nothing but PWR_BLK_STAT. -/
def idleClockGating (u : GateUnit) (gated : Bool) (s : State) : State :=
  match gateBit u with
  | none => s
  | some i => if gated ∧ ¬ s.mayGate u then s else s.setBt R.blkStat i gated

def execIdleClockGating (u : GateUnit) (gated : Bool) (s : State) : Res := .next (clocked (idleClockGating u gated) s)

end Sys2Proof.Machine
end

