-- ==== Sys2Proof/Machine/Rings.lean ====
section
/-! DEFINITION. The command rings (R266 to R277, R398): doorbells, descriptor fetch, the dispatcher, replies, the ring registers;
PART_THAW (R295), function-level reset (R296) and the host links (R297, R338). -/

namespace Sys2Proof.Machine

/-! ### Doorbells (R269, R319) -/

/-- A doorbell: from step 1 of R304 until RUN it is latched, and wakes the QX as source Hn; otherwise it takes effect. -/
def State.doorbellOn (s : State) (m copy : Part) (v : W32) : State :=
  if s.frozen copy then s
  else if s.pwr = pwRun then s.ringDoorbell m copy v
  else
    let t := s.setPath copy { s.path copy with latchedDoorbell := some v }
    if m = pm then t else t.latchCause (wakeSource copy)

def doorbell (h : HostPort) (v : W32) : State → State := onAccess h.part R.sqTail (fun s => s.doorbellOn h.part h.part v)

def execDoorbell (h : HostPort) (v : W32) (s : State) : Res := .next (doorbell h v s)

/-! ### Descriptor fetch (R266, R267, R269, R273, R400) -/

/-- The command of a 32-byte descriptor and of what the buffer at its in_ptr holds. -/
def parseDesc (raw buf : List Byte) : CmdDesc :=
  let ind := bit (byteAt raw 2) 3
  let plen := leAt raw 6 2
  let at_ := fun (o n : Nat) => if ind then leAt raw o n else 0
  { opcode := BitVec.ofNat 16 (leAt raw 0 2), flags := byteAt raw 2, tag := BitVec.ofNat 16 (leAt raw 4 2)
    plen := BitVec.ofNat 16 plen
    inPtr := BitVec.ofNat 64 (at_ 8 8), outPtr := BitVec.ofNat 64 (at_ 16 8), outLen := BitVec.ofNat 32 (at_ 24 4)
    rsv := BitVec.ofNat 32 (at_ 28 4)
    params := if ind then slice buf 0 plen else slice raw 8 (min plen 24) }

/-- Whether a partition's SQ holds a descriptor that may be fetched. -/
def State.offers (s : State) (p : Part) : Bool :=
  if p = pm then !(s.path pm).sq.isEmpty
  else !s.blocked p && s.bt (copyKey p R.cmdCtl) 0 && s.sqHead p != s.sqTail p

/-- Whether a partition offers descriptors that a doorbell or a PUSH latched in a sleep announced, and waits for no busy tag. -/
def State.offersLatched (s : State) (p : Part) : Bool :=
  s.offers p && (s.path p).cover != 0 && !(s.path p).waitTag.any ((s.path p).busy.contains ·)

/-- Whether a partition's SQ holds a descriptor that may be fetched now: after a sleep, what latched doorbells and PUSHes announced is
fetched first (R316 step 7, R319). -/
def State.fetches (s : State) (p : Part) : Bool :=
  s.bootDone && s.pwr == pwRun && s.offers p && ((s.path p).cover != 0 || !allParts.any s.offersLatched)

/-- What PM's command finds at its in_ptr. -/
def State.pmParams (s : State) (raw : List Byte) : List Byte :=
  if inPmBuf (leAt raw 8 8) (leAt raw 6 2) then Memory.readBytes s.reg.pmBuf (leAt raw 8 8 - pmBufBase) (leAt raw 6 2) else []

/-- The next descriptor of a partition's SQ: host memory holds a host's, PM's SQ is on chip (R272). -/
def State.nextDesc (s : State) (p : Part) (raw buf : List Byte) : CmdDesc :=
  if p = pm then
    let r := (s.path pm).sq.headD []
    parseDesc r (s.pmParams r)
  else parseDesc raw buf

/-- The address of the SQ entry at the head. -/
def State.sqAddr (s : State) (p : Part) : Nat :=
  (s.rgp p R.sqBaseLo).toNat + (s.rgp p R.sqBaseHi).toNat * 2 ^ 32 + 32 * s.sqHead p

/-- A fetched descriptor joins the partition's commands, and its tag is busy; the head moves on. -/
def State.takeDesc (s : State) (p : Part) (d : CmdDesc) : State :=
  let c := s.path p
  let now := c.coverSkip == 0
  let t := s.setPath p { c with
    fetched := c.fetched ++ [{ desc := d, latched := now && c.cover != 0 }]
    busy := c.busy ++ [d.ctag]
    waitTag := none
    sq := c.sq.tail
    coverSkip := c.coverSkip - 1
    cover := if now then c.cover - 1 else c.cover }
  t.setRgp p R.sqHead (BitVec.ofNat 32 ((s.sqHead p + 1) % s.sqSize p))

/-- COMMAND_FETCH: `raw` is what host memory holds at the SQ entry, `buf` what it holds at the descriptor's in_ptr. -/
def commandFetch (p : Part) (raw buf : List Byte) (s : State) : State :=
  let d := s.nextDesc p raw buf
  if ¬ s.fetches p then s
  else if p ≠ pm ∧ ¬ (s.grant p).covers (s.sqAddr p) 32 then s.violate p 3 (s.sqAddr p % 2 ^ 32)
  else if (s.path p).busy.contains d.ctag then s.setPath p { s.path p with waitTag := some d.ctag }
  else s.takeDesc p d

def execCommandFetch (p : Part) (raw : List Byte) (buf : List Byte) (s : State) : Res :=
  .next (onSignalBox (commandFetch p raw buf) s)

/-! ### Which command may start (R276) -/

/-- Whether a command behaves as fenced: MOULD_OPEN, MOULD_DISCARD, POUR and SLEEP always do (R276, R303). -/
def Fetched.fenced (f : Fetched) : Bool := f.desc.fence || [0x0901, 0x0902, 0x0903, 0x0701].contains f.desc.opcode.toNat

/-- The oldest command of a partition that waits, if it can start: a fence waits for the commands before it, and commands after
a fence wait for it (R276). -/
def State.startable (s : State) (p : Part) : Option Fetched :=
  let l := (s.path p).fetched
  let before := l.takeWhile (·.started)
  match l.find? (fun f => !f.started) with
  | none => none
  | some f => if before.any Fetched.fenced || (f.fenced && !before.isEmpty) then none else some f

/-! ### Replies (R270, R272, R274, R277) -/

/-- A command's output goes to its buffer: into the PM buffer, or by DMA, whose address is checked first (R275, R400). -/
def State.writeOut (s : State) (p : Part) (r : Reply) : State :=
  if r.out.isEmpty then s
  else if p = pm then
    (if inPmBuf r.outAt.toNat r.out.length then
      { s with reg.pmBuf := Memory.writeBytes s.reg.pmBuf (r.outAt.toNat - pmBufBase) r.out } else s)
  else if (s.grant p).covers r.outAt.toNat r.out.length then s.emit (.dma p r.outAt r.out)
  else s.violate p 3 (r.outAt.toNat % 2 ^ 32)

/-- Whether a reply's output may be written. -/
def State.outOk (s : State) (p : Part) (r : Reply) : Bool :=
  r.out.isEmpty || p == pm || (s.grant p).covers r.outAt.toNat r.out.length

/-- Output outside the windows is abandoned; the reply it belongs to waits on. -/
def State.dropOut (s : State) (p : Part) : State :=
  match (s.path p).ready with
  | [] => s
  | r :: l => s.setPath p { s.path p with ready := { r with out := [] } :: l }

/-- Head and tail of a partition's CQ, its size, and how many replies it takes before it is full (R270, R272). -/
def State.cqHead (s : State) (p : Part) : Nat := s.fd (copyKey p R.cqHead) 11 0
def State.cqTail (s : State) (p : Part) : Nat := s.fd (copyKey p R.cqTail) 11 0
def State.cqSize (s : State) (p : Part) : Nat := if p = pm then 64 else 2 ^ s.fd (copyKey p R.cqSize) 3 0
def State.cqRoom (s : State) (p : Part) : Nat := s.cqSize p - 1 - (s.cqTail p + s.cqSize p - s.cqHead p) % s.cqSize p

/-- The phase bit of the next reply: CMD_CQ_TAIL [31]. PM's rings are always in use, and its first phase is 1. -/
def State.cqPhase (s : State) (p : Part) : Bool := s.bt (copyKey p R.cqTail) 31 != (p == pm)

/-- The 16 bytes of a reply (R274). -/
def Reply.bytes (r : Reply) (phase : Bool) : List Byte :=
  leBytes 2 (r.tag.toNat + boolNat phase * 2 ^ 15) ++ [r.status, 0] ++ imgBytes r.epoch ++ imgBytes r.result

/-- A completed command's reply is released: its output is written, its epoch field is filled, and its tag is free unless the
reply has to wait on chip. While the partition's DMA waits, its output waits with it (R294, R297). -/
def State.releaseReply (s : State) (p : Part) (r : Reply) : State :=
  let c := s.path p
  let s1 := s.setPath p { c with done := c.done.filter (fun x => x.tag != r.tag) }
  let held := s1.blocked p
  let keeps := held || decide (s1.cqRoom p ≤ c.ready.length)
  let s2 := if held then s1 else s1.writeOut p r
  let r2 := { r with
    epoch := r.epochOf.getD (s.epoch.setWidth 32), keeps := keeps
    out := if held then r.out else [] }
  let c2 := s2.path p
  (s2.setPath p { c2 with
    ready := c2.ready ++ [r2]
    busy := if keeps then c2.busy else c2.busy.erase r.tag }).endSeal p r.mould

/-- REPLY_RELEASE. -/
def replyRelease (p : Part) (tag : BitVec 12) (s : State) : State :=
  match (s.path p).done.find? (fun r => r.tag == tag) with
  | some r => s.releaseReply p r
  | none => s

def execReplyRelease (p : Part) (tag : BitVec 12) (s : State) : Res := .next (onSignalBox (replyRelease p tag) s)

/-- A reply leaves the chip for the CQ: the tail moves on, and the phase flips when it wraps to 0. -/
def State.cqAdvance (s : State) (p : Part) (r : Reply) : State :=
  let c := s.path p
  let s1 := s.setPath p { c with
    ready := c.ready.tail
    busy := if r.keeps then c.busy.erase r.tag else c.busy
    cq := if p = pm then c.cq ++ [(r, s.cqPhase p)] else c.cq }
  let n := (s.cqTail p + 1) % s.cqSize p
  s1.modRgp p R.cqTail (fun w => setBit (BitVec.ofNat 32 n) 31 (bit w 31 != (n == 0)))

/-- The address of the CQ entry at the tail. -/
def State.cqAddr (s : State) (p : Part) : Nat :=
  (s.rgp p R.cqBaseLo).toNat + (s.rgp p R.cqBaseHi).toNat * 2 ^ 32 + 16 * s.cqTail p

/-- The oldest released reply is written when the CQ has room, its MSI-X message after it (R23). The flag tells whether it was. -/
def State.writeReply (s : State) (p : Part) : Bool × State :=
  match (s.path p).ready with
  | [] => (false, s)
  | r :: _ =>
    if s.cqRoom p = 0 then (false, s)
    else if ¬ s.outOk p r then (false, (s.dropOut p).writeOut p r)
    else
      let s1 := s.writeOut p r
      if p = pm then (true, s1.cqAdvance p r)
      else if ¬ (s.grant p).covers (s.cqAddr p) 16 then (false, s.violate p 3 (s.cqAddr p % 2 ^ 32))
      else
        let s2 := (s1.emit (.dma p (BitVec.ofNat 64 (s.cqAddr p)) (r.bytes (s.cqPhase p)))).cqAdvance p r
        (true, if r.irq then s2.emit (.msix p (BitVec.ofNat 6 (s.fd (copyKey p R.cmdCtl) 7 2))) else s2)

/-- CQ_REPLY_WRITE. -/
def cqReplyWrite (p : Part) (s : State) : State := if s.blocked p then s else (s.writeReply p).2

def execCqReplyWrite (p : Part) (s : State) : Res := .next (onSignalBox (cqReplyWrite p) s)

/-! ### Ring registers (R268, R270, R271, R272) -/

/-- An ignored write of a ring register. -/
def State.ringIgnored (s : State) (m : Part) (off : Nat) : State := s.report 0x0102 kInfo m.val 0xFF off

/-- A write of CMD_CQ_HEAD is accepted when it moves the head forward over replies already written. -/
def State.writeCqHead (s : State) (m copy : Part) (v : W32) : State :=
  let n := s.cqSize copy
  let x := fld v 11 0
  let old := s.cqHead copy
  if s.bt (copyKey copy R.cmdCtl) 0 ∧ x < n ∧ (x + n - old) % n ≤ (s.cqTail copy + n - old) % n then
    s.setRgp copy R.cqHead (BitVec.ofNat 32 x)
  else s.report 0x0105 kInfo m.val 0xFF x

def execCqHeadWrite (h : HostPort) (v : W32) (s : State) : Res :=
  .next (onWrite h.part R.cqHead (fun t => t.writeCqHead h.part h.part v) s)

/-- A write of CMD_CTL: en from 0 to 1 sets the pointers to 0 and the expected phase to 1; en = 0 stops fetching. -/
def State.writeCmdCtl (s : State) (copy : Part) (v : W32) : State :=
  let was := s.bt (copyKey copy R.cmdCtl) 0
  let s1 := s.setRgp copy R.cmdCtl (v &&& 0xFD)
  let c := s1.path copy
  if bit v 0 ∧ ¬ was then
    ((((s1.setPath copy { c with waitTag := none, coverSkip := 0, cover := 0 }).setRgp copy R.sqHead 0).setRgp copy R.sqTail 0).setRgp
      copy R.cqHead 0).setRgp copy R.cqTail 0x8000_0000
  else if bit v 0 then s1
  else s1.setPath copy { c with waitTag := none }

def execCmdCtlWrite (h : HostPort) (v : W32) (s : State) : Res :=
  .next (onWrite h.part R.cmdCtl (fun t => t.writeCmdCtl h.part v) s)

/-- A write of a ring base or size register: only with en = 0 and idle = 1, and a size of 4 to 12. -/
def State.writeRing (s : State) (m copy : Part) (off : Nat) (v : W32) : State :=
  let size := off == R.sqSize || off == R.cqSize
  let v1 := if size then v &&& 0xF else if off = R.sqBaseLo ∨ off = R.cqBaseLo then v &&& 0xFFFF_F000 else v
  if s.bt (copyKey copy R.cmdCtl) 0 ∨ ¬ bit (s.cmdStatus copy) 0 ∨ (size ∧ ¬ (4 ≤ v1.toNat ∧ v1.toNat ≤ 12)) then s.ringIgnored m off
  else s.setRgp copy off v1

/-! ### PART_THAW (R295) -/

/-- Replies are written in release order while the CQ has room. -/
def State.writeHeld (s : State) (p : Part) : Nat → State
  | 0 => s
  | k + 1 =>
    match s.writeReply p with
    | (true, t) => t.writeHeld p k
    | (false, t) => t

/-- Event messages that waited are sent, in order, and then level messages of capture queues, each after a writeback (R262). -/
def State.sendWaiting (s : State) (p : Part) : State :=
  if s.blocked p then s
  else
    let c := s.path p
    (c.msgs.foldl (fun a v => a.emit (.msix p v)) (s.setPath p { c with msgs := [] })).resumeCapture p

/-- The held replies are written, then the partition is frozen no longer. -/
def State.thaw (s : State) (p : Part) : State :=
  let s1 := (s.path p).done.foldl (fun a r => a.releaseReply p r) s
  let s2 := if s1.linked p then s1.writeHeld p (s1.path p).ready.length else s1
  (s2.modRgp p R.secStatus (fun w => setBit w 0 false)).sendWaiting p

/-- PART_THAW. -/
def partThawBody (d : CmdDesc) (s : State) : Ans :=
  let p : Part := Fin.ofNat 5 (d.b 0)
  if 3 < d.b 0 then fail s St.badParam
  else if ¬ s.frozen p then fail s St.okAlready
  else { s := s.thaw p }

/-- The form of PART_THAW. -/
def partThawForm : Form := { kind := .immediate, pmOnly := true, size := fun l => l == 1 }

def execPartThaw (p : Part) (d : CmdDesc) (s : State) : Res :=
  .next (runCommand partThawForm p d (partThawBody d) s)

/-! ### Function-level reset and host links (R129, R260, R296, R297, R338) -/

/-- The ring registers of a partition. -/
def ringRegs : List Nat :=
  [R.cmdCtl, R.sqBaseLo, R.sqBaseHi, R.sqSize, R.sqTail, R.sqHead, R.cqBaseLo, R.cqBaseHi, R.cqSize, R.cqHead, R.cqTail]

/-- The commands of a partition that have started go on without a reply; all else of its command path is discarded. -/
def State.resetPath (s : State) (p : Part) : State :=
  let c := s.path p
  let run := c.fetched.filter (·.started)
  let tags := run.map (·.desc.ctag)
  let t := s.setPath p { fetched := run, busy := tags, dropTags := tags }
  c.done.foldl (fun (a : State) r => a.endSeal p r.mould) t

/-- A slot returns to FREE; a REMOTE_ACCESS that holds it ends without a reply. -/
def State.resetSlot (s : State) (p : Part) (k : Nat) : State :=
  match (s.slot p k).cmd with
  | some (tag, irq) => (s.freeSlot p k).complete p { tag := tag, status := St.farError, result := 0, irq := irq }
  | none => s.freeSlot p k

/-- The capture ring pointers of a partition's queues are 0. -/
def State.resetCapRings (s : State) (p : Part) : State :=
  ((List.range 64).filter (fun q => s.capHolder q == p)).foldl (fun (a : State) q =>
    a.zeroRings q) s

/-- What a function-level reset does to the partition of a host port. -/
def State.resetFunction (s : State) (p : Part) : State :=
  let s1 := s.modRgp p R.secStatus (fun w => setBit w 0 false)
  let s2 := ringRegs.foldl (fun (a : State) o => a.setRgp p o (regReset a.logger o)) s1
  let s3 := s2.resetPath p
  let s4 := (List.range 64).foldl (fun (a : State) n => a.setRgp p (R.sem n) 1) s3
  let s5 := (List.range 8).foldl (fun (a : State) k => a.resetSlot p k) (s4.resetCapRings p)
  (if s5.sealed_ p then s5 else s5.setMould p none).startRemotes

/-- FUNCTION_LEVEL_RESET: a request over a link that serves requests. -/
def functionLevelReset (h : HostPort) (s : State) : State :=
  if s.bootDone ∧ s.linked h.part ∧ ¬ s.dozing then s.resetFunction h.part else s

def execFunctionLevelReset (h : HostPort) (s : State) : Res := .next (functionLevelReset h s)

/-- A host port's link state. -/
def State.setLink (s : State) (h : HostPort) (up : Bool) : State := { s with cmd.linkUp := kvSet true s.cmd.linkUp h.val up }

/-- HOST_LINK_DOWN. -/
def hostLinkDown (h : HostPort) (s : State) : State :=
  if s.linked h.part then (s.setLink h false).report 0x0605 kTransient 0xFF 0xFF h.val else s

def execHostLinkDown (h : HostPort) (s : State) : Res := .next (clocked (hostLinkDown h) s)

/-- HOST_LINK_UP, at a width in lanes: what waited is issued in order. -/
def hostLinkUp (h : HostPort) (width : Nat) (s : State) : State :=
  if s.linked h.part then s
  else ((s.setLink h true).report 0x0606 kInfo 0xFF 0xFF (h.val + width % 256 * 256)).sendWaiting h.part

def execHostLinkUp (h : HostPort) (width : Nat) (s : State) : Res := .next (clocked (hostLinkUp h width) s)

/-- HOST_LINK_TIMEOUT: a link down for host_tmo_ms is a function-level reset. -/
def hostLinkTimeout (h : HostPort) (s : State) : State :=
  if s.linked h.part then s else (s.resetFunction h.part).report 0x0607 kTransient 0xFF 0xFF h.val

def execHostLinkTimeout (h : HostPort) (s : State) : Res := .next (clocked (hostLinkTimeout h) s)

end Sys2Proof.Machine
end

