-- ==== Sys2Proof/Machine/Access.lean ====
section
/-! DEFINITION. Register reads and writes by any master (R9 to R13, R128, R282, R293, R299, R366 to R370): one read and one write of a
word, on which the rows for registers, the SPI port (R298, R299, R359, R363, R400) and DIAG_SNAPSHOT (R279) stand. -/

namespace Sys2Proof.Machine

/-! ### Values -/

/-- A 64-bit value held in a pair (R367): TSU_DELTA in whole ns, CHK_RES of the current v, or what is stored. -/
def State.pairValue (s : State) (off : Nat) : W64 :=
  if off = R.tsuDelta then BitVec.ofNat 64 (natOfInt 64 (s.tsu.delta / 2 ^ 32))
  else if 0x90_0000 ≤ off ∧ off < 0x90_0200 ∧ off % 0x40 = 0x28 then s.chkRes ((off - 0x90_0000) / 0x40)
  else s.wide off

/-- PM's view of the ring registers (R272). -/
def State.pmRing (s : State) (off : Nat) : W32 :=
  if off = R.cmdCtl then 1
  else if off = R.sqSize ∨ off = R.cqSize then 6
  else if off = R.cqTail then s.rgp pm off ^^^ 0x8000_0000
  else if off = R.sqTail ∨ off = R.sqHead ∨ off = R.cqHead then s.rgp pm off
  else 0

/-- BRG_SLOTk_STAT. -/
def State.slotStat (s : State) (p : Part) (k : Nat) : W32 :=
  let x := s.slot p k
  BitVec.ofNat 32 (x.state.toNat + x.far.toNat * 2 ^ 8 + x.tag.toNat * 2 ^ 16)

/-- What the register file holds of a register: write-only and reserved bits read as 0 (R9, R10). -/
def State.stored (s : State) (copy : Part) (off : Nat) : W32 :=
  let r := (regInfo s.logger off).getD {}
  s.key (regKey s.logger copy off) &&& (r.rw ||| r.rwp ||| r.w1c ||| r.ro ||| r.roc)

/-- CAP registers of a queue that are computed. -/
def State.capValue (s : State) (m copy : Part) (q o : Nat) : W32 :=
  match o with
  | 0x10 => s.capStatusReg q
  | 0x14 => BitVec.ofNat 32 (s.capq q).occ
  | 0x18 => s.capPktsReg q
  | 0x3C => (s.peek m q 16 .clean).1
  | _ => if 0x80 ≤ o then (s.peek m q ((o - 0x80) / 4) .clean).1 else s.stored copy (0x80_0000 + 0x100 * q + o)

/-- FWD registers that are computed. -/
def State.fwdValue (s : State) (copy : Part) (o : Nat) : W32 :=
  match o with
  | 0x14 => BitVec.ofNat 32 s.poolFree
  | 0x18 => BitVec.ofNat 32 s.tunHeld
  | 0x1C => BitVec.ofNat 32 s.fwd.capCells
  | 0x20 => BitVec.ofNat 32 (s.live.streams.filter (fun r => r.2.used)).length
  | _ => if 0x380 ≤ o ∧ o ≤ 0x3C0 then BitVec.ofNat 32 (s.heldG ((o - 0x380) / 4) + s.heldS ((o - 0x380) / 4)) else s.stored copy (0x50_0000 + o)

/-- The value of a register, as a read by master `m` of partition `copy`'s copy shows it, with no effect of the read. -/
def State.regValue (s : State) (m copy : Part) (off : Nat) : W32 :=
  let o := off % 0x10_0000
  match ((regInfo s.logger off).map RegInfo.half).getD .plain with
  | .lo => (s.pairValue off).setWidth 32
  | .hi => (s.pairValue (off - 4) >>> 32).setWidth 32
  | .plain =>
    match off / 0x10_0000 with
    | 0x1 =>
      if o = 0x04 then s.cmdStatus copy
      else if o = 0x38 then BitVec.ofNat 32 (s.mouldItems copy)
      else if copy = pm ∧ ringRegs.contains off then s.pmRing off
      else if 0x8_0200 ≤ o ∧ o < 0x8_0280 ∧ o % 0x10 = 0 then s.slotStat copy ((o - 0x8_0200) / 0x10)
      else s.stored copy off
    | 0x3 => if o < 0x1000 ∧ o % 0x100 = 0x18 then s.phaseWord (o / 0x100) s.pNs else s.stored copy off
    | 0x5 => s.fwdValue copy o
    | 0x8 => if o < 0x4000 then s.capValue m copy (o / 0x100) (o % 0x100) else s.stored copy off
    | 0xA =>
      if off = R.blkStat then s.gatedNow
      else if off = R.wakAssert ∧ ¬ s.asserting then 0
      else s.stored copy off
    | 0xB =>
      if 0x44 ≤ o ∧ o < 0x64 then BitVec.ofNat 32 (leAt (s.entryBytes m (fld (s.rgp copy R.errRdIdx) 11 0)) (o - 0x44) 4)
      else s.stored copy off
    | _ => s.stored copy off

/-! ### Reads -/

/-- A read of a register inside the view, with its effects: LO loads the master's latch and HI returns it (R367, R368), a semaphore
and PWR_TEMP_MAX clear (R12), PHW_TTn_PHASE takes its stamp, PEEK takes the head word. -/
def State.readWord (s : State) (m copy : Part) (off : Nat) : W32 × State :=
  let o := off % 0x10_0000
  let v := s.regValue m copy off
  match ((regInfo s.logger off).map RegInfo.half).getD .plain with
  | .lo => (v, s.setLatch m off ((s.pairValue off >>> 32).setWidth 32))
  | .hi => (s.latchOf m (off - 4), s)
  | .plain =>
    match off / 0x10_0000 with
    | 0x1 => if 0x8_0000 ≤ o ∧ o < 0x8_0100 then s.takeSem copy ((o - 0x8_0000) / 4) else (v, s)
    | 0x3 => if o < 0x1000 ∧ o % 0x100 = 0x18 then s.phaseNow copy (o / 0x100) else (v, s)
    | 0x8 =>
      if o < 0x4000 ∧ o % 0x100 = 0x3C then s.peek m (o / 0x100) 16 .clean
      else if o < 0x4000 ∧ 0x80 ≤ o % 0x100 then s.peek m (o / 0x100) ((o % 0x100 - 0x80) / 4) .clean
      else (v, s)
    | 0xA => if off = R.tempMax then (v, { s.setRg R.tempMax 0 with pins.tempSeen := false }) else (v, s)
    | _ => (v, s)

/-- The copy and offset that an address names: PM's address holds view bits (R299). -/
def target (p : Part) (addr : Nat) : Option (Part × Nat) :=
  if p ≠ pm then some (p, addr)
  else if 2 ^ 26 * 5 ≤ addr then none
  else some (Fin.ofNat 5 (addr / 2 ^ 26), addr % 2 ^ 26)

/-- Whether an offset lies in the slot data buffers. -/
def inSlotData (off : Nat) : Bool := decide (0x18_0400 ≤ off ∧ off < 0x18_0600)

/-- Whether a word of the map lies in the PM buffer. -/
def inPmWord (off : Nat) : Bool := inPmBuf off 4

/-- A word of a slot data buffer over SPI, which has no abort: in ERROR its value is a free one. -/
def State.slotWord (s : State) (copy : Part) (off : Nat) : W32 × State :=
  let o := off - 0x18_0400
  if (s.slot copy (o / 64)).state = slError then
    let (k, t) := drawNat s
    (BitVec.ofNat 32 k, t)
  else (BitVec.ofNat 32 (leNat (Memory.readBytes s.reg.mailbox (copy.val * 512 + o) 4)), s)

/-- A read of a word by a master: what it returns, and the state. -/
def State.readAt (s : State) (m : Part) (addr : Nat) : W32 × State :=
  match target m addr with
  | none => (0, s.report 0x0D02 kInfo m.val 0xFF addr)
  | some (copy, off) =>
    if m = pm ∧ inPmWord off then (BitVec.ofNat 32 (leNat (Memory.readBytes s.reg.pmBuf (off - pmBufBase) 4)), s)
    else if m = pm ∧ inSlotData off ∧ off % 4 = 0 then s.slotWord copy off
    else match s.readReach m copy off with
      | .absent => (0, s.report 0x0D02 kInfo m.val 0xFF off)
      | .violation => (0, s.violate m 1 off)
      | _ => s.readWord m copy off

/-- A register access of a master: 4 or 8 bytes, the lower address first. -/
def readRow (p : Part) (addr : W32) (eight : Bool) : State → State :=
  let a := addr.toNat
  let n := if eight then 8 else 4
  onAccess p a (fun s =>
    if s.dozing then answer p a 0 s
    else if p ≠ pm ∧ mailboxShape a n then mailboxAt p a n none s
    else if p ≠ pm ∧ ¬ registerShape a n then unsupported p a false s
    else
      let (x, s1) := s.readAt p a
      if eight then
        let (y, s2) := s1.readAt p (a + 4)
        answer p a (y ++ x) s2
      else answer p a (x.setWidth 64) s1)

def execRegisterRead (p : Part) (addr : W32) (eight : Bool) (s : State) : Res := .next (readRow p addr eight s)

def execRocRead (p : Part) (addr : W32) (s : State) : Res := .next (readRow p addr false s)

def execCounterLoRead (p : Part) (addr : W32) (eight : Bool) (s : State) : Res := .next (readRow p addr eight s)

/-! ### Writes -/

/-- An RWP write joins the master's mould, or is discarded and logged (R13, R280, R282, R283). -/
def State.stageWrite (s : State) (m copy : Part) (off : Nat) (v : W32) : State :=
  let r := (regInfo s.logger off).getD {}
  let a := s.stageReg m (regKey s.logger copy off) (v &&& r.rwp)
  if a.status = St.ok then a.s
  else s.report (if (s.mould m).isNone then 0x0103 else 0x0104) kInfo m.val 0xFF off

/-- A write of a register without an action of its own: RW bits take the value, a 1 clears an RW1C bit, RWP bits are staged. -/
def State.plainWrite (s : State) (m copy : Part) (off : Nat) (v : W32) : State :=
  let r := (regInfo s.logger off).getD {}
  if r.rwp ≠ 0 then s.stageWrite m copy off v
  else
    let k := regKey s.logger copy off
    s.setKey k (((s.key k &&& ~~~r.rw) ||| (v &&& r.rw)) &&& ~~~(v &&& r.w1c))

/-- CMD and bridge registers. -/
def State.writeCmd (s : State) (m copy : Part) (off : Nat) (v : W32) : State :=
  let o := off - 0x18_0000
  if off < 0x18_0000 then
    if ¬ ringRegs.contains off then s.plainWrite m copy off v
    else if copy = pm then s.ringIgnored m off
    else if off = R.cmdCtl then s.writeCmdCtl copy v
    else if off = R.sqTail then s.doorbellOn m copy v
    else if off = R.cqHead then s.writeCqHead m copy v
    else s.writeRing m copy off v
  else if off = R.brgCfg then
    (if fld v 13 0 = 0 ∨ 10000 < fld v 13 0 then s.report 0x0114 kInfo m.val 0xFF (fld v 13 0) else s.plainWrite m copy off v)
  else if off = R.semRelLo then brgSemRelease copy false v s
  else if off = R.semRelHi then brgSemRelease copy true v s
  else if o % 0x10 = 4 then brgSlotReq copy (Fin.ofNat 8 ((o - 0x200) / 0x10)) v s
  else brgSlotRelease copy (Fin.ofNat 8 ((o - 0x200) / 0x10)) v s

/-- CAP registers of a queue. -/
def State.writeCap (s : State) (m copy : Part) (off : Nat) (v : W32) : State :=
  let q : Fin 64 := Fin.ofNat 64 ((off - 0x80_0000) / 0x100)
  if 0x80_4000 ≤ off then s.plainWrite m copy off v
  else match off % 0x100 with
    | 0x1C => capAck q v s
    | 0x38 => capHrdWrite m q v s
    | 0x40 => capPop m q v .clean s
    | _ => s.plainWrite m copy off v

/-- CHK registers. -/
def State.writeChk (s : State) (m copy : Part) (off : Nat) (v : W32) : State :=
  let k := (off - 0x90_0000) / 0x40
  match off % 0x40 with
  | 0x00 => s.writeChkCfg m k v
  | 0x04 => s.chkLoad k v
  | 0x20 => s.setWide (R.chkVal k) (setFld (s.wide (R.chkVal k)) 31 0 v.toNat)
  | 0x24 => s.setWide (R.chkVal k) (setFld (s.wide (R.chkVal k)) 63 32 v.toNat)
  | 0x30 => s.chkFold k (leBytes 4 v.toNat)
  | 0x34 => s.chkFold k (leBytes 4 v.toNat)
  | 0x38 => s.chkFold k (leBytes 1 v.toNat)
  | _ => s.plainWrite m copy off v

/-- PWR_WAK_MASK_LO: what clears a mask ends its tie to a node's hold (R321). -/
def State.writeMask (s : State) (v : W32) : State :=
  (List.range 24).foldl (fun (a : State) n =>
    if bit v n then { a.setBt R.wakMask n false with slp.abuseNode := kvSet 0 a.slp.abuseNode n 0 } else a) s

/-- A write of a register inside the view, with the action that it has. -/
def State.writeWord (s : State) (m copy : Part) (off : Nat) (v : W32) : State :=
  match off / 0x10_0000 with
  | 0x1 => s.writeCmd m copy off v
  | 0x2 => if off = 0x20_0020 then tsuLatch copy v s else s.plainWrite m copy off v
  | 0x6 =>
    if 0x60_F000 ≤ off ∧ off < 0x60_F100 ∧ off % 0x40 = 8 then s.mdioStart m copy (Fin.ofNat 4 ((off - 0x60_F000) / 0x40)) v
    else s.plainWrite m copy off v
  | 0x8 => s.writeCap m copy off v
  | 0x9 => s.writeChk m copy off v
  | 0xA => if off = R.wakMask then s.writeMask v else s.plainWrite m copy off v
  | 0xB => (s.plainWrite m copy off v).refreshFault
  | 0xC => if off = 0xC0_0010 then bootRearm v s else bootReset m v s
  | _ => s.plainWrite m copy off v

/-- A write of a word by a master. A frozen partition's writes are discarded (R294); PM's ring registers ignore every write. -/
def State.writeAt (s : State) (m : Part) (addr : Nat) (v : W32) : State :=
  match target m addr with
  | none => s.report 0x0D02 kInfo m.val 0xFF addr
  | some (copy, off) =>
    if m = pm ∧ inPmWord off then { s with reg.pmBuf := Memory.writeBytes s.reg.pmBuf (off - pmBufBase) (imgBytes v) }
    else if m = pm ∧ inSlotData off ∧ off % 4 = 0 then
      { s with reg.mailbox := Memory.writeBytes s.reg.mailbox (copy.val * 512 + (off - 0x18_0400)) (imgBytes v) }
    else match s.writeReach m copy off with
      | .absent => s.report 0x0D02 kInfo m.val 0xFF off
      | .violation => s.violate m 1 off
      | .noEffect => if m = pm ∧ copy = pm ∧ ringRegs.contains off then s.ringIgnored m off else s
      | .logged code => if s.frozen m then s else s.report code kInfo m.val 0xFF off
      | .ok => if s.frozen m then s else s.writeWord m copy off v

/-- A register write of a master: 4 or 8 bytes. -/
def writeRow (p : Part) (addr : W32) (v : W64) (eight : Bool) : State → State :=
  let a := addr.toNat
  let n := if eight then 8 else 4
  onAccess p a (fun s =>
    if s.dozing then s
    else if p ≠ pm ∧ mailboxShape a n then mailboxAt p a n (some (leBytes n v.toNat)) s
    else if p ≠ pm ∧ ¬ registerShape a n then unsupported p a true s
    else
      let s1 := s.writeAt p a (v.setWidth 32)
      if eight then s1.writeAt p (a + 4) ((v >>> 32).setWidth 32) else s1)

def execRegisterWrite (p : Part) (addr : W32) (v : W64) (eight : Bool) (s : State) : Res := .next (writeRow p addr v eight s)

def execRwpWrite (p : Part) (addr : W32) (v : W64) (eight : Bool) (s : State) : Res := .next (writeRow p addr v eight s)

/-! ### DIAG_SNAPSHOT (R279) -/

/-- A list in the order that a number stands for. -/
def reorder : Nat → Nat → List W32 → List W32
  | 0, _, l => l
  | n + 1, k, l => (l.getD (k % l.length) 0) :: reorder n (k / l.length) (l.eraseIdx (k % l.length))

/-- The registers of a block in a partition's view. -/
def State.blockRegs (s : State) (p : Part) (b : Nat) : List Nat :=
  ((List.range 0x4_0000).map (fun i => b * 0x10_0000 + 4 * i)).filter (fun off => s.readReach p p off == .ok && !inPmWord off)

/-- DIAG_SNAPSHOT: bit b of the mask names the block at base b × 0x0010_0000; the order of the values is left open. CHK is in multi mode for
the command's duration (R124). -/
def diagSnapshotBody (p : Part) (d : CmdDesc) (s : State) : Ans :=
  let t := s.chkEnter
  let l := ((List.range 14).filter (fun b => bit (BitVec.ofNat 16 (d.le 0 2)) b)).flatMap (fun b => t.blockRegs p b)
  let vs := l.map (fun off => t.regValue p p off)
  withOutput d s (t.chkLeave (s.bt R.chkMode 0)) 0
    ((reorder vs.length (Config.snapshotOrder (d.le 0 2 + 2 ^ 16 * p.val)) vs).flatMap imgBytes)

/-- The form of DIAG_SNAPSHOT. -/
def diagForm (d : CmdDesc) : Form := { kind := .immediate, size := fun l => l == 2, clean := decide (d.le 0 2 < 2 ^ 14), output := true }

def execDiagSnapshot (p : Part) (d : CmdDesc) (s : State) : Res :=
  .next (runCommand (diagForm d) p d
    (diagSnapshotBody p d) s)

end Sys2Proof.Machine
end

