-- ==== Sys2Proof/Machine/Dispatcher.lean ====
section
/-! DEFINITION. The command dispatcher (R25, R35, R275, R276, R395, R398): which command or pour has the signal box next, and what a
grant costs. -/

namespace Sys2Proof.Machine

/-- The form of the command that a descriptor spells; `none` when R279 defines no such opcode. -/
def formOf (d : CmdDesc) : Option Form :=
  match d.opcode.toNat with
  | 0x0101 => some (routeForm .staging 32 false d)
  | 0x0102 => some (routeForm .staging 16 false d)
  | 0x0103 => some (routeForm .read 16 true d)
  | 0x0104 => some (tcamWriteForm d)
  | 0x0105 => some (readForm 2 true)
  | 0x0106 => some (dsetWriteForm d)
  | 0x0107 => some (readForm 2 true)
  | 0x0108 => some vlanForm
  | 0x0109 => some (readForm 2 false)
  | 0x010A => some (profWriteForm d)
  | 0x010B => some (profReadForm d)
  | 0x010C => some (pinForm 17 d)
  | 0x010D => some (pinForm 16 d)
  | 0x010E => some (readForm 2 true)
  | 0x010F => some streamClearForm
  | 0x0201 => some (gateWriteForm d)
  | 0x0202 => some (readForm 2 true)
  | 0x0301 => some (timeSetForm d)
  | 0x0302 => some timeReadForm
  | 0x0401 => some (ttPhaseAtForm d)
  | 0x0402 => some (ttNextCrossForm d)
  | 0x0501 => some (keyWriteForm d)
  | 0x0502 => some keyEraseForm
  | 0x0503 => some (readForm 2 true)
  | 0x0504 => some rawCipherForm
  | 0x0505 => some (rawCmacForm d)
  | 0x0506 => some (pkVerifyForm d)
  | 0x0507 => some (pkEcdhForm d)
  | 0x0508 => some (pkKeygenForm d)
  | 0x0509 => some cryRandomForm
  | 0x0601 => some capDiscardForm
  | 0x0701 => some (sleepForm d)
  | 0x0702 => some resumeForm
  | 0x0703 => some (readForm 0 true)
  | 0x0801 => some nopForm
  | 0x0802 => some (diagForm d)
  | 0x0803 => some errReadForm
  | 0x0804 => some selfTestForm
  | 0x0901 => some mouldForm
  | 0x0902 => some mouldForm
  | 0x0903 => some (pourForm d)
  | 0x0904 => some mouldForm
  | 0x0A01 => some (nodeWriteForm d)
  | 0x0A02 => some nodeEraseForm
  | 0x0A03 => some (readForm 8 true)
  | 0x0A04 => some nodeReleaseForm
  | 0x0A05 => some nodeHoldForm
  | 0x0B01 => some (grantForm d)
  | 0x0B02 => some (readForm 1 true)
  | 0x0B03 => some partThawForm
  | 0x0B04 => some partFreezeForm
  | 0x0B05 => some (windowForm d)
  | 0x0B06 => some (remoteForm d)
  | _ => none

/-- Whether R279 defines the opcode of a descriptor. -/
def opcodeDefined (d : CmdDesc) : Bool := (formOf d).isSome

/-- The body of a staging command, and the 8-byte words of the entry that it puts in the mould (R398; an entry is as wide there as in
its table, and a deletion takes one word). -/
def stagingOf (d : CmdDesc) : Option ((Part → CmdDesc → State → Ans) × Nat) :=
  match d.opcode.toNat with
  | 0x0101 => some (routeAddBody, 4)
  | 0x0102 => some (routeDelBody, 1)
  | 0x0104 => some (tcamWriteBody, 6)
  | 0x0106 => some (dsetWriteBody, 2)
  | 0x0108 => some (vlanWriteBody, 1)
  | 0x010A => some (profWriteBody, (d.len - 4) / 8)
  | 0x010C => some (streamPinBody, 4)
  | 0x010D => some (streamUnpinBody, 1)
  | 0x0201 => some (gateWriteBody, (d.len - 4) / 8)
  | 0x0501 => some (keyWriteBody, 16)
  | 0x0502 => some (keyEraseBody, 1)
  | 0x0A01 => some (nodeWriteBody, 4)
  | 0x0A02 => some (nodeEraseBody, 1)
  | 0x0B01 => some (partGrantBody, 27)
  | 0x0B05 => some (windowBody, 2)
  | _ => none

/-- The first address that a host's command names outside its windows (R275). The form check precedes it (R395), as far as the
parameter buffer is not needed for it: the reserved fields of parameters in an illegal buffer cannot be read. -/
def State.badBuffer (s : State) (p : Part) (d : CmdDesc) : Option Nat :=
  let form := (formOf d).getD { kind := .immediate, size := fun _ => true }
  if p = pm ∨ ¬ d.indirect then none
  else if ({ form with clean := true }).check p d ≠ none then none
  else if d.len ≠ 0 ∧ ¬ (s.grant p).covers d.inPtr.toNat d.len then some d.inPtr.toNat
  else if form.check p d ≠ none then none
  else if d.outPtr ≠ 0 ∧ ¬ (s.grant p).covers d.outPtr.toNat d.outLen.toNat then some d.outPtr.toNat
  else none

/-- The credits of a grant that starts a command: one for each word of the entry that a staging command writes, and one for a
command that writes none (R398). -/
def State.creditsOf (s : State) (p : Part) (d : CmdDesc) : Nat :=
  match stagingOf d, formOf d with
  | some (body, words), some f =>
    if (s.badBuffer p d).isNone && (f.check p d).isNone && (body p d s).status == St.ok then max 1 words else 1
  | _, _ => 1

/-- A command starts: one of no defined opcode completes, one with a buffer outside the windows is a violation and does not
start, and any other runs as its own row. A staging command has the signal box until it completes, so that items enter the mould in
the order of the grants, which is the fetch order (R281). -/
def State.start (s : State) (p : Part) (d : CmdDesc) (words : Nat) : State :=
  if ¬ opcodeDefined d then s.complete p (replyOf d St.badOpcode 0 [])
  else match s.badBuffer p d with
    | some a => s.violate p 3 (a % 2 ^ 32)
    | none =>
      let c := s.path p
      let t := s.setPath p { c with fetched := c.fetched.map (fun f => if f.desc.ctag = d.ctag then { f with started := true } else f) }
      if (stagingOf d).isSome then { t with cmd.box := some { part := p, tag := d.ctag, words := words } } else t

/-- Whether a partition's commands wait for the signal box: one that may start, or a pour with words left to write (R135). -/
def State.waits (s : State) (p : Part) : Bool :=
  (s.startable p).isSome || (s.pourWords.map (fun x => x.1.part == p)).getD false

/-- A grant to a partition: the oldest of its commands that waits, and a POUR is older than any that waits behind its fence. -/
def State.dispatch (s : State) (p : Part) : State :=
  match s.pourWords.filter (fun x => x.1.part == p), s.startable p with
  | some (x, words), _ =>
    let t := s.granted .dispatcher p.val words
    { t with cmd.box := some { part := p, tag := x.tag, words := words, pour := true } }
  | none, some f =>
    let words := s.creditsOf p f.desc
    (s.granted .dispatcher p.val words).start p f.desc words
  | none, none => s

/-- DISPATCH_GRANT: while a step has not ended the signal box is granted to none (R39). -/
def dispatchGrant (s0 : State) : State :=
  let s := s0.endPourStep
  if s.cmd.box.isSome then s
  else match s.pick .dispatcher ((List.range 5).filter (fun i => s.waits (Fin.ofNat 5 i))) with
    | some i => s.dispatch (Fin.ofNat 5 i)
    | none => s

def execDispatchGrant (s : State) : Res := .next (onSignalBox dispatchGrant s)

end Sys2Proof.Machine
end

