-- ==== Sys2Proof/Machine/Pairs.lean ====
section
/-! DEFINITION. The signal box pairs: failover and its aftermath (R331 to R334). -/

namespace Sys2Proof.Machine

/-- The tags of a partition whose commands PWR and the pour sequencer carry on in hardware: a ready pour, a SLEEP in progress. -/
def State.carried (s : State) (p : Part) : List (BitVec 12) :=
  (s.cmd.pours.filter (fun x => x.part == p && x.ready)).map (·.tag) ++
    (if p = pm then (s.slp.cmd.map (·.1)).toList else [])

/-- The started commands of a partition that have no committed batch, and so start again. -/
def State.restarted (s : State) (p : Part) : List Fetched :=
  (s.path p).fetched.filter (fun f => f.started && !(s.carried p).contains f.desc.ctag)

/-- The commands of a partition without a committed batch wait to start again, in fetch order (R332 step 5, R333). -/
def State.rewind (s : State) (p : Part) : State :=
  let c := s.path p
  let keep := s.carried p
  let s1 := s.setPath p { c with fetched := c.fetched.map (fun f =>
    if keep.contains f.desc.ctag then f else { f with started := false }) }
  let s2 := (List.range 8).foldl (fun a k => if (a.slot p k).cmd.isSome then a.freeSlot p k else a) s1
  { s2 with
    cry.pkQ := s2.cry.pkQ.filter (fun o => o.part != p)
    cry.work := s2.cry.work.filter (fun w => match w.use with
      | .raw o => o.part != p
      | _ => true) }

/-- A pour that was not ready leaves the queue, and its mould is unsealed: its POUR starts again. -/
def State.unpour (s : State) : State :=
  (s.cmd.pours.filter (fun x => !x.ready)).foldl (fun a x =>
    ({ a with cmd.pours := a.cmd.pours.filter (fun y => !(y == x)) }).endSeal x.part 2) s

/-- The pair that is active. -/
def State.activePair (s : State) : Nat := s.fd R.errStatus 3 3

/-- The active pair fails: the standby takes over; in simplex, command processing stops (R334). -/
def signalBoxFailover (s : State) : State :=
  if s.err.sbDead then s
  else if s.bt R.errStatus 2 then
    (({ s with err.sbDead := true }).report 0x0107 kPermanent 0xFF 0xFF s.activePair true).setFault 5
  else
    let n := (allParts.map (fun p => (s.restarted p).length)).foldl (· + ·) 0
    let s1 := allParts.foldl (fun a p => a.rewind p) { s.unpour with cmd.remoteWait := [], cmd.box := none }
    let s2 := (s1.setBt R.errStatus 2 true).setBt R.errStatus 3 (s.activePair == 0)
    s2.chkEnter.report 0x0106 kTransient 0xFF 0xFF n

def execSignalBoxFailover (s : State) : Res := .next (clocked signalBoxFailover s)

/-- The failed pair ends its self-test: it becomes standby, or is retired. -/
def pairSelfTestDone (pass : Bool) (s : State) : State :=
  let k := 1 - s.activePair
  if s.err.sbDead ∨ s.err.sbFailed ∨ ¬ s.bt R.errStatus 2 then s
  else
    let t := s.chkLeave false
    if pass then (t.setBt R.errStatus 2 false).report 0x0108 kInfo 0xFF 0xFF k
    else (({ t with err.sbFailed := true }).report 0x0107 kPermanent 0xFF 0xFF k true).setFault 5

def execPairSelfTestDone (pass : Bool) (s : State) : Res := .next (clocked (pairSelfTestDone pass) s)

end Sys2Proof.Machine
end

