-- ==== Sys2Proof/Machine/Spi.lean ====
section
/-! DEFINITION. The supervisor's SPI port (R298, R299, R319, R359, R363, R400). -/

namespace Sys2Proof.Machine

/-- A register word on SPI: most significant byte first. -/
def spiWord (v : W32) : List Byte := beBytes 4 v.toNat

/-- What follows the wait bytes on MISO: the sync byte, the data and the CRC-8 over both. -/
def spiAnswer (l : List Byte) : List Byte := [0xA5] ++ l ++ [BitVec.ofNat 8 (crcFixed 0 (0xA5 :: l))]

/-- The result of a transaction: its state, and the data that MISO carries; `none` when it is discarded with crc_err = 1. -/
abbrev SpiRes := Option (List Byte × State)

/-- An SPI transaction. MISO carries the status byte as it is before it. No transaction reaches the QX while PORST_N is low or in
SHUTDOWN; while ready = 0 it is ignored. -/
def spiRun (f : State → SpiRes) (s : State) : State :=
  if s.pins.hiZ ∨ s.pins.shutdown then s
  else if ¬ s.spiReady ∧ ¬ s.haltOpen then s.emit (.spi s.spiStatus [])
  else match f s with
    | some (l, t) => { t.emit (.spi s.spiStatus l) with cmd.spiErr := false }
    | none => { s.emit (.spi s.spiStatus []) with cmd.spiErr := true }

/-- The offsets of `n` words of PM's map. -/
def wordAddrs (addr : W32) (n : Nat) : List Nat := (List.range n).map (fun i => (addr + BitVec.ofNat 32 (4 * i)).toNat)

/-- `n` words are read in order. -/
def State.readWords (s : State) : List Nat → List Byte × State
  | [] => ([], s)
  | a :: r =>
    let (v, s1) := s.readAt pm a
    let (l, s2) := s1.readWords r
    (spiWord v ++ l, s2)

/-- Whether a halted start answers a read of an address: GLB and BOOT registers (R359). -/
def haltReadable (a : Nat) : Bool := a % 2 ^ 26 / 0x10_0000 == 0 || a % 2 ^ 26 / 0x10_0000 == 0xC

/-- Whether a halted start takes a write of an address: BOOT_REARM and BOOT_RESET (R359). -/
def haltWritable (a : Nat) : Bool := a % 2 ^ 26 == 0xC0_0010 || a % 2 ^ 26 == 0xC0_0014

/-- SPI READ. A count outside 1 to 16 is a framing error. -/
def spiRead (addr : W32) (n : Nat) (crcOk : Bool) : State → State :=
  spiRun (fun s =>
    let l := wordAddrs addr n
    if ¬ crcOk ∨ n = 0 ∨ 16 < n ∨ (s.haltOpen ∧ ¬ l.all haltReadable) then none
    else
      let (b, t) := s.readWords l
      some (spiAnswer b, t))

def execSpiRead (addr : W32) (n : Nat) (crcOk : Bool) (s : State) : Res := .next (spiRead addr n crcOk s)

/-- SPI WRITE. -/
def spiWrite (addr : W32) (words : List W32) (crcOk : Bool) : State → State :=
  spiRun (fun s =>
    let l := wordAddrs addr words.length
    if ¬ crcOk ∨ words = [] ∨ 16 < words.length ∨ (s.haltOpen ∧ ¬ l.all haltWritable) then none
    else some ([], (l.zip words).foldl (fun (a : State) x => a.writeAt pm x.1 x.2) s))

def execSpiWrite (addr : W32) (words : List W32) (crcOk : Bool) (s : State) : Res := .next (spiWrite addr words crcOk s)

/-- A descriptor joins PM's SQ, or waits latched until RUN; a full SQ discards it. -/
def State.pushDesc (s : State) (raw : List Byte) : State :=
  let c := s.path pm
  if 63 ≤ c.sq.length + c.latchedPush.length then s
  else
    let t := s.setPath pm (if s.pwr = pwRun then { c with sq := c.sq ++ [raw] } else { c with latchedPush := c.latchedPush ++ [raw] })
    t.setRgp pm R.sqTail (BitVec.ofNat 32 ((s.sqTail pm + 1) % 64))

/-- What a PUSH does (R299, R319, R363): from step 1 of R304 until RUN it is source 36; in DEEP and before the end of step 10 its
descriptor is discarded. -/
def State.takePush (s : State) (raw : List Byte) : State :=
  if s.pwr = pwDeep ∨ ¬ s.bootDone then s.latchCause 36
  else if s.pwr = pwRun then s.pushDesc raw
  else (s.pushDesc raw).latchCause 36

/-- SPI PUSH. In a sleep, and in a wake before it answers, the port does not answer, but a PUSH whose CRC passes acts. -/
def spiPush (raw : List Byte) (crcOk : Bool) (s : State) : State :=
  let bad := !crcOk || raw.length != 32
  if ¬ s.spiReady ∧ s.pwr ≠ pwRun ∧ s.pwr ≠ pwEntry ∧ ¬ bad ∧ ¬ s.pins.hiZ ∧ ¬ s.pins.shutdown ∧ ¬ s.pins.halted then (s.emit (.spi s.spiStatus [])).takePush raw
  else spiRun (fun t => if bad ∨ t.haltOpen then none else some ([], t.takePush raw)) s

def execSpiPush (raw : List Byte) (crcOk : Bool) (s : State) : Res := .next (spiPush raw crcOk s)

/-- SPI POP removes the oldest reply from PM's CQ. -/
def spiPop (crcOk : Bool) : State → State :=
  spiRun (fun s =>
    let c := s.path pm
    if ¬ crcOk ∨ s.haltOpen then none
    else match c.cq with
      | [] => some (spiAnswer (List.replicate 16 0), s)
      | x :: r =>
        some (spiAnswer (x.1.bytes x.2), (s.setPath pm { c with cq := r }).setRgp pm R.cqHead (BitVec.ofNat 32 ((s.cqHead pm + 1) % 64))))

def execSpiPop (crcOk : Bool) (s : State) : Res := .next (spiPop crcOk s)

/-- SPI STATUS returns SEC_STATUS of P0 to P3, and the event bit starts again. -/
def spiStatusRead (crcOk : Bool) : State → State :=
  spiRun (fun s =>
    if ¬ crcOk ∨ s.haltOpen then none
    else some (spiAnswer (hostParts.flatMap (fun p => spiWord (s.rgp p R.secStatus))), { s with cmd.spiEvent := false }))

def execSpiStatus (crcOk : Bool) (s : State) : Res := .next (spiStatusRead crcOk s)

end Sys2Proof.Machine
end

