-- ==== Sys2Proof/Machine/Thermal.lean ====
section
/-! DEFINITION. The thermal bands (R154 to R156, R162). -/

namespace Sys2Proof.Machine

/-- Quarter degrees of a reading. -/
def tempOf (w : BitVec 12) : Int := signedOf 12 w.toNat

/-- The rising threshold of band `b`, in quarter degrees. -/
def bandRise : Nat → Int
  | 1 => 380
  | 2 => 420
  | 3 => 460
  | _ => 488

/-- The highest band whose rising threshold a reading meets. -/
def bandUp (t : Int) : Nat := ((List.range 5).filter (fun b => 0 < b ∧ bandRise b ≤ t)).foldl max 0

/-- The band to which a reading lets a band fall: 3 °C below each threshold. -/
def bandFall (t : Int) : Nat → Nat
  | 0 => 0
  | b + 1 => if t < bandRise (b + 1) - 12 then bandFall t b else b + 1

/-- The band after a sample (R154). -/
def nextBand (t : Int) (band : Nat) : Nat := if band < bandUp t then bandUp t else bandFall t band

/-- The highest of six readings. -/
def hottest (t : List (BitVec 12)) : Int := (t.map tempOf).foldl max (tempOf (t.headD 0))

/-- Whether a sensor reads 130 °C or more after it did so at the last sample (R156). -/
def State.overheat (s : State) (t : List (BitVec 12)) : Bool :=
  (List.range 6).any (fun n =>
    decide (520 ≤ tempOf (t.getD n 0)) && s.bt (R.temp n) 12 && decide (520 ≤ signedOf 12 (s.fd (R.temp n) 11 0)))

/-- PWR_TEMPn and PWR_TEMP_MAX take a sample. -/
def State.storeTemps (s : State) (t : List (BitVec 12)) : State :=
  let m := hottest t
  let old := signedOf 12 (s.fd R.tempMax 11 0)
  let s1 := (List.range 6).foldl (fun a n => a.setRg (R.temp n) (BitVec.ofNat 32 ((t.getD n 0).toNat + 2 ^ 12))) s
  let s2 := s1.setFd R.tempMax 11 0 (natOfInt 12 (if s.pins.tempSeen then max old m else m))
  { s2 with pins.tempSeen := true }

/-- The band changes: its registers, the slice count, and every queue's head is judged again (R155, R162). -/
def State.changeBand (s : State) (band : Nat) : State :=
  let old := s.fd R.band 2 0
  if band = old then s
  else
    let s1 := ((s.settleShapers.setFd R.band 2 0 band).count R.bandChg).setBt R.thermStat (if old < band then 0 else 1) true
    let s2 := if band = 4 then s1.setBt R.thermStat 2 true else s1
    s2.enableSlices.rejudge

/-- Thermal shutdown: the clocks stop, FAULT_N is asserted, the always-on domain latches it (R156). -/
def State.thermalShutdown (s : State) : State :=
  { s with pins.shutdown := true, pins.faultN := true, boot.latchShutdown := true }

/-- A sample of the six sensors, which sleep and the first step of a wake stop (R300). Among sensors that share the highest reading, the one that `hot` shows is a free choice. -/
def thermalSample (t : Vector (BitVec 12) 6) (s : State) : State :=
  let l := t.toList
  if s.asleep ∨ s.wakingBefore 2 ∨ s.pins.shutdown ∨ s.pins.hiZ then s
  else
    let ties := (List.range 6).filter (fun n => tempOf (l.getD n 0) = hottest l)
    let (k, s0) := drawNat s
    let s1 := (s0.storeTemps l).setFd R.band 10 8 (ties.getD (k % max 1 ties.length) 0)
    let s2 := s1.changeBand (nextBand (hottest l) (s.fd R.band 2 0))
    if s.overheat l then s2.thermalShutdown else s2

def execThermalSample (t : Vector (BitVec 12) 6) (s : State) : Res := .next (thermalSample t s)

end Sys2Proof.Machine
end

