-- ==== Sys2Proof/Machine/Dispatch.lean ====
section
/-! DEFINITION. The dispatch of commands: one arm per row of the table, each one direct call of its meaning. -/

namespace Sys2Proof.Machine

def exec (i : Instr) (s : State) : Host.Outcome State Fault Refusal :=
  match i with
  | .routeAdd p d => Sys2Proof.Machine.execRouteAdd p d s
  | .routeDel p d => Sys2Proof.Machine.execRouteDel p d s
  | .routeRead p d => Sys2Proof.Machine.execRouteRead p d s
  | .tcamWrite p d => Sys2Proof.Machine.execTcamWrite p d s
  | .tcamRead p d => Sys2Proof.Machine.execTcamRead p d s
  | .dsetWrite p d => Sys2Proof.Machine.execDsetWrite p d s
  | .dsetRead p d => Sys2Proof.Machine.execDsetRead p d s
  | .vlanWrite p d => Sys2Proof.Machine.execVlanWrite p d s
  | .vlanRead p d => Sys2Proof.Machine.execVlanRead p d s
  | .profWrite p d => Sys2Proof.Machine.execProfWrite p d s
  | .profRead p d => Sys2Proof.Machine.execProfRead p d s
  | .streamPin p d => Sys2Proof.Machine.execStreamPin p d s
  | .streamUnpin p d => Sys2Proof.Machine.execStreamUnpin p d s
  | .streamRead p d => Sys2Proof.Machine.execStreamRead p d s
  | .streamClear p d => Sys2Proof.Machine.execStreamClear p d s
  | .gateWrite p d => Sys2Proof.Machine.execGateWrite p d s
  | .gateRead p d => Sys2Proof.Machine.execGateRead p d s
  | .timeSet p d => Sys2Proof.Machine.execTimeSet p d s
  | .timeRead p d => Sys2Proof.Machine.execTimeRead p d s
  | .ttPhaseAt p d => Sys2Proof.Machine.execTtPhaseAt p d s
  | .ttNextCross p d => Sys2Proof.Machine.execTtNextCross p d s
  | .keyWrite p d => Sys2Proof.Machine.execKeyWrite p d s
  | .keyErase p d => Sys2Proof.Machine.execKeyErase p d s
  | .keyRead p d => Sys2Proof.Machine.execKeyRead p d s
  | .rawCipher p d => Sys2Proof.Machine.execRawCipher p d s
  | .rawCmac p d => Sys2Proof.Machine.execRawCmac p d s
  | .pkVerify p d => Sys2Proof.Machine.execPkVerify p d s
  | .pkEcdh p d => Sys2Proof.Machine.execPkEcdh p d s
  | .pkKeygen p d => Sys2Proof.Machine.execPkKeygen p d s
  | .pkEngineDone => Sys2Proof.Machine.execPkEngineDone s
  | .cryRandom p d => Sys2Proof.Machine.execCryRandom p d s
  | .capDiscard p d => Sys2Proof.Machine.execCapDiscard p d s
  | .sleep p d => Sys2Proof.Machine.execSleep p d s
  | .resume p d => Sys2Proof.Machine.execResume p d s
  | .wakeRead p d => Sys2Proof.Machine.execWakeRead p d s
  | .nop p d => Sys2Proof.Machine.execNop p d s
  | .diagSnapshot p d => Sys2Proof.Machine.execDiagSnapshot p d s
  | .errRead p d => Sys2Proof.Machine.execErrRead p d s
  | .selfTest p d => Sys2Proof.Machine.execSelfTest p d s
  | .mouldOpen p d => Sys2Proof.Machine.execMouldOpen p d s
  | .mouldDiscard p d => Sys2Proof.Machine.execMouldDiscard p d s
  | .pour p d => Sys2Proof.Machine.execPour p d s
  | .pourReady => Sys2Proof.Machine.execPourReady s
  | .pourBoundary => Sys2Proof.Machine.execPourBoundary s
  | .pourTimeout => Sys2Proof.Machine.execPourTimeout s
  | .mouldStat p d => Sys2Proof.Machine.execMouldStat p d s
  | .nodeWrite p d => Sys2Proof.Machine.execNodeWrite p d s
  | .nodeErase p d => Sys2Proof.Machine.execNodeErase p d s
  | .nodeRead p d => Sys2Proof.Machine.execNodeRead p d s
  | .nodeRelease p d => Sys2Proof.Machine.execNodeRelease p d s
  | .nodeHold p d => Sys2Proof.Machine.execNodeHold p d s
  | .partGrant p d => Sys2Proof.Machine.execPartGrant p d s
  | .partRead p d => Sys2Proof.Machine.execPartRead p d s
  | .partThaw p d => Sys2Proof.Machine.execPartThaw p d s
  | .partFreeze p d => Sys2Proof.Machine.execPartFreeze p d s
  | .windowWrite p d => Sys2Proof.Machine.execWindowWrite p d s
  | .remoteAccess p d => Sys2Proof.Machine.execRemoteAccess p d s
  | .doorbell h v => Sys2Proof.Machine.execDoorbell h v s
  | .commandFetch p raw buf => Sys2Proof.Machine.execCommandFetch p raw buf s
  | .dispatchGrant => Sys2Proof.Machine.execDispatchGrant s
  | .replyRelease p tag => Sys2Proof.Machine.execReplyRelease p tag s
  | .cqReplyWrite p => Sys2Proof.Machine.execCqReplyWrite p s
  | .cqHeadWrite h v => Sys2Proof.Machine.execCqHeadWrite h v s
  | .cmdCtlWrite h v => Sys2Proof.Machine.execCmdCtlWrite h v s
  | .rwpWrite p addr v eight => Sys2Proof.Machine.execRwpWrite p addr v eight s
  | .registerWrite p addr v eight => Sys2Proof.Machine.execRegisterWrite p addr v eight s
  | .rocRead p addr => Sys2Proof.Machine.execRocRead p addr s
  | .counterLoRead p addr eight => Sys2Proof.Machine.execCounterLoRead p addr eight s
  | .lockedRequest h addr => Sys2Proof.Machine.execLockedRequest h addr s
  | .mailboxAccess p addr len data => Sys2Proof.Machine.execMailboxAccess p addr len data s
  | .brgSemTake p n => Sys2Proof.Machine.execBrgSemTake p n s
  | .brgSemRelease p hi v => Sys2Proof.Machine.execBrgSemRelease p hi v s
  | .brgSlotReq p k v => Sys2Proof.Machine.execBrgSlotReq p k v s
  | .brgSlotRelease p k v => Sys2Proof.Machine.execBrgSlotRelease p k v s
  | .bridgeFarTimeout p window tag => Sys2Proof.Machine.execBridgeFarTimeout p window tag s
  | .delayedReadExpire p k => Sys2Proof.Machine.execDelayedReadExpire p k s
  | .tsuLatch p v => Sys2Proof.Machine.execTsuLatch p v s
  | .ttPhaseRead p n => Sys2Proof.Machine.execTtPhaseRead p n s
  | .chkLoad p k v => Sys2Proof.Machine.execChkLoad p k v s
  | .chkDataWrite p k r v => Sys2Proof.Machine.execChkDataWrite p k r v s
  | .chkCfgWrite p k v => Sys2Proof.Machine.execChkCfgWrite p k v s
  | .capPeekRead p q idx ecc => Sys2Proof.Machine.execCapPeekRead p q idx ecc s
  | .capPop p q w => Sys2Proof.Machine.execCapPop p q w s
  | .capAck p q v => Sys2Proof.Machine.execCapAck p q v s
  | .capHrdWrite p q v => Sys2Proof.Machine.execCapHrdWrite p q v s
  | .mdioAccessStart p m v => Sys2Proof.Machine.execMdioAccessStart p m v s
  | .mdioAccessDone m rdata noTurn => Sys2Proof.Machine.execMdioAccessDone m rdata noTurn s
  | .mdioLinkPoll n ms => Sys2Proof.Machine.execMdioLinkPoll n ms s
  | .bootRearm p v => Sys2Proof.Machine.execBootRearm p v s
  | .bootReset p v => Sys2Proof.Machine.execBootReset p v s
  | .spiRead addr n crcOk => Sys2Proof.Machine.execSpiRead addr n crcOk s
  | .spiWrite addr words crcOk => Sys2Proof.Machine.execSpiWrite addr words crcOk s
  | .spiPush raw crcOk => Sys2Proof.Machine.execSpiPush raw crcOk s
  | .spiPop crcOk => Sys2Proof.Machine.execSpiPop crcOk s
  | .spiStatus crcOk => Sys2Proof.Machine.execSpiStatus crcOk s
  | .functionLevelReset h => Sys2Proof.Machine.execFunctionLevelReset h s
  | .hostLinkDown h => Sys2Proof.Machine.execHostLinkDown h s
  | .hostLinkUp h width => Sys2Proof.Machine.execHostLinkUp h width s
  | .hostLinkTimeout h => Sys2Proof.Machine.execHostLinkTimeout h s
  | .frameBoundary c => Sys2Proof.Machine.execFrameBoundary c s
  | .frameIntake c bytes => Sys2Proof.Machine.execFrameIntake c bytes s
  | .frameEnd c e => Sys2Proof.Machine.execFrameEnd c e s
  | .busFrameHandover c hslot bytes => Sys2Proof.Machine.execBusFrameHandover c hslot bytes s
  | .arbiterWindowStart a => Sys2Proof.Machine.execArbiterWindowStart a s
  | .egressGrant c => Sys2Proof.Machine.execEgressGrant c s
  | .egressTxComplete c e => Sys2Proof.Machine.execEgressTxComplete c e s
  | .preemptResume n => Sys2Proof.Machine.execPreemptResume n s
  | .committedLaunch n => Sys2Proof.Machine.execCommittedLaunch n s
  | .shaperWaitExpire c q => Sys2Proof.Machine.execShaperWaitExpire c q s
  | .tunnelGrant => Sys2Proof.Machine.execTunnelGrant s
  | .aggHoldExpire prof => Sys2Proof.Machine.execAggHoldExpire prof s
  | .cryptoGrant => Sys2Proof.Machine.execCryptoGrant s
  | .streamAgeExpire idx => Sys2Proof.Machine.execStreamAgeExpire idx s
  | .frerResetExpire idx => Sys2Proof.Machine.execFrerResetExpire idx s
  | .nodeHoldExpire idx => Sys2Proof.Machine.execNodeHoldExpire idx s
  | .lockedSequenceTimeout a => Sys2Proof.Machine.execLockedSequenceTimeout a s
  | .ethSignalDetect n => Sys2Proof.Machine.execEthSignalDetect n s
  | .ethTrainingDone n speedOk => Sys2Proof.Machine.execEthTrainingDone n speedOk s
  | .ethTrainingTimeout n => Sys2Proof.Machine.execEthTrainingTimeout n s
  | .ethLinkLost n cause => Sys2Proof.Machine.execEthLinkLost n cause s
  | .laneRetuneDone n lost => Sys2Proof.Machine.execLaneRetuneDone n lost s
  | .mmVerifyTimer n => Sys2Proof.Machine.execMmVerifyTimer n s
  | .t1sUpTimer n => Sys2Proof.Machine.execT1sUpTimer n s
  | .t1sBeaconReceived n => Sys2Proof.Machine.execT1sBeaconReceived n s
  | .t1sBeaconLoss n => Sys2Proof.Machine.execT1sBeaconLoss n s
  | .canBusOff n => Sys2Proof.Machine.execCanBusOff n s
  | .canBusOffRecovered n => Sys2Proof.Machine.execCanBusOffRecovered n s
  | .linScheduleSlot n => Sys2Proof.Machine.execLinScheduleSlot n s
  | .linHeaderReceived n pid rate => Sys2Proof.Machine.execLinHeaderReceived n pid rate s
  | .linResponseTimeout n => Sys2Proof.Machine.execLinResponseTimeout n s
  | .frSlot f chB cycle slot => Sys2Proof.Machine.execFrSlot f chB cycle slot s
  | .frPocChange f poc => Sys2Proof.Machine.execFrPocChange f poc s
  | .busCtrlFault c => Sys2Proof.Machine.execBusCtrlFault c s
  | .syncReceiptTimeout x => Sys2Proof.Machine.execSyncReceiptTimeout x s
  | .gptpTxTimer n x kind => Sys2Proof.Machine.execGptpTxTimer n x kind s
  | .selectorEvaluation => Sys2Proof.Machine.execSelectorEvaluation s
  | .deltaSlewDone => Sys2Proof.Machine.execDeltaSlewDone s
  | .tclkPllUnlock x => Sys2Proof.Machine.execTclkPllUnlock x s
  | .tclkPllRelock x => Sys2Proof.Machine.execTclkPllRelock x s
  | .tsuServoParityError x => Sys2Proof.Machine.execTsuServoParityError x s
  | .ppsEdge n => Sys2Proof.Machine.execPpsEdge n s
  | .zdaSend => Sys2Proof.Machine.execZdaSend s
  | .leapApply => Sys2Proof.Machine.execLeapApply s
  | .ttCountedEdge n aLeads both glitches => Sys2Proof.Machine.execTtCountedEdge n aLeads both glitches s
  | .ttIndexEdge n glitches => Sys2Proof.Machine.execTtIndexEdge n glitches s
  | .ttStallTimeout n => Sys2Proof.Machine.execTtStallTimeout n s
  | .triggerActiveEdge m => Sys2Proof.Machine.execTriggerActiveEdge m s
  | .timeTrigger m => Sys2Proof.Machine.execTimeTrigger m s
  | .triggerInactiveEdge m => Sys2Proof.Machine.execTriggerInactiveEdge m s
  | .timetableEntryStart n => Sys2Proof.Machine.execTimetableEntryStart n s
  | .timetablePhaseCrossing n => Sys2Proof.Machine.execTimetablePhaseCrossing n s
  | .timetablePendingStart n => Sys2Proof.Machine.execTimetablePendingStart n s
  | .thermalSample t => Sys2Proof.Machine.execThermalSample t s
  | .ladleLaneTake lane => Sys2Proof.Machine.execLadleLaneTake lane s
  | .captureMemGrant c => Sys2Proof.Machine.execCaptureMemGrant c s
  | .captureDmaBatch q eccs => Sys2Proof.Machine.execCaptureDmaBatch q eccs s
  | .sidingLossClose q => Sys2Proof.Machine.execSidingLossClose q s
  | .errorLogWrite block => Sys2Proof.Machine.execErrorLogWrite block s
  | .datapathUnitFault u retestPass => Sys2Proof.Machine.execDatapathUnitFault u retestPass s
  | .sliceControlFault k w => Sys2Proof.Machine.execSliceControlFault k w s
  | .selfTestStep failSlice failParser failBank failSegment => Sys2Proof.Machine.execSelfTestStep failSlice failParser failBank failSegment s
  | .retryWindowClose u => Sys2Proof.Machine.execRetryWindowClose u s
  | .lpddrChannelFault c => Sys2Proof.Machine.execLpddrChannelFault c s
  | .lpddrRetrainDone c ok => Sys2Proof.Machine.execLpddrRetrainDone c ok s
  | .signalBoxFailover => Sys2Proof.Machine.execSignalBoxFailover s
  | .pairSelfTestDone pass => Sys2Proof.Machine.execPairSelfTestDone pass s
  | .entropyHealthFail apt => Sys2Proof.Machine.execEntropyHealthFail apt s
  | .entropyStartupDone => Sys2Proof.Machine.execEntropyStartupDone s
  | .drbgReseed => Sys2Proof.Machine.execDrbgReseed s
  | .maskReseed k => Sys2Proof.Machine.execMaskReseed k s
  | .keyZeroize slot => Sys2Proof.Machine.execKeyZeroize slot s
  | .sleepDrainEnd => Sys2Proof.Machine.execSleepDrainEnd s
  | .tc10Poll n read expired => Sys2Proof.Machine.execTc10Poll n read expired s
  | .sleepHoldEnd => Sys2Proof.Machine.execSleepHoldEnd s
  | .canWakeFrame n f sofTick => Sys2Proof.Machine.execCanWakeFrame n f sofTick s
  | .canWakePattern n => Sys2Proof.Machine.execCanWakePattern n s
  | .wakeInEvent n active => Sys2Proof.Machine.execWakeInEvent n active s
  | .t1sActivity n => Sys2Proof.Machine.execT1sActivity n s
  | .wakeTimerExpire => Sys2Proof.Machine.execWakeTimerExpire s
  | .wakingStepDone => Sys2Proof.Machine.execWakingStepDone s
  | .wakeAbuse src => Sys2Proof.Machine.execWakeAbuse src s
  | .powerOnReset => Sys2Proof.Machine.execPowerOnReset s
  | .supplyMonitorReset => Sys2Proof.Machine.execSupplyMonitorReset s
  | .resetNAsserted => Sys2Proof.Machine.execResetNAsserted s
  | .bootStepEnd e => Sys2Proof.Machine.execBootStepEnd e s
  | .ledgerRestart => Sys2Proof.Machine.execLedgerRestart s
  | .registerRead p addr eight => Sys2Proof.Machine.execRegisterRead p addr eight s
  | .busReceiveError c e => Sys2Proof.Machine.execBusReceiveError c e s
  | .porstNAsserted => Sys2Proof.Machine.execPorstNAsserted s
  | .vddaonValid => Sys2Proof.Machine.execVddaonValid s
  | .sidingBurstDone q fill ecc => Sys2Proof.Machine.execSidingBurstDone q fill ecc s
  | .idleClockGating u gated => Sys2Proof.Machine.execIdleClockGating u gated s
  | .wakeAssertionEnd src => Sys2Proof.Machine.execWakeAssertionEnd src s
  | .ledgerEraseDone => Sys2Proof.Machine.execLedgerEraseDone s

end Sys2Proof.Machine
end

