-- ==== Sys2Proof/Machine/Tick.lean ====
section
/-! DEFINITION. What an idle step does: the clocks run for one TCLK cycle of 2 ns (log entry 5). -/

namespace Sys2Proof.Machine

/-- An idle step. -/
def tick (s : State) : State :=
  let t := { s with upNs := s.upNs + 2 }
  clocked State.tclk t

end Sys2Proof.Machine
end

