-- ==== Sys2Proof/WellFormed.lean ====
section
/-! DEFINITION. Which commands are well formed: a command of the rings spells its own opcode and carries the parameter bytes that
its descriptor names (R273, R275, R279); an act of the outside world names a port, an address and a length that the spec gives it
(R18, R73, R128, R399). A command that is not well formed stands for nothing that the block can meet. -/

namespace Sys2Proof

/-- A descriptor spells an opcode, and its parameter bytes are those that plen names: all of the buffer in the indirect form, at
most the 24 bytes of the descriptor in the inline form (R273, R275). -/
def CmdDesc.spells (d : CmdDesc) (code : Nat) : Bool :=
  decide (d.opcode.toNat = code) &&
    decide (d.params.length = if Machine.bit d.flags 3 then d.plen.toNat else min d.plen.toNat 24)

/-- The inline form carries no buffer pointers: its 24 bytes are the parameters (R273). -/
def CmdDesc.inlineClean (d : CmdDesc) : Bool :=
  Machine.bit d.flags 3 || (d.inPtr == 0 && d.outPtr == 0 && d.outLen == 0 && d.rsv == 0)

/-- An arbiter that R38 and R135 list: one per Ethernet port, one per other medium port. -/
def ArbId.wf : ArbId → Bool
  | .other c => Machine.mediaCode c.toNat && !Machine.isE c.toNat
  | _ => true

/-- A unit that R329 watches: a bus port is a port of a bus or a T1S port. -/
def RetryUnit.wf : RetryUnit → Bool
  | .busPort c => Machine.isBus c.toNat || Machine.isS c.toNat
  | _ => true

/-- Work of a slice: a verification is of a port's frame (R328). -/
def SliceWork.wf : SliceWork → Bool
  | .verify c => Machine.mediaCode c.toNat
  | _ => true

/-- The end of a boot step: an image region holds at most 8 MiB, a region of stored values 4 KiB with its CRC (R353). -/
def BootEnd.wf (e : BootEnd) : Bool := decide (e.image.length ≤ 8388608 ∧ e.values.length ≤ 4092)

/-- The descriptor of a ring command, and the opcode of its row (R279). -/
def Instr.ring : Instr → Option (CmdDesc × Nat)
  | .routeAdd _ d => some (d, 0x0101)
  | .routeDel _ d => some (d, 0x0102)
  | .routeRead _ d => some (d, 0x0103)
  | .tcamWrite _ d => some (d, 0x0104)
  | .tcamRead _ d => some (d, 0x0105)
  | .dsetWrite _ d => some (d, 0x0106)
  | .dsetRead _ d => some (d, 0x0107)
  | .vlanWrite _ d => some (d, 0x0108)
  | .vlanRead _ d => some (d, 0x0109)
  | .profWrite _ d => some (d, 0x010A)
  | .profRead _ d => some (d, 0x010B)
  | .streamPin _ d => some (d, 0x010C)
  | .streamUnpin _ d => some (d, 0x010D)
  | .streamRead _ d => some (d, 0x010E)
  | .streamClear _ d => some (d, 0x010F)
  | .gateWrite _ d => some (d, 0x0201)
  | .gateRead _ d => some (d, 0x0202)
  | .timeSet _ d => some (d, 0x0301)
  | .timeRead _ d => some (d, 0x0302)
  | .ttPhaseAt _ d => some (d, 0x0401)
  | .ttNextCross _ d => some (d, 0x0402)
  | .keyWrite _ d => some (d, 0x0501)
  | .keyErase _ d => some (d, 0x0502)
  | .keyRead _ d => some (d, 0x0503)
  | .rawCipher _ d => some (d, 0x0504)
  | .rawCmac _ d => some (d, 0x0505)
  | .pkVerify _ d => some (d, 0x0506)
  | .pkEcdh _ d => some (d, 0x0507)
  | .pkKeygen _ d => some (d, 0x0508)
  | .pkEngineDone => none
  | .cryRandom _ d => some (d, 0x0509)
  | .capDiscard _ d => some (d, 0x0601)
  | .sleep _ d => some (d, 0x0701)
  | .resume _ d => some (d, 0x0702)
  | .wakeRead _ d => some (d, 0x0703)
  | .nop _ d => some (d, 0x0801)
  | .diagSnapshot _ d => some (d, 0x0802)
  | .errRead _ d => some (d, 0x0803)
  | .selfTest _ d => some (d, 0x0804)
  | .mouldOpen _ d => some (d, 0x0901)
  | .mouldDiscard _ d => some (d, 0x0902)
  | .pour _ d => some (d, 0x0903)
  | .pourReady => none
  | .pourBoundary => none
  | .pourTimeout => none
  | .mouldStat _ d => some (d, 0x0904)
  | .nodeWrite _ d => some (d, 0x0A01)
  | .nodeErase _ d => some (d, 0x0A02)
  | .nodeRead _ d => some (d, 0x0A03)
  | .nodeRelease _ d => some (d, 0x0A04)
  | .nodeHold _ d => some (d, 0x0A05)
  | .partGrant _ d => some (d, 0x0B01)
  | .partRead _ d => some (d, 0x0B02)
  | .partThaw _ d => some (d, 0x0B03)
  | .partFreeze _ d => some (d, 0x0B04)
  | .windowWrite _ d => some (d, 0x0B05)
  | .remoteAccess _ d => some (d, 0x0B06)
  | .doorbell _ _ => none
  | .commandFetch _ _ _ => none
  | .dispatchGrant => none
  | .replyRelease _ _ => none
  | .cqReplyWrite _ => none
  | .cqHeadWrite _ _ => none
  | .cmdCtlWrite _ _ => none
  | .rwpWrite _ _ _ _ => none
  | .registerWrite _ _ _ _ => none
  | .rocRead _ _ => none
  | .counterLoRead _ _ _ => none
  | .lockedRequest _ _ => none
  | .mailboxAccess _ _ _ _ => none
  | .brgSemTake _ _ => none
  | .brgSemRelease _ _ _ => none
  | .brgSlotReq _ _ _ => none
  | .brgSlotRelease _ _ _ => none
  | .bridgeFarTimeout _ _ _ => none
  | .delayedReadExpire _ _ => none
  | .tsuLatch _ _ => none
  | .ttPhaseRead _ _ => none
  | .chkLoad _ _ _ => none
  | .chkDataWrite _ _ _ _ => none
  | .chkCfgWrite _ _ _ => none
  | .capPeekRead _ _ _ _ => none
  | .capPop _ _ _ => none
  | .capAck _ _ _ => none
  | .capHrdWrite _ _ _ => none
  | .mdioAccessStart _ _ _ => none
  | .mdioAccessDone _ _ _ => none
  | .mdioLinkPoll _ _ => none
  | .bootRearm _ _ => none
  | .bootReset _ _ => none
  | .spiRead _ _ _ => none
  | .spiWrite _ _ _ => none
  | .spiPush _ _ => none
  | .spiPop _ => none
  | .spiStatus _ => none
  | .functionLevelReset _ => none
  | .hostLinkDown _ => none
  | .hostLinkUp _ _ => none
  | .hostLinkTimeout _ => none
  | .frameBoundary _ => none
  | .frameIntake _ _ => none
  | .frameEnd _ _ => none
  | .busFrameHandover _ _ _ => none
  | .arbiterWindowStart _ => none
  | .egressGrant _ => none
  | .egressTxComplete _ _ => none
  | .preemptResume _ => none
  | .committedLaunch _ => none
  | .shaperWaitExpire _ _ => none
  | .tunnelGrant => none
  | .aggHoldExpire _ => none
  | .cryptoGrant => none
  | .streamAgeExpire _ => none
  | .frerResetExpire _ => none
  | .nodeHoldExpire _ => none
  | .lockedSequenceTimeout _ => none
  | .ethSignalDetect _ => none
  | .ethTrainingDone _ _ => none
  | .ethTrainingTimeout _ => none
  | .ethLinkLost _ _ => none
  | .laneRetuneDone _ _ => none
  | .mmVerifyTimer _ => none
  | .t1sUpTimer _ => none
  | .t1sBeaconReceived _ => none
  | .t1sBeaconLoss _ => none
  | .canBusOff _ => none
  | .canBusOffRecovered _ => none
  | .linScheduleSlot _ => none
  | .linHeaderReceived _ _ _ => none
  | .linResponseTimeout _ => none
  | .frSlot _ _ _ _ => none
  | .frPocChange _ _ => none
  | .busCtrlFault _ => none
  | .syncReceiptTimeout _ => none
  | .gptpTxTimer _ _ _ => none
  | .selectorEvaluation => none
  | .deltaSlewDone => none
  | .tclkPllUnlock _ => none
  | .tclkPllRelock _ => none
  | .tsuServoParityError _ => none
  | .ppsEdge _ => none
  | .zdaSend => none
  | .leapApply => none
  | .ttCountedEdge _ _ _ _ => none
  | .ttIndexEdge _ _ => none
  | .ttStallTimeout _ => none
  | .triggerActiveEdge _ => none
  | .timeTrigger _ => none
  | .triggerInactiveEdge _ => none
  | .timetableEntryStart _ => none
  | .timetablePhaseCrossing _ => none
  | .timetablePendingStart _ => none
  | .thermalSample _ => none
  | .ladleLaneTake _ => none
  | .captureMemGrant _ => none
  | .captureDmaBatch _ _ => none
  | .sidingLossClose _ => none
  | .errorLogWrite _ => none
  | .datapathUnitFault _ _ => none
  | .sliceControlFault _ _ => none
  | .selfTestStep _ _ _ _ => none
  | .retryWindowClose _ => none
  | .lpddrChannelFault _ => none
  | .lpddrRetrainDone _ _ => none
  | .signalBoxFailover => none
  | .pairSelfTestDone _ => none
  | .entropyHealthFail _ => none
  | .entropyStartupDone => none
  | .drbgReseed => none
  | .maskReseed _ => none
  | .keyZeroize _ => none
  | .sleepDrainEnd => none
  | .tc10Poll _ _ _ => none
  | .sleepHoldEnd => none
  | .canWakeFrame _ _ _ => none
  | .canWakePattern _ => none
  | .wakeInEvent _ _ => none
  | .t1sActivity _ => none
  | .wakeTimerExpire => none
  | .wakingStepDone => none
  | .wakeAbuse _ => none
  | .powerOnReset => none
  | .supplyMonitorReset => none
  | .resetNAsserted => none
  | .bootStepEnd _ => none
  | .ledgerRestart => none
  | .registerRead _ _ _ => none
  | .busReceiveError _ _ => none
  | .porstNAsserted => none
  | .vddaonValid => none
  | .sidingBurstDone _ _ _ => none
  | .idleClockGating _ _ => none
  | .wakeAssertionEnd _ => none
  | .ledgerEraseDone => none

/-- A command that the block can meet. -/
def Instr.wf : Instr → Bool
  | .routeAdd _ d => d.spells 0x0101 && d.inlineClean
  | .routeDel _ d => d.spells 0x0102 && d.inlineClean
  | .routeRead _ d => d.spells 0x0103 && d.inlineClean
  | .tcamWrite _ d => d.spells 0x0104 && d.inlineClean
  | .tcamRead _ d => d.spells 0x0105 && d.inlineClean
  | .dsetWrite _ d => d.spells 0x0106 && d.inlineClean
  | .dsetRead _ d => d.spells 0x0107 && d.inlineClean
  | .vlanWrite _ d => d.spells 0x0108 && d.inlineClean
  | .vlanRead _ d => d.spells 0x0109 && d.inlineClean
  | .profWrite _ d => d.spells 0x010A && d.inlineClean
  | .profRead _ d => d.spells 0x010B && d.inlineClean
  | .streamPin _ d => d.spells 0x010C && d.inlineClean
  | .streamUnpin _ d => d.spells 0x010D && d.inlineClean
  | .streamRead _ d => d.spells 0x010E && d.inlineClean
  | .streamClear _ d => d.spells 0x010F && d.inlineClean
  | .gateWrite _ d => d.spells 0x0201 && d.inlineClean
  | .gateRead _ d => d.spells 0x0202 && d.inlineClean
  | .timeSet _ d => d.spells 0x0301 && d.inlineClean
  | .timeRead _ d => d.spells 0x0302 && d.inlineClean
  | .ttPhaseAt _ d => d.spells 0x0401 && d.inlineClean
  | .ttNextCross _ d => d.spells 0x0402 && d.inlineClean
  | .keyWrite _ d => d.spells 0x0501 && d.inlineClean
  | .keyErase _ d => d.spells 0x0502 && d.inlineClean
  | .keyRead _ d => d.spells 0x0503 && d.inlineClean
  | .rawCipher _ d => d.spells 0x0504 && d.inlineClean
  | .rawCmac _ d => d.spells 0x0505 && d.inlineClean
  | .pkVerify _ d => d.spells 0x0506 && d.inlineClean
  | .pkEcdh _ d => d.spells 0x0507 && d.inlineClean
  | .pkKeygen _ d => d.spells 0x0508 && d.inlineClean
  | .pkEngineDone => true
  | .cryRandom _ d => d.spells 0x0509 && d.inlineClean
  | .capDiscard _ d => d.spells 0x0601 && d.inlineClean
  | .sleep _ d => d.spells 0x0701 && d.inlineClean
  | .resume _ d => d.spells 0x0702 && d.inlineClean
  | .wakeRead _ d => d.spells 0x0703 && d.inlineClean
  | .nop _ d => d.spells 0x0801 && d.inlineClean
  | .diagSnapshot _ d => d.spells 0x0802 && d.inlineClean
  | .errRead _ d => d.spells 0x0803 && d.inlineClean
  | .selfTest _ d => d.spells 0x0804 && d.inlineClean
  | .mouldOpen _ d => d.spells 0x0901 && d.inlineClean
  | .mouldDiscard _ d => d.spells 0x0902 && d.inlineClean
  | .pour _ d => d.spells 0x0903 && d.inlineClean
  | .pourReady => true
  | .pourBoundary => true
  | .pourTimeout => true
  | .mouldStat _ d => d.spells 0x0904 && d.inlineClean
  | .nodeWrite _ d => d.spells 0x0A01 && d.inlineClean
  | .nodeErase _ d => d.spells 0x0A02 && d.inlineClean
  | .nodeRead _ d => d.spells 0x0A03 && d.inlineClean
  | .nodeRelease _ d => d.spells 0x0A04 && d.inlineClean
  | .nodeHold _ d => d.spells 0x0A05 && d.inlineClean
  | .partGrant _ d => d.spells 0x0B01 && d.inlineClean
  | .partRead _ d => d.spells 0x0B02 && d.inlineClean
  | .partThaw _ d => d.spells 0x0B03 && d.inlineClean
  | .partFreeze _ d => d.spells 0x0B04 && d.inlineClean
  | .windowWrite _ d => d.spells 0x0B05 && d.inlineClean
  | .remoteAccess _ d => d.spells 0x0B06 && d.inlineClean
  | .doorbell _ _ => true
  | .commandFetch _ raw _ => decide (raw.length = 32)
  | .dispatchGrant => true
  | .replyRelease _ _ => true
  | .cqReplyWrite _ => true
  | .cqHeadWrite _ _ => true
  | .cmdCtlWrite _ _ => true
  | .rwpWrite _ addr _ eight => decide (addr.toNat % (if eight then 8 else 4) = 0)
  | .registerWrite _ addr _ eight => decide (addr.toNat % (if eight then 8 else 4) = 0)
  | .rocRead _ addr => decide (addr.toNat % 4 = 0)
  | .counterLoRead _ addr eight => decide (addr.toNat % (if eight then 8 else 4) = 0)
  | .lockedRequest _ _ => true
  | .mailboxAccess _ addr len data => !Machine.registerShape addr.toNat len && decide (1 ≤ len) && (data.map (fun l => l.length == len)).getD true
  | .brgSemTake _ _ => true
  | .brgSemRelease _ _ _ => true
  | .brgSlotReq _ _ _ => true
  | .brgSlotRelease _ _ _ => true
  | .bridgeFarTimeout _ _ _ => true
  | .delayedReadExpire _ _ => true
  | .tsuLatch _ _ => true
  | .ttPhaseRead _ _ => true
  | .chkLoad _ _ _ => true
  | .chkDataWrite _ _ _ _ => true
  | .chkCfgWrite _ _ _ => true
  | .capPeekRead _ _ _ _ => true
  | .capPop _ _ _ => true
  | .capAck _ _ _ => true
  | .capHrdWrite _ _ _ => true
  | .mdioAccessStart _ _ _ => true
  | .mdioAccessDone _ _ _ => true
  | .mdioLinkPoll _ _ => true
  | .bootRearm _ _ => true
  | .bootReset _ _ => true
  | .spiRead _ n _ => decide (1 ≤ n ∧ n ≤ 16)
  | .spiWrite _ words _ => decide (1 ≤ words.length ∧ words.length ≤ 16)
  | .spiPush raw _ => decide (raw.length = 32)
  | .spiPop _ => true
  | .spiStatus _ => true
  | .functionLevelReset _ => true
  | .hostLinkDown _ => true
  | .hostLinkUp _ width => decide (width < 256)
  | .hostLinkTimeout _ => true
  | .frameBoundary c => Machine.mediaCode c.toNat
  | .frameIntake c bytes => Machine.isES c.toNat && decide (1 ≤ bytes.length ∧ bytes.length ≤ Machine.maxFrame)
  | .frameEnd c _ => Machine.isES c.toNat
  | .busFrameHandover c _ bytes => Machine.isBus c.toNat && decide (bytes.length ≤ Machine.maxFrame)
  | .arbiterWindowStart a => a.wf
  | .egressGrant c => Machine.mediaCode c.toNat
  | .egressTxComplete c _ => Machine.mediaCode c.toNat
  | .preemptResume _ => true
  | .committedLaunch _ => true
  | .shaperWaitExpire c _ => Machine.isES c.toNat
  | .tunnelGrant => true
  | .aggHoldExpire _ => true
  | .cryptoGrant => true
  | .streamAgeExpire _ => true
  | .frerResetExpire _ => true
  | .nodeHoldExpire _ => true
  | .lockedSequenceTimeout a => a.wf
  | .ethSignalDetect _ => true
  | .ethTrainingDone _ _ => true
  | .ethTrainingTimeout _ => true
  | .ethLinkLost _ _ => true
  | .laneRetuneDone _ _ => true
  | .mmVerifyTimer _ => true
  | .t1sUpTimer _ => true
  | .t1sBeaconReceived _ => true
  | .t1sBeaconLoss _ => true
  | .canBusOff _ => true
  | .canBusOffRecovered _ => true
  | .linScheduleSlot _ => true
  | .linHeaderReceived _ _ _ => true
  | .linResponseTimeout _ => true
  | .frSlot _ _ _ _ => true
  | .frPocChange _ _ => true
  | .busCtrlFault c => Machine.isBus c.toNat || Machine.isS c.toNat
  | .syncReceiptTimeout _ => true
  | .gptpTxTimer _ _ _ => true
  | .selectorEvaluation => true
  | .deltaSlewDone => true
  | .tclkPllUnlock _ => true
  | .tclkPllRelock _ => true
  | .tsuServoParityError _ => true
  | .ppsEdge _ => true
  | .zdaSend => true
  | .leapApply => true
  | .ttCountedEdge _ _ _ _ => true
  | .ttIndexEdge _ _ => true
  | .ttStallTimeout _ => true
  | .triggerActiveEdge _ => true
  | .timeTrigger _ => true
  | .triggerInactiveEdge _ => true
  | .timetableEntryStart _ => true
  | .timetablePhaseCrossing _ => true
  | .timetablePendingStart _ => true
  | .thermalSample _ => true
  | .ladleLaneTake _ => true
  | .captureMemGrant _ => true
  | .captureDmaBatch _ _ => true
  | .sidingLossClose _ => true
  | .errorLogWrite _ => true
  | .datapathUnitFault _ _ => true
  | .sliceControlFault _ w => w.wf
  | .selfTestStep _ _ _ _ => true
  | .retryWindowClose u => u.wf
  | .lpddrChannelFault _ => true
  | .lpddrRetrainDone _ _ => true
  | .signalBoxFailover => true
  | .pairSelfTestDone _ => true
  | .entropyHealthFail _ => true
  | .entropyStartupDone => true
  | .drbgReseed => true
  | .maskReseed _ => true
  | .keyZeroize _ => true
  | .sleepDrainEnd => true
  | .tc10Poll _ _ _ => true
  | .sleepHoldEnd => true
  | .canWakeFrame _ f _ => decide (f.data.length ≤ 8) && (f.ide || decide (f.ident.toNat < 2 ^ 11))
  | .canWakePattern _ => true
  | .wakeInEvent _ _ => true
  | .t1sActivity _ => true
  | .wakeTimerExpire => true
  | .wakingStepDone => true
  | .wakeAbuse _ => true
  | .powerOnReset => true
  | .supplyMonitorReset => true
  | .resetNAsserted => true
  | .bootStepEnd e => e.wf
  | .ledgerRestart => true
  | .registerRead _ addr eight => decide (addr.toNat % (if eight then 8 else 4) = 0)
  | .busReceiveError c _ => Machine.isBus c.toNat || Machine.isS c.toNat
  | .porstNAsserted => true
  | .vddaonValid => true
  | .sidingBurstDone _ _ _ => true
  | .idleClockGating _ _ => true
  | .wakeAssertionEnd _ => true
  | .ledgerEraseDone => true

end Sys2Proof
end

