-- ==== Sys2Proof/Safety.lean ====
section
/-! DEFINITION. What the statements call safe: the canonical form of the addressed memories, the configuration in force, which
commands may change it, and when the block works. -/

namespace Sys2Proof.Machine

/-- The canonical form of both addressed memories (R128, R400). -/
def RegUnit.memWf (r : RegUnit) : Prop := Memory.wf r.pmBuf = true ∧ Memory.wf r.mailbox = true

/-- The same routes, TCAM, destination sets, VLANs, policy and tunnel profiles, key slots, windows and grants (R285 step 5). E2E
profiles, node entries and timetables hold fields that the datapath itself writes, and are not among them. -/
structure Tables.sameConfig (t u : Tables) : Prop where
  routes : t.routes = u.routes
  tcam : t.tcam = u.tcam
  dsets : t.dsets = u.dsets
  vlans : t.vlans = u.vlans
  pprofs : t.pprofs = u.pprofs
  tprofs : t.tprofs = u.tprofs
  keys : t.keys = u.keys
  windows : t.windows = u.windows
  grants : t.grants = u.grants

/-- The block works: PORST_N is released, no thermal shutdown and no HALT, and a clock runs (R300, R347, R359). -/
def State.works (s : State) : Prop := s.stopped = false

/-- The signal box works: the block works and at least one pair is left (R334). -/
def State.serves (s : State) : Prop := s.err.sbDead = false ∧ s.stopped = false

/-- A command of a ring may run: the signal box works, and the command has started, or was never fetched (R276, log entry 7). -/
def State.runs (s : State) (p : Part) (d : CmdDesc) : Prop := s.serves ∧ s.mayRun p d = true

/-- The windows of a partition cover the writeback of each of its queues that drains to its rings (R257). -/
def State.ringsCovered (s : State) (p : Part) : Prop :=
  ∀ q, q < 64 → s.capHolder q = p → s.capDrain q = false → (s.grant p).covers (s.tagBase q + s.ringWords q) 8 = true

/-- A queue's siding words have distinct places inside its region, and the channels in service hold the region, 16 GiB each at most (R250,
R251). -/
structure State.sidingSound (s : State) (q : Nat) : Prop where
  served : s.channels ≠ []
  fits : (s.sidingBase q + s.sidingSize q) * 2 ^ 22 ≤ s.channels.length * 2 ^ 34
  inside : ∀ x ∈ (s.capq q).places, x < s.sidingSize q * 57344
  apart : (s.capq q).places.Nodup
  next : (s.capq q).wr < max 1 (s.sidingSize q * 57344)
  checks : ∀ x ∈ (s.capq q).check, x.2.length = 9

/-- A port with nothing queued, granted, being sent, committed, in a FlexRay buffer or in reception. -/
def State.idlePort (s : State) (c : Nat) : Prop :=
  (s.egOf c).queues = [] ∧ (s.egOf c).tx = none ∧ (s.egOf c).preempted = none ∧ (s.egOf c).commit = none ∧
    (s.egOf c).next = none ∧ s.frWaiting c = [] ∧ s.rxOf c = []

/-- A register access of a master is taken: a host's over a live link after the block's start, PM's over a ready SPI port
(R297, R298, R363). -/
def State.takes (s : State) (p : Part) : Prop :=
  (p = pm → s.spiReady = true) ∧ (p ≠ pm → s.linked p = true ∧ s.unreachable = false ∧ s.bootDone = true) ∧ s.dozing = false

/-- A master may read the register at an offset now. -/
def State.mayRead (s : State) (p : Part) (off : Nat) : Prop := s.takes p ∧ s.readReach p p off = .ok

/-- A master may write the register at an offset now: it lies in its view, writable, and the partition is not frozen (R293, R294). -/
def State.mayWrite (s : State) (p : Part) (off : Nat) : Prop :=
  s.takes p ∧ s.writeReach p p off = .ok ∧ s.frozen p = false

/-- Registers whose writes have an action of their own: rings, the bridge, TSU_LATCH, MDIO accesses, CAP_Qn_ACK, HRD and POP, CHK,
PWR_WAK_MASK, ERR and BOOT. -/
def actsOnWrite (off : Nat) : Bool :=
  ringRegs.contains off || decide (0x18_0000 ≤ off ∧ off < 0x20_0000) || off == 0x20_0020 ||
    decide (0x60_F000 ≤ off ∧ off < 0x60_F100 ∧ off % 0x40 = 8) ||
    decide (0x80_0000 ≤ off ∧ off < 0x80_4000 ∧ (off % 0x100 = 0x1C ∨ off % 0x100 = 0x38 ∨ off % 0x100 = 0x40)) ||
    decide (0x90_0000 ≤ off ∧ off < 0xA0_0000 ∧ [0x00, 0x04, 0x20, 0x24, 0x30, 0x34, 0x38].contains (off % 0x40)) ||
    off == R.wakMask || decide (0xB0_0000 ≤ off ∧ off < 0xD0_0000)

/-! ### Commands of the rings -/

/-- A descriptor that passes the checks that every command's descriptor meets first (R273, R275, R278, R400). -/
structure Sound (p : Part) (d : CmdDesc) : Prop where
  flags : fld d.flags 7 4 = 0
  top : fld d.tag 15 12 = 0
  tag : d.ctag.toNat < tagCount p
  reserved : d.indirect = true → d.rsv = 0
  inline : d.indirect = false → d.len ≤ 24
  buffers : p = pm → d.pmBuffersOk = true

/-- A descriptor that names an output buffer of at least `n` bytes (R275). -/
def Takes (d : CmdDesc) (n : Nat) : Prop := d.indirect = true ∧ d.outPtr ≠ 0 ∧ n ≤ d.outLen.toNat

/-- A sound descriptor of an immediate command with `n` parameter bytes (R273, R279). -/
def Imm (p : Part) (d : CmdDesc) (n : Nat) : Prop := Sound p d ∧ d.mouldFlag = false ∧ d.len = n

/-- A partition's open, unsealed mould has room for an item: it holds one of the same entry, or is not full (R280, R283). -/
def State.stageable (s : State) (p : Part) (m : Mould) (x : Item) : Prop :=
  s.mould p = some m ∧ m.sealed = false ∧ (hasSlot m.items x = true ∨ s.mouldFull m = false)

/-- A staging command's effect: the item is in the mould, and the command completes with OK (R277, R280). -/
def State.staged (s : State) (p : Part) (d : CmdDesc) (m : Mould) (x : Item) : State :=
  (s.setMould p (some { m with items := addItem m.items { item := x, tag := d.ctag, by_ := p } })).complete p (replyOf d St.ok 0 [])

/-- A command completes with a status, a result and output (R276, R277). -/
def State.answered (s : State) (p : Part) (d : CmdDesc) (status : Byte) (result : Nat) (out : List Byte) : State :=
  s.complete p (replyOf d status result out)

/-- The work of a raw block command for the slices: requester 34, one burst for each 256 bytes, with the command's answer (R38, R135). -/
def rawWork (p : Part) (d : CmdDesc) (result : Nat) (out : List Byte) (n : Nat) : CryptoWork :=
  let b := max 1 (ceilDiv n 256)
  { req := 34, total := b, bursts := b
    use := .raw { part := p, tag := d.ctag, irq := d.irq, status := St.ok, result := BitVec.ofNat 64 result, outAt := d.outPtr, out := out
                  micros := 0 } }

/-- What a freeze does to a host partition (R294): `frozen`, the cause and SEC_VIOL are set and the freeze is counted, every fetched
command that has not started has a FROZEN reply, an unsealed mould is discarded and a sealed one stays, PM is told, and nothing in
force or of another partition changes. -/
structure Froze (s t : State) (p : Part) (cause what : Nat) : Prop where
  frozen : t.frozen p = true
  cause : fld (t.rgp p R.secStatus) 3 1 = cause
  count : fld (t.rgp p R.secStatus) 31 16 = min 0xFFFF (fld (s.rgp p R.secStatus) 31 16 + 1)
  viol : t.rgp p R.secViol = BitVec.ofNat 32 what
  started : (t.path p).fetched = (s.path p).fetched.filter (·.started)
  replies : (t.path p).done = (s.path p).done ++ ((s.path p).fetched.filter (fun f => !f.started)).map
    (fun f => { tag := f.desc.ctag, status := St.frozen, result := 0, irq := f.desc.irq })
  mould : ∀ m, s.mould p = some m → t.mould p = if m.sealed then some m else none
  told : t.bt R.secPmEvent p.val = true ∧ t.cmd.spiEvent = true
  config : t.tab = s.tab ∧ t.live = s.live ∧ t.cap = s.cap ∧ t.out = s.out
  others : ∀ q, q ≠ p → t.path q = s.path q ∧ t.mould q = s.mould q ∧ t.frozen q = s.frozen q

/-- What a reset from a source leaves (R347 to R350): the cause, step 1 in progress, no configuration, no frame and no capture, every
register outside the always-on domain at its reset value but those that show the start or the pins, the flash as it was, and HALT at once only
where step 1 is at that level and the source keeps the always-on counts. -/
structure Restarted (s t : State) (code : Nat) : Prop where
  cause : t.fd R.bootCause 3 0 = code
  step : t.bootStep = 1
  done : t.bootDone = false
  config : t.tab = State.reset.tab ∧ t.live = State.reset.live ∧ t.fwd = State.reset.fwd ∧ t.cap = State.reset.cap
  regs : ∀ k, k ∉ [R.bootCause, R.bootStatus, R.bootPolicy, R.thermStat, R.pwrState, R.wakAssert] → (code ≤ 2 ∨ alwaysOn k = false) →
    t.rg k = State.reset.rg k
  ledger : t.boot.sectA = s.boot.sectA ∧ t.boot.sectB = s.boot.sectB
  halted : t.pins.halted = decide (2 < code ∧ s.levelOf 1 = 1)
  shown : t.out = s.out ++ [.reset (BitVec.ofNat 8 code)] ∧ t.pins.hiZ = false

end Sys2Proof.Machine

namespace Sys2Proof

/-- Commands that may change the configuration in force: a pour's boundary (R285), boot step 10 and the resets (R348, R361), the
accesses that can write BOOT_RESET (R359), and the wakes of DEEP, which start the block anew (R305). -/
def Instr.reconfigures : Instr → Bool
  | .pourBoundary => true
  | .bootStepEnd _ => true
  | .powerOnReset => true
  | .supplyMonitorReset => true
  | .resetNAsserted => true
  | .vddaonValid => true
  | .ledgerRestart => true
  | .bootReset _ _ => true
  | .registerWrite _ _ _ _ => true
  | .rwpWrite _ _ _ _ => true
  | .spiWrite _ _ _ => true
  | .spiPush _ _ => true
  | .doorbell _ _ => true
  | .sleepHoldEnd => true
  | .canWakeFrame _ _ _ => true
  | .canWakePattern _ => true
  | .wakeInEvent _ _ => true
  | .t1sActivity _ => true
  | .wakeTimerExpire => true
  | _ => false

end Sys2Proof
end

