-- ==== Sys2Proof/Certificates/Slice0/Obligations.lean ====
section
/-! DEFINITION. The statements for the provers: one definition each, in the order of OBLIGATIONS.json. -/

open Sys2Proof Sys2Proof.Machine

/-- For every command c, every list of waiting commands and every state s, a step of s with c in front of the queue is exec of c on
s with the rest of the queue. -/
def Obligations.StepRunsTheFrontCommand : Prop :=
  ∀ (c : Instr) (rest : List Instr) (s : State),
    step { s with pending := c :: rest } = exec c { s with pending := rest }

/-- With an empty queue a step completes, leaves the queue empty, and only the clocks move: the configuration in force, both
addressed memories and what was sent stay. That an empty queue ticks the clocks is the model's choice (log entry 5). -/
def Obligations.StepOfAnEmptyQueueIsATick : Prop :=
  ∀ s : State, s.pending = [] → ∃ t, step s = .next t ∧ t.pending = [] ∧ t.out = s.out ∧ t.tab = s.tab ∧
    t.reg.pmBuf = s.reg.pmBuf ∧ t.reg.mailbox = s.reg.mailbox

/-- At reset the PM buffer and the slot data buffers are in canonical form. -/
def Obligations.MemoryCanonicalAtReset : Prop :=
  State.reset.reg.memWf

/-- For every state whose PM buffer and slot data buffers are in canonical form, every step that answers a next state leaves them in
canonical form: addresses strictly rising and no entry equal to what an unlisted address reads as. -/
def Obligations.EveryStepKeepsTheMemoriesCanonical : Prop :=
  ∀ s t : State, s.reg.memWf → step s = .next t → t.reg.memWf

/-- For every command that is not a pour boundary, a boot step, a reset, an access that can write BOOT_RESET, or a wake that can
start the block anew, and for every state, a next state has the same routes, TCAM entries, destination sets, VLANs, policy and
tunnel profiles, key slots, windows and grants. -/
def Obligations.OnlyAPourOrAStartChangesTheConfiguration : Prop :=
  ∀ (c : Instr) (s t : State), c.reconfigures = false → exec c s = .next t → t.tab.sameConfig s.tab

/-- For every command and every state, a next state has the same waiting commands and the same variant, and what the block has sent
before is still the beginning of what it has sent. -/
def Obligations.CommandsLeaveTheQueueTheFuseAndWhatWasSent : Prop :=
  ∀ (c : Instr) (s t : State), exec c s = .next t → t.pending = s.pending ∧ t.logger = s.logger ∧ s.out <+: t.out

/-- For every state with a waiting command, a step that answers a next state leaves exactly the rest of the queue waiting. -/
def Obligations.EveryStepTakesOneCommand : Prop :=
  ∀ (c : Instr) (rest : List Instr) (s t : State), s.pending = c :: rest → step s = .next t → t.pending = rest

/-- Each of the fifteen staging commands, started or never fetched, with a descriptor that passes its form check, a target that its
issuer holds on a port that is not retired, and an open, unsealed mould with room, answers the state in which exactly its item
has joined the mould with the command's tag and issuer, and the command has completed with OK. All else in the state is as
before. -/
def Obligations.StagingCommandsJoinTheMould : Prop :=
  (∀ p d s m, s.runs p d → (routeForm .staging 32 false d).check p d = none →
    (ownerKeyed (d.image 128 0) = true ∨
      (s.holds p .port (imgByte (d.image 128 0) 1).toNat = true ∧ s.retired (imgByte (d.image 128 0) 1).toNat = false)) →
    s.stageable p m (.route (routeEntry p d)) → exec (.routeAdd p d) s = .next (s.staged p d m (.route (routeEntry p d)))) ∧
  (∀ p d s m, s.runs p d → (routeForm .staging 16 false d).check p d = none →
    (ownerKeyed (d.image 128 0) = true ∨ s.holds p .port (imgByte (d.image 128 0) 1).toNat = true) →
    s.stageable p m (.routeDel (cmdKey p d) (stagedAdd s p (Item.routeDel (cmdKey p d) false).slot)) →
    exec (.routeDel p d) s =
      .next (s.staged p d m (.routeDel (cmdKey p d) (stagedAdd s p (Item.routeDel (cmdKey p d) false).slot)))) ∧
  (∀ p d s m, s.runs p d → (tcamWriteForm d).check p d = none → d.le 0 2 < Kind.tcam.size → s.holds p .tcam (d.le 0 2) = true →
    s.stageable p m (.tcam (d.le 0 2) (tcamEntry p d)) →
    exec (.tcamWrite p d) s = .next (s.staged p d m (.tcam (d.le 0 2) (tcamEntry p d)))) ∧
  (∀ p d s m, s.runs p d → (dsetWriteForm d).check p d = none → d.le 0 2 < Kind.dset.size → s.holds p .dset (d.le 0 2) = true →
    s.stageable p m (.dset (d.le 0 2) (d.image 128 2)) →
    exec (.dsetWrite p d) s = .next (s.staged p d m (.dset (d.le 0 2) (d.image 128 2)))) ∧
  (∀ p d s m, s.runs p d → vlanForm.check p d = none → d.le 0 2 < 4096 → s.stageable p m (.vlan (d.le 0 2) (d.image 48 2)) →
    exec (.vlanWrite p d) s = .next (s.staged p d m (.vlan (d.le 0 2) (d.image 48 2)))) ∧
  (∀ p d s m, s.runs p d → (profWriteForm d).check p d = none → profIndexOk (d.b 0) (d.le 2 2) = true →
    s.holds p (profKind (d.b 0)) (d.le 2 2) = true → s.stageable p m (profItem d) →
    exec (.profWrite p d) s = .next (s.staged p d m (profItem d))) ∧
  (∀ p d s m, s.runs p d → (pinForm 17 d).check p d = none →
    (ownerKeyed (d.image 128 0) = true ∨ s.holds p .port (imgByte (d.image 128 0) 1).toNat = true) →
    s.stageable p m (.pin (cmdKey p d) (byteAt d.params 16)) →
    exec (.streamPin p d) s = .next (s.staged p d m (.pin (cmdKey p d) (byteAt d.params 16)))) ∧
  (∀ p d s m, s.runs p d → (pinForm 16 d).check p d = none →
    (ownerKeyed (d.image 128 0) = true ∨ s.holds p .port (imgByte (d.image 128 0) 1).toNat = true) →
    s.stageable p m (.unpin (cmdKey p d) (stagedAdd s p (Item.unpin (cmdKey p d) false).slot)) →
    exec (.streamUnpin p d) s =
      .next (s.staged p d m (.unpin (cmdKey p d) (stagedAdd s p (Item.unpin (cmdKey p d) false).slot)))) ∧
  (∀ p d s m, s.runs p d → (gateWriteForm d).check p d = none → isE (d.b 0) = true → s.holds p .port (d.b 0) = true →
    s.retired (d.b 0) = false → s.stageable p m (.gate (d.b 0) { header := d.image 256 4, entries := gateEntries d 36 (d.le 6 2) }) →
    exec (.gateWrite p d) s =
      .next (s.staged p d m (.gate (d.b 0) { header := d.image 256 4, entries := gateEntries d 36 (d.le 6 2) }))) ∧
  (∀ p d s m, s.runs p d → (keyWriteForm d).check p d = none → d.b 4 ≤ 1 → d.le 0 2 < Kind.key.size →
    s.holds p .key (d.le 0 2) = true → s.retired (ksPort (d.image 1024 8)) = false →
    s.stageable p m (.key (d.le 0 2) (d.b 4 == 1) (d.image 1024 8)) →
    exec (.keyWrite p d) s = .next (s.staged p d m (.key (d.le 0 2) (d.b 4 == 1) (d.image 1024 8)))) ∧
  (∀ p d s m, s.runs p d → keyEraseForm.check p d = none → d.le 0 2 < Kind.key.size → s.holds p .key (d.le 0 2) = true →
    s.stageable p m (.keyErase (d.le 0 2)) → exec (.keyErase p d) s = .next (s.staged p d m (.keyErase (d.le 0 2)))) ∧
  (∀ p d s m, s.runs p d → (nodeWriteForm d).check p d = none → s.holds p .port (d.b 8) = true → s.retired (d.b 8) = false →
    s.stageable p m (.node (BitVec.ofNat 8 (d.b 0)) (d.image 256 8)) →
    exec (.nodeWrite p d) s = .next (s.staged p d m (.node (BitVec.ofNat 8 (d.b 0)) (d.image 256 8)))) ∧
  (∀ p d s m, s.runs p d → nodeEraseForm.check p d = none → s.holds p .port (d.b 0) = true →
    s.stageable p m (.nodeErase (cmdNkey d) (stagedAdd s p (Item.nodeErase (cmdNkey d) false).slot)) →
    exec (.nodeErase p d) s =
      .next (s.staged p d m (.nodeErase (cmdNkey d) (stagedAdd s p (Item.nodeErase (cmdNkey d) false).slot)))) ∧
  (∀ p d s m, s.runs p d → (grantForm d).check p d = none → s.stageable p m (.grant (d.b 0) (d.image 1728 0)) →
    exec (.partGrant p d) s = .next (s.staged p d m (.grant (d.b 0) (d.image 1728 0)))) ∧
  (∀ p d s m, s.runs p d → (windowForm d).check p d = none → d.b 0 < 32 → s.holds p .port (d.b 4) = true →
    s.stageable p m (.window (p.val * 32 + d.b 0) (d.image 128 4)) →
    exec (.windowWrite p d) s = .next (s.staged p d m (.window (p.val * 32 + d.b 0) (d.image 128 4))))

/-- Each of the ten table reads (a route, a TCAM entry, a destination set, a VLAN, a profile, a stream record, a timetable, a key
slot, a node, a grant), started or never fetched, with a descriptor that passes its form check, a target that its issuer may
read and an output buffer with room, answers the state in which the command has completed with OK and the entry that it sees, in
force or, with flags.mould = 1, staged; all else is as before. The node read is stated for a node in force. -/
def Obligations.TableReadsAnswerWhatStands : Prop :=
  (∀ p d s e, s.runs p d → (routeForm .read 16 true d).check p d = none →
    (ownerKeyed (d.image 128 0) = true ∨ s.holds p .port (imgByte (d.image 128 0) 1).toNat = true) →
    seenRoute s p d (cmdKey p d) = some e → 32 ≤ d.outLen.toNat →
    exec (.routeRead p d) s = .next (s.answered p d St.ok 0 (imgBytes e))) ∧
  (∀ p d s, s.runs p d → (readForm 2 true).check p d = none → d.le 0 2 < Kind.tcam.size → s.holds p .tcam (d.le 0 2) = true →
    48 ≤ d.outLen.toNat → exec (.tcamRead p d) s = .next (s.answered p d St.ok 0 (imgBytes (seenTcam s p d (d.le 0 2))))) ∧
  (∀ p d s, s.runs p d → (readForm 2 true).check p d = none → d.le 0 2 < Kind.dset.size → s.holds p .dset (d.le 0 2) = true →
    16 ≤ d.outLen.toNat → exec (.dsetRead p d) s = .next (s.answered p d St.ok 0 (imgBytes (seenDset s p d (d.le 0 2))))) ∧
  (∀ p d s, s.runs p d → (readForm 2 false).check p d = none → d.le 0 2 < 4096 →
    exec (.vlanRead p d) s = .next (s.answered p d St.ok (seenVlan s p d (d.le 0 2)).toNat [])) ∧
  (∀ p d s, s.runs p d → (profReadForm d).check p d = none →
    profIndexOk (d.b 0) (d.le 2 2) = true → s.holds p (profKind (d.b 0)) (d.le 2 2) = true →
    (seenProf s p d (d.b 0) (d.le 2 2)).length ≤ d.outLen.toNat →
    exec (.profRead p d) s = .next (s.answered p d St.ok 0 (seenProf s p d (d.b 0) (d.le 2 2)))) ∧
  (∀ p d s, s.runs p d → (readForm 2 true).check p d = none → d.le 0 2 < 4096 →
    (streamBytes s (s.stream (d.le 0 2))).length ≤ d.outLen.toNat →
    exec (.streamRead p d) s = .next (s.answered p d St.ok 0 (streamBytes s (s.stream (d.le 0 2))))) ∧
  (∀ p d s, s.runs p d → (readForm 2 true).check p d = none → isE (d.b 0) = true → d.b 1 ≤ 1 → s.holds p .port (d.b 0) = true →
    (gateBytes (seenGate s p d (d.b 0) (d.b 1))).length ≤ d.outLen.toNat →
    exec (.gateRead p d) s = .next (s.answered p d St.ok 0 (gateBytes (seenGate s p d (d.b 0) (d.b 1))))) ∧
  (∀ p d s, s.runs p d → (readForm 2 true).check p d = none → d.le 0 2 < Kind.key.size → s.holds p .key (d.le 0 2) = true →
    136 ≤ d.outLen.toNat → exec (.keyRead p d) s =
      .next (s.answered p d St.ok 0 (imgBytes (ksWithMaterial (seenKey s p d (d.le 0 2)) 0) ++ imgBytes (s.sa (d.le 0 2))))) ∧
  (∀ p d s i e, s.runs p d → (readForm 8 true).check p d = none → s.holds p .port (d.b 0) = true → d.mouldFlag = false →
    s.node (cmdNkey d) = some (i, e) → 32 ≤ d.outLen.toNat →
    exec (.nodeRead p d) s = .next (s.answered p d St.ok i (imgBytes (s.holdShown i e)))) ∧
  (∀ p d s, s.runs p d → (readForm 1 true).check p d = none → (p = pm ∨ d.b 0 = p.val) → d.b 0 ≤ 3 →
    (imgBytes (seenGrant s p d (Fin.ofNat 5 (d.b 0))) ++ s.usage (Fin.ofNat 5 (d.b 0))).length ≤ d.outLen.toNat →
    exec (.partRead p d) s =
      .next (s.answered p d St.ok 0 (imgBytes (seenGrant s p d (Fin.ofNat 5 (d.b 0))) ++ s.usage (Fin.ofNat 5 (d.b 0)))))

/-- For every slot that a KEY_READ reads with OK, the key bytes of the image that the reply carries are 0, whatever the slot holds. -/
def Obligations.ReadKeyMaterialIsNeverShown : Prop :=
  ∀ (k : KeySlot) , ksMaterial (ksWithMaterial k 0) = 0

/-- For a command that may run, with a sound descriptor: MOULD_OPEN opens an empty mould where the issuer has none and answers the
epoch in force, and answers OK_ALREADY for an open unsealed one; MOULD_DISCARD closes an unsealed mould and answers how many
items it held, OK_ALREADY where there is none; MOULD_STAT answers the items staged in bits 16:0, whether a mould is open in bit
32 (the mould stays open while sealed, log entry 21) and whether it is sealed in bit 33; NOP answers 0. Nothing else in the
state changes. -/
def Obligations.MouldCommandsAnswer : Prop :=
  ∀ (p : Part) (d : CmdDesc) (s : State), s.runs p d → Imm p d 0 →
    (s.mould p = none → exec (.mouldOpen p d) s =
      .next ((s.setMould p (some { items := [], sealed := false })).answered p d St.ok s.epoch.toNat [])) ∧
    (∀ m, s.mould p = some m → m.sealed = false →
      exec (.mouldOpen p d) s = .next (s.answered p d St.okAlready s.epoch.toNat [])) ∧
    (∀ m, s.mould p = some m → m.sealed = false →
      exec (.mouldDiscard p d) s = .next ((s.setMould p none).answered p d St.ok m.items.length [])) ∧
    (s.mould p = none → exec (.mouldDiscard p d) s = .next (s.answered p d St.okAlready 0 [])) ∧
    (s.mould p = none → exec (.mouldStat p d) s = .next (s.answered p d St.ok 0 [])) ∧
    (∀ m, s.mould p = some m → exec (.mouldStat p d) s =
      .next (s.answered p d St.ok (m.items.length + 2 ^ 32 + (if m.sealed then 2 ^ 33 else 0)) [])) ∧
    exec (.nop p d) s = .next (s.answered p d St.ok 0 [])

/-- While the issuer's mould is sealed, a staging of any item, MOULD_OPEN, MOULD_DISCARD and a second POUR (not the row of one that
is in the pour queue) with any legal boundary complete with CONFLICT and change nothing else. -/
def Obligations.SealedMouldsAnswerConflict : Prop :=
  ∀ (p : Part) (d : CmdDesc) (s : State) (m : Mould), s.runs p d → s.mould p = some m → m.sealed = true →
    (∀ x : Item, finish p d (stageItem s p d.ctag x) = s.answered p d St.conflict 0 []) ∧
    (Imm p d 0 → exec (.mouldOpen p d) s = .next (s.answered p d St.conflict 0 [])) ∧
    (Imm p d 0 → exec (.mouldDiscard p d) s = .next (s.answered p d St.conflict 0 [])) ∧
    (Imm p d 16 → d.le 2 2 = 0 → (d.b 0 ≤ 1 ∨ (d.b 0 = 2 ∧ d.b 1 < 16 ∧ d.le 4 4 < 2 ^ 24)) →
      (∀ x ∈ s.cmd.pours, ¬ (x.part = p ∧ x.tag = d.ctag)) → exec (.pour p d) s = .next (s.answered p d St.conflict 0 []))

/-- For a command that may run and is not in the pour queue, with a sound descriptor and a legal boundary (a phase boundary may name
any turntable): with an open unsealed mould, POUR seals the mould and joins the end of the pour queue with its boundary, nothing
built and not yet ready; without a mould, or with a boundary out of range, it completes with BAD_PARAM. Nothing else changes.
The row of a POUR that is in the queue changes nothing. -/
def Obligations.PourSealsTheMouldAndQueues : Prop :=
  ∀ (p : Part) (d : CmdDesc) (s : State), s.runs p d → Imm p d 16 → d.le 2 2 = 0 →
    let legal := d.b 0 ≤ 1 ∨ (d.b 0 = 2 ∧ d.b 1 < 16 ∧ d.le 4 4 < 2 ^ 24)
    ((∃ x ∈ s.cmd.pours, x.part = p ∧ x.tag = d.ctag) → exec (.pour p d) s = .next s) ∧
    ((∀ x ∈ s.cmd.pours, ¬ (x.part = p ∧ x.tag = d.ctag)) →
    (¬ legal → exec (.pour p d) s = .next (s.answered p d St.badParam 0 [])) ∧
    (∀ m, legal → s.mould p = some m → m.sealed = false →
      exec (.pour p d) s = .next { s.setMould p (some { m with sealed := true }) with
        cmd.pours := s.cmd.pours ++ [{
          part := p, tag := d.ctag, irq := d.irq, built := 0, ready := false, past := false, seed := 0, pins := [], mark := none
          bound := if d.b 0 = 0 then .immediate
            else if d.b 0 = 1 then .time (BitVec.ofNat 64 (d.le 8 8))
            else .phase (Fin.ofNat 16 (d.b 1)) (BitVec.ofNat 24 (d.le 4 4)) }] }) ∧
    (s.mould p = none → exec (.pour p d) s = .next (s.answered p d St.badParam 0 [])))

/-- POUR_READY first ends the step in which the dispatcher wrote an entry of a pour's shadow tables. Then, for the pour at the head
of the queue. Not ready: when a check fails it leaves the queue and its reply names the status and the item, its mould to be
unsealed; when its instant lies beyond max_defer_ms it leaves with BAD_PARAM and names no item; while entries of its shadow
tables are still to be written nothing changes; otherwise it is marked ready, with its placement, whether its instant is past,
and for a phase boundary of a turntable in TRACKING the phase from which its crossing is looked for, and stays. Ready, with a
phase boundary: POUR_TIMEOUT takes it out with TIMEOUT. In every case the configuration, the registers and the epoch are as
before. That the last two results name no item is the model's reading (log entry 21). -/
def Obligations.PourReadinessAndTimeout : Prop :=
  (∀ (x : Pour) (rest : List Pour) (s : State), s.serves → s.endPourStep.cmd.pours = x :: rest → (s.path x.part).dropTags = [] →
    x.ready = false → ∃ t, exec .pourReady s = .next t ∧ t.tab = s.tab ∧ t.reg = s.reg ∧
      (let u := s.endPourStep
      let (b, v) := u.shadow x u.free
      match firstFailure u u b v (u.pourItems x) with
      | some f => t.cmd.pours = rest.filter (fun y => !(y.part == x.part && y.tag == x.tag)) ∧
          ∃ r ∈ (t.path x.part).done, r.tag = x.tag ∧ r.status = f.status ∧
            r.result = BitVec.ofNat 64 (flawResult (u.pourItems x) f) ∧ r.mould = 2
      | none => if u.tooFar x.bound = true
        then t.cmd.pours = rest.filter (fun y => !(y.part == x.part && y.tag == x.tag)) ∧
          ∃ r ∈ (t.path x.part).done, r.tag = x.tag ∧ r.status = St.badParam ∧ r.result = BitVec.ofNat 64 noItem ∧ r.mould = 2
        else if x.built < (u.pourItems x).length then t = u
        else t.cmd.pours = { x with
          ready := true, seed := s.free, pins := b.pins
          past := match x.bound with
            | .time i => decide (i.toNat < s.pNs)
            | _ => false
          mark := match x.bound with
            | .phase n _ => if s.ttState n = ttTracking then some (s.phi n s.pNs) else none
            | _ => none } :: rest)) ∧
  (∀ s : State, s.serves → (s.endPourStep.cmd.pours = [] ∨ ∃ x rest, s.endPourStep.cmd.pours = x :: rest ∧ x.ready = true) →
    exec .pourReady s = .next s.endPourStep) ∧
  (∀ (x : Pour) (rest : List Pour) (s : State), s.works → s.cmd.pours = x :: rest → (s.path x.part).dropTags = [] → x.ready = true →
    (∃ n f, x.bound = .phase n f) → ∃ t, exec .pourTimeout s = .next t ∧ t.tab = s.tab ∧ t.reg = s.reg ∧
      t.cmd.pours = rest.filter (fun y => !(y.part == x.part && y.tag == x.tag)) ∧
      ∃ r ∈ (t.path x.part).done, r.tag = x.tag ∧ r.status = St.timeout ∧ r.result = BitVec.ofNat 64 noItem ∧ r.mould = 2)

/-- For commands that may run: TIME_READ answers presented time P in ns. A write of TSU_LATCH with bit 0 set copies P into the
writer's TSU_LAT registers (seconds low and high, nanoseconds within the second, stamp) and the calendar at P into its TSU_CAL
registers, and touches only registers; with bit 0 clear it changes nothing. A read of PHW_TTn_PHASE answers the phase word of
the turntable at P and puts the stamp of P into the reader's PHW_TTn_PSTAMP. TT_PHASE_AT, for an instant at most 1 ms from P,
answers the phase word at the instant and, in bit 32, whether the turntable is TRACKING; for another instant it completes with
BAD_PARAM. TT_NEXT_CROSS completes with NOT_FOUND unless the turntable is TRACKING, and else answers the predicted crossing (a
free value where the spec predicts none, log entry 1). -/
def Obligations.TimeReadsAnswerPresentedTime : Prop :=
  ∀ (p : Part) (d : CmdDesc) (s : State),
    (s.runs p d → Imm p d 0 → exec (.timeRead p d) s = .next (s.answered p d St.ok s.pNs [])) ∧
    (s.mayWrite p 0x20_0020 → ∀ v : W32, bit v 0 = false → exec (.tsuLatch p v) s = .next s) ∧
    (s.mayWrite p 0x20_0020 → ∀ v : W32, bit v 0 = true → ∃ r : RegUnit,
      exec (.tsuLatch p v) s = .next { s with reg := r } ∧ r.pmBuf = s.reg.pmBuf ∧ r.mailbox = s.reg.mailbox ∧ r.wide = s.reg.wide ∧
      State.rgp { s with reg := r } p R.latSecLo = BitVec.ofNat 32 (s.pNs / 1000000000) ∧
      State.rgp { s with reg := r } p R.latSecHi = BitVec.ofNat 32 (s.pNs / 1000000000 / 2 ^ 32 % 2 ^ 16) ∧
      State.rgp { s with reg := r } p R.latNsec = BitVec.ofNat 32 (s.pNs % 1000000000) ∧
      State.rgp { s with reg := r } p R.latStamp = BitVec.ofNat 32 s.pNs ∧
      State.rgp { s with reg := r } p R.calDate = s.calDateNow ∧ State.rgp { s with reg := r } p R.calTime = s.calTimeNow) ∧
    (∀ n : Fin 16, s.mayRead p (R.ttPhase n) → exec (.ttPhaseRead p n) s =
      .next ((s.setRgp p (R.ttPstamp n) (BitVec.ofNat 32 s.pNs)).emit
        (.read p (BitVec.ofNat 32 (R.ttPhase n)) ((s.phaseWord n s.pNs).setWidth 64)))) ∧
    (s.runs p d → Imm p d 16 → d.le 1 7 = 0 → d.b 0 < 16 → s.holds p .tt (d.b 0) = true →
      (s.pNs ≤ d.le 8 8 + 1000000 → d.le 8 8 ≤ s.pNs + 1000000 → exec (.ttPhaseAt p d) s =
        .next (s.answered p d St.ok
          ((s.phaseWord (d.b 0) (d.le 8 8)).toNat + (if s.ttState (d.b 0) = ttTracking then 2 ^ 32 else 0)) [])) ∧
      (d.le 8 8 + 1000000 < s.pNs ∨ s.pNs + 1000000 < d.le 8 8 →
        exec (.ttPhaseAt p d) s = .next (s.answered p d St.badParam 0 []))) ∧
    (s.runs p d → Imm p d 8 → d.le 2 2 = 0 → d.b 0 < 16 → d.b 1 ≤ 1 → d.le 4 4 < 2 ^ 24 → s.holds p .tt (d.b 0) = true →
      (s.ttState (d.b 0) ≠ ttTracking → exec (.ttNextCross p d) s = .next (s.answered p d St.notFound 0 [])) ∧
      (∀ t, s.ttState (d.b 0) = ttTracking → s.nextCross (d.b 0) (d.b 1 == 1) (d.le 4 4) = some t →
        exec (.ttNextCross p d) s = .next (s.answered p d St.ok t [])) ∧
      (s.ttState (d.b 0) = ttTracking → s.nextCross (d.b 0) (d.b 1 == 1) (d.le 4 4) = none →
        exec (.ttNextCross p d) s = .next ({ s with free := s.free + 1 }.answered p d St.ok (Config.freeNat s.free) [])))

/-- For a command that may run, with a sound descriptor, a domain and a form in range: a date, time or nanosecond field that is
impossible completes with BAD_DATE and changes nothing; a domain LOCKED to a source other than free-running completes with
BAD_PARAM and changes nothing; otherwise the domain's time base reads exactly the TAI value given, the configuration stays, and
the command completes with OK. From a host it completes with NO_RIGHT. -/
def Obligations.TimeSetStepsTheDomain : Prop :=
  ∀ (d : CmdDesc) (s : State) (x : Nat), (s.path pm).dropTags = [] → d.b 0 = x → x ≤ 1 → d.b 1 ≤ 1 →
    (if d.b 1 = 1 then d.le 10 4 = 0 else d.b 9 = 0) →
    (∀ p : Part, p ≠ pm → s.runs p d → Imm p d 14 → exec (.timeSet p d) s = .next (s.answered p d St.noRight 0 [])) ∧
    (s.runs pm d → Imm pm d 14 →
      let date : Date := { year := d.le 2 2, month := d.b 4, day := d.b 5 }
      let good := d.b 1 = 1 ∨ (s.possible date (d.b 6) (d.b 7) (d.b 8) = true ∧ d.le 10 4 < 1000000000)
      let tai : Int := if d.b 1 = 1 then d.le 2 8 else s.taiOf date (d.b 6) (d.b 7) (d.b 8) (d.le 10 4)
      (¬ good → exec (.timeSet pm d) s = .next (s.answered pm d St.badDate 0 [])) ∧
      (good → s.domState x = domLocked → s.domSrc x ≠ 3 → exec (.timeSet pm d) s = .next (s.answered pm d St.badParam 0 [])) ∧
      (good → ¬ (s.domState x = domLocked ∧ s.domSrc x ≠ 3) → ∃ t, exec (.timeSet pm d) s = .next t ∧
        (t.dom x).ns = BitVec.ofInt 64 tai ∧ t.dom (1 - x) = s.dom (1 - x) ∧
        t.bt R.tsuStatus 5 = true ∧ t.tab.sameConfig s.tab ∧ t.reg.pmBuf = s.reg.pmBuf ∧
        ∃ r ∈ (t.path pm).done, r.tag = d.ctag ∧ r.status = St.ok))

/-- A year is a leap year exactly when it is divisible by 4 and either not by 100 or by 400, so 2000 and 2400 are and 2100 is not. A
date and time are possible exactly when the year is 1970 to 2553, the month 1 to 12, the day 1 to the month's length in that
year, the hour 0 to 23, the minute 0 to 59, and the second 0 to 59, or 60 at 23:59 of a day that ends in a scheduled insertion. -/
def Obligations.PossibleDatesAreTheCalendars : Prop :=
  (∀ y : Nat, isLeap y = true ↔ 4 ∣ y ∧ (¬ 100 ∣ y ∨ 400 ∣ y)) ∧
  isLeap 2000 = true ∧ isLeap 2400 = true ∧ isLeap 2100 = false ∧
  (∀ y m : Nat, 1 ≤ m → m ≤ 12 → monthDays y m =
    if m = 2 then (if isLeap y = true then 29 else 28) else if m = 4 ∨ m = 6 ∨ m = 9 ∨ m = 11 then 30 else 31) ∧
  (∀ (s : State) (d : Date) (h mi se : Nat), s.possible d h mi se = true ↔
    1970 ≤ d.year ∧ d.year ≤ 2553 ∧ 1 ≤ d.month ∧ d.month ≤ 12 ∧ 1 ≤ d.day ∧ d.day ≤ monthDays d.year d.month ∧
    h ≤ 23 ∧ mi ≤ 59 ∧
    (se ≤ 59 ∨ (se = 60 ∧ h = 23 ∧ mi = 59 ∧ ∃ l ∈ s.leaps, l.insert = true ∧ l.day = (daysOf d : Int))))

/-- A two-digit year yy names 2000 + yy when yy is at least TSU_PIVOT.pivot and 2100 + yy otherwise: pivot 0 maps 0 to 99 to 2000 to
2099, and pivot 30 maps to 2030 to 2129. -/
def Obligations.TwoDigitYearsAreWindowed : Prop :=
  ∀ (s : State) (yy : Nat), yy ≤ 99 →
    s.windowYear yy = (if s.fd R.pivot 6 0 ≤ yy then 2000 + yy else 2100 + yy) ∧
    (s.fd R.pivot 6 0 = 0 → 2000 ≤ s.windowYear yy ∧ s.windowYear yy ≤ 2099) ∧
    (s.fd R.pivot 6 0 = 30 → 2030 ≤ s.windowYear yy ∧ s.windowYear yy ≤ 2129)

/-- For commands that may run, and a node in the registry whose port the issuer holds and is not retired: NODE_HOLD sets its held
bit with cause 4 and its hold time; NODE_RELEASE of a held node clears its held bit, cause and hold time, and of a node that is
not held answers OK_ALREADY and changes nothing; a node that is absent gives NOT_FOUND. NODE_HOLD_EXPIRE on a held node with a
hold time releases it; on a node held without a time, on one that is not held and on an absent one it changes nothing. Every
other node and the routes, keys, windows and grants stay. -/
def Obligations.NodeCommandsHoldAndReleaseTalkers : Prop :=
  (∀ (p : Part) (d : CmdDesc) (s : State), s.runs p d → (s.path p).dropTags = [] → s.holds p .port (d.b 0) = true → s.retired (d.b 0) = false →
    (Imm p d 10 → s.node (cmdNkey d) = none → exec (.nodeHold p d) s = .next (s.answered p d St.notFound 0 [])) ∧
    (Imm p d 8 → s.node (cmdNkey d) = none → exec (.nodeRelease p d) s = .next (s.answered p d St.notFound 0 [])) ∧
    (∀ i e, s.node (cmdNkey d) = some (i, e) →
      (Imm p d 10 → ∃ t e', exec (.nodeHold p d) s = .next t ∧ t.nodeAt i = some e' ∧ ndHeld e' = true ∧ imgLe e' 23 1 = 9 ∧
        imgLe e' 24 2 = d.le 8 2 ∧ t.reg = s.reg ∧ (∀ j, j ≠ i → t.nodeAt j = s.nodeAt j) ∧ t.tab.sameConfig s.tab) ∧
      (Imm p d 8 → ndHeld e = true → ∃ t e', exec (.nodeRelease p d) s = .next t ∧ t.nodeAt i = some e' ∧ ndHeld e' = false ∧
        imgLe e' 23 1 = 0 ∧ imgLe e' 24 2 = 0 ∧ (∀ j, j ≠ i → t.nodeAt j = s.nodeAt j) ∧ t.tab.sameConfig s.tab) ∧
      (Imm p d 8 → ndHeld e = false → exec (.nodeRelease p d) s = .next (s.answered p d St.okAlready 0 [])))) ∧
  (∀ (i : Fin 262144) (s : State), s.works →
    (s.nodeAt i.val = none → exec (.nodeHoldExpire i) s = .next s) ∧
    (∀ e, s.nodeAt i.val = some e → (ndHeld e = false ∨ imgLe e 24 2 = 0) → exec (.nodeHoldExpire i) s = .next s) ∧
    (∀ e, s.nodeAt i.val = some e → ndHeld e = true → imgLe e 24 2 ≠ 0 → ∃ t e', exec (.nodeHoldExpire i) s = .next t ∧
      t.nodeAt i.val = some e' ∧ ndHeld e' = false ∧ imgLe e' 23 1 = 0 ∧ imgLe e' 24 2 = 0 ∧
      (∀ j, j ≠ i.val → t.nodeAt j = s.nodeAt j) ∧ t.tab.sameConfig s.tab ∧ t.cmd = s.cmd ∧ t.live.saState = s.live.saState))

/-- For a command that may run and does not wait for the slices yet, with a sound indirect descriptor, an output buffer and a key
slot that the issuer holds: a slot that is not of type 5 gives BAD_PARAM; text outside 16 to 65,536 bytes or no multiple of 16
gives LENGTH_LIMIT under ECB and CBC, and under CTR text outside 1 to 65,536 bytes does; otherwise the command waits for the
slices as requester 34, in bursts of four 64-byte cells, with OK and the text that ECB, CBC, CTR or GCM gives (for GCM followed
by the tag), and nothing else changes. The row of a command that waits there already changes nothing. -/
def Obligations.RawCipherFollowsItsMode : Prop :=
  ∀ (p : Part) (d : CmdDesc) (s : State), s.runs p d → Sound p d → d.mouldFlag = false → 24 ≤ d.len → d.indirect = true → d.outPtr ≠ 0 →
    (s.inCrypto p d.ctag = true → exec (.rawCipher p d) s = .next s) ∧
    (s.inCrypto p d.ctag = false → d.le 0 2 < Kind.key.size → s.holds p .key (d.le 0 2) = true →
    (ksType (s.keySlot (d.le 0 2)) ≠ 5 → exec (.rawCipher p d) s = .next (s.answered p d St.badParam 0 [])) ∧
    (let k := s.keySlot (d.le 0 2)
     let ks := roundKeys (ksAes k)
     let enc := d.b 3 == 0
     let iv := natsOf (slice d.params 4 16)
     let data := natsOf (d.params.drop 24)
     let n := data.length
     let waits (out : List Byte) : State := { s with cry.work := s.cry.work ++ [rawWork p d 0 out (d.len - 24)] }
     ksType k = 5 → d.b 3 ≤ 1 →
      (d.b 2 ≤ 1 → d.le 20 4 = 0 → n < 16 ∨ 65536 < n ∨ n % 16 ≠ 0 →
        exec (.rawCipher p d) s = .next (s.answered p d St.lengthLimit 0 [])) ∧
      (d.b 2 = 2 → d.le 20 4 = 0 → n < 1 ∨ 65536 < n →
        exec (.rawCipher p d) s = .next (s.answered p d St.lengthLimit 0 [])) ∧
      (∀ out, 16 ≤ n → n ≤ 65536 → n % 16 = 0 → d.le 20 4 = 0 → out.length ≤ d.outLen.toNat →
        (d.b 2 = 0 ∧ out = bytesOf (ecb ks enc data)) ∨ (d.b 2 = 1 ∧ out = bytesOf (cbc ks enc iv (chunks 16 (n / 16) data))) →
        exec (.rawCipher p d) s = .next (waits out)) ∧
      (∀ out, 1 ≤ n → n ≤ 65536 → d.b 2 = 2 → d.le 20 4 = 0 → out = bytesOf (ctr ks 128 (blockNat iv) (blocks data)) →
        out.length ≤ d.outLen.toNat → exec (.rawCipher p d) s = .next (waits out)) ∧
      (∀ out, n ≤ 65536 → d.b 2 = 3 → d.le 20 4 ≤ n →
        out = bytesOf ((gcm (ksAes k) enc (iv.take 12) (data.take (d.le 20 4)) (data.drop (d.le 20 4))).1 ++
          (gcm (ksAes k) enc (iv.take 12) (data.take (d.le 20 4)) (data.drop (d.le 20 4))).2) →
        out.length ≤ d.outLen.toNat → exec (.rawCipher p d) s = .next (waits out))))

/-- For commands that may run: with a sound indirect descriptor and a key slot of type 5 that the issuer holds, with a tag of 4 to
16 bytes and at most 65,536 bytes of data, RAW_CMAC waits for the slices, once, with the leading tag bytes of AES-CMAC as
output, or with verify = 1 with the answer 1 where the tag given equals them and 0 where it does not; outside these limits it
completes with LENGTH_LIMIT. CRY_RANDOM for 1 to 4,096 bytes answers that many bytes, each a free value (log entry 1), and
RESOURCE_GONE once the entropy source is retired. Nothing else changes. -/
def Obligations.RawCmacGeneratesAndVerifies : Prop :=
  ∀ (p : Part) (d : CmdDesc) (s : State), s.runs p d → Sound p d → d.mouldFlag = false → d.indirect = true →
    (s.inCrypto p d.ctag = false → 20 ≤ d.len → d.le 0 2 < Kind.key.size → s.holds p .key (d.le 0 2) = true → ksType (s.keySlot (d.le 0 2)) = 5 →
      (d.b 2 = 0 → d.outPtr ≠ 0) →
      let waits (v : Nat) (out : List Byte) : State := { s with cry.work := s.cry.work ++ [rawWork p d v out (d.len - 20)] }
      let tag := (bytesOf (cmac (ksAes (s.keySlot (d.le 0 2))) (natsOf (d.params.drop 20)))).take (d.b 3)
      (d.b 2 ≤ 1 → d.b 3 < 4 ∨ 16 < d.b 3 ∨ 65536 < d.len - 20 → exec (.rawCmac p d) s = .next (s.answered p d St.lengthLimit 0 [])) ∧
      (d.b 2 = 0 → 4 ≤ d.b 3 → d.b 3 ≤ 16 → d.len ≤ 65556 → tag.length ≤ d.outLen.toNat →
        exec (.rawCmac p d) s = .next (waits 0 tag)) ∧
      (d.b 2 = 1 → 4 ≤ d.b 3 → d.b 3 ≤ 16 → d.len ≤ 65556 →
        exec (.rawCmac p d) s = .next (waits (if tag = (slice d.params 4 16).take (d.b 3) then 1 else 0) []))) ∧
    (d.len = 4 → d.outPtr ≠ 0 → 1 ≤ d.le 0 4 → d.le 0 4 ≤ 4096 →
      (s.entropyGone = true → exec (.cryRandom p d) s = .next (s.answered p d St.resourceGone 0 [])) ∧
      (s.entropyGone = false → d.le 0 4 ≤ d.outLen.toNat → exec (.cryRandom p d) s =
        .next ({ s with free := s.free + d.le 0 4 }.answered p d St.ok 0
          ((List.range (d.le 0 4)).map (fun i => Config.freeByte (s.free + i))))))

/-- PK_VERIFY, PK_ECDH and PK_KEYGEN that may run and do not wait for the engine yet, with a sound descriptor of the right size,
join the end of the engine's queue and change nothing else but a free draw: the queued operation carries the status and result
of R240 (INVALID_POINT before INVALID_SCALAR; an invalid signature with valid inputs is OK with result 0), its nominal time of
R239, and for a key pair the slot that takes it. A slot that is not of type 6 or of the other curve gives BAD_PARAM at once. -/
def Obligations.PublicKeyCommandsQueueForTheEngine : Prop :=
  ∀ (p : Part) (d : CmdDesc) (s : State), s.runs p d → s.inCrypto p d.ctag = false → Sound p d → d.mouldFlag = false → d.b 0 ≤ 1 →
    (let c := curveOf (d.b 0 == 1)
     let q := ptAt c d 68
     let rv := ptAt c d (68 + 2 * c.bytes)
     let a : PkAns :=
       if ¬ c.on q.1 q.2 then { status := St.invalidPoint }
       else if c.badScalar rv.1 ∨ c.badScalar rv.2 then { status := St.invalidScalar }
       else { result := if c.verify (beAt d.params 4 c.bytes) q.1 q.2 rv.1 rv.2 then 1 else 0 }
     d.len = (if d.b 0 = 1 then 260 else 196) → d.le 1 3 = 0 →
      exec (.pkVerify p d) s = .next (s.queuePk p d a (if d.b 0 = 1 then 420 else 180) none)) ∧
    (d.b 1 = 0 → d.indirect = true → d.outPtr ≠ 0 → d.le 2 2 < 2048 → s.holds p .key (d.le 2 2) = true →
      let k := s.keySlot (d.le 2 2)
      let right := ksType k = 6 ∧ ksP384 k = (d.b 0 == 1)
      (d.len = (if d.b 0 = 1 then 100 else 68) →
        (¬ right → exec (.pkEcdh p d) s = .next (s.answered p d St.badParam 0 [])) ∧
        (right → (curveOf (d.b 0 == 1)).bytes ≤ d.outLen.toNat →
          exec (.pkEcdh p d) s = .next (s.queuePk p d (pkEcdhAns k d) (if d.b 0 = 1 then 350 else 150) none))) ∧
      (d.len = 4 →
        (¬ right → exec (.pkKeygen p d) s = .next (s.answered p d St.badParam 0 [])) ∧
        (right → 2 * (curveOf (d.b 0 == 1)).bytes ≤ d.outLen.toNat →
          (s.entropyGone = true → exec (.pkKeygen p d) s =
            .next (s.queuePk p d { status := St.resourceGone } (if d.b 0 = 1 then 350 else 150) none)) ∧
          (s.entropyGone = false → ∃ x : Nat, 1 ≤ x ∧ x < (curveOf (d.b 0 == 1)).n ∧ exec (.pkKeygen p d) s =
            .next ({ s with free := s.free + 1 }.queuePk p d { out := pkPublic (curveOf (d.b 0 == 1)) x }
              (if d.b 0 = 1 then 350 else 150) (some (d.le 2 2, imgOf 384 ((curveOf (d.b 0 == 1)).coord x))))))))

/-- PK_ENGINE_DONE takes the operation at the head of the engine's queue, and its command completes with the operation's status,
result and output; a generated key pair then waits for its issuer's next pour in the named slot, unless the entropy source has
been retired meanwhile: then the command answers RESOURCE_GONE without output and no key pair is kept. With an empty queue
nothing changes. -/
def Obligations.PublicKeyEngineAnswersInOrder : Prop :=
  ∀ s : State, s.works →
    (s.cry.pkQ = [] → exec .pkEngineDone s = .next s) ∧
    (∀ o r, s.cry.pkQ = o :: r → (s.path o.part).dropTags = [] → ∃ t, exec .pkEngineDone s = .next t ∧ t.cry.pkQ = r ∧
      t.tab = s.tab ∧ t.reg = s.reg ∧ (t.path o.part).fetched = (s.path o.part).fetched.filter (fun f => f.desc.tag.setWidth 12 != o.tag) ∧
      (let gone := o.store.isSome && s.entropyGone
       (∃ y, (t.path o.part).done = (s.path o.part).done ++ [y] ∧ y.tag = o.tag ∧ y.result = o.result ∧ y.irq = o.irq ∧ y.outAt = o.outAt ∧
         y.status = (if gone = true then St.resourceGone else o.status) ∧ y.out = (if gone = true then [] else o.out)) ∧
       (o.store = none ∨ gone = true → t.live = s.live) ∧
       (∀ k m, o.store = some (k, m) → gone = false → (k, (o.part, m)) ∈ t.live.keyStaged)))

/-- For a host whose doorbell is taken, in RUN and not frozen: a tail below the ring's size, with the ring enabled, is stored in
CMD_SQ_TAIL and nothing else in the state changes; a value of 2^k or more, or any value while en = 0, is not stored and event
0x0101 is reported. Bits above 11 of the value are dropped (log entry 40). A doorbell of a frozen partition changes nothing. -/
def Obligations.DoorbellSetsTheTail : Prop :=
  ∀ (h : HostPort) (v : W32) (s : State), s.linked h.part = true → s.unreachable = false → s.bootDone = true →
    (s.frozen h.part = true → exec (.doorbell h v) s = .next s) ∧
    (s.frozen h.part = false → s.pwr = pwRun →
      (s.bt (copyKey h.part R.cmdCtl) 0 = true → fld v 11 0 < s.sqSize h.part →
        exec (.doorbell h v) s = .next (s.setRgp h.part R.sqTail (BitVec.ofNat 32 (fld v 11 0)))) ∧
      (s.bt (copyKey h.part R.cmdCtl) 0 = false ∨ s.sqSize h.part ≤ fld v 11 0 →
        exec (.doorbell h v) s = .next (s.report 0x0101 kInfo h.part.val 0xFF (fld v 11 0))))

/-- For a partition that may fetch, a host's SQ entry lying in its windows: a descriptor whose tag is busy is not taken, and
fetching waits at it; another joins the end of the partition's fetched commands unstarted (marked where a doorbell or PUSH
latched in a sleep announced it), its tag is busy, and CMD_SQ_HEAD moves to the next entry. A descriptor is read field by field
from its 32 little-endian bytes, and its parameters from the inline bytes or from the buffer at in_ptr; PM's stands at the head
of its ring on chip. -/
def Obligations.FetchTakesTheDescriptorInOrder : Prop :=
  ∀ (p : Part) (raw buf : List Byte) (s : State), s.serves → s.fetches p = true →
    (p ≠ pm → (s.grant p).covers (s.sqAddr p) 32 = true) → s.sqSize p ≤ 4096 →
    let d := s.nextDesc p raw buf
    (p ≠ pm → d = parseDesc raw buf) ∧
    (p = pm → ∀ x l, (s.path pm).sq = x :: l → d = parseDesc x (s.pmParams x)) ∧
    (let e := parseDesc raw buf
     e.opcode = BitVec.ofNat 16 (leAt raw 0 2) ∧ e.flags = byteAt raw 2 ∧ e.tag = BitVec.ofNat 16 (leAt raw 4 2) ∧
      e.plen = BitVec.ofNat 16 (leAt raw 6 2) ∧
      (e.indirect = true → e.inPtr = BitVec.ofNat 64 (leAt raw 8 8) ∧ e.outPtr = BitVec.ofNat 64 (leAt raw 16 8) ∧
        e.outLen = BitVec.ofNat 32 (leAt raw 24 4) ∧ e.rsv = BitVec.ofNat 32 (leAt raw 28 4) ∧ e.params = slice buf 0 (leAt raw 6 2)) ∧
      (e.indirect = false → e.params = slice raw 8 (min (leAt raw 6 2) 24))) ∧
    (d.ctag ∈ (s.path p).busy → exec (.commandFetch p raw buf) s = .next (s.setPath p { s.path p with waitTag := some d.ctag })) ∧
    (d.ctag ∉ (s.path p).busy → ∃ t f, exec (.commandFetch p raw buf) s = .next t ∧
      (t.path p).fetched = (s.path p).fetched ++ [f] ∧ f.desc = d ∧ f.started = false ∧ f.olds = [] ∧
      f.latched = ((s.path p).coverSkip == 0 && (s.path p).cover != 0) ∧
      (t.path p).busy = (s.path p).busy ++ [d.ctag] ∧ (t.path p).done = (s.path p).done ∧ (t.path p).ready = (s.path p).ready ∧
      t.sqHead p = (s.sqHead p + 1) % s.sqSize p ∧ t.sqTail p = s.sqTail p ∧ t.tab = s.tab ∧ t.live = s.live ∧
      t.cmd.moulds = s.cmd.moulds ∧ t.out = s.out ∧ (t.path p).sq = (s.path p).sq.tail ∧ (∀ q, q ≠ p → t.path q = s.path q))

/-- DISPATCH_GRANT first ends the step in which an entry of a pour's shadow tables was written. While another step has not ended, or
where no partition has a startable command or a pour with words to write, nothing more changes. Otherwise the arbiter picks a
partition among those that have: one whose pour has words to write writes the next entry of its shadow tables, charged one
credit for each word; else its oldest startable command has the box: one of an undefined opcode completes with BAD_OPCODE, one
with a buffer outside the windows is a violation of cause 3 and does not start, and any other starts, its entry alone being
marked, a staging command holding the box until it completes. The startable command is the partition's oldest that has not
started, and none is startable behind a running fenced command, nor a fenced one behind any running command. -/
def Obligations.DispatcherStartsACommand : Prop :=
  (∀ s : State, s.serves → s.endPourStep.cmd.box ≠ none → exec .dispatchGrant s = .next s.endPourStep) ∧
  (∀ s : State, s.serves → (∀ p : Part, s.endPourStep.waits p = false) → exec .dispatchGrant s = .next s.endPourStep) ∧
  (∀ (s : State) (i : Fin 5), s.serves → let u := s.endPourStep
    u.cmd.box = none → u.pick .dispatcher ((List.range 5).filter (fun i => u.waits (Fin.ofNat 5 i))) = some i.val →
    (∀ x n, u.pourWords = some (x, n) → x.part = i → exec .dispatchGrant s =
      .next { u.granted .dispatcher i.val n with cmd.box := some { part := i, tag := x.tag, words := n, pour := true } }) ∧
    ((∀ x n, u.pourWords = some (x, n) → x.part ≠ i) → ∀ f, u.startable i = some f →
      let w := u.creditsOf i f.desc
      let g := u.granted .dispatcher i.val w
      (opcodeDefined f.desc = false → exec .dispatchGrant s = .next (g.answered i f.desc St.badOpcode 0 [])) ∧
      (∀ a, opcodeDefined f.desc = true → u.badBuffer i f.desc = some a → exec .dispatchGrant s = .next (g.violate i 3 (a % 2 ^ 32))) ∧
      (opcodeDefined f.desc = true → u.badBuffer i f.desc = none → exec .dispatchGrant s =
        .next { g.setPath i { u.path i with
          fetched := (u.path i).fetched.map (fun k => if k.desc.ctag = f.desc.ctag then { k with started := true } else k) } with
          cmd.box := if (stagingOf f.desc).isSome = true then some { part := i, tag := f.desc.ctag, words := w } else none }))) ∧
  (∀ (s : State) (p : Part) (f : Fetched), s.startable p = some f →
    f.started = false ∧ f ∈ (s.path p).fetched ∧
    (∀ g ∈ (s.path p).fetched.takeWhile (·.started), g.fenced = false ∧ f.fenced = false) ∧
    (∃ a b, (s.path p).fetched = a ++ f :: b ∧ ∀ g ∈ a, g.started = true))

/-- REPLY_RELEASE of a completed command of a host with DMA running, room in its CQ and no output: the reply joins the released ones
with the epoch of its POUR or else the epoch in force, its tag is free, and the mould of a POUR is closed or unsealed.
CQ_REPLY_WRITE then writes the oldest released reply: its 16 bytes go to the CQ entry at the tail, with the phase bit in bit 15
of the tag field, its MSI-X message follows where irq = 1, and the tail moves on, the phase flipping when it wraps to 0. With a
full CQ nothing is written. -/
def Obligations.RepliesAreReleasedAndWritten : Prop :=
  ∀ (p : Part) (s : State), s.serves → p ≠ pm → s.blocked p = false → s.cqSize p ≤ 4096 →
    (∀ tag, (∀ r ∈ (s.path p).done, r.tag ≠ tag) → exec (.replyRelease p tag) s = .next s) ∧
    (∀ tag r, (s.path p).done.find? (fun x => x.tag == tag) = some r → r.out = [] → (s.path p).ready.length < s.cqRoom p →
      ∃ t, exec (.replyRelease p tag) s = .next t ∧
        (t.path p).done = (s.path p).done.filter (fun x => x.tag != tag) ∧ (t.path p).busy = (s.path p).busy.erase tag ∧
        (t.path p).ready = (s.path p).ready ++ [{ r with
          epoch := (match r.epochOf with | some e => e | none => s.epoch.setWidth 32), keeps := false }] ∧
        (r.mould = 1 → t.mould p = none) ∧ (∀ m, r.mould = 2 → s.mould p = some m → t.mould p = some { m with sealed := false }) ∧
        (r.mould = 0 → t.cmd.moulds = s.cmd.moulds) ∧ t.tab = s.tab ∧ t.reg = s.reg ∧ t.out = s.out) ∧
    (s.cqRoom p = 0 → exec (.cqReplyWrite p) s = .next s) ∧
    (∀ r l, (s.path p).ready = r :: l → r.out = [] → s.cqRoom p ≠ 0 → (s.grant p).covers (s.cqAddr p) 16 = true →
      ∃ t, exec (.cqReplyWrite p) s = .next t ∧ (t.path p).ready = l ∧
        t.cqTail p = (s.cqTail p + 1) % s.cqSize p ∧
        t.bt (copyKey p R.cqTail) 31 = (s.bt (copyKey p R.cqTail) 31 != ((s.cqTail p + 1) % s.cqSize p == 0)) ∧
        t.cqHead p = s.cqHead p ∧ t.tab = s.tab ∧ t.cmd.moulds = s.cmd.moulds ∧
        t.out = s.out ++ [.dma p (BitVec.ofNat 64 (s.cqAddr p))
          (leBytes 2 (r.tag.toNat + (if s.bt (copyKey p R.cqTail) 31 then 2 ^ 15 else 0)) ++ [r.status, 0] ++
            imgBytes r.epoch ++ imgBytes r.result)] ++
          (if r.irq then [.msix p (BitVec.ofNat 6 (s.fd (copyKey p R.cmdCtl) 7 2))] else []))

/-- For a host that may write: a write of CMD_CQ_HEAD that moves the head forward over replies already written stores it and changes
nothing else; any other write, one of 2^k or more, or one while en = 0 keeps the head and reports event 0x0105. A write of
CMD_CTL that changes en from 0 to 1 sets the four pointers to 0 and the expected phase to 1; one with en = 1 while en is 1
changes only CMD_CTL; one with en = 0 stops fetching. -/
def Obligations.RingRegistersAreGuarded : Prop :=
  ∀ (h : HostPort) (v : W32) (s : State),
    (s.mayWrite h.part R.cqHead →
      let n := s.cqSize h.part
      let x := fld v 11 0
      let good := s.bt (copyKey h.part R.cmdCtl) 0 = true ∧ x < n ∧
        (x + n - s.cqHead h.part) % n ≤ (s.cqTail h.part + n - s.cqHead h.part) % n
      (good → exec (.cqHeadWrite h v) s = .next (s.setRgp h.part R.cqHead (BitVec.ofNat 32 x))) ∧
      (¬ good → exec (.cqHeadWrite h v) s = .next (s.report 0x0105 kInfo h.part.val 0xFF x))) ∧
    (s.mayWrite h.part R.cmdCtl → ∃ t, exec (.cmdCtlWrite h v) s = .next t ∧ t.rgp h.part R.cmdCtl = v &&& 0xFD ∧
      t.tab = s.tab ∧ t.cmd.moulds = s.cmd.moulds ∧ (t.path h.part).fetched = (s.path h.part).fetched ∧
      (t.path h.part).done = (s.path h.part).done ∧ (t.path h.part).ready = (s.path h.part).ready ∧
      (bit v 0 = true → s.bt (copyKey h.part R.cmdCtl) 0 = false →
        t.sqHead h.part = 0 ∧ t.sqTail h.part = 0 ∧ t.cqHead h.part = 0 ∧ t.cqTail h.part = 0 ∧ t.cqPhase h.part = true ∧ (t.path h.part).waitTag = none) ∧
      (bit v 0 = true → s.bt (copyKey h.part R.cmdCtl) 0 = true → t = s.setRgp h.part R.cmdCtl (v &&& 0xFD)) ∧
      (bit v 0 = false → t.sqTail h.part = s.sqTail h.part ∧ t.sqHead h.part = s.sqHead h.part ∧ t.fetches h.part = false))

/-- For a host port whose block works, and whose windows cover the writebacks of its queues: HOST_LINK_DOWN of a live link marks it
down and reports event 0x0605, the partition staying as it is (not frozen); HOST_LINK_UP of a dead link marks it up; each of the
two changes nothing on a link that is so already. HOST_LINK_TIMEOUT of a dead link, and a function-level reset over a live one,
clear frozen, put every ring register of the partition at its reset value (en = 0), every semaphore at 1 and every slot at FREE,
discard the held replies and the fetched commands that have not started, so that the started ones alone keep their tags busy and
lose their replies, and discard an unsealed mould, the configuration staying; HOST_LINK_TIMEOUT of a live link changes nothing. -/
def Obligations.HostLinksComeAndGo : Prop :=
  ∀ (h : HostPort) (s : State), s.ringsCovered h.part →
    (s.works → s.linked h.part = true →
      exec (.hostLinkDown h) s = .next ((s.setLink h false).report 0x0605 kTransient 0xFF 0xFF h.val) ∧
      (s.setLink h false).linked h.part = false) ∧
    (s.works → s.linked h.part = false → exec (.hostLinkDown h) s = .next s) ∧
    (∀ w, s.works → s.linked h.part = true → exec (.hostLinkUp h w) s = .next s) ∧
    (∀ w, s.works → s.linked h.part = false → ∃ t, exec (.hostLinkUp h w) s = .next t ∧ t.linked h.part = true ∧ t.tab = s.tab ∧
      (t.path h.part).ready = (s.path h.part).ready ∧ t.cmd.moulds = s.cmd.moulds ∧ s.out <+: t.out) ∧
    (s.works → s.linked h.part = true → exec (.hostLinkTimeout h) s = .next s) ∧
    ((s.works ∧ s.linked h.part = false) ∨ (s.bootDone = true ∧ s.linked h.part = true ∧ s.dozing = false) →
      s.cmd.remoteWait = [] → (∀ k, k < 8 → (s.slot h.part k).cmd = none) →
      ∃ t, (if s.linked h.part = true then exec (.functionLevelReset h) s else exec (.hostLinkTimeout h) s) = .next t ∧
        t.frozen h.part = false ∧ (∀ off ∈ ringRegs, t.rgp h.part off = regReset s.logger off) ∧ t.tab.sameConfig s.tab ∧
        (∀ n, n < 64 → t.rgp h.part (R.sem n) = 1) ∧ (∀ k, k < 8 → (t.slot h.part k).state = 0) ∧
        (t.path h.part).done = [] ∧ (t.path h.part).ready = [] ∧
        (t.path h.part).fetched = (s.path h.part).fetched.filter (·.started) ∧
        (t.path h.part).busy = ((s.path h.part).fetched.filter (·.started)).map (·.desc.ctag) ∧
        (t.path h.part).dropTags = ((s.path h.part).fetched.filter (·.started)).map (·.desc.ctag) ∧
        ((∀ m, s.mould h.part = some m → m.sealed = false) → t.mould h.part = none))

/-- A host that is not frozen is frozen with the cause code and the offending address or opcode by: a read or a write of a register
that its view does not give it (cause 1; the read answers 0, the write has no other effect), a command whose target lies outside
its grants and was not revoked under it (cause 2, shown for CAP_DISCARD; the command completes with NO_RIGHT; a command whose
target a pour revoked under it only completes with NO_RIGHT), and an SQ entry outside its windows (cause 3). A second violation
while frozen is reported and freezes nothing anew. PM is never frozen: its violation is only reported. -/
def Obligations.ViolationsFreezeTheHost : Prop :=
  ∀ (p : Part) (s : State), p ≠ pm → s.frozen p = false →
    (∀ addr : W32, s.takes p → addr.toNat % 4 = 0 → s.readReach p p addr.toNat = .violation → mailboxShape addr.toNat 4 = false →
      registerShape addr.toNat 4 = true →
      ∃ t, exec (.registerRead p addr false) s = .next (t.emit (.read p addr 0)) ∧ Froze s t p 1 addr.toNat) ∧
    (∀ (addr : W32) (v : W64), s.takes p → s.writeReach p p addr.toNat = .violation → mailboxShape addr.toNat 4 = false →
      registerShape addr.toNat 4 = true →
      ∃ t, exec (.registerWrite p addr v false) s = .next t ∧ Froze s t p 1 addr.toNat) ∧
    (∀ d, s.runs p d → Imm p d 1 → d.b 0 < 64 → s.holds p .capq (d.b 0) = false →
      (∀ f, s.fetchedOf p d.ctag = some f → ∀ g ∈ f.olds, Grant.holds g .capq (d.b 0) = false) →
      ∃ t, exec (.capDiscard p d) s = .next t ∧
        Froze (s.answered p d St.noRight 0 []) t p 2 (d.opcode.toNat + d.ctag.toNat * 2 ^ 16)) ∧
    (∀ d f g, s.runs p d → Imm p d 1 → d.b 0 < 64 → s.holds p .capq (d.b 0) = false → s.fetchedOf p d.ctag = some f → g ∈ f.olds →
      Grant.holds g .capq (d.b 0) = true → exec (.capDiscard p d) s = .next (s.answered p d St.noRight 0 [])) ∧
    (∀ raw buf, s.serves → s.fetches p = true → (s.grant p).covers (s.sqAddr p) 32 = false →
      ∃ t, exec (.commandFetch p raw buf) s = .next t ∧ Froze s t p 3 (s.sqAddr p % 2 ^ 32)) ∧
    (∀ u : State, u.frozen p = true → ∀ c w, u.violate p c w = u.report 0x0D03 kViolation p.val 0xFF (w % 2 ^ 32)) ∧
    (∀ u : State, ∀ c w, u.violate pm c w = u.report 0x0D04 kInfo 4 0xFF (w % 2 ^ 32))

/-- For a command that may run, from PM with a sound descriptor: PART_FREEZE of a host that is not frozen freezes it with cause 5
and completes with OK, and of a frozen host is reported and completes with OK; PART_THAW of a frozen host whose windows cover
the writebacks of its queues releases every held reply, clears frozen, keeps the tail and head of its SQ and completes with OK;
the released replies stand in the order of their release, and while the link is up, the CQ lies in the windows and has room for
all of them, and none has output left to write, all of them are written to the CQ, whose tail moves past them. PART_THAW of a
host that is not frozen answers OK_ALREADY; both answer BAD_PARAM for a partition above 3. From a host both complete with
NO_RIGHT. The configuration in force stays. -/
def Obligations.PartitionsAreFrozenAndThawed : Prop :=
  ∀ (d : CmdDesc) (s : State), (s.path pm).dropTags = [] →
    (∀ p, p ≠ pm → s.runs p d → Imm p d 1 → exec (.partFreeze p d) s = .next (s.answered p d St.noRight 0 []) ∧
      exec (.partThaw p d) s = .next (s.answered p d St.noRight 0 [])) ∧
    (s.runs pm d → Imm pm d 1 → 3 < d.b 0 → exec (.partFreeze pm d) s = .next (s.answered pm d St.badParam 0 []) ∧
      exec (.partThaw pm d) s = .next (s.answered pm d St.badParam 0 [])) ∧
    (∀ p : Part, s.runs pm d → Imm pm d 1 → p ≠ pm → d.b 0 = p.val →
      (s.frozen p = false → (∃ t, exec (.partFreeze pm d) s = .next (t.answered pm d St.ok 0 []) ∧ Froze s t p 5 0) ∧
        exec (.partThaw pm d) s = .next (s.answered pm d St.okAlready 0 [])) ∧
      (s.frozen p = true → exec (.partFreeze pm d) s = .next ((s.report 0x0D03 kViolation p.val 0xFF 0).answered pm d St.ok 0 [])) ∧
      (s.frozen p = true → s.ringsCovered p →
        let all := (s.path p).ready.map (·.tag) ++ (s.path p).done.map (·.tag)
        ∃ t, exec (.partThaw pm d) s = .next t ∧ t.frozen p = false ∧ (t.path p).done = [] ∧
        (t.path p).ready.map (·.tag) <:+ all ∧ (s.linked p = false → (t.path p).ready.map (·.tag) = all) ∧
        (s.linked p = true → s.cqTail p < s.cqSize p → s.cqHead p < s.cqSize p → s.cqSize p ≤ 4096 →
          (s.grant p).covers ((s.rgp p R.cqBaseLo).toNat + (s.rgp p R.cqBaseHi).toNat * 2 ^ 32) (16 * s.cqSize p) = true →
          (∀ r ∈ (s.path p).ready ++ (s.path p).done, r.out = []) → all.length ≤ s.cqRoom p →
          (t.path p).ready = [] ∧ t.cqTail p = (s.cqTail p + all.length) % s.cqSize p) ∧
        t.sqTail p = s.sqTail p ∧ t.sqHead p = s.sqHead p ∧ t.tab = s.tab ∧ t.live = s.live ∧ s.out <+: t.out ∧
        ∃ r ∈ (t.path pm).done, r.tag = d.ctag ∧ r.status = St.ok))

/-- For commands that may run, with sound descriptors and room for the output: ERR_READ answers the entries from the first index on,
wrapping at 4,096, an entry of another partition masked (an index that nothing wrote reads as zeros, log entry 22);
DIAG_SNAPSHOT answers the values of the registers of the named blocks that the issuer may read while CHK runs in multi mode, in
an order left free (log entry 1), and leaves multi mode as it was; SELF_TEST from PM answers a free result, BAD_PARAM for a
memory channel that the variant lacks (unit code 2, log entry 1), and from a host NO_RIGHT, CHK channels 1 to 7 having started
at their reset values unless they existed; CAP_DISCARD of a held queue (the frame of a record in progress being charged to the
capture reserve or still held by egress, R99) removes every word not yet issued or popped, answers how many records lost a word,
adds them to CAP_Qn_LOST, and leaves a closing word where the record at the head has lost words to its reader. -/
def Obligations.LogAndCaptureCommands : Prop :=
  ∀ (p : Part) (d : CmdDesc) (s : State), s.runs p d → Sound p d → d.mouldFlag = false →
    (d.len = 4 → d.indirect = true → d.outPtr ≠ 0 → d.le 0 2 < 4096 → 1 ≤ d.le 2 2 → d.le 2 2 ≤ 128 →
      ((List.range (d.le 2 2)).flatMap (fun k => s.entryBytes p ((d.le 0 2 + k) % 4096))).length ≤ d.outLen.toNat →
      exec (.errRead p d) s = .next (s.answered p d St.ok 0
        ((List.range (d.le 2 2)).flatMap (fun k => match s.err.log.find? (fun x => x.1 == (d.le 0 2 + k) % 4096) with
          | some x => (if p = pm ∨ x.2.part.toNat = p.val ∨ x.2.part = 0xFF then x.2
              else { x.2 with code := 0, unit := 0, detail := 0 }).bytes
          | none => List.replicate 32 0)))) ∧
    (d.len = 2 → d.indirect = true → d.outPtr ≠ 0 → d.le 0 2 < 2 ^ 14 →
      let offs := ((List.range 14).filter (fun b => (d.le 0 2).testBit b)).flatMap (fun b => s.chkEnter.blockRegs p b)
      4 * offs.length ≤ d.outLen.toNat → ∃ l : List W32, l.Perm (offs.map (fun off => s.chkEnter.regValue p p off)) ∧
        exec (.diagSnapshot p d) s =
          .next ((s.chkEnter.setBt R.chkMode 0 (s.bt R.chkMode 0)).answered p d St.ok 0 (l.flatMap imgBytes))) ∧
    (d.len = 2 → p ≠ pm → exec (.selfTest p d) s = .next (s.answered p d St.noRight 0 [])) ∧
    (d.len = 2 → p = pm → d.b 0 = 2 → (if s.logger = true then 4 else 2) ≤ d.b 1 →
      exec (.selfTest p d) s = .next (s.answered p d St.badParam 0 [])) ∧
    (d.len = 2 → p = pm → (d.b 0 = 2 → d.b 1 < if s.logger = true then 4 else 2) → ∃ k, exec (.selfTest p d) s =
      .next ((({ s with free := s.free + 1 } : State).chkEnter.setBt R.chkMode 0 (s.bt R.chkMode 0)).answered p d St.ok k [])) ∧
    ((s.bt R.chkMode 0 = true → s.chkEnter = s) ∧ (s.bt R.chkMode 0 = false → s.chkEnter.bt R.chkMode 0 = true ∧
      s.chkEnter = { s with reg := s.chkEnter.reg } ∧ (∀ k, 0x90_0040 ≤ k → k < 0x90_0200 →
        s.chkEnter.rg k = regReset s.logger k ∧ s.chkEnter.wide k = wideReset k))) ∧
    (d.len = 1 → d.b 0 < 64 → s.holds p .capq (d.b 0) = true →
      (∀ f, (s.capq (d.b 0)).writes = some f.id → s.frame f.id = some f → f.acct = acctCapture ∨ s.egressHolds f.id = true) → ∃ t : State, let q := d.b 0
      exec (.capDiscard p d) s = .next (t.answered p d St.ok (s.capq q).discards []) ∧
      (s.capq q).discards = (let r := (s.capq q).siding.map SidWord.last ++ (s.capq q).spilling.map (·.2.isEnd) ++
          (s.capq q).tail.map CapWord.isEnd ++ (s.capq q).writing.map CapWord.isEnd
        let h := (s.capq q).head.map CapWord.isEnd
        if (s.capq q).close = true then recordsIn h + recordsIn r else recordsIn (h ++ r)) ∧
      (t.capq q).siding = [] ∧ (t.capq q).tail = [] ∧ (t.capq q).writing = [] ∧ (t.capq q).spilling = [] ∧ (t.capq q).close = false ∧
      (t.capq q).head = (if 0 < (s.capq q).begun then [{ data := 0, tag := 0xC0 }] else []) ∧
      t.rg (R.capLost q) = s.rg (R.capLost q) + BitVec.ofNat 32 (s.capq q).discards ∧
      (∀ j, j < 64 → j ≠ q → t.capq j = s.capq j) ∧ t.tab = s.tab ∧ t.reg.pmBuf = s.reg.pmBuf)

/-- For commands that may run. SLEEP from a host completes with NO_RIGHT. From PM, unless it is the SLEEP in progress: a depth other
than 1 or 2, a time above 10,000 or no enabled wake source gives BAD_PARAM; a command of a host, a pour or a sealed mould in
progress, or a block that is not in RUN, gives CONFLICT; a source that asserts, is enabled and not masked gives CONFLICT with
the mask of those sources; otherwise the block is in ENTRY with the causes of the last transition and the fall-back of every
wake decoder cleared, and the reply waits. RESUME of a master whose latched doorbell or PUSH did not announce it, or whose
source is not latched, answers OK_ALREADY; of another, OK where its source has the earliest tick of all, OK_WAKING otherwise,
with the cause mask. WAKE_READ answers the wake record: cause mask, instant of entry, depth, first source (without a cause a
free value, log entry 1) and the tick of each of the 38 sources, all ones for a source without a cause. Nothing else changes. -/
def Obligations.SleepCommandsAnswer : Prop :=
  ∀ (d : CmdDesc) (s : State),
    (∀ p, p ≠ pm → s.runs p d → (∀ x, s.slp.cmd = some x → x.1 ≠ d.ctag) → Imm p d 8 → d.b 1 = 0 → d.le 6 2 = 0 →
      exec (.sleep p d) s = .next (s.answered p d St.noRight 0 [])) ∧
    (s.runs pm d → (∀ x, s.slp.cmd = some x → x.1 ≠ d.ctag) → Imm pm d 8 → d.b 1 = 0 → d.le 6 2 = 0 →
      let bad := (d.b 0 ≠ 1 ∧ d.b 0 ≠ 2) ∨ 10000 < d.le 2 2 ∨ 10000 < d.le 4 2 ∨ (∀ i, i < 38 → s.wakeEnabled i = false)
      let busy := s.pwr ≠ pwRun ∨ (∃ p, p ≠ pm ∧ (s.path p).fetched ≠ []) ∨ s.cmd.pours ≠ [] ∨ (∃ p, s.sealed_ p = true)
      let awake (i : Nat) : Prop := i < 24 ∧ s.asserts i = true ∧ s.wakeEnabled i = true ∧ s.wakeMasked i = false
      (bad → exec (.sleep pm d) s = .next (s.answered pm d St.badParam 0 [])) ∧
      (¬ bad → busy → exec (.sleep pm d) s = .next (s.answered pm d St.conflict 0 [])) ∧
      (¬ bad → ¬ busy → (∃ i, awake i) → ∃ k, exec (.sleep pm d) s = .next (s.answered pm d St.conflict k []) ∧
        ∀ i, k.testBit i = true ↔ awake i) ∧
      (¬ bad → ¬ busy → (∀ i, ¬ awake i) → ∃ t, exec (.sleep pm d) s = .next t ∧ t.pwr = pwEntry ∧ t.causes = 0 ∧
        (∀ n, n < 16 → t.fd (R.cwStat n) 6 0 = 0) ∧ t.slp.cmd = some (d.ctag, d.irq) ∧ t.slp.depth = d.b 0 ∧ t.slp.mask = 0 ∧
        t.slp.first = none ∧ t.slp.tick = [] ∧ t.cmd = s.cmd ∧ t.tab = s.tab ∧ t.live = s.live ∧ t.out = s.out)) ∧
    (∀ p, s.runs p d → Imm p d 0 → (∀ f, s.fetchedOf p d.ctag = some f → f.latched = true → s.latched (wakeSource p) = false) →
      exec (.resume p d) s = .next (s.answered p d St.okAlready 0 [])) ∧
    (∀ p, s.runs p d → Imm p d 0 → ∀ f, s.fetchedOf p d.ctag = some f → f.latched = true → s.latched (wakeSource p) = true →
      let tick (i : Nat) : Nat := (kvGet 0 s.slp.tick i).toNat
      let alone : Prop := ∀ i, i < 38 → i ≠ wakeSource p → s.latched i = true → tick (wakeSource p) < tick i
      (alone → exec (.resume p d) s = .next (s.answered p d St.ok s.causes [])) ∧
      (¬ alone → exec (.resume p d) s = .next (s.answered p d St.okWaking s.causes []))) ∧
    (∀ p, s.runs p d → Sound p d → d.len = 0 → Takes d 336 →
      let tick (i : Nat) : W64 := match s.slp.tick.find? (fun x => x.1 == i) with
        | some x => x.2
        | none => BitVec.allOnes 64
      exec (.wakeRead p d) s = .next ({ s with free := s.free + 1 }.answered p d St.ok 0
        (imgBytes s.slp.mask ++ imgBytes s.slp.pEntry ++ [BitVec.ofNat 8 s.slp.recDepth,
          BitVec.ofNat 8 (s.slp.first.getD (Config.freeNat s.free))] ++ List.replicate 14 0 ++
          (List.range 38).flatMap (fun i => imgBytes (tick i)))))

/-- With the port ready and the start done, a transaction whose CRC passes clears crc_err; MISO carries the status byte as it was,
the sync byte 0xA5, the data and a CRC-8 over sync byte and data. READ of 1 to 16 words answers the words of PM's map in order,
most significant byte first; WRITE writes them in order; PUSH of 32 bytes in RUN puts the descriptor at the end of PM's SQ
unless 63 wait, and moves CMD_SQ_TAIL on, and a PUSH while 63 wait discards its descriptor and changes nothing else; POP answers
and removes the oldest reply of PM's CQ, or 16 zero bytes; STATUS answers SEC_STATUS of P0 to P3 and clears the event bit. A
transaction whose CRC fails is discarded and sets crc_err. -/
def Obligations.SpiTransactionsAnswer : Prop :=
  ∀ s : State, s.spiReady = true → s.bootDone = true → s.haltOpen = false → s.pins.hiZ = false → s.pins.shutdown = false →
    (let say (t : State) (l : List Byte) : State :=
      { t.emit (.spi s.spiStatus ([0xA5] ++ l ++ [BitVec.ofNat 8 (crcFixed 0 (0xA5 :: l))])) with cmd.spiErr := false }
     let bad : State := { s.emit (.spi s.spiStatus []) with cmd.spiErr := true }
    (∀ addr n, 1 ≤ n → n ≤ 16 → exec (.spiRead addr n true) s =
      .next (say (s.readWords (wordAddrs addr n)).2 (s.readWords (wordAddrs addr n)).1)) ∧
    (∀ addr l, l ≠ [] → l.length ≤ 16 → exec (.spiWrite addr l true) s =
      .next { (((wordAddrs addr l.length).zip l).foldl (fun a x => a.writeAt pm x.1 x.2) s).emit (.spi s.spiStatus []) with
        cmd.spiErr := false }) ∧
    (∀ raw, raw.length = 32 → s.pwr = pwRun → (s.path pm).sq.length + (s.path pm).latchedPush.length < 63 → exec (.spiPush raw true) s =
      .next { ((s.setPath pm { s.path pm with sq := (s.path pm).sq ++ [raw] }).setRgp pm R.sqTail
        (BitVec.ofNat 32 ((s.sqTail pm + 1) % 64))).emit (.spi s.spiStatus []) with cmd.spiErr := false }) ∧
    (∀ raw, raw.length = 32 → s.pwr = pwRun → 63 ≤ (s.path pm).sq.length + (s.path pm).latchedPush.length → exec (.spiPush raw true) s =
      .next { s.emit (.spi s.spiStatus []) with cmd.spiErr := false }) ∧
    ((s.path pm).cq = [] → exec (.spiPop true) s = .next (say s (List.replicate 16 0))) ∧
    (∀ x l, (s.path pm).cq = x :: l → exec (.spiPop true) s =
      .next (say ((s.setPath pm { s.path pm with cq := l }).setRgp pm R.cqHead (BitVec.ofNat 32 ((s.cqHead pm + 1) % 64)))
        (x.1.bytes x.2))) ∧
    (exec (.spiStatus true) s = .next (say { s with cmd.spiEvent := false }
      (([0, 1, 2, 3] : List Part).flatMap (fun p => beBytes 4 (s.rgp p R.secStatus).toNat)))) ∧
    (∀ addr n, exec (.spiRead addr n false) s = .next bad) ∧ (∀ addr l, exec (.spiWrite addr l false) s = .next bad) ∧
    (∀ raw, exec (.spiPush raw false) s = .next bad) ∧ exec (.spiPop false) s = .next bad ∧ exec (.spiStatus false) s = .next bad)

/-- A read of 4 bytes that is taken answers the word at its address; a read of 8 bytes reads the word at its address and then the
next one, and answers both, the lower address in the low half. Over SPI PM names the copy in the address. A word that holds no
register answers 0, freezes nobody and reports event 0x0D02; a word outside the view answers 0 and is a violation; any other
word answers its register's value. Outside the registers that the datapath computes, that value is what the register file holds
of the readable bits. A read changes nothing else, but for the semaphores, PHW_TTn_PHASE and the PEEK window, which have their
own effects: a read of the low half of a 64-bit pair puts the high half into the reader's own latch, a read of the high half
answers that latch, and a read of PWR_TEMP_MAX, which clears on read, leaves it 0. The same holds of the rows ROC_READ and
COUNTER_LO_READ. -/
def Obligations.RegisterReadsReturnTheRegister : Prop :=
  ∀ (p : Part) (addr : W32) (s : State), s.takes p →
    (let one := s.readAt p addr.toNat
     let two := one.2.readAt p (addr.toNat + 4)
    (p = pm ∨ registerShape addr.toNat 4 = true →
      (exec (.registerRead p addr false) s = .next (one.2.emit (.read p addr (one.1.setWidth 64)))) ∧
      (exec (.rocRead p addr) s = .next (one.2.emit (.read p addr (one.1.setWidth 64)))) ∧
      (exec (.counterLoRead p addr false) s = .next (one.2.emit (.read p addr (one.1.setWidth 64))))) ∧
    (p = pm ∨ registerShape addr.toNat 8 = true →
      (exec (.registerRead p addr true) s = .next (two.2.emit (.read p addr (two.1 ++ one.1)))) ∧
      (exec (.counterLoRead p addr true) s = .next (two.2.emit (.read p addr (two.1 ++ one.1)))))) ∧
    (∀ a, p ≠ pm → target p a = some (p, a)) ∧
    (∀ c : Part, ∀ off, off < 2 ^ 26 → target pm (c.val * 2 ^ 26 + off) = some (c, off)) ∧
    (∀ a c off, target p a = some (c, off) → (p = pm → inPmWord off = false ∧ inSlotData off = false) →
      (s.readReach p c off = .absent → s.readAt p a = (0, s.report 0x0D02 kInfo p.val 0xFF off)) ∧
      (s.readReach p c off = .violation → s.readAt p a = (0, s.violate p 1 off)) ∧
      (s.readReach p c off = .ok → s.readAt p a = s.readWord p c off)) ∧
    (∀ c off, ((regInfo s.logger off).map RegInfo.half).getD .plain = .lo →
      s.readWord p c off = ((s.pairValue off).setWidth 32, s.setLatch p off ((s.pairValue off >>> 32).setWidth 32)) ∧
      (s.readWord p c off).2.latchOf p off = (s.pairValue off >>> 32).setWidth 32 ∧
      (∀ q, q ≠ p → (s.readWord p c off).2.latchOf q off = s.latchOf q off)) ∧
    (∀ c off, ((regInfo s.logger off).map RegInfo.half).getD .plain = .hi → s.readWord p c off = (s.latchOf p (off - 4), s)) ∧
    (∀ c off, ((regInfo s.logger off).map RegInfo.half).getD .plain = .plain → ¬ (0x18_0000 ≤ off ∧ off < 0x18_0100) →
      ¬ (0x30_0000 ≤ off ∧ off < 0x30_1000 ∧ off % 0x100 = 0x18) →
      ¬ (0x80_0000 ≤ off ∧ off < 0x80_4000 ∧ (off % 0x100 = 0x3C ∨ 0x80 ≤ off % 0x100)) → off ≠ R.tempMax →
      s.readWord p c off = (s.regValue p c off, s) ∧
      (off / 0x10_0000 ∉ [0x1, 0x3, 0x5, 0x8, 0xA, 0xB] →
        let r := (regInfo s.logger off).getD {}
        s.regValue p c off = s.key (regKey s.logger c off) &&& (r.rw ||| r.rwp ||| r.w1c ||| r.ro ||| r.roc))) ∧
    (∀ c, (s.readWord p c R.tempMax).1 = s.regValue p c R.tempMax ∧ (s.readWord p c R.tempMax).2.rg R.tempMax = 0)

/-- A write of 4 bytes that is taken writes the word at its address; a write of 8 bytes writes the word at its address and then the
next one. A word that holds no register is reported and changes no register, one outside the view is a violation, and one that
no master can write is not changed, with an entry where the rules ask one. A frozen partition's write changes nothing. Outside
the registers whose writes have an action of their own, an RW field takes the value, an RW1C bit is cleared by a 1 and kept by a
0, and every other bit keeps its value; a register with RWP fields is not changed: its value joins the writer's open mould, and
without an open mould, or with a sealed one, the write is discarded and reported. The same holds of the row RWP_WRITE. -/
def Obligations.RegisterWritesKeepTheirAccess : Prop :=
  ∀ (p : Part) (addr : W32) (v : W64) (s : State), s.takes p →
    (p = pm ∨ registerShape addr.toNat 4 = true →
      exec (.registerWrite p addr v false) s = .next (s.writeAt p addr.toNat (v.setWidth 32)) ∧
      exec (.rwpWrite p addr v false) s = .next (s.writeAt p addr.toNat (v.setWidth 32))) ∧
    (p = pm ∨ registerShape addr.toNat 8 = true →
      let t := (s.writeAt p addr.toNat (v.setWidth 32)).writeAt p (addr.toNat + 4) ((v >>> 32).setWidth 32)
      exec (.registerWrite p addr v true) s = .next t ∧ exec (.rwpWrite p addr v true) s = .next t) ∧
    (∀ a c off (w : W32), target p a = some (c, off) → (p = pm → inPmWord off = false ∧ inSlotData off = false) →
      let r := (regInfo s.logger off).getD {}
      let k := regKey s.logger c off
      let t := s.writeAt p a w
      (s.writeReach p c off = .absent → t = s.report 0x0D02 kInfo p.val 0xFF off) ∧
      (s.writeReach p c off = .violation → t = s.violate p 1 off) ∧
      (s.writeReach p c off = .noEffect → ¬ (p = pm ∧ c = pm ∧ ringRegs.contains off = true) → t = s) ∧
      (∀ code, s.writeReach p c off = .logged code → s.frozen p = false → t = s.report code kInfo p.val 0xFF off) ∧
      (s.frozen p = true → (s.writeReach p c off = .ok ∨ ∃ code, s.writeReach p c off = .logged code) → t = s) ∧
      (s.writeReach p c off = .ok → s.frozen p = false → actsOnWrite off = false →
        (r.rwp = 0 → t = s.setKey k (t.key k) ∧ ∀ i, i < 32 → (t.key k).getLsbD i =
          if r.rw.getLsbD i then w.getLsbD i && !(r.w1c.getLsbD i && w.getLsbD i)
          else (s.key k).getLsbD i && !(r.w1c.getLsbD i && w.getLsbD i)) ∧
        (r.rwp ≠ 0 →
          (∀ m, s.stageable p m (.reg k (w &&& r.rwp)) →
            t = s.setMould p (some { m with items := addItem m.items { item := .reg k (w &&& r.rwp), tag := 0xFFF, by_ := p } })) ∧
          (s.mould p = none → t = s.report 0x0103 kInfo p.val 0xFF off) ∧
          (∀ m, s.mould p = some m → m.sealed = true → t = s.report 0x0104 kInfo p.val 0xFF off))))

/-- A write to an RWP register by a partition that has no mould, a host's access or PM's over SPI, is discarded: no register outside
the log's own status and no mould changes. It adds an entry with the writer and the offset to the queue of the error log (where
that queue has room), and no partition's frozen bit changes. -/
def Obligations.WritesWithoutAMouldAreDiscarded : Prop :=
  ∀ (m copy : Part) (off : Nat) (v : W32) (s : State), s.mould m = none → off < 2 ^ 26 → ((regInfo s.logger off).getD {}).rwp ≠ 0 →
    s.writeReach m copy off = .ok → s.frozen m = false → actsOnWrite off = false →
    (kvGet [] s.err.fifos 1).length < 16 → ∃ t : State,
      (m = pm → inPmWord off = false → inSlotData off = false → s.writeAt pm (copy.val * 2 ^ 26 + off) v = t) ∧
      (m ≠ pm → copy = m → s.takes m → registerShape off 4 = true →
        exec (.rwpWrite m (BitVec.ofNat 32 off) (v.setWidth 64) false) s = .next t) ∧
      t.reg = s.reg ∧ t.cmd = s.cmd ∧ t.tab = s.tab ∧ (∀ q, t.frozen q = s.frozen q) ∧
      (∃ e ∈ kvGet [] t.err.fifos 1, e.code = 0x0103 ∧ e.part.toNat = m.val ∧ e.detail.toNat = off)

/-- A read of BRG_SEMn by a master that may read it answers the semaphore's value and leaves it 0, all else as before: a free one
reads 1 and is taken, a held one reads 0. A write of BRG_SEM_REL sets free in each semaphore of its half whose bit is 1 and
leaves the others. A read of a free semaphore followed by a second read answers 0. A locked read or an atomic over a live link
receives Unsupported Request and changes nothing. -/
def Obligations.SemaphoresAreTakenAndReleased : Prop :=
  ∀ (p : Part) (s : State),
    (∀ n : Fin 64, s.mayRead p (R.sem n) → ∃ t, exec (.brgSemTake p n) s =
        .next (t.emit (.read p (BitVec.ofNat 32 (R.sem n)) ((s.rgp p (R.sem n)).setWidth 64))) ∧
      t = s.setRgp p (R.sem n) 0 ∧ t.rgp p (R.sem n) = 0 ∧
      (∀ (q : Part) (m : Fin 64), (q, m) ≠ (p, n) → t.rgp q (R.sem m) = s.rgp q (R.sem m))) ∧
    (∀ (hi : Bool) (v : W32), s.mayWrite p (if hi then R.semRelHi else R.semRelLo) → ∃ t, exec (.brgSemRelease p hi v) s = .next t ∧
      t = { s with reg.regs := t.reg.regs } ∧
      (∀ m : Fin 64, t.rgp p (R.sem m) =
        if (decide (32 ≤ m.val) = hi) ∧ bit v (m.val % 32) = true then 1 else s.rgp p (R.sem m)) ∧
      (∀ (q : Part) (m : Fin 64), q ≠ p → t.rgp q (R.sem m) = s.rgp q (R.sem m))) ∧
    (∀ (h : HostPort) (addr : W32), s.linked h.part = true → s.unreachable = false →
      exec (.lockedRequest h addr) s = .next (s.emit (.unsupported h.part addr)))

/-- For a host's access of 1 to 64 bytes that lies in mailbox space and does not cross a 64-byte boundary: a write puts exactly its
bytes into the partition's own buffer, leaves every other byte of both memories and every register, and a read answers the bytes
there; a read of a slot in ERROR is aborted and changes nothing; a frozen partition's write changes nothing. An access outside
mailbox space that is no register access receives Unsupported Request. An operand that is a register access is the row
REGISTER_READ's or REGISTER_WRITE's and no MAILBOX_ACCESS. -/
def Obligations.MailboxAccessesReachTheSlotData : Prop :=
  ∀ (p : Part) (addr : W32) (n : Nat) (s : State), p ≠ pm → s.takes p →
    (0x18_0400 ≤ addr.toNat → addr.toNat < 0x18_0600 → 1 ≤ n → addr.toNat % 64 + n ≤ 64 →
      let base := p.val * 512 + (addr.toNat - 0x18_0400)
      (∀ l, l.length = n → s.frozen p = false → ∃ t, exec (.mailboxAccess p addr n (some l)) s = .next t ∧
        (∀ i, i < n → Memory.read t.reg.mailbox (base + i) = byteAt l i) ∧
        (∀ a, a < base ∨ base + n ≤ a → Memory.read t.reg.mailbox a = Memory.read s.reg.mailbox a) ∧
        t = { s with reg.mailbox := t.reg.mailbox }) ∧
      (∀ l, s.frozen p = true → exec (.mailboxAccess p addr n (some l)) s = .next s) ∧
      ((s.slot p ((addr.toNat - 0x18_0400) / 64)).state ≠ slError → exec (.mailboxAccess p addr n none) s =
        .next (s.emit (.mailbox p addr (Memory.readBytes s.reg.mailbox base n)))) ∧
      ((s.slot p ((addr.toNat - 0x18_0400) / 64)).state = slError → exec (.mailboxAccess p addr n none) s =
        .next (s.emit (.abort p addr)))) ∧
    (registerShape addr.toNat n = false → mailboxShape addr.toNat n = false →
      exec (.mailboxAccess p addr n none) s = .next (s.emit (.unsupported p addr)) ∧
      (∀ l, exec (.mailboxAccess p addr n (some l)) s = .next ((s.report 0x0113 kInfo p.val 0xFF addr.toNat).emit (.unsupported p addr)))) ∧
    (∀ l, registerShape addr.toNat n = true →
      exec (.mailboxAccess p addr n l) s = .fault (.operandOutsideSpec "MAILBOX_ACCESS"))

/-- A REQ on a slot that is not FREE is discarded and reported as event 0x0110. On a FREE slot: a disabled window puts the slot in
ERROR with code 0xF1 and a length beyond the medium with 0xF0, with no frame sent; with an enabled window on a port that is UP
the slot is PENDING with the window's tag, which then counts on, and the request is open. Where LOCAL admits it, its class is A
and nothing waits in its queue, the request frame stands in that queue, and its data are the operation, the tag, the offset most
significant byte first and, of a write, the bytes of the slot's buffer (after the 16-byte prefix on CAN XL, and before any
padding). A release makes the slot FREE at once; a REMOTE_ACCESS that held it completes with FAR_ERROR and result 0xF2 (the
model's choice, log entry 41). The delayed-read timer frees a READY or ERROR slot, counts BRG_DR_DISCARD and reports event
0x0111. A far timeout of an open request counts BRG_FAR_ERR and puts its slot in ERROR with code 0xF2, or, of a REMOTE_ACCESS,
completes it with FAR_ERROR and that code and frees the slot. The last three are stated with no REMOTE_ACCESS waiting for a
slot. -/
def Obligations.BridgeSlotsRunTheirStates : Prop :=
  ∀ (p : Part) (k : Fin 8) (s : State),
    (∀ v, s.mayWrite p (0x18_0204 + 0x10 * k.val) →
      ((s.slot p k).state ≠ slFree → exec (.brgSlotReq p k v) s = .next (s.report 0x0110 kInfo p.val 0xFF k.val)) ∧
      ((s.slot p k).state = slFree →
        let w := fld v 4 0
        let e := s.window p w
        let len := fld v 11 6 + 1
        let c := wnPort e
        (wnEnable e = false → ∃ t, exec (.brgSlotReq p k v) s = .next t ∧ (t.slot p k).state = slError ∧ (t.slot p k).far = 0xF1 ∧
          t.fwd = s.fwd ∧ t.cmd.openReqs = s.cmd.openReqs ∧ t.out = s.out) ∧
        (wnEnable e = true → wnLimit e < len → ∃ t, exec (.brgSlotReq p k v) s = .next t ∧ (t.slot p k).state = slError ∧
          (t.slot p k).far = 0xF0 ∧ t.fwd = s.fwd ∧ t.cmd.openReqs = s.cmd.openReqs ∧ t.out = s.out) ∧
        (wnEnable e = true → len ≤ wnLimit e → s.portState c = pUp → ∃ t r, exec (.brgSlotReq p k v) s = .next t ∧
          (t.slot p k).state = slPending ∧ (t.slot p k).tag = s.winTagOf p w ∧ (t.slot p k).write = bit v 5 ∧
          t.winTagOf p w = s.winTagOf p w + 1 ∧ t.cmd.openReqs = s.cmd.openReqs ++ [r] ∧
          r.part = p ∧ r.window = w ∧ r.tag = s.winTagOf p w ∧ r.slot = some k.val ∧ r.write = bit v 5 ∧ t.tab.sameConfig s.tab ∧
          (s.admits acctLocal (s.admOf (wnTc e)) = true → s.admOf (wnTc e) = 0 → (s.egOf c).queue (wnTc e) = [] →
            (∀ f ∈ s.fwd.frames, f.id < s.fwd.nextFrame) → ∃ f x, r.frame = some f.id ∧ t.frame f.id = some f ∧
            (t.egOf c).queue (wnTc e) = [x] ∧ x.frame = f.id ∧ x.port.toNat = c ∧
            (let body := ([if bit v 5 then 2 else 1, s.winTagOf p w] : List Byte) ++ beBytes 2 (fld v 27 12) ++
                (if bit v 5 then s.slotData p k len else [])
             ((if isC c ∧ 2 ≤ wnFmt e then f.bytes.drop 16 else f.bytes).take body.length = body)))))) ∧
    (s.cmd.remoteWait = [] → ∀ v, s.mayWrite p (0x18_0208 + 0x10 * k.val) → bit v 0 = true → (s.slot p k).state ≠ slFree →
      ∃ t, exec (.brgSlotRelease p k v) s = .next t ∧ (t.slot p k).state = slFree ∧ t.fwd = s.fwd ∧ t.reg = s.reg ∧
        (∀ r ∈ t.cmd.openReqs, ¬ (r.part = p ∧ r.slot = some k.val)) ∧
        ((s.slot p k).cmd = none → t.cmd.path = s.cmd.path) ∧
        (∀ tag irq, (s.slot p k).cmd = some (tag, irq) → (s.path p).dropTags = [] → (t.path p).done = (s.path p).done ++
          [{ tag := tag, status := St.farError, result := 0xF2, irq := irq }])) ∧
    (s.cmd.remoteWait = [] → s.works → (s.slot p k).state = slReady ∨ (s.slot p k).state = slError →
      ∃ t, exec (.delayedReadExpire p k) s = .next t ∧
        (t.slot p k).state = slFree ∧ t.rgp p R.drDiscard = satInc (s.rgp p R.drDiscard) 1 ∧ t.fwd = s.fwd) ∧
    (s.works → (s.slot p k).state = slFree ∨ (s.slot p k).state = slPending → exec (.delayedReadExpire p k) s = .next s) ∧
    (s.cmd.remoteWait = [] → s.works → ∀ (w : Fin 32) (tag : Byte) (r : OpenReq),
      s.cmd.openReqs.find? (fun r => r.part == p && r.window == w.val && r.tag == tag) = some r → r.slot = some k.val →
      ∃ t, exec (.bridgeFarTimeout p w tag) s = .next t ∧
        t.rgp p R.farErr = satInc (s.rgp p R.farErr) 1 ∧ r ∉ t.cmd.openReqs ∧ t.fwd = s.fwd ∧
        ((s.slot p k).cmd = none → (t.slot p k).state = slError ∧ (t.slot p k).far = 0xF2) ∧
        (∀ ctag irq, (s.slot p k).cmd = some (ctag, irq) → (t.slot p k).state = slFree ∧ ((s.path p).dropTags = [] →
          (t.path p).done = (s.path p).done ++ [{ tag := ctag, status := St.farError, result := 0xF2, irq := irq }])))

/-- With a sound descriptor in range: with a free slot and its window enabled, on a port that the issuer holds and that is UP, and a
length that the medium takes, REMOTE_ACCESS takes one of the free slots, which is PENDING for it with the window's tag, the
other slots as before, and its reply waits for the response; with no free slot it waits and nothing else changes; a row of one
that waits already changes nothing. A window number above 31, a length outside 1 to 8 or a direction above 1 gives BAD_PARAM. On
a retired port that the issuer holds the answer is RESOURCE_GONE. With a free slot, a disabled window completes with FAR_ERROR
and result 0xF1, and a length beyond the medium with 0xF0. -/
def Obligations.RemoteAccessUsesASlot : Prop :=
  ∀ (p : Part) (d : CmdDesc) (s : State), s.runs p d → Imm p d 16 → d.b 3 = 0 → d.le 6 2 = 0 →
    (s.inRemote p d.ctag = true → exec (.remoteAccess p d) s = .next s) ∧ (s.inRemote p d.ctag = false →
    (¬ (d.b 0 < 32 ∧ d.b 1 ≤ 1 ∧ 1 ≤ d.b 2 ∧ d.b 2 ≤ 8) → exec (.remoteAccess p d) s = .next (s.answered p d St.badParam 0 [])) ∧
    (d.b 0 < 32 → d.b 1 ≤ 1 → 1 ≤ d.b 2 → d.b 2 ≤ 8 →
      let e := s.window p (d.b 0)
      (wnEnable e = true → s.holds p .port (wnPort e) = true → s.retired (wnPort e) = true →
        exec (.remoteAccess p d) s = .next (s.answered p d St.resourceGone 0 [])) ∧
      (wnEnable e = true → s.holds p .port (wnPort e) = true → s.retired (wnPort e) = false → s.freeSlots p = [] →
        exec (.remoteAccess p d) s = .next { s with cmd.remoteWait := s.cmd.remoteWait ++ [(p, d)] }) ∧
      (wnEnable e = true → s.holds p .port (wnPort e) = true → s.retired (wnPort e) = false → s.freeSlots p ≠ [] →
        d.b 2 ≤ wnLimit e → s.portState (wnPort e) = pUp →
        ∃ t k r, exec (.remoteAccess p d) s = .next t ∧ k ∈ s.freeSlots p ∧ (t.slot p k).state = slPending ∧
          (t.slot p k).cmd = some (d.ctag, d.irq) ∧ (t.slot p k).tag = s.winTagOf p (d.b 0) ∧ (t.slot p k).len = d.b 2 ∧
          (t.slot p k).write = (d.b 1 == 1) ∧ t.cmd.openReqs = s.cmd.openReqs ++ [r] ∧ r.part = p ∧ r.slot = some k ∧
          (∀ j, j < 8 → j ≠ k → t.slot p j = s.slot p j) ∧ t.cmd.path = s.cmd.path) ∧
      (∀ far, (wnEnable e = false ∧ far = 0xF1) ∨ (wnEnable e = true ∧ s.holds p .port (wnPort e) = true ∧
          s.retired (wnPort e) = false ∧ wnLimit e < d.b 2 ∧ far = 0xF0) →
        s.freeSlots p ≠ [] → (s.path p).dropTags = [] → ∃ t, exec (.remoteAccess p d) s = .next t ∧
        t.fwd = s.fwd ∧ (∀ j, j < 8 → (t.slot p j).state = (s.slot p j).state) ∧
        ∃ r ∈ (t.path p).done, r.tag = d.ctag ∧ r.status = St.farError ∧ r.result = far)))

/-- For a master that may write a channel's registers: CHK_CMD.load sets v from CHK_INIT and CHK_CNT to 0, and touches no other
register; a write of a data register folds its 4, 8 or 1 bytes into v, lowest address first, counts them and touches no other
register; a write of CHK_CFG with a width of 1 to 64 sets width, refin and refout, keeps v and applies to bytes folded later;
one with a width of 0 or above 64 changes no channel and is reported. -/
def Obligations.CrcChannelsFoldTheirBytes : Prop :=
  ∀ (p : Part) (k : Fin 8) (s : State),
    (∀ v, s.mayWrite p (0x90_0004 + 0x40 * k.val) →
      (bit v 0 = false → exec (.chkLoad p k v) s = .next s) ∧
      (bit v 0 = true → exec (.chkLoad p k v) s =
        .next ((s.setWide (R.chkVal k) (BitVec.ofNat 64
          ((s.rg (R.chkInit k 0)).toNat + (s.rg (R.chkInit k 0 + 4)).toNat * 2 ^ 32))).setRg (R.chkCnt k) 0))) ∧
    (∀ (r : ChkData) (v : W64), s.mayWrite p ((chkDataOff r).1 + 0x40 * k.val) →
      let n := match r with | .lo => 4 | .hi => 4 | .lo8 => 8 | .b => 1
      exec (.chkDataWrite p k r v) s = .next ((s.setWide (R.chkVal k) (BitVec.ofNat 64
        (crcFold (s.fd (R.chkCfg k) 6 0) ((s.rg (R.chkPoly k 0)).toNat + (s.rg (R.chkPoly k 0 + 4)).toNat * 2 ^ 32)
          (s.bt (R.chkCfg k) 7) (s.wide (R.chkVal k)).toNat (leBytes n v.toNat)))).count (R.chkCnt k) n)) ∧
    (∀ v, s.mayWrite p (R.chkCfg k) →
      (1 ≤ fld v 6 0 → fld v 6 0 ≤ 64 → exec (.chkCfgWrite p k v) s = .next (s.setRg (R.chkCfg k) (v &&& 0x1FF))) ∧
      (fld v 6 0 = 0 ∨ 64 < fld v 6 0 → exec (.chkCfgWrite p k v) s = .next (s.report 0x0901 kInfo p.val 0xFF v.toNat)))

/-- The four polynomials are those of the table: width, polynomial, initial value, reflection and final XOR, each the CRC that folds
the bytes from the initial value, reflects the result where the table says so and applies the final XOR. The check value of each
over the ASCII string 123456789 is the table's. -/
def Obligations.FixedPolynomialsGiveTheirCheckValues : Prop :=
  (∀ l, crcFixed 0 l = Nat.xor (crcFold 8 0x1D false 0xFF l) 0xFF) ∧
  (∀ l, crcFixed 1 l = Nat.xor (crcFold 16 0x1021 false 0xFFFF l) 0) ∧
  (∀ l, crcFixed 2 l = Nat.xor (reflect 32 (crcFold 32 0x04C1_1DB7 true 0xFFFF_FFFF l)) 0xFFFF_FFFF) ∧
  (∀ l, crcFixed 3 l = Nat.xor (reflect 32 (crcFold 32 0x1EDC_6F41 true 0xFFFF_FFFF l)) 0xFFFF_FFFF) ∧
  (let digits : List Byte := [0x31, 0x32, 0x33, 0x34, 0x35, 0x36, 0x37, 0x38, 0x39]
   crcFixed 0 digits = 0x4B ∧ crcFixed 1 digits = 0x29B1 ∧ crcFixed 2 digits = 0xCBF4_3926 ∧ crcFixed 3 digits = 0xE306_9283)

/-- At the boundary of the ready pour at the head of the queue, which for a phase boundary is the first instant after it became
ready at which its turntable, in TRACKING and moving up, has passed the fraction, and whose mould holds destination sets, TCAM
entries and policy profiles, each slot at most once: every staged entry is in force, every entry of these tables that is not
staged reads as before, and the routes, VLANs, tunnel profiles, keys, windows and grants are as before. With no open AVTPDU and
no REMOTE_ACCESS waiting, the epoch is one higher, and the reply of the POUR carries OK, the new epoch and, for a past time
boundary, bit 63. -/
def Obligations.PourBoundaryBringsItsItemsIntoForce : Prop :=
  ∀ (s : State) (x : Pour) (rest : List Pour), s.works → s.cmd.pours = x :: rest → x.ready = true →
    (match x.bound with
     | .immediate => True
     | .time i => x.past = true ∨ i.toNat ≤ s.pNs
     | .phase n f => ∃ m, x.mark = some m ∧ s.movesUp n = true ∧
         crossCount (s.cpr n) m f.toNat < crossCount (s.cpr n) (s.phi n s.pNs) f.toNat) →
    (∀ y ∈ s.pourItems x, (∃ i e, y.item = .dset i e) ∨ (∃ i e, y.item = .tcam i e) ∨ ∃ i e, y.item = .pprof i e) →
    (s.pourItems x).Pairwise (fun a b => a.item.slot ≠ b.item.slot) → s.live.keyStaged = [] →
    ∃ t, exec .pourBoundary s = .next t ∧
      (∀ y ∈ s.pourItems x, ∀ i e, y.item = .dset i e → kvGet 0 t.tab.dsets i = e) ∧
      (∀ y ∈ s.pourItems x, ∀ i e, y.item = .tcam i e → kvGet 0 t.tab.tcam i = e) ∧
      (∀ y ∈ s.pourItems x, ∀ i e, y.item = .pprof i e → kvGet 0 t.tab.pprofs i = e) ∧
      (∀ i, (∀ y ∈ s.pourItems x, ∀ e, y.item ≠ .dset i e) → kvGet 0 t.tab.dsets i = kvGet 0 s.tab.dsets i) ∧
      (∀ i, (∀ y ∈ s.pourItems x, ∀ e, y.item ≠ .tcam i e) → kvGet 0 t.tab.tcam i = kvGet 0 s.tab.tcam i) ∧
      (∀ i, (∀ y ∈ s.pourItems x, ∀ e, y.item ≠ .pprof i e) → kvGet 0 t.tab.pprofs i = kvGet 0 s.tab.pprofs i) ∧
      t.tab.routes = s.tab.routes ∧ t.tab.vlans = s.tab.vlans ∧ t.tab.tprofs = s.tab.tprofs ∧ t.tab.keys = s.tab.keys ∧
      t.tab.windows = s.tab.windows ∧ t.tab.grants = s.tab.grants ∧
      (s.fwd.openPdu = [] → s.cmd.remoteWait = [] → (s.path x.part).dropTags = [] →
        t.epoch = s.epoch + 1 ∧ t.cmd.pours = rest.filter (fun y => !(y.part == x.part && y.tag == x.tag)) ∧
        ∃ r ∈ (t.path x.part).done, r.tag = x.tag ∧ r.status = St.ok ∧ r.epochOf = some ((s.epoch + 1).setWidth 32) ∧
          r.result = BitVec.ofNat 64 ((s.epoch + 1).toNat + (if x.past then 2 ^ 63 else 0)) ∧ r.mould = 1)

/-- Take a queue's words in the order head platform, siding (as the LPDDR5X memory holds them, in data and tag), spills in flight,
tail platform, then the words that its lane still has to write. While they fit the queue and its siding words have distinct
places inside a region that the channels in service hold, every completed siding burst (a spill, or a fill whose check is clean
or corrected), every grant of the capture memory arbiter and the end of a waiting closing word keep this sequence, the closing
word alone being added behind the head platform, and the places stay so; a pop whose check trusts the tag removes exactly its
first word; a ladle lane takes the queue's oldest copy and adds exactly the words of its record at the end. -/
def Obligations.CaptureQueuesKeepTheirOrder : Prop :=
  ∀ (q : Fin 64) (s : State), s.works → s.sidingSound q →
    let c := s.capq q
    let whole (t : State) : List CapWord := t.capWords q ++ (t.capq q).writing
    let cap := 64 + s.sidingWords q
    ((whole s).length ≤ cap →
      (∀ e, ∃ t, exec (.sidingBurstDone q false e) s = .next t ∧ whole t = whole s ∧ t.sidingSound q) ∧
      (∀ e, e = .clean ∨ e = .corrected → ∃ t, exec (.sidingBurstDone q true e) s = .next t ∧ whole t = whole s ∧ t.sidingSound q) ∧
      (∀ ch, ∃ t, exec (.captureMemGrant ch) s = .next t ∧ whole t = whole s ∧ t.sidingSound q)) ∧
    (c.close = false → exec (.sidingLossClose q) s = .next s) ∧
    (c.close = true → c.head.length < 32 → (whole s).length < cap → ∃ t, exec (.sidingLossClose q) s = .next t ∧
      (t.capq q).close = false ∧
      whole t = c.head ++ [{ data := 0, tag := 0xC0 }] ++ (whole s).drop c.head.length) ∧
    (∀ p v e w r, s.mayWrite p (0x80_0040 + 0x100 * q.val) → bit v 0 = true → s.capDrain q = true → c.head = w :: r → e ≠ .tag →
      (whole s).length ≤ cap → ∃ t, exec (.capPop p q ⟨v, e⟩) s = .next t ∧ whole t = (whole s).tail) ∧
    (∀ (lane : Fin 8) (copy : CapCopy) (rest : List CapCopy) (f : Frame),
      kvGet none s.cap.ladleBusy lane.val = none → s.bt R.retDp (20 + lane) = false →
      rotateFrom (kvGet 63 s.cap.ladleLast lane.val) ((List.range 64).filter (fun j => s.ladleReady j)) = some q.val →
      c.copies = copy :: rest → s.frame copy.frame = some f → c.writing = [] →
      (s.capWords q).length + (s.recordWords q copy f).length ≤ cap →
      ∃ t, exec (.ladleLaneTake lane) s = .next t ∧ (t.capq q).copies.Sublist rest ∧ whole t = whole s ++ s.recordWords q copy f)

/-- With drain = 1: a PEEK of a head word whose check is clean answers its 4 bytes (or its tag), an 8-byte PEEK at an even index
those of two registers, and leaves the queue's words; with an empty queue a PEEK answers the last value read there and sets
underrun, and a POP sets underrun. With drain = 0 a POP removes nothing and is reported as event 0x0805. A POP without pop = 1
changes nothing. ACK subtracts from the ring part of PKTS, not below 0. A write of HRD that moves forward up to HWR is stored,
another is not stored and reported as event 0x0804. A DMA batch of a running ring sends the head word, where its check is clean,
to the data ring at HWR and its tag to the tag ring, before anything else. -/
def Obligations.CaptureQueuesAreReadAndDrained : Prop :=
  ∀ (p : Part) (q : Fin 64) (s : State),
    (∀ i : Fin 17, s.mayRead p (peekOff q i) → s.capDrain q = true →
      (∀ w r, (s.capq q).head = w :: r →
        let word (k : Nat) : W32 := if k = 16 then w.tag.setWidth 32 else BitVec.ofNat 32 (imgLe w.data (4 * k) 4)
        (∃ t : State, exec (.capPeekRead p q ⟨i, false⟩ .clean) s =
          .next (t.emit (.read p (BitVec.ofNat 32 (peekOff q i)) ((word i.val).setWidth 64))) ∧
          t.capWords q = s.capWords q ∧ t.reg = s.reg ∧ t.tab = s.tab) ∧
        (i.val % 2 = 0 → i.val < 16 → ∃ t : State, exec (.capPeekRead p q ⟨i, true⟩ .clean) s =
          .next (t.emit (.read p (BitVec.ofNat 32 (peekOff q i)) (word (i.val + 1) ++ word i.val))) ∧
          t.capWords q = s.capWords q ∧ t.reg = s.reg ∧ t.tab = s.tab)) ∧
      ((s.capq q).occ = 0 → (s.capq q).close = false → ∀ e, exec (.capPeekRead p q ⟨i, false⟩ e) s =
        .next ((s.setBt (R.capStatus q) 4 true).emit (.read p (BitVec.ofNat 32 (peekOff q i))
          ((kvGet 0 (s.capq q).peek i.val).setWidth 64))))) ∧
    (∀ v e, s.mayWrite p (0x80_0040 + 0x100 * q.val) →
      (bit v 0 = false → exec (.capPop p q ⟨v, e⟩) s = .next s) ∧
      (bit v 0 = true → s.capDrain q = false → exec (.capPop p q ⟨v, e⟩) s = .next (s.report 0x0805 kInfo p.val q.val q.val)) ∧
      (bit v 0 = true → s.capDrain q = true → (s.capq q).occ = 0 → (s.capq q).close = false →
        exec (.capPop p q ⟨v, e⟩) s = .next (s.setBt (R.capStatus q) 4 true))) ∧
    (∀ v, s.mayWrite p (0x80_001C + 0x100 * q.val) → ∃ t, exec (.capAck p q v) s = .next t ∧
      (t.capq q).ringPkts = (s.capq q).ringPkts - fld v 23 0 ∧ t.capWords q = s.capWords q ∧ t.reg = s.reg ∧ t.out = s.out) ∧
    (∀ v, s.mayWrite p (R.capHrd q) → (s.capHolder q ≠ pm ∨ s.capDrain q = true) →
      ((s.rg (R.capHwr q) - v).toNat ≤ (s.rg (R.capHwr q) - s.rg (R.capHrd q)).toNat →
        ∃ t, exec (.capHrdWrite p q v) s = .next t ∧ t.rg (R.capHrd q) = v ∧ t.capWords q = s.capWords q ∧ t.tab = s.tab) ∧
      ((s.rg (R.capHwr q) - s.rg (R.capHrd q)).toNat < (s.rg (R.capHwr q) - v).toNat →
        exec (.capHrdWrite p q v) s = .next (s.report 0x0804 kInfo p.val q.val v.toNat))) ∧
    (s.works → s.dmaRuns q = true → s.wakingBefore 5 = false → ∀ w r, (s.capq q).head = w :: r →
      let n := (s.rg (R.capHwr q)).toNat
      let size := s.ringWords q
      (s.rg (R.capHwr q) - s.rg (R.capHrd q)).toNat < size →
      (s.grant (s.capHolder q)).covers (s.dataBase q + n % size * 64) 64 = true →
      (s.grant (s.capHolder q)).covers (s.tagBase q + n % size) 1 = true →
      ∀ es : List Ecc, es.headD .clean = .clean → ∃ t l, exec (.captureDmaBatch q es) s = .next t ∧ t.out = s.out ++
        [.dma (s.capHolder q) (BitVec.ofNat 64 (s.dataBase q + n % size * 64)) (imgBytes w.data),
         .dma (s.capHolder q) (BitVec.ofNat 64 (s.tagBase q + n % size)) [w.tag]] ++ l)

/-- A parser lane that classifies no frame, an idle ladle lane or an AES slice that no committed copy has locked is retired when it
fails its retest (its bit of the retired mask is set), and its ERR_FAULT bit is set; one that passes is only reported, a slice's
failure counted as well. A table segment moves to a spare while fewer than two of its memory are used, and the count of moved
segments rises. A key slot word that fails marks the slot failed. A single-bit error is counted in ERR_ECC_CORR; an event
counter whose word fails restarts at 0 and is reported as event 0x0B02. The second control fault of a slice within its window
retires it, the first only counts, and raw block operations run again from their start. The end of a window clears its count,
and a lane's retrains field. A passed step of rolling self-test retires nothing and takes the next unit of each kind. An LPDDR5X
channel in service that faults retrains; a good retrain ends it, a bad one retires the channel and leaves every siding empty. -/
def Obligations.FaultyUnitsLeaveService : Prop :=
  ∀ s : State, s.works →
    (∀ n : Fin 4, (∀ f ∈ s.fwd.frames, f.lane = n.val → f.branched = true) →
      exec (.datapathUnitFault (.parser n) true) s = .next (s.report 0x0505 kTransient 0xFF n n) ∧
      ∃ t, exec (.datapathUnitFault (.parser n) false) s = .next t ∧ t.bt R.retDp n = true ∧
        (s.bt R.retDp n = false → t.bt R.errFault 6 = true) ∧ t.tab = s.tab ∧ t.fwd = s.fwd) ∧
    (∀ n : Fin 8, kvGet none s.cap.ladleBusy n = none →
      exec (.datapathUnitFault (.ladle n) true) s = .next (s.report 0x0806 kTransient 0xFF n n) ∧
      ∃ t, exec (.datapathUnitFault (.ladle n) false) s = .next t ∧
      t.bt R.retDp (20 + n) = true ∧ (s.bt R.retDp (20 + n) = false → t.bt R.errFault 9 = true) ∧ t.tab = s.tab ∧ t.cap = s.cap) ∧
    (∀ n : Fin 8, (∀ e ∈ s.fwd.eg, e.2.commit.bind Commit.slice ≠ some n.val) →
      exec (.datapathUnitFault (.slice n) true) s = .next ((s.count (R.cryDev 3)).report 0x0701 kTransient 0xFF n n) ∧
      ∃ t, exec (.datapathUnitFault (.slice n) false) s = .next t ∧ t.bt R.sliceStatus (8 + n) = true ∧
      (s.bt R.sliceStatus (8 + n) = false → t.bt R.errFault 2 = true) ∧ t.tab = s.tab ∧ t.fwd = s.fwd) ∧
    (∀ (m : Fin 8) (g : Nat), kvGet 0 s.err.spares m < 2 → ∃ t, exec (.datapathUnitFault (.segment m g) false) s = .next t ∧
      kvGet 0 t.err.spares m = kvGet 0 s.err.spares m + 1 ∧ t.fd R.retSeg 15 0 = (s.fd R.retSeg 15 0 + 1) % 2 ^ 16 ∧ t.tab = s.tab) ∧
    (∀ i : Fin 2048, ∃ t, exec (.datapathUnitFault (.keyWord i) true) s = .next t ∧ kvGet false t.live.keyFailed i = true ∧
      t.tab = s.tab ∧ t.reg = (s.report 0x0707 kTransient (s.holder .key i).val 0xFF i).reg) ∧
    (∀ b, exec (.datapathUnitFault .singleBit b) s = .next (s.count R.eccCorr)) ∧
    (∀ o b, counterReg o.toNat = true → ∃ t, exec (.datapathUnitFault (.counterWord o) b) s = .next t ∧ t.tab = s.tab ∧
      (match (regInfo s.logger o.toNat).map RegInfo.half with
       | some .lo => t.wide o.toNat = 0
       | some .hi => t.wide (o.toNat - 4) = 0
       | _ => t.rg o.toNat = 0) ∧ t.err = (s.report 0x0B02 kTransient 0xFF 0xFF o.toNat).err) ∧
    (∀ k : Fin 8, s.bt R.sliceStatus (8 + k) = false → s.faults (.slice k) = 0 → ∃ t : State,
      t = { s.report 0x0706 kTransient 0xFF k k with
        cry.work := s.cry.work.map (fun x => match x.use with
          | .raw _ => { x with bursts := x.total }
          | _ => x) } ∧
      exec (.sliceControlFault k .raw) s = .next (t.countFault (.slice k))) ∧
    (∀ k : Fin 8, s.bt R.sliceStatus (8 + k) = false → 1 ≤ s.faults (.slice k) → ∃ t, exec (.sliceControlFault k .raw) s = .next t ∧
      t.bt R.sliceStatus (8 + k) = true ∧ t.tab = s.tab) ∧
    (∀ (k : Fin 8) (w : SliceWork), s.bt R.sliceStatus (8 + k) = true → exec (.sliceControlFault k w) s = .next s) ∧
    (∀ u, ∃ t, exec (.retryWindowClose u) s = .next t ∧ t.faults u = 0 ∧ t.tab = s.tab ∧
      ((∀ n, u ≠ .lane n) → t.reg = s.reg) ∧ ∀ n, u = .lane n → t.fd (R.ethStatus n) 9 8 = 0) ∧
    (s.running = true → ∃ t, exec (.selfTestStep false false false false) s = .next t ∧ t.rg R.retDp = s.rg R.retDp ∧ t.tab = s.tab ∧
      ∀ kind, kind < 4 → t.testUnit kind = (rotateFrom (s.testUnit kind) (s.testable kind)).getD 16) ∧
    (∀ c : Fin 4, (s.bt R.capMem c = true → exec (.lpddrChannelFault c) s = .next { s with cap.retrain := kvSet false s.cap.retrain c.val true }) ∧
      (s.bt R.capMem c = false → exec (.lpddrChannelFault c) s = .next s) ∧
      (kvGet false s.cap.retrain c.val = false → ∀ ok, exec (.lpddrRetrainDone c ok) s = .next s) ∧
      (kvGet false s.cap.retrain c.val = true → exec (.lpddrRetrainDone c true) s =
        .next ({ s with cap.retrain := kvSet false s.cap.retrain c.val false }.report 0x0803 kTransient 0xFF c c)) ∧
      (kvGet false s.cap.retrain c.val = true → s.bt R.capMem (4 + c) = false → ∃ t, exec (.lpddrRetrainDone c false) s = .next t ∧
        t.bt R.capMem c = false ∧ t.bt R.capMem (4 + c) = true ∧ (∀ q, q < 64 → (t.capq q).siding = []) ∧ t.tab = s.tab))

/-- ERROR_LOG_WRITE of a block with no report changes nothing. Otherwise the block's oldest report leaves its FIFO: where the newest
entry is identical (block, code, part, unit and detail) and the repeats fit, only that entry changes, its repeat count the sum
and its last stamp the report's; otherwise a new entry with the next sequence number stands at ERR_LOG_WR, which moves on modulo
4,096. An entry marked for PM sets SEC_PM_EVENT.err. Every other entry and every table stay. -/
def Obligations.ErrorLogTakesReportsInOrder : Prop :=
  ∀ (b : Fin 14) (s : State), s.works →
    (kvGet [] s.err.fifos b.val = [] → exec (.errorLogWrite b) s = .next s) ∧
    (∀ r rest, kvGet [] s.err.fifos b.val = r :: rest → ∃ t, exec (.errorLogWrite b) s = .next t ∧
      kvGet [] t.err.fifos b.val = rest ∧ t.tab = s.tab ∧ t.cmd.path = s.cmd.path ∧
      (bit r.sev 2 = true → t.bt R.secPmEvent 4 = true ∧ t.cmd.spiEvent = true) ∧
      (∀ i e, s.newestEntry = some (i, e) → e.same r = true → e.repeat_.toNat + r.repeat_.toNat ≤ 0xFFFF →
        (i, { e with repeat_ := e.repeat_ + r.repeat_, last := r.last }) ∈ t.err.log ∧ t.rg R.errWr = s.rg R.errWr ∧
        t.rg R.errSeq = s.rg R.errSeq ∧ ∀ x ∈ t.err.log, x.1 = i ∨ x ∈ s.err.log) ∧
      ((∀ i e, s.newestEntry = some (i, e) → e.same r = false ∨ 0xFFFF < e.repeat_.toNat + r.repeat_.toNat) →
        (∃ e, (s.fd R.errWr 11 0, e) ∈ t.err.log ∧ e.seq = s.rg R.errSeq ∧ e.same r = true ∧ e.time = r.time ∧ e.repeat_ = r.repeat_) ∧
        t.fd R.errWr 11 0 = (s.fd R.errWr 11 0 + 1) % 4096 ∧ t.rg R.errSeq = s.rg R.errSeq + 1 ∧
        (∀ x ∈ t.err.log, x.1 = s.fd R.errWr 11 0 ∨ x ∈ s.err.log)))

/-- With a standby pair, a failover keeps every fetched command, in fetch order, and every completed reply; the commands that had
started and are not carried on in hardware (a ready pour, a SLEEP in progress) wait to start again; ERR_STATUS.simplex is set,
the other pair is active and CHK is in multi mode; nothing in force and nothing sent changes. In simplex a fault of the active
pair stops command processing, with its fault bit set: whatever runs on the signal box then changes nothing. A passed self-test
of the failed pair ends simplex and multi mode; a failed one retires it. A grant of an AES slice takes one burst from the oldest
work, of the requester that the arbiter picks, that a slice can serve: work with bursts left waits on; after its last burst
protection work is done, the answer of a raw block operation is sent, and a verified frame's port goes on. -/
def Obligations.SignalBoxFailsOver : Prop :=
  ∀ s : State, s.works →
    (s.err.sbDead = false → s.bt R.errStatus 2 = false → ∃ t, exec .signalBoxFailover s = .next t ∧
      t.bt R.errStatus 2 = true ∧ t.bt R.errStatus 3 = (s.activePair == 0) ∧ t.bt R.chkMode 0 = true ∧ t.err.sbDead = false ∧
      t.tab = s.tab ∧ t.out = s.out ∧
      ∀ p, (t.path p).done = (s.path p).done ∧ (t.path p).ready = (s.path p).ready ∧
        (t.path p).fetched = (s.path p).fetched.map (fun f =>
          if f.desc.ctag ∈ s.carried p then f else { f with started := false })) ∧
    (s.err.sbDead = false → s.bt R.errStatus 2 = true → ∃ t, exec .signalBoxFailover s = .next t ∧ t.err.sbDead = true ∧
      t.bt R.errFault 5 = true ∧ t.tab = s.tab ∧ (∀ g, onSignalBox g t = t) ∧
      (∀ p d, exec (.nop p d) t = .next t) ∧ exec .dispatchGrant t = .next t) ∧
    (s.err.sbDead = true → exec .signalBoxFailover s = .next s) ∧
    (s.err.sbDead = true ∨ s.err.sbFailed = true ∨ s.bt R.errStatus 2 = false → ∀ b, exec (.pairSelfTestDone b) s = .next s) ∧
    (s.err.sbDead = false → s.err.sbFailed = false → s.bt R.errStatus 2 = true →
      exec (.pairSelfTestDone true) s = .next (((s.setBt R.chkMode 0 false).setBt R.errStatus 2 false).report 0x0108 kInfo 0xFF 0xFF (1 - s.activePair)) ∧
      ∃ t, exec (.pairSelfTestDone false) s = .next t ∧ t.err.sbFailed = true ∧ t.bt R.errFault 5 = true ∧
        t.bt R.chkMode 0 = false ∧ t.tab = s.tab) ∧
    (s.pick .crypto s.cryptoReady = none → exec .cryptoGrant s = .next s) ∧
    (∀ i, s.pick .crypto s.cryptoReady = some i → ∃ a w b, s.cry.work = a ++ w :: b ∧ w.req = i ∧ s.servable w = true ∧
      (∀ x ∈ a, ¬ (x.req = i ∧ s.servable x = true)) ∧
      (let u : State := s.granted .crypto i 1
       (1 < w.bursts → exec .cryptoGrant s = .next { u with
         cry.work := s.cry.work.map (fun y => if y = w then { y with bursts := y.bursts - 1 } else y) }) ∧
       (w.bursts ≤ 1 →
         let v : State := { u with cry.work := a ++ b }
         (∀ c id, w.use = .protect c id → exec .cryptoGrant s = .next v) ∧
         (∀ o, w.use = .raw o → exec .cryptoGrant s = .next (v.complete o.part o.reply)) ∧
         (∀ id f, w.use = .verify id → s.frame id = some f →
           exec .cryptoGrant s = .next (v.runOrder f.desc.ingress.toNat)))))

/-- A failed health test sets its bit, stops the source and clears its ready bit; the third within the window retires the source,
with its fault bit. A passed start-up test makes the source ready, unless it is retired. A reseed of the generator needs a ready
source. A reseed of a slice's masks counts only for that slice. KEY_ZEROIZE removes the old material of its slot and of no
other. None of them changes a table. -/
def Obligations.EntropyAndKeysAreKept : Prop :=
  ∀ s : State, s.works →
    (∀ apt, s.entropyGone = true → exec (.entropyHealthFail apt) s = .next s) ∧
    (∀ apt : Bool, s.entropyGone = false → ∃ t, exec (.entropyHealthFail apt) s = .next t ∧
      t.bt R.entStatus (if apt then 3 else 2) = true ∧ t.bt R.entStatus 0 = false ∧ t.cry.entStops = true ∧
      t.faults .entropy = s.faults .entropy + 1 ∧ t.tab = s.tab ∧ t.entropyGone = decide (2 ≤ s.faults .entropy) ∧
      (2 ≤ s.faults .entropy → t.bt R.errFault 4 = true)) ∧
    (s.entropyGone = true → exec .entropyStartupDone s = .next s ∧ exec .drbgReseed s = .next s) ∧
    (s.entropyGone = false → ∃ t, exec .entropyStartupDone s = .next t ∧ t.bt R.entStatus 0 = true ∧ t.bt R.entStatus 1 = true ∧
      t.cry.entStops = false ∧ t.cry.drbgSeeded = true ∧ t.tab = s.tab ∧ t.out = s.out) ∧
    (s.entropyGone = false → s.cry.entStops = false → s.bt R.entStatus 0 = true →
      exec .drbgReseed s = .next { s with cry.drbgSeeded := true }) ∧
    (∀ k : Fin 8, ∃ t, exec (.maskReseed k) s = .next t ∧ kvGet 0 t.cry.maskSeeds k.val = kvGet 0 s.cry.maskSeeds k.val + 1 ∧
      (∀ j, j ≠ k.val → kvGet 0 t.cry.maskSeeds j = kvGet 0 s.cry.maskSeeds j) ∧ t.reg = s.reg ∧ t.tab = s.tab) ∧
    (∀ i : Fin 2048, ∃ t, exec (.keyZeroize i) s = .next t ∧ (∀ x ∈ t.live.keyOld, x.1 ≠ i.val) ∧
      (∀ x ∈ s.live.keyOld, x.1 ≠ i.val → x ∈ t.live.keyOld) ∧ t.tab = s.tab ∧ t.reg = s.reg)

/-- For a sample that no sleep, first wake step, reset or shutdown stops: the six readings are stored, and the band becomes the
highest band whose rising threshold the highest reading meets, if that is above the band in force; otherwise it falls while the
reading is more than 3 degrees below the threshold of the band. Thresholds in quarter degrees: 380, 420, 460, 488. A sensor that
reads 130 degrees or more twice shuts the block down. Nothing else changes a table or the commands' state, and a sample that is
stopped changes nothing. An idle clock gate shows in PWR_BLK_STAT where the unit may gate. -/
def Obligations.ThermalSamplesMoveTheBand : Prop :=
  (∀ (t : Int) (b : Nat), b ≤ 4 →
    let rise (k : Nat) : Int := if k = 1 then 380 else if k = 2 then 420 else if k = 3 then 460 else 488
    let r := nextBand t b
    r ≤ 4 ∧ (∀ k, 1 ≤ k → k ≤ 4 → rise k ≤ t → k ≤ r) ∧
    (b < r → rise r ≤ t) ∧
    (r ≤ b → (r = 0 ∨ rise r - 12 ≤ t) ∧ ∀ k, r < k → k ≤ b → t < rise k - 12)) ∧
  (∀ (l : Vector (BitVec 12) 6) (s : State), (s.asleep = true ∨ s.wakingBefore 2 = true ∨ s.pins.shutdown = true ∨ s.pins.hiZ = true) →
    exec (.thermalSample l) s = .next s) ∧
  (∀ (l : Vector (BitVec 12) 6) (s : State), s.asleep = false → s.wakingBefore 2 = false → s.pins.shutdown = false → s.pins.hiZ = false →
    ∃ t, exec (.thermalSample l) s = .next t ∧ t.fd R.band 2 0 = nextBand (hottest l.toList) (s.fd R.band 2 0) ∧
      (∀ n : Fin 6, t.fd (R.temp n) 11 0 = (l.get n).toNat ∧ t.bt (R.temp n) 12 = true) ∧
      (t.pins.shutdown = true ↔ ∃ n : Fin 6, 520 ≤ signedOf 12 (l.get n).toNat ∧ s.bt (R.temp n) 12 = true ∧
        520 ≤ signedOf 12 (s.fd (R.temp n) 11 0)) ∧ t.tab = s.tab ∧ t.cmd = s.cmd) ∧
  (∀ (u : GateUnit) (g : Bool) (s : State), s.works →
    (gateBit u = none → exec (.idleClockGating u g) s = .next s) ∧
    (∀ i, gateBit u = some i → (g = false ∨ s.mayGate u = true) → exec (.idleClockGating u g) s = .next (s.setBt R.blkStat i g)) ∧
    (s.mayGate u = false → exec (.idleClockGating u true) s = .next s))

/-- For a port that is not retired, of a block that does not prepare to sleep. Signal sets the signal bit and takes a tuned port
from DOWN to TRAINING. When training ends with the right speed, or with no in-band speed to check (and the PHY's link where it
is polled), the port is UP with block lock, and verification starts by a verify frame unless verify_dis leaves preemption active
at once; a wrong in-band speed is flagged, counts a lane retrain and leaves TRAINING. A training timeout takes the port to DOWN
with cause 4, and counts a lane retrain where the lane is good. A loss clears its status bits. An UP port with nothing in flight
(and no REMOTE_ACCESS waiting for a slot) that loses its link is DOWN with the cause of R47 (free for a lost FEC alignment, log
entry 1) and counts the loss, and an FEC burst counts its 8 codewords; a port that is not UP stays as it is, but that lost
signal ends a rate change in DOWN. A lane that is tuned goes to TRAINING with signal and to DOWN without. A verify frame that is
not answered is sent again, three times at most. In another state none of these changes anything. A poll of a PHY's link, once
the interval poll_ms has passed, and an access of a port that the master holds, which sets busy, join their bus, and start at
once on a free one, at the port's PHY address. When the access in progress ends, a poll shows the link, a partition's clears
busy and, of a read, shows its data and whether the PHY failed to answer, and the next access starts. -/
def Obligations.EthernetLinksFollowTheirStates : Prop :=
  ∀ (n : EPort) (s : State), s.works → s.retired n.val = false → s.portsStopped = false →
    (s.ethModeNo n ≠ 0 → ∃ t, exec (.ethSignalDetect n) s = .next t ∧ t.bt (R.ethStatus n) 3 = true ∧
      t.ethState n = (if s.ethState n = pDown ∧ (s.lane n).retune = false then pTraining else s.ethState n) ∧ t.tab = s.tab ∧ t.fwd = s.fwd) ∧
    (∀ b, s.ethState n ≠ pTraining → exec (.ethTrainingDone n b) s = .next s ∧ exec (.ethTrainingTimeout n) s = .next s) ∧
    (∀ b, s.ethState n = pTraining → (s.ethInband n = false ∨ b = true) → (s.phyPoll n = true → s.bt (R.ethStatus n) 6 = true) →
      ∃ t, exec (.ethTrainingDone n b) s = .next t ∧
      t.ethState n = pUp ∧ t.bt (R.ethStatus n) 4 = true ∧ t.tab = s.tab ∧
      (s.bt (R.gteCfg n) 16 = true → t.bt (R.gteStatus n) 13 = true ∧ t.out = s.out) ∧
      (s.bt (R.gteCfg n) 16 = false → t.bt (R.gteStatus n) 13 = false ∧ t.out = s.out ++ [.mm n] ∧ (t.egOf n).mmTries = 1)) ∧
    (s.ethState n = pTraining → s.ethInband n = true → s.faults (.lane n) < 3 → ∃ t, exec (.ethTrainingDone n false) s = .next t ∧
      t.ethState n = pTraining ∧ t.bt (R.ethStatus n) 7 = true ∧ t.faults (.lane n) = s.faults (.lane n) + 1 ∧
      t.fd (R.ethStatus n) 9 8 = s.faults (.lane n) + 1 ∧ t.tab = s.tab ∧ t.fwd = s.fwd) ∧
    (s.ethState n = pTraining → s.faults (.lane n) < 3 → ∃ t, exec (.ethTrainingTimeout n) s = .next t ∧ t.ethState n = pDown ∧
      t.fd (R.ethStatus n) 23 16 = 4 ∧ t.tab = s.tab ∧ t.fwd = s.fwd ∧
      t.faults (.lane n) = s.faults (.lane n) + (if s.laneGood n = true then 1 else 0)) ∧
    (∀ c, s.ethState n = pDisabled → exec (.ethLinkLost n c) s = .next s) ∧
    (∀ c, s.ethState n ≠ pUp → s.ethState n ≠ pDisabled → ∃ t, exec (.ethLinkLost n c) s = .next t ∧
      t.ethState n = (if c = .signal ∧ (s.lane n).change = true then pDown else s.ethState n) ∧
      (c = .signal → t.bt (R.ethStatus n) 3 = false) ∧ (c = .phyLink → t.bt (R.ethStatus n) 6 = false) ∧ t.tab = s.tab ∧ t.fwd = s.fwd) ∧
    (∀ c, s.cmd.remoteWait = [] → s.ethState n = pUp → s.idlePort n.val → s.faults (.lane n) < 3 → ∃ t, exec (.ethLinkLost n c) s = .next t ∧
      t.ethState n = pDown ∧ t.wide (R.ethCnt n 11) = s.wide (R.ethCnt n 11) + 1 ∧ t.tab.sameConfig s.tab ∧
      t.wide (R.ethCnt n 10) = s.wide (R.ethCnt n 10) + (if c = .fecBurst ∧ s.ethFec n ≠ 0 then 8 else 0) ∧
      (c = .signal → t.bt (R.ethStatus n) 3 = false) ∧ (c = .phyLink → t.bt (R.ethStatus n) 6 = false) ∧
      (c ≠ .fecAlign → t.fd (R.ethStatus n) 23 16 =
        match c with | .signal => 1 | .blockLock => 2 | .phyLink => 3 | .fecBurst => 6 | .fecAlign => 0)) ∧
    ((s.lane n).retune = false ∨ s.ethState n = pUp → ∀ b, exec (.laneRetuneDone n b) s = .next s) ∧
    ((s.lane n).retune = true → s.ethState n ≠ pUp → ∀ b, ∃ t, exec (.laneRetuneDone n b) s = .next t ∧ (t.lane n).retune = false ∧
      t.ethState n = (if b then (if (s.lane n).change = true then pDown else s.ethState n)
        else if s.bt (R.ethStatus n) 3 = true ∧ s.ethState n = pDown then pTraining else s.ethState n) ∧
      (b = true → t.bt (R.ethStatus n) 3 = false) ∧ t.tab = s.tab) ∧
    (s.portUp n = true → s.bt (R.gteCfg n) 16 = false → (s.egOf n).mmReplied = false → 1 ≤ (s.egOf n).mmTries → (s.egOf n).mmTries ≤ 3 →
      ∃ t, exec (.mmVerifyTimer n) s = .next t ∧ (t.egOf n).mmTries = (s.egOf n).mmTries + 1 ∧
        t.out = s.out ++ (if (s.egOf n).mmTries < 3 then [.mm n] else []) ∧ t.reg = s.reg) ∧
    (∀ ms, s.phyPoll n = false ∨ ms < s.fd (R.mdioCfg (n.val / 4)) 23 16 → exec (.mdioLinkPoll n ms) s = .next s) ∧
    (∀ ms, s.phyPoll n = true → s.ethModeNo n ≠ 0 → s.fd (R.mdioCfg (n.val / 4)) 23 16 ≤ ms →
      let x : MdioReq := { who := .poll, port := n.val, dev := 1, reg := 1, read := true, data := 0 }
      (s.mdioQ (n.val / 4) = [] → exec (.mdioLinkPoll n ms) s = .next ((s.setMdioQ (n.val / 4) [x]).emit
        (.mdio (n.val / 4) (BitVec.ofNat 5 (s.fd (R.ethMode n) 12 8)) 1 1 none))) ∧
      (∀ y l, s.mdioQ (n.val / 4) = y :: l → exec (.mdioLinkPoll n ms) s = .next (s.setMdioQ (n.val / 4) (y :: mdioInsert x l))) ∧
      (∀ (d : BitVec 16) (b : Bool), s.mdioQ (n.val / 4) = [x] → (bit d 2 = true ∨ s.ethState n ≠ pUp) → exec (.mdioAccessDone (Fin.ofNat 4 (n.val / 4)) d b) s =
          .next ((s.setMdioQ (n.val / 4) []).setBt (R.ethStatus n) 6 (bit d 2)))) ∧
    (∀ (p : Part) (m : Fin 4) (v : W32), s.mayWrite p (R.mdioAcc m) → bit v 31 = true → bit (s.rgp p (R.mdioAcc m)) 31 = false →
      let port := 4 * m.val + fld (s.rgp p (R.mdioReg m)) 22 21
      let x : MdioReq := { who := .part p, port := port, dev := BitVec.ofNat 5 (fld (s.rgp p (R.mdioReg m)) 20 16)
                           reg := BitVec.ofNat 16 (fld (s.rgp p (R.mdioReg m)) 15 0), read := bit v 16, data := v.setWidth 16 }
      s.holds p .port port = true → ∃ t, exec (.mdioAccessStart p m v) s = .next t ∧ bit (t.rgp p (R.mdioAcc m)) 31 = true ∧ t.tab = s.tab ∧
        (s.mdioQ m = [] → t.mdioQ m = [x] ∧ t.out = s.out ++
          [.mdio m (BitVec.ofNat 5 (s.fd (R.ethMode port) 12 8)) x.dev x.reg (if x.read then none else some x.data)]) ∧
        (∀ y l, s.mdioQ m = y :: l → t.mdioQ m = y :: mdioInsert x l ∧ t.out = s.out)) ∧
    (∀ (m : Fin 4) (d : BitVec 16) (b : Bool), s.mdioQ m = [] → exec (.mdioAccessDone m d b) s = .next s) ∧
    (∀ (m : Fin 4) (d : BitVec 16) (b : Bool) (p : Part) x r, s.mdioQ m = x :: r → x.who = .part p → ∃ t,
      exec (.mdioAccessDone m d b) s = .next t ∧ t.mdioQ m = r ∧ bit (t.rgp p (R.mdioAcc m)) 31 = false ∧
      (x.read = true → fld (t.rgp p (R.mdioAcc m)) 15 0 = d.toNat ∧ bit (t.rgp p (R.mdioAcc m)) 30 = b) ∧
      (x.read = false → fld (t.rgp p (R.mdioAcc m)) 15 0 = fld (s.rgp p (R.mdioAcc m)) 15 0) ∧
      t.out = s.out ++ (match r with
        | [] => []
        | y :: _ => [.mdio m (BitVec.ofNat 5 (s.fd (R.ethMode y.port) 12 8)) y.dev y.reg (if y.read then none else some y.data)]) ∧
      t.tab = s.tab)

/-- An enabled T1S port that is no follower is UP after its timer, a follower when it receives a BEACON, and DOWN after the loss of
four. A CAN controller goes bus-off, counts it, and is error-active again only with auto_recover. A LIN commander sends the
header of an inserted slot, or of the next slot of its schedule, and waits for a response; while a frame with its PID waits in
no queue; a responder that hears a header with a rate more than 15 percent away only counts it, and otherwise waits for a
response where no frame with its PID waits; a missing response is counted. A FlexRay controller that does not transmit only
shows the cycle; its key slot without a buffer sends a null frame, and so does a coldstart node in startup; in the buffer's
cycle a static slot takes the waiting copy of its buffer; a change of its operation state shows in its status. The first checker
fault of a CAN controller restarts it error-active and counts; a retired one stays; a port that is no bus or T1S port is no
operand of BUS_CTRL_FAULT. Ports have nothing in flight here. -/
def Obligations.BusPortsFollowTheirStates : Prop :=
  ∀ s : State, s.works → s.portsStopped = false → s.cmd.remoteWait = [] →
    (∀ n : Fin 8, s.t1sState n = pDown → s.bt (R.t1sCfg n) 0 = true →
      (s.t1sFollower n = false → exec (.t1sUpTimer n) s = .next (s.setFd (R.t1sStatus n) 2 0 pUp) ∧ exec (.t1sBeaconReceived n) s = .next s) ∧
      (s.t1sFollower n = true → exec (.t1sBeaconReceived n) s = .next (s.setFd (R.t1sStatus n) 2 0 pUp) ∧ exec (.t1sUpTimer n) s = .next s)) ∧
    (∀ n : Fin 8, s.t1sState n = pUp → s.t1sFollower n = true → s.idlePort (0x10 + n) → ∃ t, exec (.t1sBeaconLoss n) s = .next t ∧
      t.t1sState n = pDown ∧ t.tab.sameConfig s.tab) ∧
    (∀ n : Fin 8, s.t1sState n ≠ pUp ∨ s.t1sFollower n = false → exec (.t1sBeaconLoss n) s = .next s) ∧
    (∀ n : Fin 48, s.portUp (0x20 + n) = true → s.idlePort (0x20 + n) → ∃ t, exec (.canBusOff n) s = .next t ∧ t.canState n = 2 ∧
      t.rg (R.canCnt n 4) = satInc (s.rg (R.canCnt n 4)) 1 ∧ t.tab.sameConfig s.tab) ∧
    (∀ n : Fin 48, s.portUp (0x20 + n) = false → exec (.canBusOff n) s = .next s) ∧
    (∀ n : Fin 48, s.canState n = 2 → s.retired (0x20 + n) = false →
      (s.bt (R.canCfg n) 5 = true → exec (.canBusOffRecovered n) s = .next (s.setRg (R.canStatus n) 0)) ∧
      (s.bt (R.canCfg n) 5 = false → exec (.canBusOffRecovered n) s = .next s)) ∧
    (∀ n : Fin 24, s.fd (R.linCfg n) 1 0 = 1 → s.portUp (0x50 + n) = true → (s.egOf (0x50 + n)).tx = none →
      (∀ pid b r, (s.lin n).inserted = (pid, b) :: r → s.linReady (0x50 + n) pid = [] → ∃ t, exec (.linScheduleSlot n) s = .next t ∧
        t.out = s.out ++ [.linHeader n pid] ∧ (t.lin n).inserted = r ∧ (t.lin n).header = some pid ∧ (t.lin n).own = true ∧ t.reg = s.reg) ∧
      (∀ k, (s.lin n).inserted = [] → k = (if s.linEnabled n (s.lin n).slot then (s.lin n).slot else 0) →
        (s.linEnabled n k = false → exec (.linScheduleSlot n) s = .next s) ∧
        (s.linEnabled n k = true → s.linReady (0x50 + n) (BitVec.ofNat 8 (linPid (s.fd (R.linSlot n k) 5 0))) = [] →
          ∃ t, exec (.linScheduleSlot n) s = .next t ∧ (t.lin n).slot = k + 1 ∧ t.reg = s.reg ∧
            (t.lin n).header = some (BitVec.ofNat 8 (linPid (s.fd (R.linSlot n k) 5 0))) ∧
            t.out = s.out ++ [.linHeader n (BitVec.ofNat 8 (linPid (s.fd (R.linSlot n k) 5 0)))]))) ∧
    (∀ (n : Fin 24) (pid : Byte) (rate : Nat), s.fd (R.linCfg n) 1 0 = 2 → s.portUp (0x50 + n) = true → (s.egOf (0x50 + n)).tx = none →
      (15 * s.fd (R.linCfg n) 30 16 < 100 * (max rate (s.fd (R.linCfg n) 30 16) - min rate (s.fd (R.linCfg n) 30 16)) →
        exec (.linHeaderReceived n pid rate) s = .next (s.count (R.linCnt n 4))) ∧
      (100 * (max rate (s.fd (R.linCfg n) 30 16) - min rate (s.fd (R.linCfg n) 30 16)) ≤ 15 * s.fd (R.linCfg n) 30 16 →
        s.linReady (0x50 + n) pid = [] →
        exec (.linHeaderReceived n pid rate) s = .next (s.setLin n { s.lin n with header := some pid, own := false, publish := false }))) ∧
    (∀ n : Fin 24, ((s.lin n).header = none → exec (.linResponseTimeout n) s = .next s) ∧
      ((s.lin n).header ≠ none → exec (.linResponseTimeout n) s =
        .next ((s.setLin n { s.lin n with header := none }).count (R.linCnt n 3)))) ∧
    (∀ (f : Fin 2) (b : Bool) (cyc : BitVec 6) (slot : BitVec 11) (left : Nat), let c := 0x68 + 2 * f.val + (if b then 1 else 0)
      let shown := s.setFd (R.frStatus f) 9 4 cyc.toNat
      let null := shown.emit (.nullFrame (BitVec.ofNat 8 c) slot)
      let sends := s.fd (R.frCfg f) 1 0 = 1 ∧ s.bt (R.frCfg f) (4 + (if b then 1 else 0)) = true
      let key := s.bt (R.frCfg f) 3 = true ∧ s.fd (R.frNode f) 10 0 = slot.toNat
      (s.portUp c = false → ¬ (sends ∧ s.frStartup f slot.toNat = true) → exec (.frSlot f b cyc ⟨slot, left⟩) s = .next s) ∧
      (s.portUp c = false → sends → s.frStartup f slot.toNat = true → exec (.frSlot f b cyc ⟨slot, left⟩) s = .next null) ∧
      (s.portUp c = true → s.fd (R.frStatus f) 2 0 ≠ 3 → exec (.frSlot f b cyc ⟨slot, left⟩) s = .next shown) ∧
      (s.portUp c = true → s.fd (R.frStatus f) 2 0 = 3 → sends → (s.egOf c).tx = none →
        (key → s.frBuffersOf c slot.toNat = [] → exec (.frSlot f b cyc ⟨slot, left⟩) s = .next null) ∧
        (∀ k x, ¬ key → slot.toNat ≤ s.fd (R.frStatic f) 9 0 → s.frSlotBuffer f (if b then 1 else 0) cyc.toNat slot.toNat = some k →
          kvGet none s.lnk.frWait ((c - 0x68) * 128 + k) = some x → ∃ t y, exec (.frSlot f b cyc ⟨slot, left⟩) s = .next t ∧
          (t.egOf c).tx = some y ∧ y.copy.frame = x.frame ∧ kvGet none t.lnk.frWait ((c - 0x68) * 128 + k) = none ∧
          t.fd (R.frStatus f) 9 4 = cyc.toNat ∧ t.tab = s.tab))) ∧
    (∀ (f : Fin 2) (poc : Fin 6), s.fd (R.frCfg f) 1 0 ≠ 0 → s.retired (0x68 + 2 * f) = false →
      (s.idlePort (0x68 + 2 * f) ∧ s.idlePort (0x69 + 2 * f)) → ∃ t, exec (.frPocChange f poc) s = .next t ∧
        t.fd (R.frStatus f) 2 0 = poc.val ∧ t.tab.sameConfig s.tab ∧ t.out = s.out) ∧
    (∀ (c : PortCode), isBus c.toNat = false → isS c.toNat = false → exec (.busCtrlFault c) s = .fault (.operandOutsideSpec "BUS_CTRL_FAULT")) ∧
    (∀ (c : PortCode), isC c.toNat = true → s.retired c.toNat = true → exec (.busCtrlFault c) s = .next s) ∧
    (∀ (c : PortCode), isC c.toNat = true → s.retired c.toNat = false → s.idlePort c.toNat → s.boundsOf c.toNat = [] → s.faults (.busPort c) = 0 →
      ∃ t, exec (.busCtrlFault c) s = .next t ∧ t.faults (.busPort c) = 1 ∧ t.tab.sameConfig s.tab ∧
        (s.canState (c.toNat - 0x20) ≠ 3 → t.canState (c.toNat - 0x20) = 0) ∧ (s.canState (c.toNat - 0x20) = 3 → t.canState (c.toNat - 0x20) = 3))

/-- The loss of Sync takes a LOCKED domain to HOLDOVER, counts it, sets its rate to the negative of its integral (clamped; its
rounding is free, log entry 1) and leaves its time; in another state it changes nothing. A selector evaluation never moves
presented time; it takes a FAULT domain whose PLL runs to ACQUIRE, changes no other state, selects the fixed domain where one is
set, and otherwise the other domain when only that one is LOCKED. A PLL loss puts an enabled domain into FAULT and keeps its
time base; the relock only clears the loss. A servo parity error reloads rate and integral from the mirror. A message timer
sends nothing from a port that is not UP, is not a master of the domain or has no link delay service; sending advances the
port's sequence number and no other clock state. A first edge of an enabled PPS input is stamped within 4 ns of P and waits for
its label; an edge less than 0.999 s after the last is only counted as bad. ZDA starts on the selected sentence port, as a frame
of port code 0x7C where LOCAL admits it, or is counted late and waits while that port sends; none is sent while UTC is negative
or the port is not UP. Of the leaps of TSU_UTC_NEXT and of the selected domain, the first that is due applies: one second after
(insertion) or before (deletion) the end of its day, or at once where that day had ended before; it changes TSU_UTC.offset by
one, is no longer scheduled and moves no clock. -/
def Obligations.TimeDomainsKeepPresentedTime : Prop :=
  ∀ s : State, s.works →
    (∀ x : Fin 2, (s.domState x ≠ domLocked → exec (.syncReceiptTimeout x) s = .next s) ∧
      (s.domState x = domLocked → ∃ t : State, exec (.syncReceiptTimeout x) s = .next t ∧ t.domState x = domHoldover ∧
        t.rg (R.syncTmo x) = satInc (s.rg (R.syncTmo x)) 1 ∧ (t.dom x).fine = (s.dom x).fine ∧ (t.dom x).integ = (s.dom x).integ ∧
        clampInt rateMax (-(s.dom x).integ * 256 / integUnit) ≤ (t.dom x).rate ∧
        (t.dom x).rate ≤ clampInt rateMax (-(s.dom x).integ * 256 / integUnit + 1) ∧
        t.rg (R.domRate x) = BitVec.ofInt 32 (t.dom x).rate ∧ t.dom (1 - x.val) = s.dom (1 - x.val) ∧ t.tab = s.tab)) ∧
    (∃ t : State, exec .selectorEvaluation s = .next t ∧ t.pFine = s.pFine ∧ t.tab = s.tab ∧ t.fwd = s.fwd ∧
      (∀ x : Fin 2, (t.dom x).fine = (s.dom x).fine ∧ t.domState x =
        if s.domState x = domFault ∧ (s.dom x).pllLost = false then domAcquire else s.domState x) ∧
      (s.fd R.tsuCtl 1 0 < 2 → t.tsel = s.fd R.tsuCtl 1 0) ∧
      (2 ≤ s.fd R.tsuCtl 1 0 → s.domState s.tsel ≠ domLocked → s.domState (1 - s.tsel) = domLocked → t.tsel = 1 - s.tsel) ∧
      (2 ≤ s.fd R.tsuCtl 1 0 → s.domState s.tsel = domLocked → s.bt R.tsuCtl 2 = false → t.tsel = s.tsel)) ∧
    exec .deltaSlewDone s = .next (s.setBt R.tsuStatus 1 (s.tsu.delta != 0)) ∧
    (∀ x : Fin 2, ∃ t : State, exec (.tclkPllUnlock x) s = .next t ∧ (t.dom x).pllLost = true ∧ (t.dom x).fine = (s.dom x).fine ∧
      t.domState x = (if s.domState x = domOff then domOff else domFault) ∧ t.dom (1 - x.val) = s.dom (1 - x.val) ∧ t.tab = s.tab) ∧
    (∀ x : Fin 2, ∃ t : State, exec (.tclkPllRelock x) s = .next t ∧ t.dom x = { s.dom x with pllLost := false } ∧
      t.domState x = s.domState x ∧ t.dom (1 - x.val) = s.dom (1 - x.val) ∧ t.tab = s.tab) ∧
    (∀ x : Fin 2, ∃ t : State, exec (.tsuServoParityError x) s = .next t ∧
      t.dom x = { s.dom x with rate := (s.dom x).mRate, integ := (s.dom x).mInteg } ∧
      t.rg (R.domRate x) = BitVec.ofInt 32 (s.dom x).mRate ∧ t.domState x = s.domState x ∧ t.tab = s.tab) ∧
    (∀ (n : EPort) (x : Fin 2) (k : GptpTx),
      (s.portUp n = false → exec (.gptpTxTimer n x k) s = .next s) ∧
      (k = .pdelayReq → s.cmlds n = false → exec (.gptpTxTimer n x k) s = .next s) ∧
      (k ≠ .pdelayReq → (s.domEn x && s.gptpPortOf n x && s.isMaster x n) = false → exec (.gptpTxTimer n x k) s = .next s) ∧
      (k = .pdelayReq → s.portUp n = true → s.cmlds n = true → ∃ t : State, exec (.gptpTxTimer n x k) s = .next t ∧
        (t.gport n).seq = (s.gport n).seq + 1 ∧ t.tsu.dom = s.tsu.dom ∧ t.tsu.delta = s.tsu.delta ∧ t.tab = s.tab) ∧
      (k ≠ .pdelayReq → s.portUp n = true → s.domEn x = true → s.gptpPortOf n x = true → s.isMaster x n = true →
        ∃ t : State, exec (.gptpTxTimer n x k) s = .next t ∧ (t.gport n).syncId = (s.gport n).syncId + 1 ∧
          t.tsu.dom = s.tsu.dom ∧ t.tsu.delta = s.tsu.delta ∧ t.tab = s.tab)) ∧
    (∀ n : Fin 4, (s.bt (R.ppsCfg n) 0 = false → exec (.ppsEdge n) s = .next s) ∧
      (s.bt (R.ppsCfg n) 0 = true → (s.pps n).edge = none → (s.pps n).nextLabel = none → ∃ (t : State) (k : Int), 0 ≤ k ∧ k ≤ 8 ∧
        exec (.ppsEdge n) s = .next t ∧ (t.pps n).edge = some { at_ := BitVec.ofInt 64 (s.pNs + k - 4), k := 1, labelled := false } ∧
        t.rg (R.ppsStamp n) = BitVec.ofInt 32 (s.pNs + k - 4) ∧ t.rg (R.ppsOfs n) = 0x8000_0000 ∧ t.tsu.dom = s.tsu.dom ∧ t.tab = s.tab) ∧
      (∀ e, s.bt (R.ppsCfg n) 0 = true → (s.pps n).edge = some e → e.at_.toNat + 4 ≤ s.pNs → s.pNs + 4 ≤ e.at_.toNat + 999000000 →
        s.pNs + 8 < 2 ^ 64 → exec (.ppsEdge n) s = .next ({ s with free := s.free + 1 }.count R.ppsBad))) ∧
    (∀ c, c = s.fd R.senout 2 1 →
      (s.bt R.senout 0 = false ∨ s.utcSec < 0 ∨ s.portUp (0x6C + c) = false → exec .zdaSend s = .next s) ∧
      (s.bt R.senout 0 = true → 0 ≤ s.utcSec → s.portUp (0x6C + c) = true →
        ((s.egOf (0x6C + c)).tx ≠ none → exec .zdaSend s = .next { s.count R.senLate with tsu.zdaWait := some c }) ∧
        ((s.egOf (0x6C + c)).tx = none → s.admits acctLocal (s.admOf 7) = true → (∀ f ∈ s.fwd.frames, f.id < s.fwd.nextFrame) →
          ∃ t f y, exec .zdaSend s = .next t ∧ (t.egOf (0x6C + c)).tx = some y ∧ y.copy.frame = f.id ∧ t.frame f.id = some f ∧
            f.bytes = s.zdaText ∧ f.desc.ingress = 0x7C ∧ t.tab = s.tab))) ∧
    ((∀ l ∈ s.leaps, l.late = false ∧ s.utcSec < (l.day + 1) * 86400 + (if l.insert then 1 else -1)) → exec .leapApply s = .next s) ∧
    (∀ l, s.leaps.find? (fun l => l.late || decide ((l.day + 1) * 86400 + (if l.insert then 1 else -1) ≤ s.utcSec)) = some l →
      ∃ t : State, exec .leapApply s = .next t ∧ t.fd R.utc 7 0 = (s.fd R.utc 7 0 + (if l.insert then 1 else 255)) % 256 ∧
        (s.setLeap.any l.same = true → t.fd R.utcNext 25 24 = 0 ∧ t.tsu.leapLate = false) ∧
        (s.announcedLeap.any l.same = true → (t.dom t.tsel).leap61 = false ∧ (t.dom t.tsel).leap59 = false) ∧
        t.pFine = s.pFine ∧ t.tab = s.tab)

/-- An edge or an index pulse of a turntable that is OFF and not enabled changes nothing; the first edge of an enabled one takes it
to ACQUIRE at position 0, or at the index position where an index pulse waits. In quadrature each edge moves the position by one
in its direction, a pair that changed together by two in the direction in force; outside TRACKING in the other modes by one
upward. In single-edge TRACKING the interval test (R201) says whether the edge is extra (counted as such, position kept),
normal, or follows missing edges (position moved by all of them, those missing counted), and too many missing send the turntable
to ACQUIRE. An index pulse waits, stamped within 3 ns, once the turntable is enabled. A stall goes from ACQUIRE or TRACKING to
STALLED, counts it, and counts a lost track from TRACKING. A trigger on a turntable does nothing unless it is armed, in
TRACKING, in its direction and this crossing was not seen; on a revolution it does not select it only remembers the crossing;
else its pin goes active and counts, or, active already, shows an overlap. A trigger on time does the same, once, at each
instant base + k × period less lead_ns, within 3 ns. The end of a pulse drives the inactive level. The next entry of a timetable
under time starts at its instant, under a turntable at its upward crossing while it is in TRACKING and moves up, once for each
revolution count: entry number, gates and hold show in GTE_STATUS, and a hold that takes effect preempts a preemptable frame in
transmission that has a legal point left; a pending timetable, its turntable moving up in TRACKING where it has one, comes into
force at its entry 0 and is no longer pending. -/
def Obligations.PhaseHardwareFollowsItsInputs : Prop :=
  ∀ s : State, s.works →
    (∀ (n : Fin 16) (a b : Bool) (g : Nat), s.ttState n = ttOff → s.bt (R.ttCfg n) 0 = false → exec (.ttCountedEdge n a b g) s = .next s) ∧
    (∀ (n : Fin 16) (a : Bool) (g : Nat), s.ttState n = ttOff → s.bt (R.ttCfg n) 0 = true → 2 ≤ s.fd (R.ttCfg n) 23 16 → ∃ t : State,
      exec (.ttCountedEdge n a false g) s = .next t ∧ t.ttState n = ttAcquire ∧ t.tab = s.tab ∧ t.fwd = s.fwd ∧
      (t.tt n).p = (if (s.tt n).idxPend = none then 0 else idxDiff (s.fd (R.ttIdx n) 19 0) 0 (s.cpr n))) ∧
    (∀ (n : Fin 16) (a b : Bool) (g : Nat), s.ttState n ≠ ttOff → (s.tt n).first = false → (s.tt n).idxPend = none → ∃ t : State,
      exec (.ttCountedEdge n a b g) s = .next t ∧ t.tab = s.tab ∧
      (s.ttState n ≠ ttAcquire → 2 ≤ s.fd (R.ttCfg n) 23 16 → t.fwd = s.fwd ∧ t.out = s.out) ∧
      t.rg (R.ttCnt n 1) = satInc (s.rg (R.ttCnt n 1)) g ∧
      (s.ttMode n = 0 → b = false → (t.tt n).p = (s.tt n).p + (if a = s.bt (R.ttCfg n) 4 then -1 else 1) ∧
        t.rg (R.ttCnt n 0) = satInc (s.rg (R.ttCnt n 0)) 1 ∧ t.bt (R.ttStatus n) 2 = (a == s.bt (R.ttCfg n) 4)) ∧
      (s.ttMode n = 0 → b = true → (t.tt n).p = (s.tt n).p + (if s.bt (R.ttStatus n) 2 = true then -2 else 2) ∧
        t.rg (R.ttCnt n 4) = satInc (s.rg (R.ttCnt n 4)) 1) ∧
      (s.ttMode n ≠ 0 → s.ttState n ≠ ttTracking → (t.tt n).p = (s.tt n).p + 1 ∧ t.rg (R.ttCnt n 0) = satInc (s.rg (R.ttCnt n 0)) 1) ∧
      (∀ e, s.ttMode n = 1 → s.ttState n = ttTracking → 2 ≤ s.fd (R.ttCfg n) 23 16 → (s.tt n).lastEdge = some e → ∃ k : Int, 0 ≤ k ∧ k ≤ 6 ∧
        match edgeCase (s.fd (R.ttCfg n) 27 24) (s.fd (R.ttCfg n) 30 28) (s.velocity n)
          ((BitVec.ofInt 64 (s.pNs + k - 3)).toNat - e.toNat) with
        | .extra => (t.tt n).p = (s.tt n).p ∧ t.rg (R.ttCnt n 2) = satInc (s.rg (R.ttCnt n 2)) 1 ∧ t.rg (R.ttCnt n 0) = s.rg (R.ttCnt n 0)
        | .normal => (t.tt n).p = (s.tt n).p + 1 ∧ t.rg (R.ttCnt n 0) = satInc (s.rg (R.ttCnt n 0)) 1
        | .missing m => (t.tt n).p = (s.tt n).p + (m + 1) ∧ t.rg (R.ttCnt n 3) = satInc (s.rg (R.ttCnt n 3)) m
        | .tooMany m => (t.tt n).p = (s.tt n).p + (m + 1) ∧ t.rg (R.ttCnt n 3) = satInc (s.rg (R.ttCnt n 3)) m ∧ t.ttState n = ttAcquire)) ∧
    (∀ (n : Fin 16) (g : Nat), let runs := s.ttState n ≠ ttOff ∨ s.bt (R.ttCfg n) 0 = true
      (¬ runs → exec (.ttIndexEdge n g) s = .next s) ∧
      (runs → s.idxOn n = false → exec (.ttIndexEdge n g) s = .next (s.count (R.ttCnt n 1) g)) ∧
      (runs → s.idxOn n = true → ∃ (t : State) (k : Int), 0 ≤ k ∧ k ≤ 6 ∧ exec (.ttIndexEdge n g) s = .next t ∧
        t.tt n = { s.tt n with idxPend := some (BitVec.ofInt 64 (s.pNs + k - 3)) } ∧ t.reg = (s.count (R.ttCnt n 1) g).reg ∧ t.tab = s.tab)) ∧
    (∀ n : Fin 16, (s.ttState n ≠ ttAcquire → s.ttState n ≠ ttTracking → exec (.ttStallTimeout n) s = .next s) ∧
      (s.ttState n = ttAcquire ∨ s.ttState n = ttTracking → ∃ t : State, exec (.ttStallTimeout n) s = .next t ∧ t.ttState n = ttStalled ∧
        t.rg (R.ttVel n) = velWord (s.cpr n) 0 ∧ t.bt (R.ttStatus n) 5 = true ∧ t.rg (R.ttCnt n 9) = satInc (s.rg (R.ttCnt n 9)) 1 ∧
        t.rg (R.ttCnt n 10) = (if s.ttState n = ttTracking then satInc (s.rg (R.ttCnt n 10)) 1 else s.rg (R.ttCnt n 10)) ∧
        (t.tt n).p = (s.tt n).p ∧ t.tab = s.tab ∧ t.fwd = s.fwd)) ∧
    (∀ m : Fin 32, let n := s.fd (R.trgCfg m) 5 2; let dir := s.fd (R.trgCfg m) 7 6
      let rev := nearestRev (s.turns n (s.phi n (s.pNs + s.fd (R.trgCfg m) 29 20))) (s.fd (R.trgTgt m) 23 0)
      let down := decide (s.velocity n < 0); let div := s.fd (R.trgCfg m) 11 9
      let ready := s.bt (R.trgCfg m) 0 = true ∧ s.bt (R.trgCfg m) 1 = false ∧ s.ttState n = ttTracking ∧
        (dir = 2 ∨ dir = (if down = true then 1 else 0)) ∧ (rev, down) ∉ (s.trg m).seen
      let chosen := (rev % 2 ^ div).toNat = s.fd (R.trgCfg m) 18 12 % 2 ^ div
      (¬ ready → exec (.triggerActiveEdge m) s = .next s) ∧
      (ready → ∃ t : State, exec (.triggerActiveEdge m) s = .next t ∧ (t.trg m).seen = (rev, down) :: (s.trg m).seen ∧ t.tab = s.tab ∧
        (¬ chosen → t.reg = s.reg ∧ t.out = s.out ∧ t.pins = s.pins) ∧
        (chosen → s.bt (R.trgStat m) 0 = true → t.reg = (s.setBt (R.trgStat m) 2 true).reg ∧ t.out = s.out ∧ t.pins = s.pins) ∧
        (chosen → s.bt (R.trgStat m) 0 = false → t.bt (R.trgStat m) 0 = true ∧ t.rg (R.trgCount m) = satInc (s.rg (R.trgCount m)) 1 ∧
          t.out = s.out ++ [.trigger m (!s.bt (R.trgCfg m) 8)] ∧ (t.trg m).width = s.fd (R.trgWidth m) 23 0))) ∧
    (∀ m : Fin 32, let base := (s.rg (R.trgBaseLo m)).toNat + (s.rg (R.trgBaseHi m)).toNat * 2 ^ 32
      let period := (s.rg (R.trgPeriod m)).toNat; let lead := s.fd (R.trgCfg m) 29 20
      let now (k : Nat) := base + k * period ≤ s.pNs + lead + 3 ∧ s.pNs + lead ≤ base + k * period + 3
      let armed := s.bt (R.trgCfg m) 0 = true ∧ s.bt (R.trgCfg m) 1 = true
      (¬ armed → exec (.timeTrigger m) s = .next s) ∧
      (1000 ≤ period → (∀ k, ¬ now k) → exec (.timeTrigger m) s = .next s) ∧
      (∀ k : Nat, armed → 1000 ≤ period → now k →
        (((k : Int), false) ∈ (s.trg m).seen → exec (.timeTrigger m) s = .next s) ∧
        (((k : Int), false) ∉ (s.trg m).seen → s.bt (R.trgStat m) 0 = true →
          exec (.timeTrigger m) s = .next ((s.setTrg m { s.trg m with seen := [((k : Int), false)] }).setBt (R.trgStat m) 2 true)) ∧
        (((k : Int), false) ∉ (s.trg m).seen → s.bt (R.trgStat m) 0 = false → ∃ t : State, exec (.timeTrigger m) s = .next t ∧
          t.bt (R.trgStat m) 0 = true ∧ t.rg (R.trgCount m) = satInc (s.rg (R.trgCount m)) 1 ∧
          t.out = s.out ++ [.trigger m (!s.bt (R.trgCfg m) 8)] ∧ (t.trg m).seen = [((k : Int), false)] ∧
          (t.trg m).width = s.fd (R.trgWidth m) 23 0 ∧ t.tab = s.tab))) ∧
    (∀ m : Fin 32, (s.bt (R.trgStat m) 0 = false → exec (.triggerInactiveEdge m) s = .next s) ∧
      (s.bt (R.trgStat m) 0 = true → ∃ t : State, exec (.triggerInactiveEdge m) s = .next t ∧ t.bt (R.trgStat m) 0 = false ∧
        t.out = s.out ++ [.trigger m (s.bt (R.trgCfg m) 8)] ∧ t.rg (R.trgCount m) = s.rg (R.trgCount m) ∧ t.tab = s.tab)) ∧
    (∀ n : EPort, let g := s.gateOf n; let k := if s.fd (R.gteStatus n) 9 0 + 1 < runCount g then s.fd (R.gteStatus n) 9 0 + 1 else 0
      let e := g.entries.getD k 0
      let starts (x : Instr) := ∃ t : State, exec x s = .next t ∧ t.fd (R.gteStatus n) 9 0 = k % 1024 ∧ t.gates n = entGates e ∧
        t.bt (R.gteStatus n) 14 = (if entOp e = 1 then true else if entOp e = 2 then false else s.bt (R.gteStatus n) 14) ∧
        t.bt (R.gteStatus n) 11 = false ∧ t.tab = s.tab ∧ ((s.egOf n).tx = none → t.fwd = s.fwd ∧ t.out = s.out) ∧
        (entOp e = 1 → s.bt (R.gteStatus n) 13 = true → ∀ y, (s.egOf n).tx = some y → s.preemptable n y = true → s.legalPoint n y ≠ none →
          (t.egOf n).tx = none ∧ (t.egOf n).preempted ≠ none)
      (s.bt (R.gteStatus n) 10 = false → exec (.timetableEntryStart n) s = .next s ∧ exec (.timetablePhaseCrossing n) s = .next s) ∧
      (s.bt (R.gteStatus n) 10 = true → ttbSrc g ≠ 3 → starts (.timetableEntryStart n) ∧ exec (.timetablePhaseCrossing n) s = .next s) ∧
      (s.bt (R.gteStatus n) 10 = true → ttbSrc g = 3 → exec (.timetableEntryStart n) s = .next s ∧
        (s.movesUp (ttbTt g) = true → s.startCrossed n k ∉ s.seenStarts n → starts (.timetablePhaseCrossing n)) ∧
        (s.movesUp (ttbTt g) = false ∨ s.startCrossed n k ∈ s.seenStarts n → exec (.timetablePhaseCrossing n) s = .next s)) ∧
      (let p := s.gatePending n
       s.bt (R.gteStatus n) 12 = false ∨ (ttbSrc p = 3 ∧ s.movesUp (ttbTt p) = false) → exec (.timetablePendingStart n) s = .next s) ∧
      (s.bt (R.gteStatus n) 12 = true → (ttbSrc (s.gatePending n) ≠ 3 ∨ s.movesUp (ttbTt (s.gatePending n)) = true) → ∃ t : State, exec (.timetablePendingStart n) s = .next t ∧ t.gateOf n = s.gatePending n ∧
        t.fd (R.gteStatus n) 9 0 = 0 ∧ t.gates n = entGates ((s.gatePending n).entries.getD 0 0) ∧ t.bt (R.gteStatus n) 10 = true ∧
        t.bt (R.gteStatus n) 12 = false ∧ (t.bt (R.gteStatus n) 14 = true ↔ entOp ((s.gatePending n).entries.getD 0 0) = 1) ∧
        t.tab.sameConfig s.tab ∧ ((s.egOf n).tx = none → t.fwd = s.fwd)))

/-- A start of frame is stamped only where the port receives: its replica of P within the accuracy of its medium, less the fixed and
the integrator's compensation, never taken backwards by the replica's error, with the phase of its turntable at the stamp. A
frame needs a start of frame and an UP port, else nothing happens. An Ethernet pause frame is counted and goes no further. A
frame whose account is full is counted under BUF_FULL, sets the sticky bit, holds no cell, and only its reception goes on; an
admitted one takes the next frame number, carries stamp, phase, ingress port and length in its descriptor, and waits for its
end. A good end counts frame and bytes of an admitted frame; an error of length counts beside one of content; an FCS error takes
the frame's unstarted copies out of every queue, the engine and the capture queues, and drops it under RX_ERROR when nothing
else dropped it. FEC codewords count on a port with FEC. A bus frame or sentence of the right length is counted at its port,
uses up its start of frame, takes the header slot that its controller forms, and leaves tables and routes as they are; any other
fails as BUS_RECEIVE_ERROR, which counts what failed. An operand that is not a port of the medium stops by name. -/
def Obligations.FramesEnterThroughTheirPorts : Prop :=
  ∀ s : State, s.works →
    (∀ c : PortCode, let n := c.toNat
      (mediaCode n = false → exec (.frameBoundary c) s = .fault (.operandOutsideSpec "FRAME_BOUNDARY")) ∧
      (mediaCode n = true → s.receives n = false ∨ s.intakeOn = false → exec (.frameBoundary c) s = .next s) ∧
      (mediaCode n = true → s.receives n = true → s.intakeOn = true → ∃ k x : Nat, k ≤ 2 * replicaPs n ∧
        (let own := natOfInt 64 (((s.pFine * 1000 / 2 ^ 32 : Int) + k - replicaPs n - s.fixedPs n - s.rxComp n * 1000) / 1000)
         let last := kvGet 0 s.fwd.lastStamp n
         x = own ∨ (x = last ∧ own < last ∧ last ≤ own + 3)) ∧
        exec (.frameBoundary c) s = .next ({ s with free := s.free + 1, fwd.lastStamp := kvSet 0 s.fwd.lastStamp n x }.setBounds n
          (s.boundsOf n ++ [s.boundAt n x])))) ∧
    (∀ (c : PortCode) (l : List Byte), let n := c.toNat; let plain := if isE n = true then (s.verifyRx n l).2 else l
      let adm := fld (s.intakeClass n (parseEth plain)) 4 3
      (isES n = false ∨ l = [] ∨ maxFrame < l.length → exec (.frameIntake c l) s = .fault (.operandOutsideSpec "FRAME_INTAKE")) ∧
      (isES n = true → l ≠ [] → l.length ≤ maxFrame → (s.boundsOf n = [] ∨ s.portUp n = false → exec (.frameIntake c l) s = .next s) ∧
        (∀ b r, s.boundsOf n = b :: r → s.portUp n = true →
          (isE n = true → beAt l 12 2 = 0x8808 → exec (.frameIntake c l) s = .next (((s.setBounds n r).countWide (R.ethCnt n 4)).setRx n
            (s.rxOf n ++ [{ frame := none, len := l.length + 4 }]))) ∧
          (isE n = false ∨ beAt l 12 2 ≠ 0x8808 → s.admits (acctOf n) adm = false → exec (.frameIntake c l) s =
            .next ((((s.setBounds n r).countDrop 0x10).setBt R.fwdStatus 1 true).setRx n
              (s.rxOf n ++ [{ frame := none, len := l.length + 4 }]))) ∧
          (isE n = false ∨ beAt l 12 2 ≠ 0x8808 → s.admits (acctOf n) adm = true → s.frame s.fwd.nextFrame = none → ∃ t f,
            exec (.frameIntake c l) s = .next t ∧ t.rxOf n = s.rxOf n ++ [{ frame := some s.fwd.nextFrame, len := l.length + 4 }] ∧
            t.boundsOf n = r ∧ t.fwd.nextFrame = s.fwd.nextFrame + 1 ∧ t.tab.sameConfig s.tab ∧
            t.frame s.fwd.nextFrame = some f ∧ f.complete = false ∧ f.desc.ingress = c ∧ f.desc.stamp = b.stampX.setWidth 32 ∧
            f.desc.phase = b.phase ∧ f.desc.length.toNat = plain.length % 65536)))) ∧
    (∀ (c : PortCode) (e : RxEnd), isES c.toNat = false → exec (.frameEnd c e) s = .fault (.operandOutsideSpec "FRAME_END")) ∧
    (∀ (c : PortCode) (e : RxEnd), isES c.toNat = true → (∀ a, e ≠ .mmReply a) → (∀ a b, e ≠ .codewords a b) → s.rxOf c.toNat = [] →
      exec (.frameEnd c e) s = .next s) ∧
    (∀ (c : PortCode) (x : RxFrame) (l : List RxFrame), let n := c.toNat
      let bad := decide (x.len < 64 ∨ s.ethMaxLen n < x.len)
      s.rxOf n = l ++ [x] →
      (isE n = true → x.frame = none →
        let u := if bad = true then (s.setRx n l).countWide (R.ethCnt n 3) else s.setRx n l
        exec (.frameEnd c .good) s = .next u ∧ exec (.frameEnd c .fcs) s = .next (u.countWide (R.ethCnt n 2)) ∧
        exec (.frameEnd c .reassembly) s = .next (u.countWide (R.ethCnt n 2)) ∧
        exec (.frameEnd c .symbol) s = .next (u.countWide (R.ethCnt n 5))) ∧
      (∀ id f, x.frame = some id → s.frame id = some f →
        (∀ (m : EPort) y, (s.lane m).retune = true → (s.egOf m).tx = some y → y.copy.frame ≠ id) →
        (isS n = true ∨ bad = false → ∃ t : State, exec (.frameEnd c .good) s = .next t ∧ t.rxOf n = l ∧
          (isE n = true → t.wide (R.ethCnt n 0) = s.wide (R.ethCnt n 0) + 1 ∧
            t.wide (R.ethCnt n 1) = s.wide (R.ethCnt n 1) + BitVec.ofNat 64 x.len) ∧
          (isS n = true → t.rg (R.t1sCnt (n - 0x10) 0) = satInc (s.rg (R.t1sCnt (n - 0x10) 0)) 1) ∧
          (∀ g, t.frame id = some g → g.complete = true) ∧ t.tab.sameConfig s.tab) ∧
        (isES n = true → ∃ t : State, exec (.frameEnd c .fcs) s = .next t ∧ t.rxOf n = l ∧
          (isE n = true → t.wide (R.ethCnt n 2) = s.wide (R.ethCnt n 2) + 1 ∧
            t.wide (R.ethCnt n 3) = s.wide (R.ethCnt n 3) + (if bad = true then 1 else 0) ∧
            t.wide (R.ethCnt n 0) = s.wide (R.ethCnt n 0)) ∧
          (isS n = true → t.rg (R.t1sCnt (n - 0x10) 1) = satInc (s.rg (R.t1sCnt (n - 0x10) 1)) 1) ∧
          t.wide (R.dropCnt 1) = s.wide (R.dropCnt 1) +
            (if f.desc.drop = 0 ∧ (f.branched = false ∨ s.waitsUnstarted id = true) then 1 else 0) ∧
          (∀ d q, q < 8 → ∀ y ∈ (t.egOf d).queue q, y.frame ≠ id) ∧ (∀ y ∈ t.fwd.tunQ, y.frame ≠ id) ∧
          (∀ q, ∀ y ∈ (t.capq q).copies, y.frame ≠ id) ∧ t.tab.sameConfig s.tab))) ∧
    (∀ (c : PortCode) (a : Fin 4), let n := c.toNat; let e := s.egOf n; let u := s.setEg n { e with addFrag := a.val, mmReplied := true }
      isE n = true → exec (.frameEnd c (.mmReply a)) s =
        .next (if s.portUp n = true ∧ 1 ≤ e.mmTries ∧ e.mmTries ≤ 3 then u.setBt (R.gteStatus n) 13 true else u)) ∧
    (∀ (c : PortCode) (ok bad : BitVec 16), let n := c.toNat
      isE n = true → exec (.frameEnd c (.codewords ok bad)) s =
        .next (if s.ethFec n ≠ 0 then (s.countWide (R.ethCnt n 9) ok.toNat).countWide (R.ethCnt n 10) bad.toNat else s)) ∧
    (∀ (c : PortCode) (h : BitVec 128) (l : List Byte), let n := c.toNat; let hs := s.headerSlot n h l
      (isBus n = false ∨ maxFrame < l.length → exec (.busFrameHandover c h l) s = .fault (.operandOutsideSpec "BUS_FRAME_HANDOVER")) ∧
      (isBus n = true → l.length ≤ maxFrame → (s.boundsOf n = [] ∨ s.receives n = false → exec (.busFrameHandover c h l) s = .next s) ∧
        (s.boundsOf n ≠ [] → mediumLen n h l.length = false → exec (.busFrameHandover c h l) s =
          exec (.busReceiveError c (if isF n = true ∨ isN n = true then .longFrame else .format)) s) ∧
        (∀ b r, s.boundsOf n = b :: r → s.receives n = true → mediumLen n h l.length = true →
          ∃ t : State, exec (.busFrameHandover c h l) s = .next t ∧ t.boundsOf n = r ∧ t.tab.sameConfig s.tab ∧
          (isC n = true → t.rg (R.canCnt (n - 0x20) 0) = satInc (s.rg (R.canCnt (n - 0x20) 0)) 1) ∧
          (isL n = true → t.rg (R.linCnt (n - 0x50) 0) = satInc (s.rg (R.linCnt (n - 0x50) 0)) 1 ∧ (t.lin (n - 0x50)).header = none ∧
            (t.lin (n - 0x50)).own = false ∧ (t.lin (n - 0x50)).publish = false) ∧
          (isF n = true → t.rg (R.frCnt ((n - 0x68) / 2) ((n - 0x68) % 2) 0) =
            satInc (s.rg (R.frCnt ((n - 0x68) / 2) ((n - 0x68) % 2) 0)) 1) ∧
          (isN n = true → t.rg (R.senCnt (n - 0x6C) 0) = satInc (s.rg (R.senCnt (n - 0x6C) 0)) 1 ∧
            (bit hs 0 = true → bit hs 1 = false → t.rg (R.senCnt (n - 0x6C) 2) = satInc (s.rg (R.senCnt (n - 0x6C) 2)) 1)) ∧
          (s.frame s.fwd.nextFrame = none → s.admits (acctOf n) (fld (s.intakeClass n (parseEth l)) 4 3) = true →
            ∀ f, t.frame s.fwd.nextFrame = some f → f.hslot = hs ∧ f.bytes = l ∧ f.desc.ingress = c ∧
              f.desc.stamp = b.stampX.setWidth 32 ∧ f.desc.phase = b.phase)))) ∧
    (∀ (c : PortCode) (e : BusError), let n := c.toNat; let u := s.setBounds n (s.boundsOf n).tail
      (isBus n = false → isS n = false → exec (.busReceiveError c e) s = .fault (.operandOutsideSpec "BUS_RECEIVE_ERROR")) ∧
      (isBus n = true ∨ isS n = true → s.receives n = false → exec (.busReceiveError c e) s = .next s) ∧
      (s.receives n = true →
        (isC n = true → e = .arbLost → exec (.busReceiveError c e) s = .next u) ∧
        (isC n = true → e = .crc ∨ e = .format → ∃ t : State, exec (.busReceiveError c e) s = .next t ∧ t.fwd = u.fwd ∧
          t.rg (R.canCnt (n - 0x20) 2) = satInc (s.rg (R.canCnt (n - 0x20) 2)) 1) ∧
        (isL n = true → (e = .crc → exec (.busReceiveError c e) s = .next (u.count (R.linCnt (n - 0x50) 2))) ∧
          (e = .syncLoss → exec (.busReceiveError c e) s = .next (u.count (R.linCnt (n - 0x50) 4)))) ∧
        (isF n = true → ∀ k, (e = .crc ∧ k = 2) ∨ (e = .nullFrame ∧ k = 3) ∨ (e = .longFrame ∧ k = 4) ∨ (e = .syncLoss ∧ k = 5) →
          exec (.busReceiveError c e) s = .next (u.count (R.frCnt ((n - 0x68) / 2) ((n - 0x68) % 2) k))) ∧
        (isN n = true → ∀ k, (e = .longFrame ∧ k = 3) ∨ (e = .framing ∧ k = 4) →
          exec (.busReceiveError c e) s = .next (u.count (R.senCnt (n - 0x6C) k))) ∧
        (isS n = true → e = .collision → exec (.busReceiveError c e) s = .next (s.count (R.t1sCnt (n - 0x10) 3)))))

/-- An Ethernet port that is not judged (not UP, or in a rate change), or that sends an express frame, is unchanged by a grant. With
a committed or a granted copy still waiting for the line, or with no queue ready, a grant counts each competing head that fails
the length check once in GTE_HOLDBACK and starts nothing. Otherwise the arbiter's winner is charged its length in cells; a
preemptable frame in transmission stops at its next legal point, if it has one; the head is committed where its one-step stamp
qualifies, at an instant between its lead and one block beyond, else it starts when the line is free, or waits for the end of a
frame without a legal point; protection takes a packet number and crypto work, and a head without a transmit SA ends under
TX_FAIL. T1S and sentence ports start the head, CAN ports in the format that the controller sends, FlexRay ports put it in its
buffer; a LIN port is granted nothing here. The end of a whole transmission counts it, shows the frame's bytes and starts the
copy that waited for the line; a frame that is not whole, or still protected, goes on. A CAN frame that lost arbitration, or
failed without one_shot, starts again; with one_shot it ends under TX_FAIL. A preempted frame resumes only beside no express
copy, no committed copy and no hold. A committed copy launches at its committed instant, once. A head whose shaper is empty
after its wait is refused or deferred as its class says. A port code of no medium stops by name. What waits for a slot or for a
sentence port then starts. -/
def Obligations.EgressPortsSendOneCopyAtATime : Prop :=
  ∀ s : State, s.works →
    (∀ c : PortCode, mediaCode c.toNat = false → exec (.egressGrant c) s = .fault (.operandOutsideSpec "EGRESS_GRANT") ∧
      ∀ e, exec (.egressTxComplete c e) s = .fault (.operandOutsideSpec "EGRESS_TX_COMPLETE")) ∧
    (∀ (c : PortCode) (m : EPort), let n := c.toNat; let e := s.egOf n; let line := s.lineFree n
      m.val = n →
      (s.ethOpen n = false ∨ s.contest n = none → exec (.egressGrant c) s = .next s.startRemotes) ∧
      (∀ only, s.ethOpen n = true → s.contest n = some only →
        (e.commit.isSome = true ∨ e.next.isSome = true ∨ s.pick (.eth m) (s.ethReady n only line) = none →
          ∃ t : State, exec (.egressGrant c) s = .next t.startRemotes ∧ (t.egOf n).tx = e.tx ∧ (t.egOf n).preempted = e.preempted ∧
            (t.egOf n).commit = e.commit ∧ (t.egOf n).next = e.next ∧ t.tab = s.tab ∧ t.fwd.frames = s.fwd.frames ∧
            (∀ q, ((t.egOf n).queue q).map (·.frame) = (e.queue q).map (·.frame)) ∧
            t.rg (R.holdback n) = satInc (s.rg (R.holdback n)) ((List.range 8).filter (fun q =>
              match e.queue q with
              | [] => false
              | h :: _ => match s.frame h.frame with
                | none => false
                | some f => s.competes n only q && s.copyReady f h && s.gateOpen n q && !h.heldBack &&
                    !s.fits n q (s.checkLen f h) line)).length) ∧
        (∀ i h r f, e.commit = none → e.next = none → s.pick (.eth m) (s.ethReady n only line) = some i →
          e.queue (7 - i) = h :: r → s.frame h.frame = some f →
          let prot := s.protectsFrame n f; let len := s.lineLength f h
          let commit := h.locked && s.qualifies n (s.oneStepLen n f h) prot
          (prot = true → (s.takePn n).1 = none → ∃ t : State, exec (.egressGrant c) s = .next t.startRemotes ∧
            (t.egOf n).next = none ∧ (t.egOf n).commit = none ∧ t.wide (R.dropCnt 0x1A) = s.wide (R.dropCnt 0x1A) + 1) ∧
          (prot = false ∨ (s.takePn n).1.isSome = true → ∃ t : State, exec (.egressGrant c) s = .next t.startRemotes ∧
            t.arb (.eth m) = (s.arb (.eth m)).grant (s.arbN (.eth m)) i (ceilDiv len 64) ∧ t.tab.sameConfig s.tab ∧
            (prot = true → { req := 16 + n, total := burstsOf len, bursts := burstsOf len, use := .protect c h.frame } ∈ t.cry.work) ∧
            (∀ y b, e.tx = some y → s.legalPoint n y = some b → (t.egOf n).preempted = some { y with sent := b, frags := y.frags + 1 }) ∧
            ((e.tx = none ∨ ∃ y, e.tx = some y ∧ s.legalPoint n y = none) → (t.egOf n).preempted = e.preempted) ∧
            (commit = true → ∃ k, (t.egOf n).commit = some k ∧ k.launched = false ∧ k.copy.frame = h.frame ∧ k.copy.len = len ∧
              max (s.pPs + s.leadPs n prot) line ≤ k.tc ∧ k.tc ≤ max (s.pPs + s.leadPs n prot) line + s.blockPs n) ∧
            (commit = false → ∃ x, x.copy.frame = h.frame ∧ x.copy.len = len ∧ x.start = line ∧ (t.egOf n).commit = none ∧
              (x.copy.sa.isSome = true ↔ prot = true) ∧
              ((e.tx = none ∨ ∃ y b, e.tx = some y ∧ s.legalPoint n y = some b) → (t.egOf n).tx = some x) ∧
              (∀ y, e.tx = some y → s.legalPoint n y = none → (t.egOf n).tx = some y ∧ (t.egOf n).next = some x) ∧
              (h.locked = true ∨ f.desc.stampInsert = true → t.rg R.ostepSkip = satInc (s.rg R.ostepSkip) 1)))))) ∧
    (∀ c : PortCode, isE c.toNat = false → mediaCode c.toNat = true → s.canTake c.toNat = false ∨
      s.pick (.other c) ((List.range 8).filter (fun i => s.otherReady c.toNat (7 - i))) = none →
      exec (.egressGrant c) s = .next s.startRemotes) ∧
    (∀ (c : PortCode) (i : Nat) (h : Copy) (r : List Copy) (f : Frame), let n := c.toNat
      isE n = false → mediaCode n = true → s.canTake n = true →
      s.pick (.other c) ((List.range 8).filter (fun i => s.otherReady n (7 - i))) = some i →
      (s.egOf n).queue (7 - i) = h :: r → s.frame h.frame = some f →
      ∃ t : State, exec (.egressGrant c) s = .next t.startRemotes ∧
        t.arb (.other c) = (s.arb (.other c)).grant (s.arbN (.other c)) i 1 ∧ t.tab.sameConfig s.tab ∧
        (isS n = true ∨ isN n = true → ∃ x, (t.egOf n).tx = some x ∧ x.copy.frame = h.frame ∧ x.start = s.pPs) ∧
        (isC n = true → s.fd (R.canCfg (n - 0x20)) 3 2 < canType f.hslot → (t.egOf n).tx = none ∧
          t.wide (R.dropCnt 0x1A) = s.wide (R.dropCnt 0x1A) + 1) ∧
        (∀ hb, isC n = true → canType f.hslot ≤ s.fd (R.canCfg (n - 0x20)) 3 2 →
          (f.fromQx = false ∧ hb = (f.hslot, f.bytes)) ∨ (f.fromQx = true ∧ (s.protectBus n f.hslot f.bytes).1 = .ok hb) →
          ∃ x, (t.egOf n).tx = some x ∧ x.copy.frame = h.frame ∧ x.start = s.pPs ∧ x.copy.hslot = some hb.1 ∧ x.copy.bytes = some hb.2) ∧
        (isF n = true → let id := imgLe f.hslot 0 2 % 2048; let b := s.frBuffer n id (imgLe f.hslot 2 1 % 64)
          (b = none → t.wide (R.dropCnt 0x1A) = s.wide (R.dropCnt 0x1A) + 1) ∧
          (∀ j, b = some j → s.frFits n j id f.desc.length.toNat = true →
            kvGet none t.lnk.frWait ((n - 0x68) * 128 + j) = some { h with len := f.desc.length.toNat }))) ∧
    (∀ (c : PortCode) (e : TxEnd), mediaCode c.toNat = true →
      (∀ x, (s.egOf c.toNat).tx = some x → s.frame x.copy.frame = none) → exec (.egressTxComplete c e) s = .next s.startRemotes.zdaDelayed) ∧
    (∀ (c : PortCode) (x : Tx) (f : Frame), let n := c.toNat; let e := s.egOf n
      mediaCode n = true → e.tx = some x → s.frame x.copy.frame = some f →
      (f.complete = false ∨ s.protecting c x.copy.frame = true → exec (.egressTxComplete c .done) s = .next s.startRemotes.zdaDelayed) ∧
      (f.complete = true → s.protecting c x.copy.frame = false → (isE n = true → (s.lane n).retune = false) → ∃ t : State,
        exec (.egressTxComplete c .done) s = .next t ∧ t.tab = s.tab ∧
        (isE n = true → (t.egOf n).tx = e.next.map (fun y => { y with start := max s.pPs y.start }) ∧ (t.egOf n).next = none ∧
          (x.copy.locked = true → (t.egOf n).commit = none)) ∧
        (isE n = false → s.tsu.zdaWait = none → (t.egOf n).tx = none) ∧
        (s.cmd.remoteWait = [] → s.tsu.zdaWait = none → ∃ b, t.out = s.out ++ [.frame c (x.copy.hslot.getD f.hslot) b false] ∧
          ∀ y, x.copy.bytes = some y → b = y) ∧
        (isE n = true → t.wide (R.ethCnt n 6) = s.wide (R.ethCnt n 6) + 1 ∧
          t.wide (R.ethCnt n 7) = s.wide (R.ethCnt n 7) + BitVec.ofNat 64 x.copy.len ∧
          t.wide (R.ethCnt n 8) = s.wide (R.ethCnt n 8) + (if 0 < x.frags then 1 else 0)) ∧
        (isS n = true → t.rg (R.t1sCnt (n - 0x10) 2) = satInc (s.rg (R.t1sCnt (n - 0x10) 2)) 1) ∧
        (isC n = true → t.rg (R.canCnt (n - 0x20) 1) = satInc (s.rg (R.canCnt (n - 0x20) 1)) 1) ∧
        (isL n = true → t.rg (R.linCnt (n - 0x50) 1) = satInc (s.rg (R.linCnt (n - 0x50) 1)) 1) ∧
        (isF n = true → t.rg (R.frCnt ((n - 0x68) / 2) ((n - 0x68) % 2) 1) =
          satInc (s.rg (R.frCnt ((n - 0x68) / 2) ((n - 0x68) % 2) 1)) 1) ∧
        (isN n = true → t.rg (R.senCnt (n - 0x6C) 1) = satInc (s.rg (R.senCnt (n - 0x6C) 1)) 1)) ∧
      (isC n = false → exec (.egressTxComplete c .arbLost) s = .next s.startRemotes.zdaDelayed) ∧
      (isE n = true → exec (.egressTxComplete c .busError) s = .next s.startRemotes.zdaDelayed) ∧
      (isC n = true → s.bt (R.canCfg (n - 0x20)) 6 = false → exec (.egressTxComplete c .arbLost) s = .next
        ((s.count (R.canCnt (n - 0x20) 3)).setEg n { s.egOf n with tx := some { x with start := s.pPs } }).startRemotes.zdaDelayed ∧
        exec (.egressTxComplete c .busError) s = .next
        ((s.canTally (n - 0x20) 8 0).setEg n { s.egOf n with tx := some { x with start := s.pPs } }).startRemotes.zdaDelayed) ∧
      (isS n = true → exec (.egressTxComplete c .busError) s = .next
        ((s.count (R.t1sCnt (n - 0x10) 3)).setEg n { s.egOf n with tx := some { x with start := s.pPs } }).startRemotes.zdaDelayed) ∧
      (isC n = true → x.copy.port = c → s.bt (R.canCfg (n - 0x20)) 6 = true → ∃ t : State, exec (.egressTxComplete c .arbLost) s = .next t ∧
        (t.egOf n).tx = none ∧ t.rg (R.canCnt (n - 0x20) 3) = satInc (s.rg (R.canCnt (n - 0x20) 3)) 1 ∧
        (s.cmd.remoteWait = [] → s.tsu.zdaWait = none → t.wide (R.dropCnt 0x1A) = s.wide (R.dropCnt 0x1A) + 1 ∧
          t.rg (R.canCnt (n - 0x20) 5) = satInc (s.rg (R.canCnt (n - 0x20) 5)) 1))) ∧
    (∀ n : EPort, let e := s.egOf n; let line := s.lineFree n
      (e.preempted = none → exec (.preemptResume n) s = .next s) ∧
      (∀ x, e.preempted = some x →
        let resumes := e.tx = none ∧ e.next = none ∧ e.commit = none ∧ s.holdNow n = false ∧ s.portUp n = true ∧
          ((s.lane n).retune = true ∨ s.ethReady n true line = [])
        (¬ resumes → exec (.preemptResume n) s = .next s) ∧
        (resumes → exec (.preemptResume n) s = .next (s.setEg n { e with tx := some { x with start := line }, preempted := none })))) ∧
    (∀ n : EPort, ((s.egOf n).commit = none ∨ (s.egOf n).tx.isSome = true → exec (.committedLaunch n) s = .next s) ∧
      (∀ m, (s.egOf n).commit = some m → m.launched = true → exec (.committedLaunch n) s = .next s) ∧
      (∀ m f, (s.egOf n).commit = some m → m.launched = false → (s.egOf n).tx = none → s.frame m.copy.frame = some f →
        ∃ t x, exec (.committedLaunch n) s = .next t ∧
        (t.egOf n).tx = some x ∧ x.copy.frame = m.copy.frame ∧ x.start = m.tc ∧ (t.egOf n).commit = some { m with launched := true } ∧
        (f.desc.ingress = 0x7C ∨ isE f.desc.ingress.toNat = true → t.rg R.ostepSent = satInc (s.rg R.ostepSent) 1) ∧ t.tab = s.tab)) ∧
    (∀ (c : PortCode) (q : Fin 8), let n := c.toNat
      ((s.egOf n).queue q = [] → exec (.shaperWaitExpire c q) s = .next s) ∧
      (∀ h r, (s.egOf n).queue q = h :: r → (h.shaped ≠ some true ∨ 0 < s.shaperLevel n h.adm ∨ h.locked = true →
          exec (.shaperWaitExpire c q) s = .next s) ∧
        (h.shaped = some true → s.shaperLevel n h.adm ≤ 0 → h.locked = false → ∃ t : State, exec (.shaperWaitExpire c q) s = .next t ∧
          ((t.egOf n).queue q).length ≤ r.length ∧ t.tab = s.tab ∧
          (r = [] → s.polExc h.adm = false → t.wide (R.dropCnt 0x11) = s.wide (R.dropCnt 0x11) + 1) ∧
          (∀ f, r = [] → s.polExc h.adm = true → s.frame h.frame = some f → bit (s.rgp (s.portHolder h.port.toNat) R.admDefer) 6 = true →
            t.wide (R.dropCnt 0x12) = s.wide (R.dropCnt 0x12) + 1))))

/-- At an instance's window start every requester's counter grows by its weight, up to 0xFFFF, and nothing else of the instance
changes but its fill count. The tunnelling engine takes one cell of the oldest copy of the port that its arbiter picks, for one
credit; with its last cell the copy leaves the queue; nothing happens while none is whole. A profile's open AVTPDU closes at the
end of its hold as one frame with the next sequence number; without one nothing happens. A locked sequence that overruns is
abandoned: a committed copy ends and is counted, at its port or as the oldest lock on the slices; a host whose command wrote the
words of an entry is frozen with cause 4; where nothing is locked nothing happens. STREAM_CLEAR clears the latch of one record
and completes with OK, or with BAD_PARAM for an index out of range. An unpinned record whose age is set, and that no ready pour
has set aside, is freed at its expiry; a record's recovery history is reset at its own. -/
def Obligations.ArbitersEnginesAndStreamsGoOn : Prop :=
  ∀ s : State, s.works →
    (∀ a : ArbId, ∃ b : Arb, exec (.arbiterWindowStart a) s = .next (s.setArb a b) ∧ b.fills = 0 ∧ b.c = (s.arb a).c ∧
      b.last = (s.arb a).last ∧ b.grants = (s.arb a).grants ∧
      (∀ i, i < arbCount a → kvGet 0 b.credit i = min (kvGet 0 (s.arb a).credit i + s.arbWeight a i) 0xFFFF) ∧
      (∀ i, arbCount a ≤ i → kvGet 0 b.credit i = kvGet 0 (s.arb a).credit i)) ∧
    ((∀ c, c < 0x70 → s.tunHead c = none) → exec .tunnelGrant s = .next s) ∧
    (∀ c x f, s.pick .tunnel ((List.range 0x70).filter (fun c => (s.tunHead c).isSome)) = some c → s.tunHead c = some (x, f) →
      ∃ t : State, exec .tunnelGrant s = .next t ∧ t.arb .tunnel = (s.arb .tunnel).grant (s.arbN .tunnel) c 1 ∧
        t.tab.sameConfig s.tab ∧ t.fwd.tunQ = (if x.taken + 1 < f.banks.length then
          s.fwd.tunQ.map (fun y => if y = x then { y with taken := y.taken + 1 } else y) else s.fwd.tunQ.erase x) ∧
        (x.taken + 1 < f.banks.length → t.fwd.frames = s.fwd.frames ∧ t.fwd.eg = s.fwd.eg ∧ t.reg = s.reg)) ∧
    (∀ p : Fin 1024, (s.fwd.openPdu.find? (fun x => x.1 == p.val) = none → exec (.aggHoldExpire p) s = .next s) ∧
      (∀ x, s.fwd.openPdu.find? (fun x => x.1 == p.val) = some x → ∃ t : State, exec (.aggHoldExpire p) s = .next t ∧
        t.fwd.openPdu = kvErase s.fwd.openPdu p.val ∧ kvGet 0 t.fwd.avtpTx p.val = kvGet 0 s.fwd.avtpTx p.val + 1 ∧
        t.wide (R.tunCnt 1) = s.wide (R.tunCnt 1) + 1 ∧ t.fwd.nextFrame = s.fwd.nextFrame + 1 ∧ t.tab.sameConfig s.tab)) ∧
    (∀ n : EPort, ((s.egOf n).commit = none → exec (.lockedSequenceTimeout (.eth n)) s = .next s) ∧
      (∀ m, (s.egOf n).commit = some m → m.launched = false ∨ (∃ y, (s.egOf n).tx = some y ∧ y.copy.locked = true ∧ (s.lane n).retune = false) →
        ∃ t : State, exec (.lockedSequenceTimeout (.eth n)) s = .next t ∧ (t.egOf n).commit = none ∧
        t.rg R.ostepLost = satInc (s.rg R.ostepLost) 1 ∧ t.wide (R.dropCnt 0x1B) = s.wide (R.dropCnt 0x1B) + 1 ∧
        (m.slice.isSome = true → s.lockedSlices.length = 1 →
          exec (.lockedSequenceTimeout .crypto) s = .next t))) ∧
    (s.lockedSlices = [] → exec (.lockedSequenceTimeout .crypto) s = .next s) ∧
    (exec (.lockedSequenceTimeout .tunnel) s = .next s ∧ (∀ c, exec (.lockedSequenceTimeout (.capmem c)) s = .next s) ∧
      (∀ c, exec (.lockedSequenceTimeout (.other c)) s = .next s)) ∧
    (s.lockOwner = none → exec (.lockedSequenceTimeout .dispatcher) s = .next s) ∧
    (∀ p, s.lockOwner = some p → p ≠ pm → s.frozen p = false → ∃ t, exec (.lockedSequenceTimeout .dispatcher) s = .next t ∧
      Froze s t p 4 0) ∧
    (∀ (p : Part) (d : CmdDesc), s.runs p d → Imm p d 2 →
      (4096 ≤ d.le 0 2 → exec (.streamClear p d) s = .next (s.answered p d St.badParam 0 [])) ∧
      (d.le 0 2 < 4096 → exec (.streamClear p d) s =
        .next ((s.setStream (d.le 0 2) { s.stream (d.le 0 2) with mafre := false }).answered p d St.ok 0 []))) ∧
    (∀ i : Fin 4096,
      ((s.stream i).used = true → (s.stream i).pinned = false → s.fd R.streamCfg 15 0 ≠ 0 → i.val ∉ s.keptRecords →
        exec (.streamAgeExpire i) s = .next (s.setStream i {})) ∧
      ((s.stream i).used = false ∨ (s.stream i).pinned = true ∨ s.fd R.streamCfg 15 0 = 0 ∨ i.val ∈ s.keptRecords → exec (.streamAgeExpire i) s = .next s) ∧
      ((s.stream i).used = true → exec (.frerResetExpire i) s = .next (s.setStream i { s.stream i with taken := false, history := 0 })) ∧
      ((s.stream i).used = false → exec (.frerResetExpire i) s = .next s))

/-- The drain's end counts only in step 3 of ENTRY; without a TC10 port the SLEEP reply follows at once with OK, and the Ethernet
ports that were UP or TRAINING are DOWN; with one each such PHY is written its sleep code and the sequence waits. A poll of a
port that waits counts, and its read of the PHY joins the bus ahead of all but the access in progress; a read that finds neither
answer waits on; an answer, or the end of the 16 ms after fifteen reads or more, sets the port's bit, and the last port's brings
the reply. The hold's end enters the depth asked for with the entry time recorded, or WAKING at once when a cause is latched
already. In RUN no wake source latches a cause. In STANDBY a wake frame, pattern, pin, T1S activity or the timer of an enabled,
unmasked source latches its cause and begins WAKING; in DEEP it restarts the block with source 6. A wrong decode moves the error
count up by one, to 32, where fall-back starts. WAKING counts its steps up to RUN; a step outside it changes nothing. Wake abuse
of an asserting source masks, counts and reports it; the end of an assertion clears it. -/
def Obligations.SleepAndWakeKeepTheirOrder : Prop :=
  ∀ s : State,
    (s.works → s.pwr ≠ pwEntry ∨ s.slp.stage ≠ 3 → exec .sleepDrainEnd s = .next s) ∧
    (∀ tag irq, s.works → s.pwr = pwEntry → s.slp.stage = 3 → s.slp.cmd = some (tag, irq) → (s.path pm).dropTags = [] → ∃ t : State,
      exec .sleepDrainEnd s = .next t ∧ (∀ n : EPort, s.ethState n = pUp ∨ s.ethState n = pTraining → t.ethState n = pDown) ∧
      t.tab.sameConfig s.tab ∧
      ((∀ n : EPort, s.bt (R.tc10Cfg n) 0 = false) → t.slp.stage = 6 ∧ t.slp.cmd = none ∧
        ∃ r ∈ (t.path pm).done, r.tag = tag ∧ r.status = St.ok) ∧
      (∀ m : EPort, s.bt (R.tc10Cfg m) 0 = true → t.slp.stage = 4 ∧ t.slp.cmd = some (tag, irq) ∧ (m.val, 0) ∈ t.slp.tc10 ∧
        ∃ x ∈ t.mdioQ (m.val / 4), x.who = .tc10 ∧ x.port = m.val ∧ x.read = false ∧ x.data.toNat = s.fd R.tc10Codes 15 0)) ∧
    (∀ (n : EPort) (rd ov : Bool), s.works →
      (s.tc10Waits n = false → exec (.tc10Poll n rd ov) s = .next s) ∧
      (s.tc10Waits n = true → (rd = false ∨ 16 ≤ s.tc10Reads n) → (ov = false ∨ s.tc10Reads n < 15) → exec (.tc10Poll n rd ov) s = .next s) ∧
      (∀ k tag irq, s.pwr = pwEntry → s.slp.stage = 4 → s.slp.tc10 = [(n.val, k)] → 15 ≤ k → s.slp.cmd = some (tag, irq) →
        (s.path pm).dropTags = [] → ∃ t : State, exec (.tc10Poll n rd true) s = .next t ∧ t.slp.stage = 6 ∧ t.slp.tc10 = [] ∧
        t.slp.cmd = none ∧ bit t.slp.badPorts n.val = true ∧ ∃ r ∈ (t.path pm).done, r.tag = tag ∧ r.status = St.ok) ∧
      (s.tc10Waits n = true → s.tc10Reads n < 16 → (ov = false ∨ s.tc10Reads n < 15) → exec (.tc10Poll n true ov) s =
        .next (({ s with slp.tc10 := s.slp.tc10.map (fun x => if x.1 = n.val then (x.1, x.2 + 1) else x) } : State).mdioAdd (n.val / 4)
          { who := .tc10Read, port := n.val, dev := BitVec.ofNat 5 (s.fd R.tc10Reg 20 16)
            reg := BitVec.ofNat 16 (s.fd R.tc10Reg 15 0 + 1), read := true, data := 0 }))) ∧
    (∀ (n : EPort) (m : Fin 4) (w : BitVec 16) (b : Bool) (x : MdioReq) (r : List MdioReq) (k : Nat), s.works →
      s.mdioQ m = x :: r → x.who = .tc10Read → x.port = n.val → s.pwr = pwEntry → s.slp.stage = 4 → s.slp.tc10 = [(n.val, k)] →
      let ack := bit w (s.fd R.tc10Reg 24 21); let rej := bit w (s.fd R.tc10Reg 28 25)
      ∃ t : State, exec (.mdioAccessDone m w b) s = .next t ∧ t.mdioQ m = r ∧
        (ack = false → rej = false → t.slp = s.slp) ∧
        (∀ tag irq, ack = true ∨ rej = true → s.slp.cmd = some (tag, irq) → (s.path pm).dropTags = [] →
          t.slp.stage = 6 ∧ t.slp.tc10 = [] ∧ t.slp.cmd = none ∧
          (ack = true → bit t.slp.okPorts n.val = true) ∧ (ack = false → bit t.slp.badPorts n.val = true) ∧
          ∃ r ∈ (t.path pm).done, r.tag = tag ∧ r.status = St.ok)) ∧
    (s.pwr ≠ pwEntry ∨ s.slp.stage ≠ 6 → exec .sleepHoldEnd s = .next s) ∧
    (s.works → s.pwr = pwEntry → s.slp.stage = 6 → s.slp.mask = 0 → ∃ t : State, exec .sleepHoldEnd s = .next t ∧
      t.pwr = (if s.slp.depth = 2 then pwDeep else pwStandby) ∧ t.slp.pEntry = s.extP ∧ t.slp.recDepth = s.slp.depth ∧
      t.pins.inh = (s.pins.inh && !(s.slp.depth == 2)) ∧ t.tab = s.tab ∧ t.tsu = s.tsu) ∧
    (s.works → s.pwr = pwEntry → s.slp.stage = 6 → s.slp.mask ≠ 0 → s.slp.depth ≠ 2 → ∃ t : State, exec .sleepHoldEnd s = .next t ∧
      t.pwr = pwWaking ∧ t.slp.stage = 1 ∧ t.tab = s.tab) ∧
    (s.pwr = pwRun → (∀ n f k, exec (.canWakeFrame n f k) s = .next s) ∧ (∀ n, exec (.canWakePattern n) s = .next s) ∧
      (∀ n, exec (.t1sActivity n) s = .next s) ∧ exec .wakeTimerExpire s = .next s ∧
      (∀ (n : Fin 8) (b : Bool), let u : State := { s with slp.pinHigh := setBit s.slp.pinHigh n.val (b != s.bt (R.winCfg n) 1) }
        exec (.wakeInEvent n b) s = .next (if b = true ∨ s.bt (R.winCfg n) 0 = false then u.setBt R.wakAssert (16 + n) b else u))) ∧
    (s.pins.hiZ = false → s.pins.shutdown = false → ∀ (src : Nat) (x : Instr), s.wakes src = true → s.latched src = false →
      ((∃ n f k, x = .canWakeFrame n f k ∧ src = n.val ∧ f.ok = true ∧ f.fd = false ∧ s.bt (R.cwCfg n) 0 = true ∧
          s.bt (R.cwStat n) 6 = false ∧ s.retired (0x20 + n.val) = false ∧ s.wakeMatch n f = true) ∨
        (∃ n, x = .canWakePattern n ∧ src = n.val ∧ s.bt (R.cwCfg n) 1 = true ∧ s.retired (0x20 + n.val) = false) ∨ (∃ n, x = .wakeInEvent n true ∧ src = 16 + n.val) ∨
        (∃ n, x = .t1sActivity n ∧ src = 24 + n.val) ∨ (x = .wakeTimerExpire ∧ src = 37 ∧ s.fd R.pwrTimer 23 0 ≠ 0)) →
      (s.pwr = pwStandby → ∃ t : State, exec x s = .next t ∧ t.pwr = pwWaking ∧ t.slp.stage = 1 ∧ t.latched src = true ∧
        (s.slp.first = none → t.slp.first = some src) ∧ t.tab = s.tab ∧ t.tsu = s.tsu) ∧
      (s.pwr = pwDeep → ∃ t : State, exec x s = .next t ∧ Restarted s t 6 ∧ t.pwr = pwWaking ∧ t.latched src = true)) ∧
    (∀ (n : Fin 16) (f : WakeFrame) (k : W64), s.pwr = pwStandby → s.pins.hiZ = false → s.pins.shutdown = false → s.bt (R.cwCfg n) 0 = true → s.bt (R.cwStat n) 6 = false →
      s.retired (0x20 + n.val) = false → f.ok = false → ∃ t : State, exec (.canWakeFrame n f k) s = .next t ∧
        t.fd (R.cwStat n) 5 0 = min 32 (s.fd (R.cwStat n) 5 0 + 1) ∧
        (t.bt (R.cwStat n) 6 = true ↔ 31 ≤ s.fd (R.cwStat n) 5 0) ∧ t.pwr = pwStandby ∧ t.tab = s.tab) ∧
    (s.pwr ≠ pwWaking ∨ s.slp.recDepth ≠ 1 ∨ s.unreachable = true → exec .wakingStepDone s = .next s) ∧
    (s.pwr = pwWaking → s.slp.recDepth = 1 → s.unreachable = false →
      (s.slp.stage = 1 ∨ s.slp.stage = 4 → exec .wakingStepDone s = .next { s with slp.stage := s.slp.stage + 1 }) ∧
      (s.slp.stage = 2 → ∃ t : State, exec .wakingStepDone s = .next t ∧ t.slp.stage = 3 ∧ t.tab = s.tab ∧
        ∀ x : Fin 2, s.domEn x = true → s.domState x = domLocked → t.domState x = domHoldover) ∧
      (s.slp.stage = 3 → ∃ t : State, exec .wakingStepDone s = .next t ∧ t.slp.stage = 4 ∧ t.pwr = pwWaking ∧ t.tab.sameConfig s.tab) ∧
      (s.slp.stage = 5 → ∃ t : State, exec .wakingStepDone s = .next t ∧ t.slp.stage = 6 ∧ t.tab = s.tab ∧
        ∀ n : Fin 48, s.fd (R.canCfg n) 1 0 ≠ 0 → (n.val < 16 → s.bt (R.cwStat n) 6 = false) → t.rg (R.canStatus n) = 0) ∧
      (s.slp.stage = 6 → ∃ t : State, exec .wakingStepDone s = .next t ∧ t.pwr = pwRun ∧ t.slp.stage = 0 ∧
        (t.path pm).sq = (s.path pm).latchedPush ++ (s.path pm).sq ∧ (t.path pm).latchedPush = [] ∧ t.tab = s.tab)) ∧
    (∀ src : Fin 24, s.works →
      (s.asserting = false ∨ s.asserts src = false → exec (.wakeAbuse src) s = .next s) ∧
      (s.asserting = true → s.asserts src = true → ∃ t : State, exec (.wakeAbuse src) s = .next t ∧ t.wakeMasked src = true ∧
        t.rg R.wakAbuse = satInc (s.rg R.wakAbuse) 1 ∧ t.bt R.secPmEvent 4 = true ∧ t.cmd.spiEvent = true ∧ t.tab.sameConfig s.tab) ∧
      (src.val < 16 ∨ s.bt (R.winCfg (src.val - 16)) 0 = true →
        exec (.wakeAssertionEnd src) s = .next (s.setBt R.wakAssert src false)) ∧
      (16 ≤ src.val → s.bt (R.winCfg (src.val - 16)) 0 = false → exec (.wakeAssertionEnd src) s = .next s))

/-- POWER_ON_RESET acts only while PORST_N is held, the supply monitor not in DEEP or shutdown, RESET_N not under a HALT of steps 1
to 3: each leaves a reset block with its source, at step 1, without configuration, with registers outside the always-on domain
at their reset values. So do the key in BOOT_RESET, from PM, and the restart after a failed step; another value in BOOT_RESET is
only logged. A step that fails ends the start; an end that the step cannot have at its level has no effect. Steps 1, 2 and 4 to
9 that pass lead to the next step at its first level, step 4 with an image that is authentic, and a degraded end too, with its
flag; step 3 with an empty ledger releases FAULT_N, writes record 0 and leads to step 4; step 10 ends the start when its image
pours, and fails it with the code for a bad image or a refused pour. PORST_N stops the outputs, the always-on supply forgets all
but the flash and the fuses, a finished erase empties the other sector, and BOOT_REARM clears levels of steps 1 to 3 and bits of
the record. -/
def Obligations.ResetsAndStartsFollowTheLedger : Prop :=
  ∀ s : State,
    (s.pins.hiZ = false → exec .powerOnReset s = .next s) ∧
    (s.pins.hiZ = true → ∃ t : State, exec .powerOnReset s = .next t ∧ Restarted s t 1) ∧
    (s.pins.hiZ = true ∨ s.pins.shutdown = true ∨ s.pwr = pwDeep → exec .supplyMonitorReset s = .next s) ∧
    (s.pins.hiZ = false → s.pins.shutdown = false → s.pwr ≠ pwDeep → ∃ t : State, exec .supplyMonitorReset s = .next t ∧ Restarted s t 2) ∧
    (s.pins.hiZ = true ∨ s.pins.shutdown = true ∨ s.hardHalt = true → exec .resetNAsserted s = .next s) ∧
    (s.pins.hiZ = false → s.pins.shutdown = false → s.hardHalt = false → ∃ t : State, exec .resetNAsserted s = .next t ∧ Restarted s t 3) ∧
    (∀ v : W32, s.mayWrite pm 0xC0_0014 →
      (fld v 15 0 = 0x5AFE → ∃ t : State, exec (.bootReset pm v) s = .next t ∧ Restarted s t 4) ∧
      (fld v 15 0 ≠ 0x5AFE → exec (.bootReset pm v) s = .next (s.report 0x0C01 kInfo 4 0xFF (fld v 15 0)))) ∧
    (s.boot.restart = true → s.pins.hiZ = false → s.pins.shutdown = false → ∃ t : State, exec .ledgerRestart s = .next t ∧ Restarted s t 5) ∧
    (s.boot.restart = false → exec .ledgerRestart s = .next s) ∧
    (∀ v : W32, s.mayWrite pm 0xC0_0010 → ∃ t : State, exec (.bootRearm pm v) s = .next t ∧ t.reg = s.reg ∧ t.tab = s.tab ∧
      (∀ n, 1 ≤ n → n ≤ 3 → t.levelOf n = (if bit v n = true then 0 else s.levelOf n)) ∧
      (∀ l r, s.boot.opened = true → s.boot.sector = l ++ [r] →
        t.boot.sector = l ++ [setImg r 36 2 (Nat.land (imgLe r 36 2) (0xFFFF - 2 * fld v 10 1))])) ∧
    (∀ e : BootEnd, (s.stepping = false → exec (.bootStepEnd e) s = .next s) ∧
      (s.stepping = true → ∀ n, n = s.bootStep →
        (∀ code, e.res = .fail code → ∃ t : State, exec (.bootStepEnd e) s = .next t ∧ t.boot.restart = true ∧ t.tab = s.tab ∧
          (n ≤ 3 → (t.levelOf n, t.fcntOf n) = failedOnce n (s.levelOf n) (s.fcntOf n))) ∧
        (e.res = .degraded ∨ e.res = .pass → s.endsSo n e = false → exec (.bootStepEnd e) s = .next s) ∧
        (e.res = .pass → s.endsSo n e = true → n ≤ 9 → n ≠ 3 → (n = 4 → ∃ l, imageBody false e.image = .ok l) → s.levelOf (n + 1) = 0 →
          ∃ t : State, exec (.bootStepEnd e) s = .next t ∧ t.bootStep = n + 1 ∧
          t.tab = s.tab ∧ t.pins.halted = false ∧ (n = 9 → (t.dom 0).fine = 0 ∧ (t.dom 1).fine = 0)) ∧
        (e.res = .degraded → s.endsSo n e = true → s.levelOf (n + 1) = 0 → ∃ t : State, exec (.bootStepEnd e) s = .next t ∧
          t.bootStep = n + 1 ∧ t.bt R.bootStatus 6 = true ∧ t.pins.halted = false) ∧
        (∀ code, e.res = .pass → n = 4 → imageBody false e.image = .error code → ∃ t : State, exec (.bootStepEnd e) s = .next t ∧
          t.boot.restart = true ∧ t.boot.code = kvSet 0xFF s.boot.code 4 code ∧ t.tab = s.tab) ∧
        (e.res = .pass → n = 3 → s.levelOf 3 = 0 → s.boot.sectA = [] → s.boot.sectB = [] → ∃ t : State,
          exec (.bootStepEnd e) s = .next t ∧ t.bootStep = 4 ∧ t.pins.bootFault = false ∧ t.boot.sectA.length = 1 ∧ t.boot.sectB = [] ∧
          t.fd R.bootStatus 31 16 = 0) ∧
        (∀ code, e.res = .pass → n = 10 → routeRecords s.logger e.image = .error code → ∃ t : State, exec (.bootStepEnd e) s = .next t ∧
          t.boot.restart = true ∧ t.boot.code = kvSet 0xFF s.boot.code 10 code ∧ t.tab = s.tab) ∧
        (∀ l, e.res = .pass → n = 10 → routeRecords s.logger e.image = .ok l →
          (∀ st, pourImage s l = .error st → ∃ t : State, exec (.bootStepEnd e) s = .next t ∧ t.boot.restart = true ∧
            t.fd R.bootFailst 7 0 = st.toNat ∧ t.boot.code = kvSet 0xFF s.boot.code 10 5) ∧
          (∀ u, pourImage s l = .ok u → u.pwr ≠ pwWaking → ∃ t : State, exec (.bootStepEnd e) s = .next t ∧ t.bootDone = true ∧
            t.tab = u.tab)))) ∧
    exec .porstNAsserted s = .next { s with
      pins.hiZ := true, pins.faultN := true, pins.bootFault := true, pins.flashOff := true, boot.erasing := false } ∧
    (∃ t : State, exec .vddaonValid s = .next t ∧ t.boot.sectA = s.boot.sectA ∧ t.boot.sectB = s.boot.sectB ∧ t.logger = s.logger ∧
      t.tab = State.reset.tab ∧ t.reg = State.reset.reg ∧ t.pins = State.reset.pins ∧ t.fwd = State.reset.fwd ∧ t.cap = State.reset.cap) ∧
    (s.works → s.boot.erasing = false → exec .ledgerEraseDone s = .next s) ∧
    (s.works → s.boot.erasing = true → ∃ t : State, exec .ledgerEraseDone s = .next t ∧ t.boot.spare = [] ∧ t.boot.sector = s.boot.sector ∧
      t.boot.erasing = false ∧ t.reg = s.reg ∧ t.tab = s.tab)
end

