-- ==== Sys2Proof/Laws/Bits.lean ====
section
/-! SUPPORT. The laws of the bit fields of a word: what a replaced field reads as, and that every other bit is as it was. -/

namespace Sys2Proof.Machine

variable {n : Nat}

/-- A bit of a word with a replaced field. -/
theorem getLsbD_setFld (w : BitVec n) {hi lo : Nat} (v : Nat) (h : lo ≤ hi) (j : Nat) :
    (setFld w hi lo v).getLsbD j =
      if j < n then (if lo ≤ j ∧ j ≤ hi then v.testBit (j - lo) else w.getLsbD j) else false := by
  have e : (setFld w hi lo v).getLsbD j =
      (w.getLsbD j && (decide (j < n) && !(decide (j < n) && (decide (lo ≤ j) && decide (j - lo < hi + 1 - lo)))) ||
        decide (j < n) && (decide (lo ≤ j) && (decide (j - lo < hi + 1 - lo) && v.testBit (j - lo)))) := by
    unfold setFld
    simp only [BitVec.getLsbD_or, BitVec.getLsbD_and, BitVec.getLsbD_not, BitVec.getLsbD_ofNat, Nat.testBit_shiftLeft,
      Nat.testBit_two_pow_sub_one, Nat.testBit_mod_two_pow, ge_iff_le]
  rw [e]
  by_cases hn : j < n
  · by_cases hl : lo ≤ j
    · by_cases hh : j ≤ hi
      · have : j - lo < hi + 1 - lo := by omega
        simp [hn, hl, hh, this]
      · have : ¬ j - lo < hi + 1 - lo := by omega
        simp [hn, hl, hh, this]
    · simp [hn, hl]
  · simp [hn]

/-- A field's bits are the word's. -/
theorem testBit_fld (w : BitVec n) (hi lo i : Nat) :
    (fld w hi lo).testBit i = (decide (i < hi + 1 - lo) && w.getLsbD (lo + i)) := by
  simp [fld, Nat.testBit_mod_two_pow, Nat.testBit_shiftRight, BitVec.getLsbD]

/-- A replaced field reads as the low bits of what replaced it. -/
theorem fld_setFld_same (w : BitVec n) {hi lo : Nat} (v : Nat) (h : lo ≤ hi) (hn : hi < n) :
    fld (setFld w hi lo v) hi lo = v % 2 ^ (hi + 1 - lo) := by
  refine Nat.eq_of_testBit_eq fun i => ?_
  rw [testBit_fld, getLsbD_setFld w v h, Nat.testBit_mod_two_pow]
  by_cases hi' : i < hi + 1 - lo
  · have h1 : lo + i < n := by omega
    have h2 : lo + i ≤ hi := by omega
    have h3 : lo + i - lo = i := by omega
    simp [hi', h1, h2, h3]
  · simp [hi']

/-- A field outside the replaced one reads as before. -/
theorem fld_setFld_other (w : BitVec n) {hi lo a b : Nat} (v : Nat) (h : lo ≤ hi) (d : a < lo ∨ hi < b) :
    fld (setFld w hi lo v) a b = fld w a b := by
  refine Nat.eq_of_testBit_eq fun i => ?_
  rw [testBit_fld, testBit_fld, getLsbD_setFld w v h]
  by_cases hi' : i < a + 1 - b
  · have h1 : ¬ (lo ≤ b + i ∧ b + i ≤ hi) := by omega
    by_cases h2 : b + i < n
    · simp [hi', h1, h2]
    · simp [hi', h2, BitVec.getLsbD_of_ge w (b + i) (by omega)]
  · simp [hi']

/-- A bit set reads as it was set. -/
theorem bit_setBit_same (w : BitVec n) {i : Nat} (b : Bool) (h : i < n) : bit (setBit w i b) i = b := by
  unfold bit setBit
  rw [getLsbD_setFld w _ (Nat.le_refl i)]
  cases b <;> simp [h]

/-- Every other bit is as it was. -/
theorem bit_setBit_other (w : BitVec n) {i j : Nat} (b : Bool) (h : j ≠ i) : bit (setBit w i b) j = bit w j := by
  unfold bit setBit
  rw [getLsbD_setFld w _ (Nat.le_refl i)]
  have h1 : ¬ (i ≤ j ∧ j ≤ i) := by omega
  by_cases h2 : j < n
  · simp [h1, h2]
  · simp [h2, BitVec.getLsbD_of_ge w j (by omega)]

end Sys2Proof.Machine
end

