-- ==== Sys2Proof/Laws/Kv.lean ====
section
/-! SUPPORT. The laws of the sparse tables and of the two addressed memories: a read after a write, and that every write keeps
the canonical form. -/

namespace Sys2Proof.Machine

variable {α : Type}

/-! ### Reads after writes -/

theorem kvGet_erase_same (d : α) (m : List (Nat × α)) (k : Nat) : kvGet d (kvErase m k) k = d := by
  induction m with
  | nil => rfl
  | cons x r ih =>
    obtain ⟨j, v⟩ := x
    by_cases h : j = k <;> simp [kvErase, kvGet, h, ih]

theorem kvGet_erase_other (d : α) (m : List (Nat × α)) {k i : Nat} (h : i ≠ k) : kvGet d (kvErase m k) i = kvGet d m i := by
  induction m with
  | nil => rfl
  | cons x r ih =>
    obtain ⟨j, v⟩ := x
    by_cases hj : j = k
    · subst hj
      simp [kvErase, kvGet, ih, h.symm]
    · by_cases hi : j = i
      · subst hi; simp [kvErase, kvGet, hj]
      · simp [kvErase, kvGet, hj, hi, ih]

theorem kvGet_insert_same (d : α) (m : List (Nat × α)) (k : Nat) (v : α) (h : ∀ x ∈ m, x.1 ≠ k) :
    kvGet d (kvInsert m k v) k = v := by
  induction m with
  | nil => simp [kvInsert, kvGet]
  | cons x r ih =>
    obtain ⟨j, w⟩ := x
    have hj : j ≠ k := h (j, w) (by simp)
    by_cases hk : k < j
    · simp [kvInsert, kvGet, hk]
    · simp [kvInsert, kvGet, hk, hj, ih (fun x hx => h x (by simp [hx]))]

theorem kvGet_insert_other (d : α) (m : List (Nat × α)) {k i : Nat} (v : α) (h : i ≠ k) :
    kvGet d (kvInsert m k v) i = kvGet d m i := by
  induction m with
  | nil => simp [kvInsert, kvGet, h.symm]
  | cons x r ih =>
    obtain ⟨j, w⟩ := x
    by_cases hk : k < j
    · simp [kvInsert, kvGet, hk, h.symm]
    · by_cases hi : j = i
      · subst hi; simp [kvInsert, kvGet, hk]
      · simp [kvInsert, kvGet, hk, hi, ih]

theorem kvErase_keys (m : List (Nat × α)) (k : Nat) : ∀ x ∈ kvErase m k, x.1 ≠ k := by
  induction m with
  | nil => simp [kvErase]
  | cons y r ih =>
    obtain ⟨j, v⟩ := y
    by_cases h : j = k
    · simpa [kvErase, h] using ih
    · intro x hx
      simp [kvErase, h] at hx
      rcases hx with rfl | hx
      · exact h
      · exact ih x hx

variable [DecidableEq α]

/-- A table reads back what was set. -/
@[simp] theorem kvGet_set_same (d : α) (m : List (Nat × α)) (k : Nat) (v : α) : kvGet d (kvSet d m k v) k = v := by
  unfold kvSet
  split
  · next h => rw [kvGet_erase_same, h]
  · exact kvGet_insert_same d _ k v (kvErase_keys m k)

/-- A set of one key leaves every other key as it was. -/
theorem kvGet_set_other (d : α) (m : List (Nat × α)) {k i : Nat} (v : α) (h : i ≠ k) :
    kvGet d (kvSet d m k v) i = kvGet d m i := by
  unfold kvSet
  split
  · exact kvGet_erase_other d m h
  · rw [kvGet_insert_other d _ v h, kvGet_erase_other d m h]

/-! ### The canonical form -/

/-- Every key of a table is greater than `b`. -/
def kvAbove (b : Nat) (m : List (Nat × α)) : Prop := ∀ x ∈ m, b < x.1

theorem kvWf_cons (d : α) (k : Nat) (v : α) (r : List (Nat × α)) :
    kvWf d ((k, v) :: r) = true ↔ v ≠ d ∧ kvAbove k r ∧ kvWf d r = true := by
  induction r generalizing k v with
  | nil => simp [kvWf, kvAbove]
  | cons y r ih =>
    obtain ⟨j, w⟩ := y
    have e : kvWf d ((k, v) :: (j, w) :: r) = (decide (v ≠ d) && decide (k < j) && kvWf d ((j, w) :: r)) := rfl
    rw [e, Bool.and_eq_true, Bool.and_eq_true, decide_eq_true_iff, decide_eq_true_iff, and_assoc]
    refine and_congr_right fun _ => ⟨fun ⟨h1, h2⟩ => ⟨?_, h2⟩, fun ⟨h1, h2⟩ => ⟨h1 (j, w) (by simp), h2⟩⟩
    intro x hx
    rcases List.mem_cons.1 hx with rfl | hx
    · exact h1
    · exact Nat.lt_trans h1 (((ih j w).1 h2).2.1 x hx)

omit [DecidableEq α] in
theorem kvAbove_erase {b : Nat} {m : List (Nat × α)} (k : Nat) (h : kvAbove b m) : kvAbove b (kvErase m k) := by
  induction m with
  | nil => exact h
  | cons y r ih =>
    obtain ⟨j, w⟩ := y
    have hr : kvAbove b r := fun x hx => h x (by simp [hx])
    by_cases hj : j = k
    · simpa [kvErase, hj] using ih hr
    · intro x hx
      simp [kvErase, hj] at hx
      rcases hx with rfl | hx
      · exact h (j, w) (by simp)
      · exact ih hr x hx

theorem kvErase_wf (d : α) (m : List (Nat × α)) (k : Nat) (h : kvWf d m = true) : kvWf d (kvErase m k) = true := by
  induction m with
  | nil => exact h
  | cons y r ih =>
    obtain ⟨j, w⟩ := y
    have ⟨h1, h2, h3⟩ := (kvWf_cons d j w r).1 h
    by_cases hj : j = k
    · simpa [kvErase, hj] using ih h3
    · simp only [kvErase, hj, if_false]
      exact (kvWf_cons d j w _).2 ⟨h1, kvAbove_erase k h2, ih h3⟩

omit [DecidableEq α] in
theorem kvAbove_insert {b : Nat} {m : List (Nat × α)} {k : Nat} (v : α) (hb : b < k) (h : kvAbove b m) :
    kvAbove b (kvInsert m k v) := by
  induction m with
  | nil => intro x hx; simp [kvInsert] at hx; subst hx; exact hb
  | cons y r ih =>
    obtain ⟨j, w⟩ := y
    have hr : kvAbove b r := fun x hx => h x (by simp [hx])
    have hj : b < j := h (j, w) (by simp)
    intro x hx
    by_cases hk : k < j <;> simp [kvInsert, hk] at hx
    · rcases hx with rfl | rfl | hx
      · exact hb
      · exact hj
      · exact hr x hx
    · rcases hx with rfl | hx
      · exact hj
      · exact ih hr x hx

theorem kvInsert_wf (d : α) (m : List (Nat × α)) (k : Nat) {v : α} (hv : v ≠ d) (hk : ∀ x ∈ m, x.1 ≠ k)
    (h : kvWf d m = true) : kvWf d (kvInsert m k v) = true := by
  induction m with
  | nil => simp [kvInsert, kvWf, hv]
  | cons y r ih =>
    obtain ⟨j, w⟩ := y
    have ⟨h1, h2, h3⟩ := (kvWf_cons d j w r).1 h
    have hj : j ≠ k := hk (j, w) (by simp)
    by_cases hlt : k < j
    · simp only [kvInsert, hlt, if_true]
      refine (kvWf_cons d k v _).2 ⟨hv, ?_, h⟩
      intro x hx
      rcases List.mem_cons.1 hx with rfl | hx
      · exact hlt
      · exact Nat.lt_trans hlt (h2 x hx)
    · simp only [kvInsert, hlt, if_false]
      exact (kvWf_cons d j w _).2
        ⟨h1, kvAbove_insert v (by omega) h2, ih (fun x hx => hk x (by simp [hx])) h3⟩

/-- A set keeps the canonical form. -/
theorem kvSet_wf (d : α) (m : List (Nat × α)) (k : Nat) (v : α) (h : kvWf d m = true) : kvWf d (kvSet d m k v) = true := by
  unfold kvSet
  split
  · exact kvErase_wf d m k h
  · next hv => exact kvInsert_wf d _ k hv (kvErase_keys m k) (kvErase_wf d m k h)

/-! ### The addressed memories (R128, R400) -/

/-- A byte reads back what was written. -/
@[simp] theorem Memory.read_write_same (m : List Host.Cell) (a : Nat) (b : Byte) : Memory.read (Memory.write m a b) a = b :=
  kvGet_set_same 0 m a b

/-- A write of one byte leaves every other byte as it was. -/
theorem Memory.read_write_other (m : List Host.Cell) {a i : Nat} (b : Byte) (h : i ≠ a) :
    Memory.read (Memory.write m a b) i = Memory.read m i := kvGet_set_other 0 m b h

/-- A write keeps the canonical form. -/
theorem Memory.write_wf (m : List Host.Cell) (a : Nat) (b : Byte) (h : Memory.wf m = true) : Memory.wf (Memory.write m a b) = true :=
  kvSet_wf 0 m a b h

/-- A write of several bytes keeps the canonical form. -/
theorem Memory.writeBytes_wf (m : List Host.Cell) (a : Nat) (l : List Byte) (h : Memory.wf m = true) :
    Memory.wf (Memory.writeBytes m a l) = true := by
  induction l generalizing m a with
  | nil => exact h
  | cons b r ih => exact ih _ _ (Memory.write_wf m a b h)

/-- A write of several bytes leaves every byte outside them as it was. -/
theorem Memory.read_writeBytes_other (m : List Host.Cell) (a : Nat) (l : List Byte) {i : Nat} (h : i < a ∨ a + l.length ≤ i) :
    Memory.read (Memory.writeBytes m a l) i = Memory.read m i := by
  induction l generalizing m a with
  | nil => rfl
  | cons b r ih =>
    have hl : (b :: r).length = r.length + 1 := rfl
    exact (ih _ (a + 1) (by omega)).trans (Memory.read_write_other m b (by omega))

/-- The bytes written read back. -/
theorem Memory.readBytes_writeBytes (m : List Host.Cell) (a : Nat) (l : List Byte) :
    Memory.readBytes (Memory.writeBytes m a l) a l.length = l := by
  induction l generalizing m a with
  | nil => rfl
  | cons b r ih =>
    show Memory.read (Memory.writeBytes (Memory.write m a b) (a + 1) r) a ::
      Memory.readBytes (Memory.writeBytes (Memory.write m a b) (a + 1) r) (a + 1) r.length = b :: r
    rw [ih, Memory.read_writeBytes_other _ (a + 1) r (Or.inl (Nat.lt_succ_self a)), Memory.read_write_same]

end Sys2Proof.Machine
end

