-- ==== Sys2Proof/Laws/Follows.lean ====
section
/-! SUPPORT. What every effect keeps: the queue of waiting commands, the fuse, what was already sent, and the canonical form of
the two addressed memories. -/

namespace Sys2Proof.Machine

theorem Tables.sameConfig.refl (t : Tables) : t.sameConfig t := ⟨rfl, rfl, rfl, rfl, rfl, rfl, rfl, rfl, rfl⟩
theorem Tables.sameConfig.trans {t u v : Tables} (h : t.sameConfig u) (k : u.sameConfig v) : t.sameConfig v :=
  ⟨h.1.trans k.1, h.2.trans k.2, h.3.trans k.3, h.4.trans k.4, h.5.trans k.5, h.6.trans k.6, h.7.trans k.7, h.8.trans k.8,
    h.9.trans k.9⟩

/-- What every effect keeps; with `tb`, the configuration in force as well. -/
structure Follows (tb : Bool) (a t : State) : Prop where
  queue : t.pending = a.pending
  fuse : t.logger = a.logger
  sent : a.out <+: t.out
  mem : a.reg.memWf → t.reg.memWf
  conf : tb = true → t.tab.sameConfig a.tab

theorem Follows.refl {tb : Bool} (a : State) : Follows tb a a := ⟨rfl, rfl, List.prefix_rfl, id, fun _ => .refl _⟩

theorem Follows.trans {tb : Bool} {a b c : State} (h : Follows tb a b) (k : Follows tb b c) : Follows tb a c :=
  ⟨k.queue.trans h.queue, k.fuse.trans h.fuse, h.sent.trans k.sent, k.mem ∘ h.mem, fun e => (k.conf e).trans (h.conf e)⟩

theorem Follows.same {tb : Bool} {a t : State} (h : Follows tb a t) {f u live cmd fwd lnk tsu phw cap cry slp err boot pins} :
    Follows tb a ⟨t.pending, f, u, t.out, t.logger, t.reg, t.tab, live, cmd, fwd, lnk, tsu, phw, cap, cry, slp, err, boot, pins⟩ :=
  ⟨h.queue, h.fuse, h.sent, h.mem, h.conf⟩

theorem Follows.sameTab {tb : Bool} {a t : State} (h :
    Follows tb a t) {n g e f u live cmd fwd lnk tsu phw cap cry slp err boot pins} :
    Follows tb a ⟨t.pending, f, u, t.out, t.logger, t.reg, ⟨t.tab.routes, t.tab.tcam, t.tab.dsets, t.tab.vlans, t.tab.pprofs, t.tab.tprofs,
      e, t.tab.keys, n, g, t.tab.windows, t.tab.grants⟩, live, cmd, fwd, lnk, tsu, phw, cap, cry, slp, err, boot, pins⟩ :=
  ⟨h.queue, h.fuse, h.sent, h.mem, fun hc =>
    have k := h.conf hc
    ⟨k.1, k.2, k.3, k.4, k.5, k.6, k.7, k.8, k.9⟩⟩

theorem Follows.newTab {a t : State} (h : Follows false a t) {f u tab live cmd fwd lnk tsu phw cap cry slp err boot pins} :
    Follows false a ⟨t.pending, f, u, t.out, t.logger, t.reg, tab, live, cmd, fwd, lnk, tsu, phw, cap, cry, slp, err, boot, pins⟩ :=
  ⟨h.queue, h.fuse, h.sent, h.mem, fun e => nomatch e⟩

theorem Follows.sameMem {tb : Bool} {a t : State} (h :
    Follows tb a t) {r w l f u live cmd fwd lnk tsu phw cap cry slp err boot pins} :
    Follows tb a ⟨t.pending, f, u, t.out, t.logger, ⟨r, w, l, t.reg.pmBuf, t.reg.mailbox⟩, t.tab, live, cmd, fwd, lnk, tsu, phw, cap, cry,
      slp, err, boot, pins⟩ :=
  ⟨h.queue, h.fuse, h.sent, h.mem, h.conf⟩

theorem Follows.boxWrite {tb : Bool} {a t : State} (h :
    Follows tb a t) {r w l x d f u live cmd fwd lnk tsu phw cap cry slp err boot pins} :
    Follows tb a ⟨t.pending, f, u, t.out, t.logger, ⟨r, w, l, t.reg.pmBuf, Memory.writeBytes t.reg.mailbox x d⟩, t.tab, live, cmd, fwd, lnk,
      tsu, phw, cap, cry, slp, err, boot, pins⟩ :=
  ⟨h.queue, h.fuse, h.sent, fun k => ⟨(h.mem k).1, Memory.writeBytes_wf _ _ _ (h.mem k).2⟩, h.conf⟩

theorem Follows.bufWrite {tb : Bool} {a t : State} (h :
    Follows tb a t) {r w l x d f u live cmd fwd lnk tsu phw cap cry slp err boot pins} :
    Follows tb a ⟨t.pending, f, u, t.out, t.logger, ⟨r, w, l, Memory.writeBytes t.reg.pmBuf x d, t.reg.mailbox⟩, t.tab, live, cmd, fwd, lnk,
      tsu, phw, cap, cry, slp, err, boot, pins⟩ :=
  ⟨h.queue, h.fuse, h.sent, fun k => ⟨Memory.writeBytes_wf _ _ _ (h.mem k).1, (h.mem k).2⟩, h.conf⟩

theorem Follows.foldl {tb : Bool} {α : Type} {a : State} {f : State → α → State} (hf :
    ∀ t x, Follows tb a t → Follows tb a (f t x)) :
    ∀ (l : List α) (s : State), Follows tb a s → Follows tb a (l.foldl f s)
  | [], _, h => h
  | x :: l, s, h => Follows.foldl hf l (f s x) (hf s x h)

/-- What an answer, a step of the classification, a pour, a verdict or a pair carries follows. -/
structure AnsF (tb : Bool) (a : State) (x : Ans) : Prop where
  out : Follows tb a x.s
structure ClF (tb : Bool) (a : State) (x : Cl) : Prop where
  out : Follows tb a x.s
structure BltF (tb : Bool) (a : State) (x : Built) : Prop where
  out : Follows tb a x.s
structure VerF (tb : Bool) (a : State) (x : Verdict) : Prop where
  out : Follows tb a x.s
structure PairF {β : Type} (tb : Bool) (a : State) (x : β × State) : Prop where
  out : Follows tb a x.2

theorem BltF.foldl {tb : Bool} {α : Type} {a : State} {f : Built → α → Built} (hf : ∀ t x, BltF tb a t → BltF tb a (f t x)) :
    ∀ (l : List α) (s : Built), BltF tb a s → BltF tb a (l.foldl f s)
  | [], _, h => h
  | x :: l, s, h => BltF.foldl hf l (f s x) (hf s x h)

structure TriF {β γ : Type} (tb : Bool) (a : State) (x : β × γ × State) : Prop where
  out : Follows tb a x.2.2
theorem TriF.intro {tb : Bool} {β γ : Type} {a s : State} {k : β} {l : γ} (h : Follows tb a s) : TriF tb a (k, l, s) := ⟨h⟩
theorem TriF.elim {tb : Bool} {β γ : Type} {a t : State} {x : β × γ × State} {k : β} {l : γ} (e : x = (k, l, t)) (h :
    TriF tb a x) : Follows tb a t := by
  subst e; exact h.out

theorem AnsF.intro {tb : Bool} {a s : State} {st r o v} (h : Follows tb a s) : AnsF tb a ⟨s, st, r, o, v⟩ := ⟨h⟩
theorem ClF.intro {tb : Bool} {a s : State} {f d} (h : Follows tb a s) : ClF tb a ⟨s, f, d⟩ := ⟨h⟩
theorem BltF.intro {tb : Bool} {a s : State} {d f e p k} (h : Follows tb a s) : BltF tb a ⟨s, d, f, e, p, k⟩ := ⟨h⟩
theorem VerF.intro {tb : Bool} {a s : State} {d v} (h : Follows tb a s) : VerF tb a ⟨s, d, v⟩ := ⟨h⟩
theorem PairF.intro {tb : Bool} {β : Type} {a s : State} {k : β} (h : Follows tb a s) : PairF tb a (k, s) := ⟨h⟩
theorem PairF.elim {tb : Bool} {β : Type} {a t : State} {x : β × State} {k : β} (e : x = (k, t)) (h : PairF tb a x) :
    Follows tb a t := by
  subst e; exact h.out
theorem Follows.cut {tb : Bool} {a x : State} {P : Prop} (h : Follows tb a x) (k : Follows tb a x → P) : P := k h
theorem AnsF.cut {tb : Bool} {a : State} {x : Ans} {P : Prop} (h : AnsF tb a x) (k : AnsF tb a x → P) : P := k h
theorem ClF.cut {tb : Bool} {a : State} {x : Cl} {P : Prop} (h : ClF tb a x) (k : ClF tb a x → P) : P := k h
theorem BltF.cut {tb : Bool} {a : State} {x : Built} {P : Prop} (h : BltF tb a x) (k : BltF tb a x → P) : P := k h
theorem VerF.cut {tb : Bool} {a : State} {x : Verdict} {P : Prop} (h : VerF tb a x) (k : VerF tb a x → P) : P := k h
theorem PairF.cut {tb : Bool} {β : Type} {a : State} {x : β × State} {P : Prop} (h : PairF tb a x) (k : PairF tb a x → P) :
    P := k h

/-- What an answer that may be absent keeps. -/
structure OptF (tb : Bool) (a : State) (o : Option State) : Prop where
  out : ∀ t, o = some t → Follows tb a t
structure OptA (tb : Bool) (a : State) (o : Option Ans) : Prop where
  out : ∀ t, o = some t → AnsF tb a t
structure OptP {β : Type} (tb : Bool) (a : State) (o : Option (β × State)) : Prop where
  out : ∀ k t, o = some (k, t) → Follows tb a t
structure ExF (tb : Bool) (a : State) (x : Except Ans State) : Prop where
  out : ∀ t, x = .ok t → Follows tb a t
  err : ∀ e, x = .error e → AnsF tb a e
structure ExB (tb : Bool) (a : State) (x : Except Byte State) : Prop where
  out : ∀ t, x = .ok t → Follows tb a t
structure ResF (tb : Bool) (a : State) (r : Res) : Prop where
  out : ∀ t, r = .next t → Follows tb a t

theorem OptF.none {tb : Bool} {a : State} : OptF tb a none := ⟨by intro _ e; cases e⟩
theorem OptF.some {tb : Bool} {a t : State} (h : Follows tb a t) : OptF tb a (some t) := ⟨by intro _ e; cases e; exact h⟩
theorem OptF.elim {tb : Bool} {a t : State} {o : Option State} (h : OptF tb a o) (e : o = Option.some t) :
    Follows tb a t := h.out t e
theorem OptA.none {tb : Bool} {a : State} : OptA tb a none := ⟨by intro _ e; cases e⟩
theorem OptA.some {tb : Bool} {a : State} {t : Ans} (h : AnsF tb a t) : OptA tb a (some t) := ⟨by intro _ e; cases e; exact h⟩
theorem OptA.elim {tb : Bool} {a : State} {t : Ans} {o : Option Ans} (h : OptA tb a o) (e : o = Option.some t) :
    AnsF tb a t := h.out t e
theorem OptP.none {tb : Bool} {β : Type} {a : State} : OptP (β := β) tb a none := ⟨by intro _ _ e; cases e⟩
theorem OptP.some {tb : Bool} {β : Type} {a : State} {x : β × State} (h : PairF tb a x) :
    OptP tb a (some x) := ⟨by intro _ _ e; cases e; exact h.out⟩
theorem OptP.elim {tb : Bool} {β : Type} {a t : State} {k : β} {o : Option (β × State)} (h : OptP tb a o) (e :
    o = Option.some (k, t)) : Follows tb a t :=
  h.out k t e
theorem ExF.ok {tb : Bool} {a t : State} (h : Follows tb a t) : ExF tb a (.ok t) :=
  ⟨fun _ e => (by cases e; exact h), fun _ e => (by cases e)⟩
theorem ExF.error {tb : Bool} {a : State} {x : Ans} (h : AnsF tb a x) : ExF tb a (.error x) :=
  ⟨fun _ e => (by cases e), fun _ e => (by cases e; exact h)⟩
theorem ExF.left {tb : Bool} {a t : State} {x : Except Ans State} (h : ExF tb a x) (e : x = .ok t) : Follows tb a t := h.1 t e
theorem ExF.right {tb : Bool} {a : State} {r : Ans} {x : Except Ans State} (h : ExF tb a x) (e : x = .error r) :
    AnsF tb a r := h.2 r e
theorem ExB.ok {tb : Bool} {a t : State} (h : Follows tb a t) : ExB tb a (.ok t) := ⟨by intro _ e; cases e; exact h⟩
theorem ExB.error {tb : Bool} {a : State} {b : Byte} : ExB tb a (.error b) := ⟨by intro _ e; cases e⟩
theorem ExB.elim {tb : Bool} {a t : State} {x : Except Byte State} (h : ExB tb a x) (e : x = .ok t) : Follows tb a t := h.out t e
theorem ResF.next {tb : Bool} {a t : State} (h : Follows tb a t) : ResF tb a (.next t) := ⟨by intro _ e; cases e; exact h⟩
theorem ResF.fault {tb : Bool} {a : State} {f : Fault} : ResF tb a (.fault f) := ⟨by intro _ e; cases e⟩
theorem ResF.refused {tb : Bool} {a : State} {f : Refusal} : ResF tb a (.refused f) := ⟨by intro _ e; cases e⟩

end Sys2Proof.Machine
end

