-- ==== Sys2Proof/Laws/FollowsShared.lean ====
section
/-! SUPPORT. What every effect keeps, one lemma per function: the shared operations: registers, the log, rights, the command path, the buffer. -/

set_option linter.all false

namespace Sys2Proof.Machine

/-! ### Ops -/

theorem drawNat_follows {tb : Bool} {a : State} (s : State) (h : Follows tb a s) : PairF tb a (drawNat s) := by
  unfold drawNat
  repeat' first
    | (with_reducible apply Follows.same; with_reducible assumption)
    | with_reducible apply PairF.intro

theorem drawBit_follows {tb : Bool} {a : State} (s : State) (h : Follows tb a s) : PairF tb a (drawBit s) := by
  unfold drawBit
  repeat' first
    | (with_reducible apply Follows.same; with_reducible assumption)
    | with_reducible apply PairF.intro

theorem drawBytes_follows {tb : Bool} {a : State} (n : ℕ) (s : State) (h : Follows tb a s) : PairF tb a (drawBytes n s) := by
  unfold drawBytes
  repeat' first
    | (with_reducible apply Follows.same; with_reducible assumption)
    | with_reducible apply PairF.intro

theorem State.setKey_follows {tb : Bool} {a : State} (s : State) (k : ℕ) (v : W32) (h : Follows tb a s) :
    Follows tb a (State.setKey s k v) := by
  unfold State.setKey
  repeat' first
    | (lift_lets; intro x; have : RegUnit := x; clear this)
    | (with_reducible apply Follows.sameMem; with_reducible assumption)

theorem State.setRg_follows {tb : Bool} {a : State} (s : State) (off : ℕ) (v : W32) (h : Follows tb a s) :
    Follows tb a (State.setRg s off v) := by
  unfold State.setRg
  repeat' first
    | with_reducible assumption
    | with_reducible apply State.setKey_follows

theorem State.setRgp_follows {tb : Bool} {a : State} (s : State) (p : Part) (off : ℕ) (v : W32) (h : Follows tb a s) :
    Follows tb a (State.setRgp s p off v) := by
  unfold State.setRgp
  repeat' first
    | with_reducible assumption
    | with_reducible apply State.setKey_follows

theorem State.modRg_follows {tb : Bool} {a : State} (s : State) (off : ℕ) (f : W32 → W32) (h : Follows tb a s) :
    Follows tb a (State.modRg s off f) := by
  unfold State.modRg
  repeat' first
    | with_reducible assumption
    | with_reducible apply State.setRg_follows

theorem State.modRgp_follows {tb : Bool} {a : State} (s : State) (p : Part) (off : ℕ) (f : W32 → W32) (h : Follows tb a s) :
    Follows tb a (State.modRgp s p off f) := by
  unfold State.modRgp
  repeat' first
    | with_reducible assumption
    | with_reducible apply State.setRgp_follows

theorem State.setBt_follows {tb : Bool} {a : State} (s : State) (off : ℕ) (i : ℕ) (b : Bool) (h : Follows tb a s) :
    Follows tb a (State.setBt s off i b) := by
  unfold State.setBt
  repeat' first
    | with_reducible assumption
    | with_reducible apply State.modRg_follows

theorem State.setFd_follows {tb : Bool} {a : State} (s : State) (off : ℕ) (hi : ℕ) (lo : ℕ) (v : ℕ) (h : Follows tb a s) :
    Follows tb a (State.setFd s off hi lo v) := by
  unfold State.setFd
  repeat' first
    | with_reducible assumption
    | with_reducible apply State.modRg_follows

theorem State.count_follows {tb : Bool} {a : State} (s : State) (off : ℕ) (k : ℕ) (h : Follows tb a s) :
    Follows tb a (State.count s off k) := by
  unfold State.count
  repeat' first
    | with_reducible assumption
    | with_reducible apply State.modRg_follows

theorem State.setWide_follows {tb : Bool} {a : State} (s : State) (off : ℕ) (v : W64) (h : Follows tb a s) :
    Follows tb a (State.setWide s off v) := by
  unfold State.setWide
  repeat' first
    | (lift_lets; intro x; have : RegUnit := x; clear this)
    | (with_reducible apply Follows.sameMem; with_reducible assumption)

theorem State.countWide_follows {tb : Bool} {a : State} (s : State) (off : ℕ) (k : ℕ) (h : Follows tb a s) :
    Follows tb a (State.countWide s off k) := by
  unfold State.countWide
  repeat' first
    | with_reducible assumption
    | with_reducible apply State.setWide_follows

theorem State.countDrop_follows {tb : Bool} {a : State} (s : State) (code : ℕ) (h : Follows tb a s) :
    Follows tb a (State.countDrop s code) := by
  unfold State.countDrop
  repeat' first
    | with_reducible assumption
    | with_reducible apply State.countWide_follows

theorem State.setLatch_follows {tb : Bool} {a : State} (s : State) (p : Part) (off : ℕ) (v : W32) (h : Follows tb a s) :
    Follows tb a (State.setLatch s p off v) := by
  unfold State.setLatch
  repeat' first
    | (lift_lets; intro x; have : RegUnit := x; clear this)
    | (with_reducible apply Follows.sameMem; with_reducible assumption)

theorem State.setDom_follows {tb : Bool} {a : State} (s : State) (x : ℕ) (d : Domain) (h : Follows tb a s) :
    Follows tb a (State.setDom s x d) := by
  unfold State.setDom
  repeat' first
    | (lift_lets; intro x; clear_value x)
    | (with_reducible apply Follows.same; with_reducible assumption)

theorem State.emit_follows {tb : Bool} {a : State} (s : State) (o : Out) (h : Follows tb a s) : Follows tb a (State.emit s o) :=
  ⟨h.queue, h.fuse, h.sent.trans (List.prefix_append _ _), h.mem, h.conf⟩

theorem State.fifoPut_follows {tb : Bool} {a : State} (s : State) (r : LogEntry) (h : Follows tb a s) :
    PairF tb a (State.fifoPut s r) := by
  unfold State.fifoPut
  repeat' first
    | with_reducible assumption
    | with_reducible apply State.count_follows
    | with_reducible apply State.setBt_follows
    | (intro x; refine Follows.cut (tb := tb) (a := a) (x := x) ?_ (fun _ => ?_); on_goal 2 => clear_value x)
    | (intro x; refine PairF.cut (tb := tb) (a := a) (x := x) ?_ (fun _ => ?_); on_goal 2 => clear_value x)
    | (lift_lets; intro x; clear_value x)
    | (intro)
    | (split)
    | (with_reducible apply Follows.same; with_reducible assumption)
    | with_reducible apply PairF.intro

theorem State.queueReport_follows {tb : Bool} {a : State} (s : State) (r : LogEntry) (h : Follows tb a s) :
    Follows tb a (State.queueReport s r) := by
  unfold State.queueReport
  repeat' first
    | with_reducible assumption
    | with_reducible apply State.fifoPut_follows
    | (split)
    | (refine PairF.elim (by with_reducible assumption) ?_)
    | (with_reducible apply PairF.out; with_reducible apply State.fifoPut_follows)

theorem State.report_follows {tb : Bool} {a : State} (s : State) (code : ℕ) (kind : ℕ) (part : ℕ) (unit : ℕ) (detail : ℕ) (fault :
    Bool) (h : Follows tb a s) : Follows tb a (State.report s code kind part unit detail fault) := by
  unfold State.report
  repeat' first
    | with_reducible assumption
    | with_reducible apply State.queueReport_follows

theorem State.setPath_follows {tb : Bool} {a : State} (s : State) (p : Part) (c : CmdPath) (h : Follows tb a s) :
    Follows tb a (State.setPath s p c) := by
  unfold State.setPath
  repeat' first
    | (lift_lets; intro x; clear_value x)
    | (with_reducible apply Follows.same; with_reducible assumption)

theorem State.sendMsix_follows {tb : Bool} {a : State} (s : State) (p : Part) (vec : BitVec 6) (h : Follows tb a s) :
    Follows tb a (State.sendMsix s p vec) := by
  unfold State.sendMsix
  repeat' first
    | with_reducible assumption
    | with_reducible apply State.setPath_follows
    | with_reducible apply State.emit_follows
    | (lift_lets; intro x; clear_value x)
    | (split)

theorem State.event_follows {tb : Bool} {a : State} (s : State) (p : Part) (b : ℕ) (h : Follows tb a s) :
    Follows tb a (State.event s p b) := by
  unfold State.event
  repeat' first
    | with_reducible assumption
    | with_reducible apply State.sendMsix_follows
    | with_reducible apply State.modRgp_follows
    | (intro x; refine Follows.cut (tb := tb) (a := a) (x := x) ?_ (fun _ => ?_); on_goal 2 => clear_value x)
    | (lift_lets; intro x; clear_value x)
    | (intro)
    | (split)
    | (with_reducible apply Follows.same; with_reducible assumption)

theorem State.eventAll_follows {tb : Bool} {a : State} (s : State) (b : ℕ) (h : Follows tb a s) :
    Follows tb a (State.eventAll s b) := by
  unfold State.eventAll
  repeat' first
    | with_reducible assumption
    | with_reducible apply State.event_follows
    | with_reducible apply Follows.foldl
    | (intro x y (hx : Follows tb a x))

theorem State.setFault_follows {tb : Bool} {a : State} (s : State) (b : ℕ) (h : Follows tb a s) :
    Follows tb a (State.setFault s b) := by
  unfold State.setFault
  repeat' first
    | with_reducible assumption
    | with_reducible apply State.eventAll_follows
    | (lift_lets; intro x; clear_value x)
    | (with_reducible apply Follows.same; with_reducible apply State.setBt_follows)

theorem State.setEg_follows {tb : Bool} {a : State} (s : State) (c : ℕ) (e : EgPort) (h : Follows tb a s) :
    Follows tb a (State.setEg s c e) := by
  unfold State.setEg
  repeat' first
    | (lift_lets; intro x; clear_value x)
    | (with_reducible apply Follows.same; with_reducible assumption)

theorem State.setStream_follows {tb : Bool} {a : State} (s : State) (i : ℕ) (r : Stream) (h : Follows tb a s) :
    Follows tb a (State.setStream s i r) := by
  unfold State.setStream
  repeat' first
    | (lift_lets; intro x; clear_value x)
    | (with_reducible apply Follows.same; with_reducible assumption)

theorem State.setTt_follows {tb : Bool} {a : State} (s : State) (n : ℕ) (t : Turntable) (h : Follows tb a s) :
    Follows tb a (State.setTt s n t) := by
  unfold State.setTt
  repeat' first
    | (lift_lets; intro x; clear_value x)
    | (with_reducible apply Follows.same; with_reducible assumption)

theorem State.setTrg_follows {tb : Bool} {a : State} (s : State) (m : ℕ) (t : Trigger) (h : Follows tb a s) :
    Follows tb a (State.setTrg s m t) := by
  unfold State.setTrg
  repeat' first
    | (lift_lets; intro x; clear_value x)
    | (with_reducible apply Follows.same; with_reducible assumption)

theorem State.setCapq_follows {tb : Bool} {a : State} (s : State) (q : ℕ) (c : CapQ) (h : Follows tb a s) :
    Follows tb a (State.setCapq s q c) := by
  unfold State.setCapq
  repeat' first
    | (lift_lets; intro x; clear_value x)
    | (with_reducible apply Follows.same; with_reducible assumption)

theorem State.setLane_follows {tb : Bool} {a : State} (s : State) (n : ℕ) (l : Lane) (h : Follows tb a s) :
    Follows tb a (State.setLane s n l) := by
  unfold State.setLane
  repeat' first
    | (lift_lets; intro x; clear_value x)
    | (with_reducible apply Follows.same; with_reducible assumption)

theorem State.setLin_follows {tb : Bool} {a : State} (s : State) (n : ℕ) (l : LinPort) (h : Follows tb a s) :
    Follows tb a (State.setLin s n l) := by
  unfold State.setLin
  repeat' first
    | (lift_lets; intro x; clear_value x)
    | (with_reducible apply Follows.same; with_reducible assumption)

theorem State.setMould_follows {tb : Bool} {a : State} (s : State) (p : Part) (m : Option Mould) (h : Follows tb a s) :
    Follows tb a (State.setMould s p m) := by
  unfold State.setMould
  repeat' first
    | (lift_lets; intro x; clear_value x)
    | (with_reducible apply Follows.same; with_reducible assumption)

theorem State.setSlot_follows {tb : Bool} {a : State} (s : State) (p : Part) (k : ℕ) (v : Slot) (h : Follows tb a s) :
    Follows tb a (State.setSlot s p k v) := by
  unfold State.setSlot
  repeat' first
    | (lift_lets; intro x; clear_value x)
    | (with_reducible apply Follows.same; with_reducible assumption)

theorem clocked_follows {tb : Bool} {a : State} (f : State → State) (s : State) (h : Follows tb a s) (hf :
    ∀ x0_, Follows tb a x0_ → Follows tb a (f x0_)) : Follows tb a (clocked f s) := by
  unfold clocked
  repeat' first
    | with_reducible assumption
    | with_reducible apply hf
    | (split)

theorem State.countFault_follows {tb : Bool} {a : State} (s : State) (u : RetryUnit) (h : Follows tb a s) :
    Follows tb a (State.countFault s u) := by
  unfold State.countFault
  repeat' first
    | (lift_lets; intro x; clear_value x)
    | (with_reducible apply Follows.same; with_reducible assumption)

/-! ### Arbiter -/

theorem State.setArb_follows {tb : Bool} {a : State} (s : State) (x1 : ArbId) (v : Arb) (h : Follows tb a s) :
    Follows tb a (State.setArb s x1 v) := by
  unfold State.setArb
  repeat' first
    | (lift_lets; intro x; clear_value x)
    | (with_reducible apply Follows.same; with_reducible assumption)

theorem arbiterWindowStart_follows {tb : Bool} {a : State} (x0 : ArbId) (s : State) (h : Follows tb a s) :
    Follows tb a (arbiterWindowStart x0 s) := by
  unfold arbiterWindowStart
  repeat' first
    | with_reducible assumption
    | with_reducible apply State.setArb_follows

theorem execArbiterWindowStart_follows {tb : Bool} {a : State} (x0 : ArbId) (s : State) (h : Follows tb a s) :
    ResF tb a (execArbiterWindowStart x0 s) := by
  unfold execArbiterWindowStart
  repeat' first
    | with_reducible assumption
    | with_reducible apply arbiterWindowStart_follows
    | with_reducible apply clocked_follows
    | with_reducible apply ResF.next

theorem State.granted_follows {tb : Bool} {a : State} (s : State) (x1 : ArbId) (i : ℕ) (cost : ℕ) (h : Follows tb a s) :
    Follows tb a (State.granted s x1 i cost) := by
  unfold State.granted
  repeat' first
    | with_reducible assumption
    | with_reducible apply State.setArb_follows

/-! ### Rights -/

theorem State.freeze_follows {tb : Bool} {a : State} (s : State) (p : Part) (cause : ℕ) (what : ℕ) (h : Follows tb a s) :
    Follows tb a (State.freeze s p cause what) := by
  unfold State.freeze
  repeat' first
    | with_reducible assumption
    | with_reducible apply State.setMould_follows
    | with_reducible apply State.setPath_follows
    | with_reducible apply State.report_follows
    | with_reducible apply State.modRgp_follows
    | with_reducible apply State.setRgp_follows
    | (lift_lets; intro x; clear_value x)
    | (split)
    | (with_reducible apply Follows.same; with_reducible apply State.setBt_follows)

theorem State.violate_follows {tb : Bool} {a : State} (s : State) (p : Part) (cause : ℕ) (what : ℕ) (h : Follows tb a s) :
    Follows tb a (State.violate s p cause what) := by
  unfold State.violate
  repeat' first
    | with_reducible assumption
    | with_reducible apply State.freeze_follows
    | with_reducible apply State.report_follows
    | (split)

/-! ### Path -/

theorem State.endSeal_follows {tb : Bool} {a : State} (s : State) (p : Part) (k : ℕ) (h : Follows tb a s) :
    Follows tb a (State.endSeal s p k) := by
  unfold State.endSeal
  repeat' first
    | with_reducible assumption
    | with_reducible apply State.setMould_follows
    | (split)

theorem State.endStep_follows {tb : Bool} {a : State} (s : State) (p : Part) (tag : BitVec 12) (h : Follows tb a s) :
    Follows tb a (State.endStep s p tag) := by
  unfold State.endStep
  repeat' first
    | (lift_lets; intro x; clear_value x)
    | (with_reducible apply Follows.same; with_reducible assumption)

theorem State.endPourStep_follows {tb : Bool} {a : State} (s : State) (h : Follows tb a s) :
    Follows tb a (State.endPourStep s) := by
  unfold State.endPourStep
  repeat' first
    | with_reducible assumption
    | (lift_lets; intro x; clear_value x)
    | (split)
    | (with_reducible apply Follows.same; with_reducible assumption)

theorem State.endLock_follows {tb : Bool} {a : State} (s : State) (h : Follows tb a s) : Follows tb a (State.endLock s) := by
  unfold State.endLock
  repeat' first
    | with_reducible assumption
    | with_reducible apply State.endPourStep_follows
    | (lift_lets; intro x; refine Follows.cut (tb := tb) (a := a) (x := x) ?_ (fun _ => ?_); on_goal 2 => clear_value x)
    | (intro)
    | (with_reducible apply Follows.same; with_reducible assumption)

theorem State.complete_follows {tb : Bool} {a : State} (s0 : State) (p : Part) (r : Reply) (h : Follows tb a s0) :
    Follows tb a (State.complete s0 p r) := by
  unfold State.complete
  repeat' first
    | with_reducible assumption
    | with_reducible apply State.endStep_follows
    | with_reducible apply State.endSeal_follows
    | with_reducible apply State.setPath_follows
    | (lift_lets; intro x; refine Follows.cut (tb := tb) (a := a) (x := x) ?_ (fun _ => ?_); on_goal 2 => clear_value x)
    | (intro)
    | (split)

theorem finish_follows {tb : Bool} {a : State} (p : Part) (d : CmdDesc) (x2 : Ans) (h : Follows tb a x2.s) (hx2_ : AnsF tb a x2) :
    Follows tb a (finish p d x2) := by
  unfold finish
  repeat' first
    | with_reducible assumption
    | with_reducible apply State.complete_follows
    | with_reducible apply State.violate_follows
    | (lift_lets; intro x; refine Follows.cut (tb := tb) (a := a) (x := x) ?_ (fun _ => ?_); on_goal 2 => clear_value x)
    | (split)

theorem fail_follows {tb : Bool} {a : State} (s : State) (status : Byte) (h : Follows tb a s) : AnsF tb a (fail s status) := by
  unfold fail
  repeat' first
    | with_reducible assumption
    | with_reducible apply AnsF.intro

theorem withOutput_follows {tb : Bool} {a : State} (d : CmdDesc) (s : State) (t : State) (result : ℕ) (out : List Byte) (h :
    Follows tb a s) (h1 : Follows tb a t) : AnsF tb a (withOutput d s t result out) := by
  unfold withOutput
  repeat' first
    | with_reducible assumption
    | with_reducible apply fail_follows
    | (split)
    | with_reducible apply AnsF.intro

theorem onSignalBox_follows {tb : Bool} {a : State} (f : State → State) (s : State) (h : Follows tb a s) (hf :
    ∀ x0_, Follows tb a x0_ → Follows tb a (f x0_)) : Follows tb a (onSignalBox f s) := by
  unfold onSignalBox
  repeat' first
    | with_reducible assumption
    | with_reducible apply hf
    | (split)

theorem onForm_follows {tb : Bool} {a : State} (f : Form) (p : Part) (d : CmdDesc) (go : State → State) (x4 : State) (h :
    Follows tb a x4) (hgo : ∀ x0_, Follows tb a x0_ → Follows tb a (go x0_)) : Follows tb a (onForm f p d go x4) := by
  unfold onForm
  repeat' first
    | with_reducible assumption
    | with_reducible apply hgo
    | with_reducible apply onSignalBox_follows
    | with_reducible apply fail_follows
    | with_reducible apply finish_follows
    | (intro x (hx : Follows tb a x))
    | (split)
    | (with_reducible apply AnsF.out; with_reducible apply fail_follows)

theorem runCommand_follows {tb : Bool} {a : State} (f : Form) (p : Part) (d : CmdDesc) (body : State → Ans) (x4 : State) (h :
    Follows tb a x4) (hbody : ∀ x0_, Follows tb a x0_ → AnsF tb a (body x0_)) : Follows tb a (runCommand f p d body x4) := by
  unfold runCommand
  repeat' first
    | with_reducible assumption
    | with_reducible apply hbody
    | with_reducible apply onForm_follows
    | with_reducible apply finish_follows
    | (intro x (hx : Follows tb a x))
    | (with_reducible apply AnsF.out; with_reducible apply hbody)

theorem targetCheck_follows {tb : Bool} {a : State} (s : State) (p : Part) (d : CmdDesc) (k : Kind) (i : ℕ) (h : Follows tb a s) :
    OptA tb a (targetCheck s p d k i) := by
  unfold targetCheck
  repeat' first
    | with_reducible assumption
    | with_reducible exact OptA.none
    | with_reducible apply OptA.some
    | (lift_lets; intro x; clear_value x)
    | (split)
    | with_reducible apply AnsF.intro

theorem onTarget_follows {tb : Bool} {a : State} (p : Part) (d : CmdDesc) (k : Kind) (i : ℕ) (body : State → Ans) (s : State) (h :
    Follows tb a s) (hbody : ∀ x0_, Follows tb a x0_ → AnsF tb a (body x0_)) : AnsF tb a (onTarget p d k i body s) := by
  unfold onTarget
  repeat' first
    | with_reducible assumption
    | with_reducible apply hbody
    | with_reducible apply targetCheck_follows
    | (split)
    | (refine OptA.elim ?_ (by with_reducible assumption))

theorem stageItem_follows {tb : Bool} {a : State} (s : State) (p : Part) (tag : BitVec 12) (x : Item) (h : Follows tb a s) :
    AnsF tb a (stageItem s p tag x) := by
  unfold stageItem
  repeat' first
    | with_reducible assumption
    | with_reducible apply fail_follows
    | with_reducible apply State.setMould_follows
    | (split)
    | with_reducible apply AnsF.intro

/-! ### Operands -/

theorem stagePort_follows {tb : Bool} {a : State} (c : ℕ) (p : Part) (tag : BitVec 12) (x : Item) (s : State) (h :
    Follows tb a s) : AnsF tb a (stagePort c p tag x s) := by
  unfold stagePort
  repeat' first
    | with_reducible assumption
    | with_reducible apply stageItem_follows
    | with_reducible apply fail_follows
    | (split)

theorem onIndex_follows {tb : Bool} {a : State} (p : Part) (d : CmdDesc) (k : Kind) (i : ℕ) (body : State → Ans) (s : State) (h :
    Follows tb a s) (hbody : ∀ x0_, Follows tb a x0_ → AnsF tb a (body x0_)) : AnsF tb a (onIndex p d k i body s) := by
  unfold onIndex
  repeat' first
    | with_reducible assumption
    | with_reducible apply onTarget_follows
    | with_reducible apply fail_follows
    | (split)

/-! ### Buffer -/

theorem State.setFrame_follows {tb : Bool} {a : State} (s : State) (f : Frame) (h : Follows tb a s) :
    Follows tb a (State.setFrame s f) := by
  unfold State.setFrame
  repeat' first
    | (lift_lets; intro x; clear_value x)
    | (with_reducible apply Follows.same; with_reducible assumption)

theorem State.modFrame_follows {tb : Bool} {a : State} (s : State) (id : ℕ) (u : Frame → Frame) (h : Follows tb a s) :
    Follows tb a (State.modFrame s id u) := by
  unfold State.modFrame
  repeat' first
    | with_reducible assumption
    | with_reducible apply State.setFrame_follows
    | (split)

theorem State.removeFrame_follows {tb : Bool} {a : State} (s : State) (id : ℕ) (h : Follows tb a s) :
    Follows tb a (State.removeFrame s id) := by
  unfold State.removeFrame
  repeat' first
    | (lift_lets; intro x; clear_value x)
    | (with_reducible apply Follows.same; with_reducible assumption)

theorem State.pickBanks_follows {tb : Bool} {a : State} (s : State) (n : ℕ) (h : Follows tb a s) :
    PairF tb a (State.pickBanks s n) := by
  unfold State.pickBanks
  repeat' first
    | with_reducible assumption
    | with_reducible apply drawNat_follows
    | (split)
    | (refine PairF.elim (by with_reducible assumption) ?_)
    | with_reducible apply PairF.intro

theorem State.bufferField_follows {tb : Bool} {a : State} (s : State) (banks : List (Fin 16)) (h : Follows tb a s) :
    PairF tb a (State.bufferField s banks) := by
  unfold State.bufferField
  repeat' first
    | with_reducible assumption
    | with_reducible apply drawNat_follows
    | (split)
    | (refine PairF.elim (by with_reducible assumption) ?_)
    | with_reducible apply PairF.intro

theorem State.charge_follows {tb : Bool} {a : State} (s : State) (x1 : ℕ) (g : ℕ) (sh : ℕ) (n : ℕ) (add : Bool) (h :
    Follows tb a s) : Follows tb a (State.charge s x1 g sh n add) := by
  unfold State.charge
  repeat' first
    | (lift_lets; intro x; clear_value x)
    | (intro)
    | (split)
    | (with_reducible apply Follows.same; with_reducible assumption)

theorem State.uncharge_follows {tb : Bool} {a : State} (s : State) (f : Frame) (h : Follows tb a s) :
    Follows tb a (State.uncharge s f) := by
  unfold State.uncharge
  repeat' first
    | with_reducible assumption
    | with_reducible apply State.charge_follows

theorem State.freeFrame_follows {tb : Bool} {a : State} (s : State) (f : Frame) (h : Follows tb a s) :
    Follows tb a (State.freeFrame s f) := by
  unfold State.freeFrame
  repeat' first
    | with_reducible assumption
    | with_reducible apply State.uncharge_follows
    | with_reducible apply State.removeFrame_follows

theorem State.admitFrame_follows {tb : Bool} {a : State} (s : State) (f : Frame) (cls : ℕ) (h : Follows tb a s) :
    Follows tb a (State.admitFrame s f cls) := by
  unfold State.admitFrame
  repeat' first
    | with_reducible assumption
    | with_reducible apply State.charge_follows
    | (intro x; refine Follows.cut (tb := tb) (a := a) (x := x) ?_ (fun _ => ?_); on_goal 2 => clear_value x)
    | (lift_lets; intro x; clear_value x)
    | (intro)
    | (with_reducible apply Follows.same; with_reducible assumption)

theorem State.capLost_follows {tb : Bool} {a : State} (s : State) (q : ℕ) (n : ℕ) (h : Follows tb a s) :
    Follows tb a (State.capLost s q n) := by
  unfold State.capLost
  repeat' first
    | with_reducible assumption
    | with_reducible apply State.setCapq_follows
    | with_reducible apply State.setBt_follows
    | with_reducible apply State.modRg_follows
    | (lift_lets; intro x; refine Follows.cut (tb := tb) (a := a) (x := x) ?_ (fun _ => ?_); on_goal 2 => clear_value x)
    | (intro)
    | (split)

theorem State.evict_follows {tb : Bool} {a : State} (s : State) (v : Victim) (h : Follows tb a s) :
    Follows tb a (State.evict s v) := by
  unfold State.evict
  repeat' first
    | with_reducible assumption
    | with_reducible apply State.capLost_follows
    | with_reducible apply State.setCapq_follows
    | with_reducible apply State.countDrop_follows

theorem State.dropCells_follows {tb : Bool} {a : State} (s : State) (f : Frame) (h : Follows tb a s) :
    Follows tb a (State.dropCells s f) := by
  unfold State.dropCells
  repeat' first
    | with_reducible assumption
    | with_reducible apply State.freeFrame_follows
    | (split)

theorem moveToCapture_follows {tb : Bool} {a : State} (fuel : ℕ) (id : ℕ) (s : State) (h : Follows tb a s) :
    Follows tb a (moveToCapture fuel id s) := by
  induction fuel generalizing s with
  | zero =>
    unfold moveToCapture
    split
    · exact h
    · exact h
    · contradiction
  | succ n ih =>
    unfold moveToCapture
    split
    · exact h
    · contradiction
    · next k f e1 e2 =>
      obtain rfl : n = k := Nat.succ.inj e1
      split
      · exact State.dropCells_follows _ _ h
      · split
        · exact State.setFrame_follows _ _ (State.charge_follows _ _ _ _ _ _ (State.uncharge_follows _ _ h))
        · split
          · exact h
          · next v _ =>
            have hv := State.evict_follows s v h
            refine ih _ ?_
            split
            · split
              · exact State.dropCells_follows _ _ hv
              · exact hv
            · exact hv

theorem State.settleFrame_follows {tb : Bool} {a : State} (s : State) (id : ℕ) (h : Follows tb a s) :
    Follows tb a (State.settleFrame s id) := by
  unfold State.settleFrame
  repeat' first
    | with_reducible assumption
    | with_reducible apply moveToCapture_follows
    | with_reducible apply State.dropCells_follows
    | (split)

theorem State.finishBranch_follows {tb : Bool} {a : State} (s : State) (id : ℕ) (h : Follows tb a s) :
    Follows tb a (State.finishBranch s id) := by
  unfold State.finishBranch
  repeat' first
    | with_reducible assumption
    | with_reducible apply State.settleFrame_follows
    | with_reducible apply State.modFrame_follows

theorem State.dropCopy_follows {tb : Bool} {a : State} (s : State) (code : ℕ) (id : ℕ) (h : Follows tb a s) :
    Follows tb a (State.dropCopy s code id) := by
  unfold State.dropCopy
  repeat' first
    | with_reducible assumption
    | with_reducible apply State.settleFrame_follows
    | with_reducible apply State.countDrop_follows

/-! ### Flags -/

theorem onAccess_follows {tb : Bool} {a : State} (p : Part) (addr : ℕ) (f : State → State) (s : State) (h : Follows tb a s) (hf :
    ∀ x0_, Follows tb a x0_ → Follows tb a (f x0_)) : Follows tb a (onAccess p addr f s) := by
  unfold onAccess
  repeat' first
    | with_reducible assumption
    | with_reducible apply hf
    | with_reducible apply State.emit_follows
    | (split)

theorem answer_follows {tb : Bool} {a : State} (p : Part) (addr : ℕ) (v : W64) (s : State) (h : Follows tb a s) :
    Follows tb a (answer p addr v s) := by
  unfold answer
  repeat' first
    | with_reducible assumption
    | with_reducible apply State.emit_follows

/-! ### Views -/

theorem onRead_follows {tb : Bool} {a : State} (p : Part) (off : ℕ) (f : State → State) (x3 : State) (h : Follows tb a x3) (hf :
    ∀ x0_, Follows tb a x0_ → Follows tb a (f x0_)) : Follows tb a (onRead p off f x3) := by
  unfold onRead
  repeat' first
    | with_reducible assumption
    | with_reducible apply hf
    | with_reducible apply answer_follows
    | with_reducible apply onAccess_follows
    | with_reducible apply State.violate_follows
    | with_reducible apply State.report_follows
    | (intro x (hx : Follows tb a x))
    | (split)

theorem onWrite_follows {tb : Bool} {a : State} (p : Part) (off : ℕ) (f : State → State) (x3 : State) (h : Follows tb a x3) (hf :
    ∀ x0_, Follows tb a x0_ → Follows tb a (f x0_)) : Follows tb a (onWrite p off f x3) := by
  unfold onWrite
  repeat' first
    | with_reducible assumption
    | with_reducible apply hf
    | with_reducible apply onAccess_follows
    | with_reducible apply State.violate_follows
    | with_reducible apply State.report_follows
    | (intro x (hx : Follows tb a x))
    | (split)

end Sys2Proof.Machine
end

