-- ==== Sys2Proof/Laws/FollowsCapture.lean ====
section
/-! SUPPORT. What every effect keeps, one lemma per function: capture. -/

set_option linter.all false

namespace Sys2Proof.Machine

/-! ### Capture -/

theorem State.cfcUpdate_follows {tb : Bool} {a : State} (s : State) (h : Follows tb a s) : Follows tb a (State.cfcUpdate s) := by
  unfold State.cfcUpdate
  repeat' first
    | (lift_lets; intro x; clear_value x)
    | (with_reducible apply Follows.same; with_reducible assumption)

theorem State.capDma_follows {tb : Bool} {a : State} (s : State) (p : Part) (addr : ℕ) (bytes : List Byte) (h : Follows tb a s) :
    PairF tb a (State.capDma s p addr bytes) := by
  unfold State.capDma
  repeat' first
    | with_reducible assumption
    | with_reducible apply State.violate_follows
    | with_reducible apply State.emit_follows
    | (split)
    | with_reducible apply PairF.intro

theorem State.writeback_follows {tb : Bool} {a : State} (s : State) (q : ℕ) (h : Follows tb a s) :
    PairF tb a (State.writeback s q) := by
  unfold State.writeback
  repeat' first
    | with_reducible assumption
    | with_reducible apply State.capDma_follows

theorem State.levelMessage_follows {tb : Bool} {a : State} (s : State) (q : ℕ) (batch : Bool) (h : Follows tb a s) :
    Follows tb a (State.levelMessage s q batch) := by
  unfold State.levelMessage
  repeat' first
    | with_reducible assumption
    | with_reducible apply State.writeback_follows
    | with_reducible apply State.setCapq_follows
    | with_reducible apply State.sendMsix_follows
    | (lift_lets; intro x; clear_value x)
    | (intro)
    | (split)
    | (refine PairF.elim (by with_reducible assumption) ?_)

theorem State.capNotice_follows {tb : Bool} {a : State} (s : State) (q : ℕ) (batch : Bool) (h : Follows tb a s) :
    Follows tb a (State.capNotice s q batch) := by
  unfold State.capNotice
  repeat' first
    | with_reducible assumption
    | with_reducible apply State.levelMessage_follows
    | with_reducible apply State.cfcUpdate_follows
    | with_reducible apply State.setCapq_follows
    | with_reducible apply State.setBt_follows
    | (intro x; refine Follows.cut (tb := tb) (a := a) (x := x) ?_ (fun _ => ?_); on_goal 2 => clear_value x)
    | (lift_lets; intro x; clear_value x)
    | (intro)
    | (split)

theorem State.resumeCapture_follows {tb : Bool} {a : State} (s : State) (p : Part) (h : Follows tb a s) :
    Follows tb a (State.resumeCapture s p) := by
  unfold State.resumeCapture
  repeat' first
    | with_reducible assumption
    | with_reducible apply State.levelMessage_follows
    | with_reducible apply State.setCapq_follows
    | with_reducible apply Follows.foldl
    | (intro x y (hx : Follows tb a x))
    | (lift_lets; intro x; clear_value x)
    | (split)

theorem State.makeCapture_follows {tb : Bool} {a : State} (s : State) (q : ℕ) (f : Frame) (desc : FrameDesc) (deferred : Bool)
    (egress : PortCode) (h : Follows tb a s) : Follows tb a (State.makeCapture s q f desc deferred egress) := by
  unfold State.makeCapture
  repeat' first
    | with_reducible assumption
    | with_reducible apply State.capLost_follows
    | with_reducible apply State.setCapq_follows
    | (intro x; refine Follows.cut (tb := tb) (a := a) (x := x) ?_ (fun _ => ?_); on_goal 2 => clear_value x)
    | (lift_lets; intro x; clear_value x)
    | (intro)
    | (split)
    | (with_reducible apply Follows.same; with_reducible assumption)

theorem State.freeLane_follows {tb : Bool} {a : State} (s : State) (q : ℕ) (h : Follows tb a s) :
    Follows tb a (State.freeLane s q) := by
  unfold State.freeLane
  repeat' first
    | (lift_lets; intro x; clear_value x)
    | (with_reducible apply Follows.same; with_reducible assumption)

theorem State.endWriting_follows {tb : Bool} {a : State} (s : State) (q : ℕ) (h : Follows tb a s) :
    Follows tb a (State.endWriting s q) := by
  unfold State.endWriting
  repeat' first
    | with_reducible assumption
    | with_reducible apply State.freeLane_follows
    | with_reducible apply State.settleFrame_follows
    | with_reducible apply State.setCapq_follows
    | (intro x; refine Follows.cut (tb := tb) (a := a) (x := x) ?_ (fun _ => ?_); on_goal 2 => clear_value x)
    | (lift_lets; intro x; clear_value x)
    | (split)

theorem State.pump_follows {tb : Bool} {a : State} (s : State) (q : ℕ) (batch : Bool) (h : Follows tb a s) :
    Follows tb a (State.pump s q batch) := by
  unfold State.pump
  repeat' first
    | with_reducible assumption
    | with_reducible apply State.endWriting_follows
    | with_reducible apply State.capNotice_follows
    | with_reducible apply State.capLost_follows
    | with_reducible apply State.setCapq_follows
    | with_reducible apply State.countWide_follows
    | (split)

theorem ladleLaneTake_follows {tb : Bool} {a : State} (lane : Fin 8) (s : State) (h : Follows tb a s) :
    Follows tb a (ladleLaneTake lane s) := by
  unfold ladleLaneTake
  repeat' first
    | with_reducible assumption
    | with_reducible apply State.pump_follows
    | (lift_lets; intro x; clear_value x)
    | (split)
    | (with_reducible apply Follows.same; with_reducible apply State.setCapq_follows)

theorem execLadleLaneTake_follows {tb : Bool} {a : State} (lane : Fin 8) (s : State) (h : Follows tb a s) :
    ResF tb a (execLadleLaneTake lane s) := by
  unfold execLadleLaneTake
  repeat' first
    | with_reducible assumption
    | with_reducible apply ladleLaneTake_follows
    | with_reducible apply clocked_follows
    | with_reducible apply ResF.next

theorem State.discardSiding_follows {tb : Bool} {a : State} (s : State) (q : ℕ) (h : Follows tb a s) :
    Follows tb a (State.discardSiding s q) := by
  unfold State.discardSiding
  repeat' first
    | with_reducible assumption
    | with_reducible apply State.pump_follows
    | with_reducible apply State.endWriting_follows
    | with_reducible apply State.capLost_follows
    | with_reducible apply State.setCapq_follows
    | (lift_lets; intro x; clear_value x)
    | (intro)
    | (split)

theorem State.placeClosing_follows {tb : Bool} {a : State} (s : State) (q : ℕ) (h : Follows tb a s) :
    Follows tb a (State.placeClosing s q) := by
  unfold State.placeClosing
  repeat' first
    | with_reducible assumption
    | with_reducible apply State.pump_follows
    | with_reducible apply State.setCapq_follows
    | (lift_lets; intro x; clear_value x)
    | (split)

theorem sidingLossClose_follows {tb : Bool} {a : State} (q : Fin 64) (s : State) (h : Follows tb a s) :
    Follows tb a (sidingLossClose q s) := by
  unfold sidingLossClose
  repeat' first
    | with_reducible assumption
    | with_reducible apply State.placeClosing_follows

theorem execSidingLossClose_follows {tb : Bool} {a : State} (q : Fin 64) (s : State) (h : Follows tb a s) :
    ResF tb a (execSidingLossClose q s) := by
  unfold execSidingLossClose
  repeat' first
    | with_reducible assumption
    | with_reducible apply sidingLossClose_follows
    | with_reducible apply clocked_follows
    | with_reducible apply ResF.next

theorem State.checkWord_follows {tb : Bool} {a : State} (s : State) (q : ℕ) (idx : ℕ) (e : Ecc) (w : CapWord) (h :
    Follows tb a s) : PairF tb a (State.checkWord s q idx e w) := by
  unfold State.checkWord
  repeat' first
    | with_reducible assumption
    | with_reducible apply State.discardSiding_follows
    | with_reducible apply State.report_follows
    | with_reducible apply State.count_follows
    | with_reducible apply State.setBt_follows
    | (lift_lets; intro x; clear_value x)
    | (intro)
    | (split)
    | with_reducible apply PairF.intro

theorem State.writeBurst_follows {tb : Bool} {a : State} (s : State) (q : ℕ) (g : ℕ) (b : ℕ) (v : BitVec 512) (h :
    Follows tb a s) : Follows tb a (State.writeBurst s q g b v) := by
  unfold State.writeBurst
  repeat' first
    | with_reducible assumption
    | (lift_lets; intro x; clear_value x)
    | (split)
    | (with_reducible apply Follows.same; with_reducible assumption)

theorem captureMemGrant_follows {tb : Bool} {a : State} (c : Fin 4) (s : State) (h : Follows tb a s) :
    Follows tb a (captureMemGrant c s) := by
  unfold captureMemGrant
  repeat' first
    | with_reducible assumption
    | with_reducible apply State.pump_follows
    | with_reducible apply State.granted_follows
    | with_reducible apply State.setArb_follows
    | with_reducible apply State.setCapq_follows
    | with_reducible apply State.setBt_follows
    | (lift_lets; intro x; refine Follows.cut (tb := tb) (a := a) (x := x) ?_ (fun _ => ?_); on_goal 2 => clear_value x)
    | (intro)
    | (split)

theorem execCaptureMemGrant_follows {tb : Bool} {a : State} (c : Fin 4) (s : State) (h : Follows tb a s) :
    ResF tb a (execCaptureMemGrant c s) := by
  unfold execCaptureMemGrant
  repeat' first
    | with_reducible assumption
    | with_reducible apply captureMemGrant_follows
    | with_reducible apply clocked_follows
    | with_reducible apply ResF.next

theorem State.retireChannel_follows {tb : Bool} {a : State} (s : State) (c : ℕ) (h : Follows tb a s) :
    Follows tb a (State.retireChannel s c) := by
  have hs : ∀ t : State, Follows tb a t → ∀ r, Follows tb a { t with cap.retrain := r } := fun t k _ => ⟨k.queue, k.fuse, k.sent, k.mem, k.conf⟩
  have hf : ∀ t q, Follows tb a t →
      Follows tb a (if (t.discardSiding q).sidingSize q = 0 then t.discardSiding q
        else (t.discardSiding q).setCapq q { (t.discardSiding q).capq q with off := true }) := by
    intro t q k
    split
    · exact State.discardSiding_follows _ _ k
    · exact State.setCapq_follows _ _ _ (State.discardSiding_follows _ _ k)
  unfold State.retireChannel
  split
  · exact h
  · exact State.setFault_follows _ _ (State.report_follows _ _ _ _ _ _ _ (Follows.foldl hf _ _ (hs _
      (State.setBt_follows _ _ _ _ (State.setBt_follows _ _ _ _ (State.setBt_follows _ _ _ _ h))) _)))

theorem State.badWord_follows {tb : Bool} {a : State} (s : State) (c : Option ℕ) (h : Follows tb a s) :
    Follows tb a (State.badWord s c) := by
  unfold State.badWord
  repeat' first
    | with_reducible assumption
    | with_reducible apply State.retireChannel_follows
    | with_reducible apply State.countFault_follows
    | (lift_lets; intro x; refine Follows.cut (tb := tb) (a := a) (x := x) ?_ (fun _ => ?_); on_goal 2 => clear_value x)
    | (split)

theorem State.land_follows {tb : Bool} {a : State} (s : State) (q : ℕ) (p : ℕ) (w : CapWord) (h : Follows tb a s) :
    Follows tb a (State.land s q p w) := by
  unfold State.land
  repeat' first
    | with_reducible assumption
    | with_reducible apply State.writeBurst_follows
    | with_reducible apply State.setCapq_follows
    | (intro x; refine Follows.cut (tb := tb) (a := a) (x := x) ?_ (fun _ => ?_); on_goal 2 => clear_value x)
    | (lift_lets; intro x; clear_value x)
    | (intro)
    | (split)

theorem State.fillDone_follows {tb : Bool} {a : State} (s : State) (q : ℕ) (e : Ecc) (h : Follows tb a s) :
    Follows tb a (State.fillDone s q e) := by
  unfold State.fillDone
  extract_lets c
  clear_value c
  split
  · exact State.pump_follows _ _ _ (State.setCapq_follows _ _ _ h)
  · extract_lets ch
    clear_value ch
    have hp := fun (i : ℕ) (w : CapWord) => (State.checkWord_follows s q i e w h).out
    dsimp only
    split
    · exact State.badWord_follows _ _ (hp _ _)
    · split
      · exact State.badWord_follows _ _ (State.pump_follows _ _ _ (State.setCapq_follows _ _ _ (hp _ _)))
      · exact State.pump_follows _ _ _ (State.setCapq_follows _ _ _ (hp _ _))
  · exact h

theorem sidingBurstDone_follows {tb : Bool} {a : State} (q : Fin 64) (fill : Bool) (e : Ecc) (s : State) (h : Follows tb a s) :
    Follows tb a (sidingBurstDone q fill e s) := by
  unfold sidingBurstDone
  repeat' first
    | with_reducible assumption
    | with_reducible apply State.fillDone_follows
    | with_reducible apply State.land_follows
    | with_reducible apply State.pump_follows
    | with_reducible apply State.setCapq_follows
    | (extract_lets +onlyGivenNames x; clear_value x)
    | (split)

theorem execSidingBurstDone_follows {tb : Bool} {a : State} (q : Fin 64) (fill : Bool) (e : Ecc) (s : State) (h : Follows tb a s) :
    ResF tb a (execSidingBurstDone q fill e s) := by
  unfold execSidingBurstDone
  repeat' first
    | with_reducible assumption
    | with_reducible apply sidingBurstDone_follows
    | with_reducible apply clocked_follows
    | with_reducible apply ResF.next

theorem State.checkHead_follows {tb : Bool} {a : State} (s : State) (q : ℕ) (e : Ecc) (w : CapWord) (h : Follows tb a s) :
    PairF tb a (State.checkHead s q e w) := by
  unfold State.checkHead
  repeat' first
    | with_reducible assumption
    | with_reducible apply State.checkWord_follows
    | (split)
    | with_reducible apply PairF.intro

theorem dmaWords_follows {tb : Bool} {a : State} (q : ℕ) (x1 : ℕ) (x2 : List Ecc) (x3 : State) (h : Follows tb a x3) :
    PairF tb a (dmaWords q x1 x2 x3) := by
  induction x1 generalizing x2 x3 with
  | zero => exact ⟨h⟩
  | succ k ih =>
    unfold dmaWords
    extract_lets c n size
    clear_value c n size
    split
    · exact ⟨h⟩
    · next w r _ =>
      split
      · exact ⟨h⟩
      · have hw := (State.checkHead_follows x3 q (x2.headD .clean) w h).out
        generalize x3.checkHead q (x2.headD .clean) w = y at hw
        obtain ⟨v, u⟩ := y
        generalize x3.capHolder q = p
        dsimp only
        split
        · next t e => exact ⟨(State.capDma_follows _ _ _ _ hw).elim e⟩
        · next t e =>
          have ht := (State.capDma_follows _ _ _ _ hw).elim e
          split
          · next u e2 => exact ⟨(State.capDma_follows _ _ _ _ ht).elim e2⟩
          · next u e2 =>
            have hu := (State.capDma_follows _ _ _ _ ht).elim e2
            exact ih _ _ (State.pump_follows _ _ _ (State.modRg_follows _ _ _ (State.setCapq_follows _ _ _ hu)))

theorem captureDmaBatch_follows {tb : Bool} {a : State} (q : Fin 64) (es : List Ecc) (s : State) (h : Follows tb a s) :
    Follows tb a (captureDmaBatch q es s) := by
  unfold captureDmaBatch
  repeat' first
    | with_reducible assumption
    | with_reducible apply dmaWords_follows
    | with_reducible apply State.writeback_follows
    | with_reducible apply State.setCapq_follows
    | with_reducible apply State.sendMsix_follows
    | (lift_lets; intro x; clear_value x)
    | (split)
    | (refine PairF.elim (by with_reducible assumption) ?_)

theorem execCaptureDmaBatch_follows {tb : Bool} {a : State} (q : Fin 64) (eccs : List Ecc) (s : State) (h : Follows tb a s) :
    ResF tb a (execCaptureDmaBatch q eccs s) := by
  unfold execCaptureDmaBatch
  repeat' first
    | with_reducible assumption
    | with_reducible apply captureDmaBatch_follows
    | with_reducible apply clocked_follows
    | with_reducible apply ResF.next

theorem capHrdWrite_follows {tb : Bool} {a : State} (p : Part) (q : Fin 64) (v : W32) (s : State) (h : Follows tb a s) :
    Follows tb a (capHrdWrite p q v s) := by
  unfold capHrdWrite
  repeat' first
    | with_reducible assumption
    | with_reducible apply State.capNotice_follows
    | with_reducible apply State.report_follows
    | with_reducible apply State.setRg_follows
    | (split)

theorem execCapHrdWrite_follows {tb : Bool} {a : State} (p : Part) (q : Fin 64) (v : W32) (s : State) (h : Follows tb a s) :
    ResF tb a (execCapHrdWrite p q v s) := by
  unfold execCapHrdWrite
  repeat' first
    | with_reducible assumption
    | with_reducible apply capHrdWrite_follows
    | with_reducible apply onWrite_follows
    | with_reducible apply ResF.next

theorem capAck_follows {tb : Bool} {a : State} (q : Fin 64) (v : W32) (s : State) (h : Follows tb a s) :
    Follows tb a (capAck q v s) := by
  unfold capAck
  repeat' first
    | with_reducible assumption
    | with_reducible apply State.setCapq_follows

theorem execCapAck_follows {tb : Bool} {a : State} (p : Part) (q : Fin 64) (v : W32) (s : State) (h : Follows tb a s) :
    ResF tb a (execCapAck p q v s) := by
  unfold execCapAck
  repeat' first
    | with_reducible assumption
    | with_reducible apply capAck_follows
    | with_reducible apply onWrite_follows
    | with_reducible apply ResF.next

theorem State.wrongDrain_follows {tb : Bool} {a : State} (s : State) (p : Part) (q : ℕ) (h : Follows tb a s) :
    Follows tb a (State.wrongDrain s p q) := by
  unfold State.wrongDrain
  repeat' first
    | with_reducible assumption
    | with_reducible apply State.report_follows

theorem State.peek_follows {tb : Bool} {a : State} (s : State) (p : Part) (q : ℕ) (i : ℕ) (e : Ecc) (h : Follows tb a s) :
    PairF tb a (State.peek s p q i e) := by
  unfold State.peek
  repeat' first
    | with_reducible assumption
    | with_reducible apply State.wrongDrain_follows
    | with_reducible apply State.setCapq_follows
    | with_reducible apply State.setBt_follows
    | (lift_lets; intro x; clear_value x)
    | (split)
    | (with_reducible apply PairF.out; with_reducible apply State.checkHead_follows)
    | with_reducible apply PairF.intro

theorem capPeekRead_follows {tb : Bool} {a : State} (p : Part) (q : Fin 64) (i : Fin 17) (eight : Bool) (e : Ecc) (s : State) (h :
    Follows tb a s) : Follows tb a (capPeekRead p q i eight e s) := by
  unfold capPeekRead
  repeat' first
    | with_reducible assumption
    | with_reducible apply State.peek_follows
    | with_reducible apply answer_follows
    | (split)
    | (refine PairF.elim (by with_reducible assumption) ?_)
    | (with_reducible apply PairF.out; with_reducible apply State.peek_follows)

theorem execCapPeekRead_follows {tb : Bool} {a : State} (p : Part) (q : Fin 64) (idx : PeekAt) (ecc : Ecc) (s : State) (h :
    Follows tb a s) : ResF tb a (execCapPeekRead p q idx ecc s) := by
  unfold execCapPeekRead
  repeat' first
    | with_reducible assumption
    | with_reducible apply capPeekRead_follows
    | with_reducible apply onRead_follows
    | with_reducible apply ResF.next

theorem capPop_follows {tb : Bool} {a : State} (p : Part) (q : Fin 64) (v : W32) (e : Ecc) (s : State) (h : Follows tb a s) :
    Follows tb a (capPop p q v e s) := by
  unfold capPop
  repeat' first
    | with_reducible assumption
    | with_reducible apply State.wrongDrain_follows
    | with_reducible apply State.pump_follows
    | with_reducible apply State.setCapq_follows
    | with_reducible apply State.setBt_follows
    | (extract_lets +onlyGivenNames x; clear_value x)
    | (extract_lets +onlyGivenNames x)
    | (split)
    | (with_reducible apply PairF.out; with_reducible apply State.checkHead_follows)

theorem execCapPop_follows {tb : Bool} {a : State} (p : Part) (q : Fin 64) (w : PopWrite) (s : State) (h : Follows tb a s) :
    ResF tb a (execCapPop p q w s) := by
  unfold execCapPop
  repeat' first
    | with_reducible assumption
    | with_reducible apply capPop_follows
    | with_reducible apply onWrite_follows
    | with_reducible apply ResF.next

theorem State.discardQueue_follows {tb : Bool} {a : State} (s : State) (q : ℕ) (h : Follows tb a s) :
    PairF tb a (State.discardQueue s q) := by
  unfold State.discardQueue
  repeat' first
    | with_reducible assumption
    | with_reducible apply State.endWriting_follows
    | with_reducible apply State.capNotice_follows
    | with_reducible apply State.capLost_follows
    | with_reducible apply State.setCapq_follows
    | (lift_lets; intro x; clear_value x)
    | (intro)
    | with_reducible apply PairF.intro

theorem State.stopQueue_follows {tb : Bool} {a : State} (s : State) (q : ℕ) (h : Follows tb a s) :
    Follows tb a (State.stopQueue s q) := by
  unfold State.stopQueue
  repeat' first
    | with_reducible assumption
    | with_reducible apply State.settleFrame_follows
    | with_reducible apply State.capLost_follows
    | with_reducible apply State.setCapq_follows
    | with_reducible apply Follows.foldl
    | (intro x y (hx : Follows tb a x))

theorem State.zeroRings_follows {tb : Bool} {a : State} (s : State) (q : ℕ) (h : Follows tb a s) :
    Follows tb a (State.zeroRings s q) := by
  unfold State.zeroRings
  repeat' first
    | with_reducible assumption
    | with_reducible apply State.capNotice_follows
    | with_reducible apply State.setCapq_follows
    | with_reducible apply State.setRg_follows

theorem capDiscardBody_follows {tb : Bool} {a : State} (p : Part) (d : CmdDesc) (x2 : State) (h : Follows tb a x2) :
    AnsF tb a (capDiscardBody p d x2) := by
  unfold capDiscardBody
  repeat' first
    | with_reducible assumption
    | with_reducible apply onIndex_follows
    | (intro x (hx : Follows tb a x))
    | (with_reducible apply PairF.out; with_reducible apply State.discardQueue_follows)
    | with_reducible apply AnsF.intro

theorem execCapDiscard_follows {tb : Bool} {a : State} (p : Part) (d : CmdDesc) (s : State) (h : Follows tb a s) :
    ResF tb a (execCapDiscard p d s) := by
  unfold execCapDiscard
  repeat' first
    | with_reducible assumption
    | with_reducible apply capDiscardBody_follows
    | with_reducible apply runCommand_follows
    | with_reducible apply ResF.next

end Sys2Proof.Machine
end

