-- ==== Sys2Proof/Laws/FollowsForward.lean ====
section
/-! SUPPORT. What every effect keeps, one lemma per function: ports, tables, forwarding, security, the bridge. -/

set_option linter.all false

namespace Sys2Proof.Machine

/-! ### Ports -/

theorem State.canTally_follows {tb : Bool} {a : State} (s : State) (n : ℕ) (dTec : ℤ) (dRec : ℤ) (h : Follows tb a s) :
    Follows tb a (State.canTally s n dTec dRec) := by
  unfold State.canTally
  repeat' first
    | with_reducible assumption
    | with_reducible apply State.setRg_follows
    | (lift_lets; intro x; clear_value x)
    | (intro)
    | (split)

/-! ### Routes -/

theorem onKey_follows {tb : Bool} {a : State} (p : Part) (d : CmdDesc) (body : State → Ans) (s : State) (h : Follows tb a s)
    (hbody : ∀ x0_, Follows tb a x0_ → AnsF tb a (body x0_)) : AnsF tb a (onKey p d body s) := by
  unfold onKey
  repeat' first
    | with_reducible assumption
    | with_reducible apply hbody
    | with_reducible apply onTarget_follows
    | (split)

theorem routeAddBody_follows {tb : Bool} {a : State} (p : Part) (d : CmdDesc) (x2 : State) (h : Follows tb a x2) :
    AnsF tb a (routeAddBody p d x2) := by
  unfold routeAddBody
  repeat' first
    | with_reducible assumption
    | with_reducible apply onKey_follows
    | with_reducible apply stagePort_follows
    | with_reducible apply stageItem_follows
    | (intro x (hx : Follows tb a x))
    | (split)

theorem execRouteAdd_follows {tb : Bool} {a : State} (p : Part) (d : CmdDesc) (s : State) (h : Follows tb a s) :
    ResF tb a (execRouteAdd p d s) := by
  unfold execRouteAdd
  repeat' first
    | with_reducible assumption
    | with_reducible apply routeAddBody_follows
    | with_reducible apply runCommand_follows
    | with_reducible apply ResF.next

theorem routeDelBody_follows {tb : Bool} {a : State} (p : Part) (d : CmdDesc) (x2 : State) (h : Follows tb a x2) :
    AnsF tb a (routeDelBody p d x2) := by
  unfold routeDelBody
  repeat' first
    | with_reducible assumption
    | with_reducible apply onKey_follows
    | with_reducible apply stageItem_follows
    | (intro x (hx : Follows tb a x))

theorem execRouteDel_follows {tb : Bool} {a : State} (p : Part) (d : CmdDesc) (s : State) (h : Follows tb a s) :
    ResF tb a (execRouteDel p d s) := by
  unfold execRouteDel
  repeat' first
    | with_reducible assumption
    | with_reducible apply routeDelBody_follows
    | with_reducible apply runCommand_follows
    | with_reducible apply ResF.next

theorem routeReadBody_follows {tb : Bool} {a : State} (p : Part) (d : CmdDesc) (x2 : State) (h : Follows tb a x2) :
    AnsF tb a (routeReadBody p d x2) := by
  unfold routeReadBody
  repeat' first
    | with_reducible assumption
    | with_reducible apply onKey_follows
    | with_reducible apply withOutput_follows
    | with_reducible apply fail_follows
    | (intro x (hx : Follows tb a x))
    | (split)

theorem execRouteRead_follows {tb : Bool} {a : State} (p : Part) (d : CmdDesc) (s : State) (h : Follows tb a s) :
    ResF tb a (execRouteRead p d s) := by
  unfold execRouteRead
  repeat' first
    | with_reducible assumption
    | with_reducible apply routeReadBody_follows
    | with_reducible apply runCommand_follows
    | with_reducible apply ResF.next

theorem tcamWriteBody_follows {tb : Bool} {a : State} (p : Part) (d : CmdDesc) (x2 : State) (h : Follows tb a x2) :
    AnsF tb a (tcamWriteBody p d x2) := by
  unfold tcamWriteBody
  repeat' first
    | with_reducible assumption
    | with_reducible apply onIndex_follows
    | with_reducible apply stageItem_follows
    | (intro x (hx : Follows tb a x))

theorem execTcamWrite_follows {tb : Bool} {a : State} (p : Part) (d : CmdDesc) (s : State) (h : Follows tb a s) :
    ResF tb a (execTcamWrite p d s) := by
  unfold execTcamWrite
  repeat' first
    | with_reducible assumption
    | with_reducible apply tcamWriteBody_follows
    | with_reducible apply runCommand_follows
    | with_reducible apply ResF.next

theorem tcamReadBody_follows {tb : Bool} {a : State} (p : Part) (d : CmdDesc) (x2 : State) (h : Follows tb a x2) :
    AnsF tb a (tcamReadBody p d x2) := by
  unfold tcamReadBody
  repeat' first
    | with_reducible assumption
    | with_reducible apply onIndex_follows
    | with_reducible apply withOutput_follows
    | (intro x (hx : Follows tb a x))

theorem execTcamRead_follows {tb : Bool} {a : State} (p : Part) (d : CmdDesc) (s : State) (h : Follows tb a s) :
    ResF tb a (execTcamRead p d s) := by
  unfold execTcamRead
  repeat' first
    | with_reducible assumption
    | with_reducible apply tcamReadBody_follows
    | with_reducible apply runCommand_follows
    | with_reducible apply ResF.next

theorem dsetWriteBody_follows {tb : Bool} {a : State} (p : Part) (d : CmdDesc) (x2 : State) (h : Follows tb a x2) :
    AnsF tb a (dsetWriteBody p d x2) := by
  unfold dsetWriteBody
  repeat' first
    | with_reducible assumption
    | with_reducible apply onIndex_follows
    | with_reducible apply stageItem_follows
    | (intro x (hx : Follows tb a x))

theorem execDsetWrite_follows {tb : Bool} {a : State} (p : Part) (d : CmdDesc) (s : State) (h : Follows tb a s) :
    ResF tb a (execDsetWrite p d s) := by
  unfold execDsetWrite
  repeat' first
    | with_reducible assumption
    | with_reducible apply dsetWriteBody_follows
    | with_reducible apply runCommand_follows
    | with_reducible apply ResF.next

theorem dsetReadBody_follows {tb : Bool} {a : State} (p : Part) (d : CmdDesc) (x2 : State) (h : Follows tb a x2) :
    AnsF tb a (dsetReadBody p d x2) := by
  unfold dsetReadBody
  repeat' first
    | with_reducible assumption
    | with_reducible apply onIndex_follows
    | with_reducible apply withOutput_follows
    | (intro x (hx : Follows tb a x))

theorem execDsetRead_follows {tb : Bool} {a : State} (p : Part) (d : CmdDesc) (s : State) (h : Follows tb a s) :
    ResF tb a (execDsetRead p d s) := by
  unfold execDsetRead
  repeat' first
    | with_reducible assumption
    | with_reducible apply dsetReadBody_follows
    | with_reducible apply runCommand_follows
    | with_reducible apply ResF.next

theorem vlanWriteBody_follows {tb : Bool} {a : State} (p : Part) (d : CmdDesc) (s : State) (h : Follows tb a s) :
    AnsF tb a (vlanWriteBody p d s) := by
  unfold vlanWriteBody
  repeat' first
    | with_reducible assumption
    | with_reducible apply stageItem_follows
    | with_reducible apply fail_follows
    | (split)

theorem execVlanWrite_follows {tb : Bool} {a : State} (p : Part) (d : CmdDesc) (s : State) (h : Follows tb a s) :
    ResF tb a (execVlanWrite p d s) := by
  unfold execVlanWrite
  repeat' first
    | with_reducible assumption
    | with_reducible apply vlanWriteBody_follows
    | with_reducible apply runCommand_follows
    | with_reducible apply ResF.next

theorem vlanReadBody_follows {tb : Bool} {a : State} (p : Part) (d : CmdDesc) (s : State) (h : Follows tb a s) :
    AnsF tb a (vlanReadBody p d s) := by
  unfold vlanReadBody
  repeat' first
    | with_reducible assumption
    | with_reducible apply fail_follows
    | (split)
    | with_reducible apply AnsF.intro

theorem execVlanRead_follows {tb : Bool} {a : State} (p : Part) (d : CmdDesc) (s : State) (h : Follows tb a s) :
    ResF tb a (execVlanRead p d s) := by
  unfold execVlanRead
  repeat' first
    | with_reducible assumption
    | with_reducible apply vlanReadBody_follows
    | with_reducible apply runCommand_follows
    | with_reducible apply ResF.next

theorem profWriteBody_follows {tb : Bool} {a : State} (p : Part) (d : CmdDesc) (s : State) (h : Follows tb a s) :
    AnsF tb a (profWriteBody p d s) := by
  unfold profWriteBody
  repeat' first
    | with_reducible assumption
    | with_reducible apply stageItem_follows
    | with_reducible apply onTarget_follows
    | with_reducible apply fail_follows
    | (intro x (hx : Follows tb a x))
    | (split)

theorem execProfWrite_follows {tb : Bool} {a : State} (p : Part) (d : CmdDesc) (s : State) (h : Follows tb a s) :
    ResF tb a (execProfWrite p d s) := by
  unfold execProfWrite
  repeat' first
    | with_reducible assumption
    | with_reducible apply profWriteBody_follows
    | with_reducible apply runCommand_follows
    | with_reducible apply ResF.next

theorem profReadBody_follows {tb : Bool} {a : State} (p : Part) (d : CmdDesc) (s : State) (h : Follows tb a s) :
    AnsF tb a (profReadBody p d s) := by
  unfold profReadBody
  repeat' first
    | with_reducible assumption
    | with_reducible apply onTarget_follows
    | with_reducible apply withOutput_follows
    | with_reducible apply fail_follows
    | (intro x (hx : Follows tb a x))
    | (split)

theorem execProfRead_follows {tb : Bool} {a : State} (p : Part) (d : CmdDesc) (s : State) (h : Follows tb a s) :
    ResF tb a (execProfRead p d s) := by
  unfold execProfRead
  repeat' first
    | with_reducible assumption
    | with_reducible apply profReadBody_follows
    | with_reducible apply runCommand_follows
    | with_reducible apply ResF.next

theorem streamPinBody_follows {tb : Bool} {a : State} (p : Part) (d : CmdDesc) (x2 : State) (h : Follows tb a x2) :
    AnsF tb a (streamPinBody p d x2) := by
  unfold streamPinBody
  repeat' first
    | with_reducible assumption
    | with_reducible apply onKey_follows
    | with_reducible apply stageItem_follows
    | (intro x (hx : Follows tb a x))

theorem execStreamPin_follows {tb : Bool} {a : State} (p : Part) (d : CmdDesc) (s : State) (h : Follows tb a s) :
    ResF tb a (execStreamPin p d s) := by
  unfold execStreamPin
  repeat' first
    | with_reducible assumption
    | with_reducible apply streamPinBody_follows
    | with_reducible apply runCommand_follows
    | with_reducible apply ResF.next

theorem streamUnpinBody_follows {tb : Bool} {a : State} (p : Part) (d : CmdDesc) (x2 : State) (h : Follows tb a x2) :
    AnsF tb a (streamUnpinBody p d x2) := by
  unfold streamUnpinBody
  repeat' first
    | with_reducible assumption
    | with_reducible apply onKey_follows
    | with_reducible apply stageItem_follows
    | (intro x (hx : Follows tb a x))

theorem execStreamUnpin_follows {tb : Bool} {a : State} (p : Part) (d : CmdDesc) (s : State) (h : Follows tb a s) :
    ResF tb a (execStreamUnpin p d s) := by
  unfold execStreamUnpin
  repeat' first
    | with_reducible assumption
    | with_reducible apply streamUnpinBody_follows
    | with_reducible apply runCommand_follows
    | with_reducible apply ResF.next

theorem streamReadBody_follows {tb : Bool} {a : State} (_p : Part) (d : CmdDesc) (s : State) (h : Follows tb a s) :
    AnsF tb a (streamReadBody _p d s) := by
  unfold streamReadBody
  repeat' first
    | with_reducible assumption
    | with_reducible apply withOutput_follows
    | with_reducible apply fail_follows
    | (split)

theorem execStreamRead_follows {tb : Bool} {a : State} (p : Part) (d : CmdDesc) (s : State) (h : Follows tb a s) :
    ResF tb a (execStreamRead p d s) := by
  unfold execStreamRead
  repeat' first
    | with_reducible assumption
    | with_reducible apply streamReadBody_follows
    | with_reducible apply runCommand_follows
    | with_reducible apply ResF.next

theorem streamClearBody_follows {tb : Bool} {a : State} (_p : Part) (d : CmdDesc) (s : State) (h : Follows tb a s) :
    AnsF tb a (streamClearBody _p d s) := by
  unfold streamClearBody
  repeat' first
    | with_reducible assumption
    | with_reducible apply fail_follows
    | with_reducible apply State.setStream_follows
    | (lift_lets; intro x; clear_value x)
    | (split)
    | with_reducible apply AnsF.intro

theorem execStreamClear_follows {tb : Bool} {a : State} (p : Part) (d : CmdDesc) (s : State) (h : Follows tb a s) :
    ResF tb a (execStreamClear p d s) := by
  unfold execStreamClear
  repeat' first
    | with_reducible assumption
    | with_reducible apply streamClearBody_follows
    | with_reducible apply runCommand_follows
    | with_reducible apply ResF.next

/-! ### Parse -/

theorem State.setNode_follows {tb : Bool} {a : State} (s : State) (i : ℕ) (e : Node) (h : Follows tb a s) :
    Follows tb a (State.setNode s i e) := by
  unfold State.setNode
  repeat' first
    | (lift_lets; intro x; have : Tables := x; clear this)
    | (lift_lets; intro x; clear_value x)
    | (with_reducible apply Follows.sameTab; with_reducible assumption)

theorem State.holdNode_follows {tb : Bool} {a : State} (s : State) (i : ℕ) (cause : ℕ) (ms : ℕ) (h : Follows tb a s) :
    Follows tb a (State.holdNode s i cause ms) := by
  unfold State.holdNode
  repeat' first
    | with_reducible assumption
    | with_reducible apply State.setNode_follows
    | (lift_lets; intro x; refine Follows.cut (tb := tb) (a := a) (x := x) ?_ (fun _ => ?_); on_goal 2 => clear_value x)
    | (intro)
    | (split)
    | (with_reducible apply Follows.same; with_reducible assumption)

/-! ### Keys -/

theorem State.setSa_follows {tb : Bool} {a : State} (s : State) (i : ℕ) (v : W64) (h : Follows tb a s) :
    Follows tb a (State.setSa s i v) := by
  unfold State.setSa
  repeat' first
    | (lift_lets; intro x; clear_value x)
    | (with_reducible apply Follows.same; with_reducible assumption)

theorem keyWriteBody_follows {tb : Bool} {a : State} (p : Part) (d : CmdDesc) (s : State) (h : Follows tb a s) :
    AnsF tb a (keyWriteBody p d s) := by
  unfold keyWriteBody
  repeat' first
    | with_reducible assumption
    | with_reducible apply onIndex_follows
    | with_reducible apply stagePort_follows
    | with_reducible apply fail_follows
    | (lift_lets; intro x; clear_value x)
    | (split)

theorem execKeyWrite_follows {tb : Bool} {a : State} (p : Part) (d : CmdDesc) (s : State) (h : Follows tb a s) :
    ResF tb a (execKeyWrite p d s) := by
  unfold execKeyWrite
  repeat' first
    | with_reducible assumption
    | with_reducible apply keyWriteBody_follows
    | with_reducible apply runCommand_follows
    | with_reducible apply ResF.next

theorem keyEraseBody_follows {tb : Bool} {a : State} (p : Part) (d : CmdDesc) (x2 : State) (h : Follows tb a x2) :
    AnsF tb a (keyEraseBody p d x2) := by
  unfold keyEraseBody
  repeat' first
    | with_reducible assumption
    | with_reducible apply onIndex_follows
    | with_reducible apply stageItem_follows
    | (intro x (hx : Follows tb a x))

theorem execKeyErase_follows {tb : Bool} {a : State} (p : Part) (d : CmdDesc) (s : State) (h : Follows tb a s) :
    ResF tb a (execKeyErase p d s) := by
  unfold execKeyErase
  repeat' first
    | with_reducible assumption
    | with_reducible apply keyEraseBody_follows
    | with_reducible apply runCommand_follows
    | with_reducible apply ResF.next

theorem keyReadBody_follows {tb : Bool} {a : State} (p : Part) (d : CmdDesc) (x2 : State) (h : Follows tb a x2) :
    AnsF tb a (keyReadBody p d x2) := by
  unfold keyReadBody
  repeat' first
    | with_reducible assumption
    | with_reducible apply onIndex_follows
    | with_reducible apply withOutput_follows
    | (intro x (hx : Follows tb a x))

theorem execKeyRead_follows {tb : Bool} {a : State} (p : Part) (d : CmdDesc) (s : State) (h : Follows tb a s) :
    ResF tb a (execKeyRead p d s) := by
  unfold execKeyRead
  repeat' first
    | with_reducible assumption
    | with_reducible apply keyReadBody_follows
    | with_reducible apply runCommand_follows
    | with_reducible apply ResF.next

theorem runWaiting_follows {tb : Bool} {a : State} (waits : State → Bool) (f : Form) (p : Part) (d : CmdDesc) (body :
    State → Except Ans State) (x5 : State) (h : Follows tb a x5) (hbody : ∀ x0_, Follows tb a x0_ → ExF tb a (body x0_)) : Follows tb a (runWaiting waits f p d body x5) := by
  unfold runWaiting
  repeat' first
    | with_reducible assumption
    | with_reducible apply hbody
    | with_reducible apply onForm_follows
    | with_reducible apply finish_follows
    | (intro x (hx : Follows tb a x))
    | (split)
    | (refine ExF.left ?_ (by with_reducible assumption))
    | (refine ExF.right ?_ (by with_reducible assumption))
    | (with_reducible apply AnsF.out; refine ExF.right ?_ (by with_reducible assumption))

theorem runCrypto_follows {tb : Bool} {a : State} (f : Form) (p : Part) (d : CmdDesc) (body : State → Except Ans State) (x4 :
    State) (h : Follows tb a x4) (hbody : ∀ x0_, Follows tb a x0_ → ExF tb a (body x0_)) : Follows tb a (runCrypto f p d body x4) := by
  unfold runCrypto
  repeat' first
    | with_reducible assumption
    | with_reducible apply runWaiting_follows

theorem State.queueRaw_follows {tb : Bool} {a : State} (s : State) (p : Part) (d : CmdDesc) (result : ℕ) (out : List Byte) (n :
    ℕ) (h : Follows tb a s) : Follows tb a (State.queueRaw s p d result out n) := by
  unfold State.queueRaw
  repeat' first
    | (lift_lets; intro x; clear_value x)
    | (intro)
    | (with_reducible apply Follows.same; with_reducible assumption)

theorem onRaw_follows {tb : Bool} {a : State} (p : Part) (d : CmdDesc) (n : ℕ) (body : KeySlot → Except Byte (ℕ × List Byte)) (s :
    State) (h : Follows tb a s) : ExF tb a (onRaw p d n body s) := by
  unfold onRaw
  repeat' first
    | with_reducible assumption
    | with_reducible apply State.queueRaw_follows
    | with_reducible apply targetCheck_follows
    | with_reducible apply fail_follows
    | with_reducible apply ExF.ok
    | with_reducible apply ExF.error
    | (split)
    | (refine OptA.elim ?_ (by with_reducible assumption))

theorem rawCipherBody_follows {tb : Bool} {a : State} (p : Part) (d : CmdDesc) (x2 : State) (h : Follows tb a x2) :
    ExF tb a (rawCipherBody p d x2) := by
  unfold rawCipherBody
  repeat' first
    | with_reducible assumption
    | with_reducible apply onRaw_follows

theorem execRawCipher_follows {tb : Bool} {a : State} (p : Part) (d : CmdDesc) (s : State) (h : Follows tb a s) :
    ResF tb a (execRawCipher p d s) := by
  unfold execRawCipher
  repeat' first
    | with_reducible assumption
    | with_reducible apply rawCipherBody_follows
    | with_reducible apply runCrypto_follows
    | with_reducible apply ResF.next

theorem rawCmacBody_follows {tb : Bool} {a : State} (p : Part) (d : CmdDesc) (x2 : State) (h : Follows tb a x2) :
    ExF tb a (rawCmacBody p d x2) := by
  unfold rawCmacBody
  repeat' first
    | with_reducible assumption
    | with_reducible apply onRaw_follows

theorem execRawCmac_follows {tb : Bool} {a : State} (p : Part) (d : CmdDesc) (s : State) (h : Follows tb a s) :
    ResF tb a (execRawCmac p d s) := by
  unfold execRawCmac
  repeat' first
    | with_reducible assumption
    | with_reducible apply rawCmacBody_follows
    | with_reducible apply runCrypto_follows
    | with_reducible apply ResF.next

theorem State.queuePk_follows {tb : Bool} {a : State} (s : State) (p : Part) (d : CmdDesc) (x3 : PkAns) (micros : ℕ) (store :
    Option (ℕ × BitVec 384)) (h : Follows tb a s) : Follows tb a (State.queuePk s p d x3 micros store) := by
  unfold State.queuePk
  repeat' first
    | (lift_lets; intro x; clear_value x)
    | (with_reducible apply Follows.same; with_reducible assumption)

theorem pkVerifyBody_follows {tb : Bool} {a : State} (p : Part) (d : CmdDesc) (s : State) (h : Follows tb a s) :
    ExF tb a (pkVerifyBody p d s) := by
  unfold pkVerifyBody
  repeat' first
    | with_reducible assumption
    | with_reducible apply State.queuePk_follows
    | with_reducible apply fail_follows
    | with_reducible apply ExF.ok
    | with_reducible apply ExF.error
    | (split)

theorem execPkVerify_follows {tb : Bool} {a : State} (p : Part) (d : CmdDesc) (s : State) (h : Follows tb a s) :
    ResF tb a (execPkVerify p d s) := by
  unfold execPkVerify
  repeat' first
    | with_reducible assumption
    | with_reducible apply pkVerifyBody_follows
    | with_reducible apply runCrypto_follows
    | with_reducible apply ResF.next

theorem onEcSlot_follows {tb : Bool} {a : State} (p : Part) (d : CmdDesc) (need : ℕ) (body : KeySlot → State → Except Ans State)
    (s : State) (h : Follows tb a s) (hbody : ∀ x0_ x1_, Follows tb a x1_ → ExF tb a (body x0_ x1_)) : ExF tb a (onEcSlot p d need body s) := by
  unfold onEcSlot
  repeat' first
    | with_reducible assumption
    | with_reducible apply hbody
    | with_reducible apply targetCheck_follows
    | with_reducible apply fail_follows
    | with_reducible apply ExF.error
    | (lift_lets; intro x; clear_value x)
    | (split)
    | (refine OptA.elim ?_ (by with_reducible assumption))

theorem pkEcdhBody_follows {tb : Bool} {a : State} (p : Part) (d : CmdDesc) (x2 : State) (h : Follows tb a x2) :
    ExF tb a (pkEcdhBody p d x2) := by
  unfold pkEcdhBody
  repeat' first
    | with_reducible assumption
    | with_reducible apply onEcSlot_follows
    | with_reducible apply State.queuePk_follows
    | with_reducible apply ExF.ok
    | (intro x (hx : Follows tb a x))
    | (lift_lets; intro x)

theorem execPkEcdh_follows {tb : Bool} {a : State} (p : Part) (d : CmdDesc) (s : State) (h : Follows tb a s) :
    ResF tb a (execPkEcdh p d s) := by
  unfold execPkEcdh
  repeat' first
    | with_reducible assumption
    | with_reducible apply pkEcdhBody_follows
    | with_reducible apply runCrypto_follows
    | with_reducible apply ResF.next

theorem pkKeygenBody_follows {tb : Bool} {a : State} (p : Part) (d : CmdDesc) (x2 : State) (h : Follows tb a x2) :
    ExF tb a (pkKeygenBody p d x2) := by
  unfold pkKeygenBody
  repeat' first
    | with_reducible assumption
    | with_reducible apply onEcSlot_follows
    | with_reducible apply State.queuePk_follows
    | with_reducible apply ExF.ok
    | (intro x (hx : Follows tb a x))
    | (lift_lets; intro x; clear_value x)
    | (intro)
    | (split)
    | (with_reducible apply PairF.out; with_reducible apply drawNat_follows)

theorem execPkKeygen_follows {tb : Bool} {a : State} (p : Part) (d : CmdDesc) (s : State) (h : Follows tb a s) :
    ResF tb a (execPkKeygen p d s) := by
  unfold execPkKeygen
  repeat' first
    | with_reducible assumption
    | with_reducible apply pkKeygenBody_follows
    | with_reducible apply runCrypto_follows
    | with_reducible apply ResF.next

theorem pkEngineDone_follows {tb : Bool} {a : State} (s : State) (h : Follows tb a s) : Follows tb a (pkEngineDone s) := by
  unfold pkEngineDone
  repeat' first
    | with_reducible assumption
    | with_reducible apply State.complete_follows
    | (extract_lets +onlyGivenNames x; refine Follows.cut (tb := tb) (a := a) (x := x) ?_ (fun _ => ?_); on_goal 2 => clear_value x)
    | (extract_lets +onlyGivenNames x; clear_value x)
    | (extract_lets +onlyGivenNames x)
    | (split)
    | (with_reducible apply Follows.same; with_reducible assumption)

theorem execPkEngineDone_follows {tb : Bool} {a : State} (s : State) (h : Follows tb a s) : ResF tb a (execPkEngineDone s) := by
  unfold execPkEngineDone
  repeat' first
    | with_reducible assumption
    | with_reducible apply pkEngineDone_follows
    | with_reducible apply clocked_follows
    | with_reducible apply ResF.next

theorem cryRandomBody_follows {tb : Bool} {a : State} (d : CmdDesc) (s : State) (h : Follows tb a s) :
    AnsF tb a (cryRandomBody d s) := by
  unfold cryRandomBody
  repeat' first
    | with_reducible assumption
    | with_reducible apply fail_follows
    | (lift_lets; intro x; clear_value x)
    | (split)
    | (with_reducible apply PairF.out; with_reducible apply drawBytes_follows)
    | with_reducible apply AnsF.intro

theorem execCryRandom_follows {tb : Bool} {a : State} (p : Part) (d : CmdDesc) (s : State) (h : Follows tb a s) :
    ResF tb a (execCryRandom p d s) := by
  unfold execCryRandom
  repeat' first
    | with_reducible assumption
    | with_reducible apply cryRandomBody_follows
    | with_reducible apply runCommand_follows
    | with_reducible apply ResF.next

theorem retryWindowClose_follows {tb : Bool} {a : State} (u : RetryUnit) (s : State) (h : Follows tb a s) :
    Follows tb a (retryWindowClose u s) := by
  unfold retryWindowClose
  repeat' first
    | with_reducible assumption
    | with_reducible apply State.setFd_follows
    | (intro x; refine Follows.cut (tb := tb) (a := a) (x := x) ?_ (fun _ => ?_); on_goal 2 => clear_value x)
    | (lift_lets; intro x; clear_value x)
    | (split)
    | (with_reducible apply Follows.same; with_reducible assumption)

theorem execRetryWindowClose_follows {tb : Bool} {a : State} (u : RetryUnit) (s : State) (h : Follows tb a s) :
    ResF tb a (execRetryWindowClose u s) := by
  unfold execRetryWindowClose
  repeat' first
    | with_reducible assumption
    | with_reducible apply retryWindowClose_follows
    | with_reducible apply clocked_follows
    | with_reducible apply ResF.next

theorem entropyHealthFail_follows {tb : Bool} {a : State} (apt : Bool) (s : State) (h : Follows tb a s) :
    Follows tb a (entropyHealthFail apt s) := by
  unfold entropyHealthFail
  repeat' first
    | with_reducible assumption
    | with_reducible apply State.countFault_follows
    | with_reducible apply State.setFault_follows
    | with_reducible apply State.report_follows
    | with_reducible apply State.count_follows
    | with_reducible apply State.setBt_follows
    | (intro x; refine Follows.cut (tb := tb) (a := a) (x := x) ?_ (fun _ => ?_); on_goal 2 => clear_value x)
    | (lift_lets; intro x; refine Follows.cut (tb := tb) (a := a) (x := x) ?_ (fun _ => ?_); on_goal 2 => clear_value x)
    | (intro)
    | (split)
    | (with_reducible apply Follows.same; with_reducible assumption)

theorem execEntropyHealthFail_follows {tb : Bool} {a : State} (apt : Bool) (s : State) (h : Follows tb a s) :
    ResF tb a (execEntropyHealthFail apt s) := by
  unfold execEntropyHealthFail
  repeat' first
    | with_reducible assumption
    | with_reducible apply entropyHealthFail_follows
    | with_reducible apply clocked_follows
    | with_reducible apply ResF.next

theorem entropyStartupDone_follows {tb : Bool} {a : State} (s : State) (h : Follows tb a s) :
    Follows tb a (entropyStartupDone s) := by
  unfold entropyStartupDone
  repeat' first
    | with_reducible assumption
    | with_reducible apply State.setBt_follows
    | (lift_lets; intro x; refine Follows.cut (tb := tb) (a := a) (x := x) ?_ (fun _ => ?_); on_goal 2 => clear_value x)
    | (intro)
    | (split)
    | (with_reducible apply Follows.same; with_reducible assumption)

theorem execEntropyStartupDone_follows {tb : Bool} {a : State} (s : State) (h : Follows tb a s) :
    ResF tb a (execEntropyStartupDone s) := by
  unfold execEntropyStartupDone
  repeat' first
    | with_reducible assumption
    | with_reducible apply entropyStartupDone_follows
    | with_reducible apply clocked_follows
    | with_reducible apply ResF.next

theorem drbgReseed_follows {tb : Bool} {a : State} (s : State) (h : Follows tb a s) : Follows tb a (drbgReseed s) := by
  unfold drbgReseed
  repeat' first
    | with_reducible assumption
    | (lift_lets; intro x; clear_value x)
    | (split)
    | (with_reducible apply Follows.same; with_reducible assumption)

theorem execDrbgReseed_follows {tb : Bool} {a : State} (s : State) (h : Follows tb a s) : ResF tb a (execDrbgReseed s) := by
  unfold execDrbgReseed
  repeat' first
    | with_reducible assumption
    | with_reducible apply drbgReseed_follows
    | with_reducible apply clocked_follows
    | with_reducible apply ResF.next

theorem maskReseed_follows {tb : Bool} {a : State} (k : Fin 8) (s : State) (h : Follows tb a s) :
    Follows tb a (maskReseed k s) := by
  unfold maskReseed
  repeat' first
    | (lift_lets; intro x; clear_value x)
    | (with_reducible apply Follows.same; with_reducible assumption)

theorem execMaskReseed_follows {tb : Bool} {a : State} (k : Fin 8) (s : State) (h : Follows tb a s) :
    ResF tb a (execMaskReseed k s) := by
  unfold execMaskReseed
  repeat' first
    | with_reducible assumption
    | with_reducible apply maskReseed_follows
    | with_reducible apply clocked_follows
    | with_reducible apply ResF.next

theorem keyZeroize_follows {tb : Bool} {a : State} (slot : Fin 2048) (s : State) (h : Follows tb a s) :
    Follows tb a (keyZeroize slot s) := by
  unfold keyZeroize
  repeat' first
    | (lift_lets; intro x; clear_value x)
    | (with_reducible apply Follows.same; with_reducible assumption)

theorem execKeyZeroize_follows {tb : Bool} {a : State} (slot : Fin 2048) (s : State) (h : Follows tb a s) :
    ResF tb a (execKeyZeroize slot s) := by
  unfold execKeyZeroize
  repeat' first
    | with_reducible assumption
    | with_reducible apply keyZeroize_follows
    | with_reducible apply clocked_follows
    | with_reducible apply ResF.next

/-! ### Security -/

theorem State.ethVerdict_follows {tb : Bool} {a : State} (s : State) (n : ℕ) (x2 : Held) (f : SecFound) (h : Follows tb a s) :
    VerF tb a (State.ethVerdict s n x2 f) := by
  unfold State.ethVerdict
  repeat' first
    | with_reducible assumption
    | with_reducible apply State.setSa_follows
    | with_reducible apply State.count_follows
    | (lift_lets; intro x; clear_value x)
    | (split)
    | with_reducible apply VerF.intro

theorem State.noTxSa_follows {tb : Bool} {a : State} (s : State) (n : ℕ) (h : Follows tb a s) :
    Follows tb a (State.noTxSa s n) := by
  unfold State.noTxSa
  repeat' first
    | with_reducible assumption
    | with_reducible apply State.event_follows
    | with_reducible apply State.count_follows
    | (lift_lets; intro x; refine Follows.cut (tb := tb) (a := a) (x := x) ?_ (fun _ => ?_); on_goal 2 => clear_value x)
    | (intro)
    | (split)
    | (with_reducible apply Follows.same; with_reducible assumption)

theorem State.takePn_follows {tb : Bool} {a : State} (s : State) (n : ℕ) (h : Follows tb a s) :
    PairF tb a (State.takePn s n) := by
  unfold State.takePn
  repeat' first
    | with_reducible assumption
    | with_reducible apply State.noTxSa_follows
    | with_reducible apply State.setSa_follows
    | with_reducible apply State.event_follows
    | with_reducible apply State.report_follows
    | with_reducible apply State.count_follows
    | (intro x; refine Follows.cut (tb := tb) (a := a) (x := x) ?_ (fun _ => ?_); on_goal 2 => clear_value x)
    | (lift_lets; intro x; clear_value x)
    | (intro)
    | (split)
    | (with_reducible apply Follows.same; with_reducible assumption)
    | with_reducible apply PairF.intro

theorem State.setFresh_follows {tb : Bool} {a : State} (s : State) (e : Node) (v : ℕ) (h : Follows tb a s) :
    Follows tb a (State.setFresh s e v) := by
  unfold State.setFresh
  repeat' first
    | with_reducible assumption
    | with_reducible apply State.setNode_follows
    | (split)

theorem State.busVerdict_follows {tb : Bool} {a : State} (s : State) (c : ℕ) (x2 : BitVec 128) (l : List Byte) (g : Held) (h :
    Follows tb a s) : VerF tb a (State.busVerdict s c x2 l g) := by
  unfold State.busVerdict
  repeat' first
    | with_reducible assumption
    | with_reducible apply State.setFresh_follows
    | with_reducible apply State.count_follows
    | (split)
    | with_reducible apply VerF.intro

theorem State.authResult_follows {tb : Bool} {a : State} (s : State) (e : Node) (hold : ℕ) (drop : ℕ) (verified : Bool) (h :
    Follows tb a s) : Follows tb a (State.authResult s e hold drop verified) := by
  unfold State.authResult
  repeat' first
    | with_reducible assumption
    | with_reducible apply State.holdNode_follows
    | with_reducible apply State.setNode_follows
    | (intro x; refine Follows.cut (tb := tb) (a := a) (x := x) ?_ (fun _ => ?_); on_goal 2 => clear_value x)
    | (lift_lets; intro x; clear_value x)
    | (split)

theorem State.protectBus_follows {tb : Bool} {a : State} (s : State) (c : ℕ) (x2 : BitVec 128) (l : List Byte) (h :
    Follows tb a s) : PairF tb a (State.protectBus s c x2 l) := by
  unfold State.protectBus
  repeat' first
    | with_reducible assumption
    | with_reducible apply State.setNode_follows
    | with_reducible apply State.count_follows
    | (split)
    | with_reducible apply PairF.intro

/-! ### Phase -/

theorem stampWithin_follows {tb : Bool} {a : State} (b : ℕ) (s : State) (h : Follows tb a s) : PairF tb a (stampWithin b s) := by
  unfold stampWithin
  repeat' first
    | with_reducible assumption
    | with_reducible apply drawNat_follows
    | (split)
    | (refine PairF.elim (by with_reducible assumption) ?_)
    | with_reducible apply PairF.intro

/-! ### Gating -/

theorem State.preempt_follows {tb : Bool} {a : State} (s : State) (n : ℕ) (t : Tx) (b : ℕ) (h : Follows tb a s) :
    Follows tb a (State.preempt s n t b) := by
  unfold State.preempt
  repeat' first
    | with_reducible assumption
    | with_reducible apply State.setEg_follows
    | with_reducible apply State.emit_follows
    | with_reducible apply State.countWide_follows

theorem State.preemptTx_follows {tb : Bool} {a : State} (s : State) (n : ℕ) (h : Follows tb a s) :
    Follows tb a (State.preemptTx s n) := by
  unfold State.preemptTx
  repeat' first
    | with_reducible assumption
    | with_reducible apply State.preempt_follows
    | (split)

theorem State.heed_follows {tb : Bool} {a : State} (s : State) (n : ℕ) (h : Follows tb a s) : Follows tb a (State.heed s n) := by
  unfold State.heed
  repeat' first
    | with_reducible assumption
    | with_reducible apply State.preemptTx_follows
    | (split)

theorem State.startEntry_follows {tb : Bool} {a : State} (s : State) (n : ℕ) (k : ℕ) (h : Follows tb a s) :
    Follows tb a (State.startEntry s n k) := by
  unfold State.startEntry
  repeat' first
    | with_reducible assumption
    | with_reducible apply State.heed_follows
    | with_reducible apply State.modRg_follows

theorem State.gatesOff_follows {tb : Bool} {a : State} (s : State) (n : ℕ) (h : Follows tb a s) :
    Follows tb a (State.gatesOff s n) := by
  unfold State.gatesOff
  repeat' first
    | with_reducible assumption
    | with_reducible apply State.modRg_follows

theorem State.gatesFallback_follows {tb : Bool} {a : State} (s : State) (n : ℕ) (h : Follows tb a s) :
    Follows tb a (State.gatesFallback s n) := by
  unfold State.gatesFallback
  repeat' first
    | with_reducible assumption
    | with_reducible apply State.modRg_follows

theorem State.gatesLost_follows {tb : Bool} {a : State} (s : State) (tt : ℕ) (h : Follows tb a s) :
    Follows tb a (State.gatesLost s tt) := by
  unfold State.gatesLost
  repeat' first
    | with_reducible assumption
    | with_reducible apply State.gatesFallback_follows
    | with_reducible apply Follows.foldl
    | (intro x y (hx : Follows tb a x))
    | (split)

theorem State.gatesResume_follows {tb : Bool} {a : State} (s : State) (tt : ℕ) (h : Follows tb a s) :
    Follows tb a (State.gatesResume s tt) := by
  unfold State.gatesResume
  repeat' first
    | with_reducible assumption
    | with_reducible apply State.startEntry_follows
    | with_reducible apply Follows.foldl
    | (intro x y (hx : Follows tb a x))
    | (split)

theorem State.gatesStepped_follows {tb : Bool} {a : State} (s : State) (h : Follows tb a s) :
    Follows tb a (State.gatesStepped s) := by
  unfold State.gatesStepped
  repeat' first
    | with_reducible assumption
    | with_reducible apply State.startEntry_follows
    | with_reducible apply Follows.foldl
    | (intro x y (hx : Follows tb a x))
    | (lift_lets; intro x; clear_value x)
    | (split)

theorem gateWriteBody_follows {tb : Bool} {a : State} (p : Part) (d : CmdDesc) (s : State) (h : Follows tb a s) :
    AnsF tb a (gateWriteBody p d s) := by
  unfold gateWriteBody
  repeat' first
    | with_reducible assumption
    | with_reducible apply stagePort_follows
    | with_reducible apply onTarget_follows
    | with_reducible apply fail_follows
    | (split)

theorem execGateWrite_follows {tb : Bool} {a : State} (p : Part) (d : CmdDesc) (s : State) (h : Follows tb a s) :
    ResF tb a (execGateWrite p d s) := by
  unfold execGateWrite
  repeat' first
    | with_reducible assumption
    | with_reducible apply gateWriteBody_follows
    | with_reducible apply runCommand_follows
    | with_reducible apply ResF.next

theorem gateReadBody_follows {tb : Bool} {a : State} (p : Part) (d : CmdDesc) (s : State) (h : Follows tb a s) :
    AnsF tb a (gateReadBody p d s) := by
  unfold gateReadBody
  repeat' first
    | with_reducible assumption
    | with_reducible apply onTarget_follows
    | with_reducible apply withOutput_follows
    | with_reducible apply fail_follows
    | (intro x (hx : Follows tb a x))
    | (split)

theorem execGateRead_follows {tb : Bool} {a : State} (p : Part) (d : CmdDesc) (s : State) (h : Follows tb a s) :
    ResF tb a (execGateRead p d s) := by
  unfold execGateRead
  repeat' first
    | with_reducible assumption
    | with_reducible apply gateReadBody_follows
    | with_reducible apply runCommand_follows
    | with_reducible apply ResF.next

theorem timetableEntryStart_follows {tb : Bool} {a : State} (n : EPort) (s : State) (h : Follows tb a s) :
    Follows tb a (timetableEntryStart n s) := by
  unfold timetableEntryStart
  repeat' first
    | with_reducible assumption
    | with_reducible apply State.startEntry_follows
    | (split)

theorem execTimetableEntryStart_follows {tb : Bool} {a : State} (n : EPort) (s : State) (h : Follows tb a s) :
    ResF tb a (execTimetableEntryStart n s) := by
  unfold execTimetableEntryStart
  repeat' first
    | with_reducible assumption
    | with_reducible apply timetableEntryStart_follows
    | with_reducible apply clocked_follows
    | with_reducible apply ResF.next

theorem timetablePhaseCrossing_follows {tb : Bool} {a : State} (n : EPort) (s : State) (h : Follows tb a s) :
    Follows tb a (timetablePhaseCrossing n s) := by
  unfold timetablePhaseCrossing
  repeat' first
    | with_reducible assumption
    | with_reducible apply State.startEntry_follows
    | (lift_lets; intro x; clear_value x)
    | (intro)
    | (split)
    | (with_reducible apply Follows.same; with_reducible assumption)

theorem execTimetablePhaseCrossing_follows {tb : Bool} {a : State} (n : EPort) (s : State) (h : Follows tb a s) :
    ResF tb a (execTimetablePhaseCrossing n s) := by
  unfold execTimetablePhaseCrossing
  repeat' first
    | with_reducible assumption
    | with_reducible apply timetablePhaseCrossing_follows
    | with_reducible apply clocked_follows
    | with_reducible apply ResF.next

theorem timetablePendingStart_follows {tb : Bool} {a : State} (n : EPort) (s : State) (h : Follows tb a s) :
    Follows tb a (timetablePendingStart n s) := by
  unfold timetablePendingStart
  repeat' first
    | with_reducible assumption
    | with_reducible apply State.heed_follows
    | with_reducible apply State.modRg_follows
    | (intro x; refine Follows.cut (tb := tb) (a := a) (x := x) ?_ (fun _ => ?_); on_goal 2 => clear_value x)
    | (lift_lets; intro x; clear_value x)
    | (intro)
    | (split)
    | (with_reducible apply Follows.sameTab; with_reducible assumption)

theorem execTimetablePendingStart_follows {tb : Bool} {a : State} (n : EPort) (s : State) (h : Follows tb a s) :
    ResF tb a (execTimetablePendingStart n s) := by
  unfold execTimetablePendingStart
  repeat' first
    | with_reducible assumption
    | with_reducible apply timetablePendingStart_follows
    | with_reducible apply clocked_follows
    | with_reducible apply ResF.next

/-! ### Remote -/

theorem State.setSlotData_follows {tb : Bool} {a : State} (s : State) (p : Part) (k : ℕ) (l : List Byte) (h : Follows tb a s) :
    Follows tb a (State.setSlotData s p k l) := by
  unfold State.setSlotData
  repeat' first
    | (lift_lets; intro x; have : RegUnit := x; clear this)
    | (with_reducible apply Follows.boxWrite; with_reducible assumption)

theorem State.freeSlot_follows {tb : Bool} {a : State} (s : State) (p : Part) (k : ℕ) (h : Follows tb a s) :
    Follows tb a (State.freeSlot s p k) := by
  unfold State.freeSlot
  repeat' first
    | with_reducible assumption
    | with_reducible apply State.setSlot_follows
    | (lift_lets; intro x; refine Follows.cut (tb := tb) (a := a) (x := x) ?_ (fun _ => ?_); on_goal 2 => clear_value x)
    | (intro)
    | (with_reducible apply Follows.same; with_reducible assumption)

theorem State.endSlot_follows {tb : Bool} {a : State} (s : State) (p : Part) (k : ℕ) (far : ℕ) (data : List Byte) (h :
    Follows tb a s) : Follows tb a (State.endSlot s p k far data) := by
  unfold State.endSlot
  repeat' first
    | with_reducible assumption
    | with_reducible apply State.freeSlot_follows
    | with_reducible apply State.setSlotData_follows
    | with_reducible apply State.complete_follows
    | with_reducible apply State.setSlot_follows
    | (intro x; refine Follows.cut (tb := tb) (a := a) (x := x) ?_ (fun _ => ?_); on_goal 2 => clear_value x)
    | (lift_lets; intro x; clear_value x)
    | (split)

theorem State.closeReq_follows {tb : Bool} {a : State} (s : State) (r : OpenReq) (h : Follows tb a s) :
    Follows tb a (State.closeReq s r) := by
  unfold State.closeReq
  repeat' first
    | (lift_lets; intro x; clear_value x)
    | (with_reducible apply Follows.same; with_reducible assumption)

theorem State.farError_follows {tb : Bool} {a : State} (s : State) (r : OpenReq) (far : ℕ) (h : Follows tb a s) :
    Follows tb a (State.farError s r far) := by
  unfold State.farError
  repeat' first
    | with_reducible assumption
    | with_reducible apply State.closeReq_follows
    | with_reducible apply State.endSlot_follows
    | with_reducible apply State.report_follows
    | with_reducible apply State.modRgp_follows
    | (lift_lets; intro x; refine Follows.cut (tb := tb) (a := a) (x := x) ?_ (fun _ => ?_); on_goal 2 => clear_value x)
    | (split)

theorem State.farResponse_follows {tb : Bool} {a : State} (s : State) (r : OpenReq) (status : ℕ) (data : List Byte) (h :
    Follows tb a s) : Follows tb a (State.farResponse s r status data) := by
  unfold State.farResponse
  repeat' first
    | with_reducible assumption
    | with_reducible apply State.farError_follows
    | with_reducible apply State.closeReq_follows
    | with_reducible apply State.endSlot_follows
    | (split)
    | (with_reducible apply PairF.out; with_reducible apply drawBytes_follows)

theorem State.bridgeTake_follows {tb : Bool} {a : State} (s : State) (c : ℕ) (x2 : BitVec 128) (l : List Byte) (h :
    Follows tb a s) : OptF tb a (State.bridgeTake s c x2 l) := by
  unfold State.bridgeTake
  repeat' first
    | with_reducible assumption
    | with_reducible apply State.farResponse_follows
    | with_reducible exact OptF.none
    | with_reducible apply OptF.some
    | (lift_lets; intro x; clear_value x)
    | (split)

theorem State.unsendable_follows {tb : Bool} {a : State} (s : State) (frame : ℕ) (h : Follows tb a s) :
    Follows tb a (State.unsendable s frame) := by
  unfold State.unsendable
  repeat' first
    | with_reducible assumption
    | with_reducible apply State.farError_follows
    | (split)

/-! ### Egress -/

theorem State.addCrypto_follows {tb : Bool} {a : State} (s : State) (req : ℕ) (bursts : ℕ) (use : CryptoUse) (h : Follows tb a s) :
    Follows tb a (State.addCrypto s req bursts use) := by
  unfold State.addCrypto
  repeat' first
    | (lift_lets; intro x; clear_value x)
    | (with_reducible apply Follows.same; with_reducible assumption)

theorem State.noProtect_follows {tb : Bool} {a : State} (s : State) (port : PortCode) (id : ℕ) (h : Follows tb a s) :
    Follows tb a (State.noProtect s port id) := by
  unfold State.noProtect
  repeat' first
    | with_reducible assumption
    | (lift_lets; intro x; clear_value x)
    | (split)
    | (with_reducible apply Follows.same; with_reducible assumption)

theorem State.endCopy_follows {tb : Bool} {a : State} (s : State) (code : ℕ) (c : Copy) (h : Follows tb a s) :
    Follows tb a (State.endCopy s code c) := by
  unfold State.endCopy
  repeat' first
    | with_reducible assumption
    | with_reducible apply State.noProtect_follows
    | with_reducible apply State.unsendable_follows
    | with_reducible apply State.settleFrame_follows
    | with_reducible apply State.countDrop_follows
    | with_reducible apply State.count_follows
    | (split)

theorem State.sentCopy_follows {tb : Bool} {a : State} (s : State) (c : Copy) (h : Follows tb a s) :
    Follows tb a (State.sentCopy s c) := by
  unfold State.sentCopy
  repeat' first
    | with_reducible assumption
    | with_reducible apply State.settleFrame_follows

theorem State.copyBytes_follows {tb : Bool} {a : State} (s : State) (f : Frame) (c : Copy) (h : Follows tb a s) :
    PairF tb a (State.copyBytes s f c) := by
  unfold State.copyBytes
  repeat' first
    | with_reducible assumption
    | with_reducible apply drawNat_follows
    | (lift_lets; intro x; clear_value x)
    | (split)
    | (refine PairF.elim (by with_reducible assumption) ?_)
    | with_reducible apply PairF.intro

theorem State.shaperDebit_follows {tb : Bool} {a : State} (s : State) (c : ℕ) (adm : ℕ) (len : ℕ) (h : Follows tb a s) :
    Follows tb a (State.shaperDebit s c adm len) := by
  unfold State.shaperDebit
  repeat' first
    | with_reducible assumption
    | with_reducible apply State.setEg_follows

theorem State.refuseCopy_follows {tb : Bool} {a : State} (s : State) (c : Copy) (h : Follows tb a s) :
    Follows tb a (State.refuseCopy s c) := by
  unfold State.refuseCopy
  repeat' first
    | with_reducible assumption
    | with_reducible apply State.settleFrame_follows
    | with_reducible apply State.countDrop_follows

theorem State.deferCopy_follows {tb : Bool} {a : State} (s : State) (c : Copy) (h : Follows tb a s) :
    Follows tb a (State.deferCopy s c) := by
  unfold State.deferCopy
  repeat' first
    | with_reducible assumption
    | with_reducible apply State.refuseCopy_follows
    | with_reducible apply State.makeCapture_follows
    | with_reducible apply State.settleFrame_follows
    | with_reducible apply State.countDrop_follows
    | (lift_lets; intro x; clear_value x)
    | (split)

theorem State.setQueue_follows {tb : Bool} {a : State} (s : State) (c : ℕ) (q : ℕ) (l : List Copy) (h : Follows tb a s) :
    Follows tb a (State.setQueue s c q l) := by
  unfold State.setQueue
  repeat' first
    | with_reducible assumption
    | with_reducible apply State.setEg_follows

theorem settleHead_follows {tb : Bool} {a : State} (c : ℕ) (q : ℕ) (x2 : ℕ) (x3 : State) (h : Follows tb a x3) :
    Follows tb a (settleHead c q x2 x3) := by
  induction x2 generalizing x3 with
  | zero =>
    unfold settleHead
    repeat' with_reducible assumption
  | succ n ih =>
    unfold settleHead
    repeat' first
      | with_reducible assumption
      | with_reducible apply ih
      | with_reducible apply State.setQueue_follows
      | with_reducible apply State.deferCopy_follows
      | with_reducible apply State.refuseCopy_follows
      | (intro x; refine Follows.cut (tb := tb) (a := a) (x := x) ?_ (fun _ => ?_); on_goal 2 => clear_value x)
      | (lift_lets; intro x; clear_value x)
      | (split)

theorem State.settleQueue_follows {tb : Bool} {a : State} (s : State) (c : ℕ) (q : ℕ) (h : Follows tb a s) :
    Follows tb a (State.settleQueue s c q) := by
  unfold State.settleQueue
  repeat' first
    | with_reducible assumption
    | with_reducible apply settleHead_follows

theorem State.settleQueues_follows {tb : Bool} {a : State} (s : State) (c : ℕ) (h : Follows tb a s) :
    Follows tb a (State.settleQueues s c) := by
  unfold State.settleQueues
  repeat' first
    | with_reducible assumption
    | with_reducible apply State.settleQueue_follows
    | with_reducible apply Follows.foldl
    | (intro x y (hx : Follows tb a x))

theorem State.settleShapers_follows {tb : Bool} {a : State} (s : State) (h : Follows tb a s) :
    Follows tb a (State.settleShapers s) := by
  unfold State.settleShapers
  repeat' first
    | with_reducible assumption
    | with_reducible apply State.setEg_follows
    | with_reducible apply Follows.foldl
    | (intro x y (hx : Follows tb a x))

theorem State.pushCopy_follows {tb : Bool} {a : State} (s : State) (c : Copy) (h : Follows tb a s) :
    Follows tb a (State.pushCopy s c) := by
  unfold State.pushCopy
  repeat' first
    | with_reducible assumption
    | with_reducible apply State.settleQueue_follows
    | with_reducible apply State.setQueue_follows

theorem State.goneCopy_follows {tb : Bool} {a : State} (s : State) (c : Copy) (h : Follows tb a s) :
    Follows tb a (State.goneCopy s c) := by
  unfold State.goneCopy
  repeat' first
    | with_reducible assumption
    | with_reducible apply State.pushCopy_follows
    | with_reducible apply State.endCopy_follows
    | (lift_lets; intro x; clear_value x)
    | (intro)
    | (split)

theorem State.enqueue_follows {tb : Bool} {a : State} (s : State) (c : Copy) (h : Follows tb a s) :
    Follows tb a (State.enqueue s c) := by
  unfold State.enqueue
  repeat' first
    | with_reducible assumption
    | with_reducible apply State.goneCopy_follows
    | with_reducible apply State.pushCopy_follows
    | with_reducible apply State.endCopy_follows
    | (lift_lets; intro x; clear_value x)
    | (split)

theorem State.admitCopy_follows {tb : Bool} {a : State} (s : State) (c : Copy) (h : Follows tb a s) :
    Follows tb a (State.admitCopy s c) := by
  unfold State.admitCopy
  repeat' first
    | with_reducible assumption
    | with_reducible apply State.enqueue_follows
    | with_reducible apply State.deferCopy_follows
    | with_reducible apply State.refuseCopy_follows
    | (split)

theorem State.purgePort_follows {tb : Bool} {a : State} (s : State) (c : ℕ) (f : State → Copy → State) (h : Follows tb a s) (hf :
    ∀ x0_ x1_, Follows tb a x0_ → Follows tb a (f x0_ x1_)) : Follows tb a (State.purgePort s c f) := by
  unfold State.purgePort
  repeat' first
    | with_reducible assumption
    | with_reducible apply State.endCopy_follows
    | with_reducible apply State.count_follows
    | with_reducible apply Follows.foldl
    | (intro x y (hx : Follows tb a x))
    | (lift_lets; intro x; clear_value x)
    | (split)
    | (with_reducible apply Follows.same; with_reducible apply State.setEg_follows)

theorem State.linkLoss_follows {tb : Bool} {a : State} (s : State) (c : ℕ) (h : Follows tb a s) :
    Follows tb a (State.linkLoss s c) := by
  unfold State.linkLoss
  repeat' first
    | with_reducible assumption
    | with_reducible apply State.purgePort_follows
    | with_reducible apply State.endCopy_follows
    | (intro x y (hx : Follows tb a x))

theorem State.portGone_follows {tb : Bool} {a : State} (s : State) (c : ℕ) (h : Follows tb a s) :
    Follows tb a (State.portGone s c) := by
  unfold State.portGone
  repeat' first
    | with_reducible assumption
    | with_reducible apply State.purgePort_follows
    | with_reducible apply State.goneCopy_follows

theorem State.holdBack_follows {tb : Bool} {a : State} (s : State) (n : ℕ) (q : ℕ) (line : ℕ) (h : Follows tb a s) :
    Follows tb a (State.holdBack s n q line) := by
  unfold State.holdBack
  repeat' first
    | with_reducible assumption
    | with_reducible apply State.setQueue_follows
    | with_reducible apply State.count_follows
    | (split)

theorem State.stamped_follows {tb : Bool} {a : State} (s : State) (n : ℕ) (f : Frame) (b : List Byte) (tc : ℕ) (h :
    Follows tb a s) : PairF tb a (State.stamped s n f b tc) := by
  unfold State.stamped
  repeat' first
    | with_reducible assumption
    | (lift_lets; intro x; clear_value x)
    | (intro)
    | (split)
    | (with_reducible apply PairF.out; with_reducible apply drawNat_follows)
    | with_reducible apply PairF.intro

theorem State.startTx_follows {tb : Bool} {a : State} (s : State) (n : ℕ) (t : Tx) (h : Follows tb a s) :
    Follows tb a (State.startTx s n t) := by
  unfold State.startTx
  repeat' first
    | with_reducible assumption
    | with_reducible apply State.setFrame_follows
    | with_reducible apply State.setEg_follows
    | (intro x; refine Follows.cut (tb := tb) (a := a) (x := x) ?_ (fun _ => ?_); on_goal 2 => clear_value x)
    | (lift_lets; intro x; clear_value x)
    | (split)

theorem State.beginTx_follows {tb : Bool} {a : State} (s : State) (n : ℕ) (c : Copy) (at_ : ℕ) (h : Follows tb a s) :
    Follows tb a (State.beginTx s n c at_) := by
  unfold State.beginTx
  repeat' first
    | with_reducible assumption
    | with_reducible apply State.startTx_follows
    | with_reducible apply State.setEg_follows
    | (lift_lets; intro x; clear_value x)
    | (intro)
    | (split)

theorem State.startNext_follows {tb : Bool} {a : State} (s : State) (n : ℕ) (h : Follows tb a s) :
    Follows tb a (State.startNext s n) := by
  unfold State.startNext
  repeat' first
    | with_reducible assumption
    | with_reducible apply State.startTx_follows
    | with_reducible apply State.setEg_follows
    | (lift_lets; intro x; clear_value x)
    | (split)

theorem State.lockSlice_follows {tb : Bool} {a : State} (s : State) (h : Follows tb a s) : PairF tb a (State.lockSlice s) := by
  unfold State.lockSlice
  repeat' first
    | with_reducible assumption
    | with_reducible apply drawNat_follows
    | (split)
    | (refine PairF.elim (by with_reducible assumption) ?_)
    | with_reducible apply PairF.intro

theorem State.startEth_follows {tb : Bool} {a : State} (s : State) (n : ℕ) (c : Copy) (f : Frame) (line : ℕ) (h : Follows tb a s) :
    Follows tb a (State.startEth s n c f line) := by
  unfold State.startEth
  repeat' first
    | with_reducible assumption
    | with_reducible apply State.beginTx_follows
    | with_reducible apply State.endCopy_follows
    | with_reducible apply State.addCrypto_follows
    | with_reducible apply State.takePn_follows
    | with_reducible apply State.setEg_follows
    | with_reducible apply State.count_follows
    | (intro x; refine Follows.cut (tb := tb) (a := a) (x := x) ?_ (fun _ => ?_); on_goal 2 => clear_value x)
    | (lift_lets; intro x; clear_value x)
    | (intro)
    | (split)
    | (refine PairF.elim (by with_reducible assumption) ?_)
    | (with_reducible apply PairF.out; first | (with_reducible apply State.lockSlice_follows) | (with_reducible apply State.copyBytes_follows) | (with_reducible apply drawNat_follows))
    | (with_reducible apply Follows.same; with_reducible apply PairF.out; with_reducible apply drawNat_follows)
    | with_reducible apply PairF.intro
    | (dsimp +zetaDelta -zeta only)

theorem State.grantEth_follows {tb : Bool} {a : State} (s : State) (n : EPort) (q : ℕ) (line : ℕ) (h : Follows tb a s) :
    Follows tb a (State.grantEth s n q line) := by
  unfold State.grantEth
  repeat' first
    | with_reducible assumption
    | with_reducible apply State.startEth_follows
    | with_reducible apply State.settleQueues_follows
    | with_reducible apply State.setQueue_follows
    | with_reducible apply State.shaperDebit_follows
    | with_reducible apply State.granted_follows
    | (split)

theorem egressGrantEth_follows {tb : Bool} {a : State} (n : EPort) (s0 : State) (h : Follows tb a s0) :
    Follows tb a (egressGrantEth n s0) := by
  unfold egressGrantEth
  repeat' first
    | with_reducible assumption
    | with_reducible apply State.grantEth_follows
    | with_reducible apply State.holdBack_follows
    | with_reducible apply State.preemptTx_follows
    | with_reducible apply Follows.foldl
    | (intro x y (hx : Follows tb a x))
    | (lift_lets; intro x; refine Follows.cut (tb := tb) (a := a) (x := x) ?_ (fun _ => ?_); on_goal 2 => clear_value x)
    | (lift_lets; intro x; clear_value x)
    | (split)

theorem State.countUnstamped_follows {tb : Bool} {a : State} (s : State) (x : Copy) (f : Frame) (h : Follows tb a s) :
    Follows tb a (State.countUnstamped s x f) := by
  unfold State.countUnstamped
  repeat' first
    | with_reducible assumption
    | with_reducible apply State.count_follows
    | (split)

theorem State.startFr_follows {tb : Bool} {a : State} (s : State) (c : ℕ) (x : Copy) (f : Frame) (h : Follows tb a s) :
    Follows tb a (State.startFr s c x f) := by
  unfold State.startFr
  repeat' first
    | with_reducible assumption
    | with_reducible apply State.endCopy_follows
    | (intro x; refine Follows.cut (tb := tb) (a := a) (x := x) ?_ (fun _ => ?_); on_goal 2 => clear_value x)
    | (lift_lets; intro x; clear_value x)
    | (intro)
    | (split)
    | (with_reducible apply Follows.same; with_reducible assumption)
    | (dsimp +zetaDelta -zeta only)

theorem State.startCan_follows {tb : Bool} {a : State} (s : State) (c : ℕ) (x : Copy) (f : Frame) (h : Follows tb a s) :
    Follows tb a (State.startCan s c x f) := by
  unfold State.startCan
  repeat' first
    | with_reducible assumption
    | with_reducible apply State.countUnstamped_follows
    | with_reducible apply State.beginTx_follows
    | with_reducible apply State.endCopy_follows
    | with_reducible apply State.addCrypto_follows
    | with_reducible apply State.protectBus_follows
    | (split)
    | (refine PairF.elim (by with_reducible assumption) ?_)
    | with_reducible apply PairF.intro

theorem State.startOther_follows {tb : Bool} {a : State} (s : State) (c : ℕ) (x : Copy) (f : Frame) (h : Follows tb a s) :
    Follows tb a (State.startOther s c x f) := by
  unfold State.startOther
  repeat' first
    | with_reducible assumption
    | with_reducible apply State.startCan_follows
    | with_reducible apply State.startFr_follows
    | with_reducible apply State.countUnstamped_follows
    | with_reducible apply State.beginTx_follows
    | (split)
    | (with_reducible apply PairF.out; with_reducible apply State.copyBytes_follows)

theorem State.grantOther_follows {tb : Bool} {a : State} (s : State) (c : ℕ) (q : ℕ) (h : Follows tb a s) :
    Follows tb a (State.grantOther s c q) := by
  unfold State.grantOther
  repeat' first
    | with_reducible assumption
    | with_reducible apply State.startOther_follows
    | with_reducible apply State.settleQueues_follows
    | with_reducible apply State.setQueue_follows
    | with_reducible apply State.shaperDebit_follows
    | with_reducible apply State.granted_follows
    | (lift_lets; intro x; refine Follows.cut (tb := tb) (a := a) (x := x) ?_ (fun _ => ?_); on_goal 2 => clear_value x)
    | (split)

theorem egressGrantOther_follows {tb : Bool} {a : State} (c : ℕ) (s : State) (h : Follows tb a s) :
    Follows tb a (egressGrantOther c s) := by
  unfold egressGrantOther
  repeat' first
    | with_reducible assumption
    | with_reducible apply State.grantOther_follows
    | (split)

theorem egressGrant_follows {tb : Bool} {a : State} (c : PortCode) (s : State) (h : Follows tb a s) :
    Follows tb a (egressGrant c s) := by
  unfold egressGrant
  repeat' first
    | with_reducible assumption
    | with_reducible apply egressGrantOther_follows
    | with_reducible apply egressGrantEth_follows
    | (split)

theorem preemptResume_follows {tb : Bool} {a : State} (n : EPort) (s : State) (h : Follows tb a s) :
    Follows tb a (preemptResume n s) := by
  unfold preemptResume
  repeat' first
    | with_reducible assumption
    | with_reducible apply State.setEg_follows
    | (lift_lets; intro x; clear_value x)
    | (split)

theorem execPreemptResume_follows {tb : Bool} {a : State} (n : EPort) (s : State) (h : Follows tb a s) :
    ResF tb a (execPreemptResume n s) := by
  unfold execPreemptResume
  repeat' first
    | with_reducible assumption
    | with_reducible apply preemptResume_follows
    | with_reducible apply clocked_follows
    | with_reducible apply ResF.next

theorem committedLaunch_follows {tb : Bool} {a : State} (n : EPort) (s : State) (h : Follows tb a s) :
    Follows tb a (committedLaunch n s) := by
  unfold committedLaunch
  repeat' first
    | with_reducible assumption
    | with_reducible apply State.beginTx_follows
    | with_reducible apply State.setEg_follows
    | with_reducible apply State.count_follows
    | (lift_lets; intro x; clear_value x)
    | (split)
    | (with_reducible apply PairF.out; first | (with_reducible apply State.stamped_follows) | (with_reducible apply State.copyBytes_follows))

theorem execCommittedLaunch_follows {tb : Bool} {a : State} (n : EPort) (s : State) (h : Follows tb a s) :
    ResF tb a (execCommittedLaunch n s) := by
  unfold execCommittedLaunch
  repeat' first
    | with_reducible assumption
    | with_reducible apply committedLaunch_follows
    | with_reducible apply clocked_follows
    | with_reducible apply ResF.next

theorem shaperWaitExpire_follows {tb : Bool} {a : State} (c : PortCode) (q : Fin 8) (s : State) (h : Follows tb a s) :
    Follows tb a (shaperWaitExpire c q s) := by
  unfold shaperWaitExpire
  repeat' first
    | with_reducible assumption
    | with_reducible apply State.settleQueue_follows
    | with_reducible apply State.setQueue_follows
    | with_reducible apply State.deferCopy_follows
    | with_reducible apply State.refuseCopy_follows
    | (lift_lets; intro x; refine Follows.cut (tb := tb) (a := a) (x := x) ?_ (fun _ => ?_); on_goal 2 => clear_value x)
    | (split)

theorem execShaperWaitExpire_follows {tb : Bool} {a : State} (c : PortCode) (q : Fin 8) (s : State) (h : Follows tb a s) :
    ResF tb a (execShaperWaitExpire c q s) := by
  unfold execShaperWaitExpire
  repeat' first
    | with_reducible assumption
    | with_reducible apply shaperWaitExpire_follows
    | with_reducible apply clocked_follows
    | with_reducible apply ResF.next

theorem State.rejudge_follows {tb : Bool} {a : State} (s : State) (h : Follows tb a s) : Follows tb a (State.rejudge s) := by
  unfold State.rejudge
  repeat' first
    | with_reducible assumption
    | with_reducible apply State.settleQueue_follows
    | with_reducible apply State.setQueue_follows
    | with_reducible apply Follows.foldl
    | (intro x y (hx : Follows tb a x))
    | (split)

theorem State.countSent_follows {tb : Bool} {a : State} (s : State) (c : ℕ) (t : Tx) (h : Follows tb a s) :
    Follows tb a (State.countSent s c t) := by
  unfold State.countSent
  repeat' first
    | with_reducible assumption
    | with_reducible apply State.canTally_follows
    | with_reducible apply State.countWide_follows
    | with_reducible apply State.count_follows
    | (lift_lets; intro x; refine Follows.cut (tb := tb) (a := a) (x := x) ?_ (fun _ => ?_); on_goal 2 => clear_value x)
    | (split)

theorem State.finishRetune_follows {tb : Bool} {a : State} (s : State) (n : ℕ) (h : Follows tb a s) :
    Follows tb a (State.finishRetune s n) := by
  unfold State.finishRetune
  repeat' first
    | with_reducible assumption
    | with_reducible apply State.linkLoss_follows
    | with_reducible apply State.setLane_follows
    | with_reducible apply State.countWide_follows
    | with_reducible apply State.setFd_follows
    | with_reducible apply State.setBt_follows
    | with_reducible apply State.modRg_follows
    | (intro x; refine Follows.cut (tb := tb) (a := a) (x := x) ?_ (fun _ => ?_); on_goal 2 => clear_value x)
    | (lift_lets; intro x; clear_value x)
    | (intro)
    | (split)

theorem State.txDone_follows {tb : Bool} {a : State} (s : State) (c : ℕ) (t : Tx) (f : Frame) (h : Follows tb a s) :
    Follows tb a (State.txDone s c t f) := by
  unfold State.txDone
  repeat' first
    | with_reducible assumption
    | with_reducible apply State.finishRetune_follows
    | with_reducible apply State.countSent_follows
    | with_reducible apply State.startNext_follows
    | with_reducible apply State.copyBytes_follows
    | with_reducible apply State.sentCopy_follows
    | with_reducible apply State.setEg_follows
    | with_reducible apply State.emit_follows
    | (intro x; refine Follows.cut (tb := tb) (a := a) (x := x) ?_ (fun _ => ?_); on_goal 2 => clear_value x)
    | (lift_lets; intro x; clear_value x)
    | (split)
    | (refine PairF.elim (by with_reducible assumption) ?_)
    | with_reducible apply PairF.intro

theorem State.txAbort_follows {tb : Bool} {a : State} (s : State) (c : ℕ) (code : ℕ) (t : Tx) (h : Follows tb a s) :
    Follows tb a (State.txAbort s c code t) := by
  unfold State.txAbort
  repeat' first
    | with_reducible assumption
    | with_reducible apply State.finishRetune_follows
    | with_reducible apply State.startNext_follows
    | with_reducible apply State.endCopy_follows
    | with_reducible apply State.setEg_follows
    | with_reducible apply State.emit_follows
    | with_reducible apply State.count_follows
    | (intro x; refine Follows.cut (tb := tb) (a := a) (x := x) ?_ (fun _ => ?_); on_goal 2 => clear_value x)
    | (lift_lets; intro x; clear_value x)
    | (split)
    | (dsimp +zetaDelta -zeta only)

theorem State.txRetry_follows {tb : Bool} {a : State} (s : State) (c : ℕ) (t : Tx) (h : Follows tb a s) :
    Follows tb a (State.txRetry s c t) := by
  unfold State.txRetry
  repeat' first
    | with_reducible assumption
    | with_reducible apply State.endCopy_follows
    | with_reducible apply State.setEg_follows
    | (lift_lets; intro x; clear_value x)
    | (split)

theorem egressTxComplete_follows {tb : Bool} {a : State} (c : PortCode) (x : TxEnd) (s : State) (h : Follows tb a s) :
    Follows tb a (egressTxComplete c x s) := by
  unfold egressTxComplete
  repeat' first
    | with_reducible assumption
    | with_reducible apply State.txRetry_follows
    | with_reducible apply State.txDone_follows
    | with_reducible apply State.canTally_follows
    | with_reducible apply State.count_follows
    | (split)

/-! ### Classify -/

theorem Cl.next_follows {tb : Bool} {a : State} (c : Cl) (k : State → Frame → Cl) (h : Follows tb a c.s) (hk :
    ∀ x0_ x1_, Follows tb a x0_ → ClF tb a (k x0_ x1_)) (hc_ : ClF tb a c) : ClF tb a (Cl.next c k) := by
  unfold Cl.next
  repeat' first
    | with_reducible assumption
    | with_reducible apply hk
    | (split)

theorem stepVlan_follows {tb : Bool} {a : State} (p : Parsed) (s : State) (f : Frame) (h : Follows tb a s) :
    ClF tb a (stepVlan p s f) := by
  unfold stepVlan
  repeat' first
    | with_reducible assumption
    | (lift_lets; intro x; clear_value x)
    | (intro)
    | (split)
    | with_reducible apply ClF.intro

theorem stepRouted_follows {tb : Bool} {a : State} (r : Found) (s : State) (f : Frame) (h : Follows tb a s) :
    ClF tb a (stepRouted r s f) := by
  unfold stepRouted
  repeat' first
    | with_reducible assumption
    | (split)
    | with_reducible apply ClF.intro

theorem stepMissed_follows {tb : Bool} {a : State} (s : State) (f : Frame) (h : Follows tb a s) : ClF tb a (stepMissed s f) := by
  unfold stepMissed
  repeat' first
    | with_reducible assumption
    | (lift_lets; intro x; clear_value x)
    | (intro)
    | (split)
    | with_reducible apply ClF.intro

theorem State.setRec_follows {tb : Bool} {a : State} (s : State) (i : ℕ) (r : Stream) (h : Follows tb a s) :
    Follows tb a (State.setRec s i r) := by
  unfold State.setRec
  repeat' first
    | with_reducible assumption
    | with_reducible apply State.setStream_follows
    | (lift_lets; intro x; clear_value x)
    | (split)
    | (with_reducible apply Follows.same; with_reducible assumption)

theorem State.findRecord_follows {tb : Bool} {a : State} (s : State) (identity : BitVec 128) (owner : Part) (vid : BitVec 12)
    (prof : ℕ) (h : Follows tb a s) : PairF tb a (State.findRecord s identity owner vid prof) := by
  unfold State.findRecord
  repeat' first
    | with_reducible assumption
    | with_reducible apply State.setRec_follows
    | with_reducible apply State.setStream_follows
    | with_reducible apply State.setBt_follows
    | (lift_lets; intro x; refine Follows.cut (tb := tb) (a := a) (x := x) ?_ (fun _ => ?_); on_goal 2 => clear_value x)
    | (split)
    | (with_reducible apply PairF.out; with_reducible apply drawNat_follows)
    | with_reducible apply PairF.intro

theorem stepStream_follows {tb : Bool} {a : State} (r : Found) (key : BitVec 128) (s : State) (f : Frame) (h : Follows tb a s) :
    ClF tb a (stepStream r key s f) := by
  unfold stepStream
  repeat' first
    | with_reducible assumption
    | with_reducible apply State.setRec_follows
    | (lift_lets; intro x; clear_value x)
    | (intro)
    | (split)
    | (with_reducible apply PairF.out; with_reducible apply State.findRecord_follows)
    | with_reducible apply ClF.intro

theorem stepFrer_follows {tb : Bool} {a : State} (p : Parsed) (i : ℕ) (s : State) (f : Frame) (h : Follows tb a s) :
    ClF tb a (stepFrer p i s f) := by
  unfold stepFrer
  repeat' first
    | with_reducible assumption
    | with_reducible apply State.setRec_follows
    | (lift_lets; intro x; clear_value x)
    | (split)
    | with_reducible apply ClF.intro

theorem State.redFrame_follows {tb : Bool} {a : State} (s : State) (i : ℕ) (pr : BitVec 256) (f : Frame) (r : Stream) (h :
    Follows tb a s) : Follows tb a (State.redFrame s i pr f r) := by
  unfold State.redFrame
  repeat' first
    | with_reducible assumption
    | with_reducible apply State.setRec_follows
    | with_reducible apply State.holdNode_follows
    | (intro x; refine Follows.cut (tb := tb) (a := a) (x := x) ?_ (fun _ => ?_); on_goal 2 => clear_value x)
    | (lift_lets; intro x; clear_value x)
    | (intro)
    | (split)

theorem stepMeter_follows {tb : Bool} {a : State} (i : ℕ) (s : State) (f : Frame) (h : Follows tb a s) :
    ClF tb a (stepMeter i s f) := by
  unfold stepMeter
  repeat' first
    | with_reducible assumption
    | with_reducible apply State.redFrame_follows
    | with_reducible apply State.setRec_follows
    | (lift_lets; intro x; clear_value x)
    | (intro)
    | (split)
    | with_reducible apply ClF.intro

theorem stepPolice_follows {tb : Bool} {a : State} (p : Parsed) (late : Bool) (s : State) (f : Frame) (h : Follows tb a s) :
    ClF tb a (stepPolice p late s f) := by
  unfold stepPolice
  repeat' first
    | with_reducible assumption
    | with_reducible apply stepMeter_follows
    | with_reducible apply stepFrer_follows
    | with_reducible apply Cl.next_follows
    | (lift_lets; intro x; clear_value x)
    | (split)
    | (with_reducible apply ClF.out; with_reducible apply stepFrer_follows)
    | with_reducible apply ClF.intro

theorem State.debit_follows {tb : Bool} {a : State} (s : State) (f : Frame) (h : Follows tb a s) :
    Follows tb a (State.debit s f) := by
  unfold State.debit
  repeat' first
    | with_reducible assumption
    | with_reducible apply State.setRec_follows
    | (lift_lets; intro x; clear_value x)
    | (intro)
    | (split)

theorem stepHold_follows {tb : Bool} {a : State} (s : State) (f : Frame) (h : Follows tb a s) : ClF tb a (stepHold s f) := by
  unfold stepHold
  repeat' first
    | with_reducible assumption
    | with_reducible apply State.setNode_follows
    | (lift_lets; intro x; clear_value x)
    | (split)
    | with_reducible apply ClF.intro

theorem stepVerify_follows {tb : Bool} {a : State} (s : State) (f : Frame) (h : Follows tb a s) : ClF tb a (stepVerify s f) := by
  unfold stepVerify
  repeat' first
    | with_reducible assumption
    | with_reducible apply State.authResult_follows
    | (intro x; refine Follows.cut (tb := tb) (a := a) (x := x) ?_ (fun _ => ?_); on_goal 2 => clear_value x)
    | (intro x; refine VerF.cut (tb := tb) (a := a) (x := x) ?_ (fun _ => ?_); on_goal 2 => clear_value x)
    | (lift_lets; intro x; clear_value x)
    | (split)
    | (with_reducible apply VerF.out; first | (with_reducible assumption) | (with_reducible apply State.busVerdict_follows) | (with_reducible apply State.ethVerdict_follows))
    | with_reducible apply ClF.intro
    | with_reducible apply VerF.intro
    | (dsimp +zetaDelta -zeta only)

theorem State.setEprof_follows {tb : Bool} {a : State} (s : State) (i : ℕ) (e : BitVec 128) (h : Follows tb a s) :
    Follows tb a (State.setEprof s i e) := by
  unfold State.setEprof
  repeat' first
    | (lift_lets; intro x; have : Tables := x; clear this)
    | (with_reducible apply Follows.sameTab; with_reducible assumption)

theorem State.setE2eDrops_follows {tb : Bool} {a : State} (s : State) (i : ℕ) (k : ℕ) (h : Follows tb a s) :
    Follows tb a (State.setE2eDrops s i k) := by
  unfold State.setE2eDrops
  repeat' first
    | (lift_lets; intro x; clear_value x)
    | (with_reducible apply Follows.same; with_reducible assumption)

theorem stepE2e_follows {tb : Bool} {a : State} (s : State) (f : Frame) (h : Follows tb a s) : ClF tb a (stepE2e s f) := by
  unfold stepE2e
  repeat' first
    | with_reducible assumption
    | with_reducible apply State.setE2eDrops_follows
    | with_reducible apply State.setEprof_follows
    | with_reducible apply State.countWide_follows
    | (intro x; refine Follows.cut (tb := tb) (a := a) (x := x) ?_ (fun _ => ?_); on_goal 2 => clear_value x)
    | (lift_lets; intro x; clear_value x)
    | (intro)
    | (split)
    | with_reducible apply ClF.intro
    | (dsimp +zetaDelta -zeta only)

theorem State.sendPlanned_follows {tb : Bool} {a : State} (s : State) (x : Copy × ℕ) (h : Follows tb a s) :
    Follows tb a (State.sendPlanned s x) := by
  unfold State.sendPlanned
  repeat' first
    | with_reducible assumption
    | with_reducible apply State.admitCopy_follows
    | with_reducible apply State.countDrop_follows
    | (split)

theorem State.tunnelCopy_follows {tb : Bool} {a : State} (s : State) (f : Frame) (wrap : Bool) (h : Follows tb a s) :
    Follows tb a (State.tunnelCopy s f wrap) := by
  unfold State.tunnelCopy
  repeat' first
    | (lift_lets; intro x; clear_value x)
    | (with_reducible apply Follows.same; with_reducible assumption)

theorem State.branch_follows {tb : Bool} {a : State} (s : State) (f : Frame) (h : Follows tb a s) :
    Follows tb a (State.branch s f) := by
  unfold State.branch
  repeat' first
    | with_reducible assumption
    | with_reducible apply State.tunnelCopy_follows
    | with_reducible apply State.sendPlanned_follows
    | with_reducible apply State.makeCapture_follows
    | with_reducible apply State.finishBranch_follows
    | with_reducible apply State.setFrame_follows
    | with_reducible apply Follows.foldl
    | (split)

theorem State.dropFrame_follows {tb : Bool} {a : State} (s : State) (code : ℕ) (h : Follows tb a s) :
    Follows tb a (State.dropFrame s code) := by
  unfold State.dropFrame
  repeat' first
    | with_reducible assumption
    | with_reducible apply State.countDrop_follows
    | with_reducible apply State.setBt_follows
    | (lift_lets; intro x; refine Follows.cut (tb := tb) (a := a) (x := x) ?_ (fun _ => ?_); on_goal 2 => clear_value x)
    | (split)

theorem Cl.end_follows {tb : Bool} {a : State} (c : Cl) (h : Follows tb a c.s) (hc_ : ClF tb a c) : Follows tb a (Cl.end c) := by
  unfold Cl.end
  repeat' first
    | with_reducible assumption
    | with_reducible apply State.dropFrame_follows
    | with_reducible apply State.branch_follows
    | (lift_lets; intro x; clear_value x)
    | (split)

theorem finishClass_follows {tb : Bool} {a : State} (s : State) (f : Frame) (h : Follows tb a s) :
    Follows tb a (finishClass s f) := by
  unfold finishClass
  repeat' first
    | with_reducible assumption
    | with_reducible apply Cl.end_follows
    | with_reducible apply State.branch_follows
    | with_reducible apply stepE2e_follows
    | with_reducible apply stepVerify_follows
    | with_reducible apply Cl.next_follows
    | (split)
    | (with_reducible apply ClF.out; with_reducible apply Cl.next_follows)
    | with_reducible apply ClF.intro

theorem State.setOrder_follows {tb : Bool} {a : State} (s : State) (c : ℕ) (l : List ℕ) (h : Follows tb a s) :
    Follows tb a (State.setOrder s c l) := by
  unfold State.setOrder
  repeat' first
    | (lift_lets; intro x; clear_value x)
    | (with_reducible apply Follows.same; with_reducible assumption)

theorem drainOrder_follows {tb : Bool} {a : State} (c : ℕ) (x1 : ℕ) (x2 : State) (h : Follows tb a x2) :
    Follows tb a (drainOrder c x1 x2) := by
  induction x1 generalizing x2 with
  | zero => exact h
  | succ k ih =>
    unfold drainOrder
    split
    · exact h
    · split
      · exact ih _ (State.setOrder_follows _ _ _ h)
      · split
        · exact ih _ (State.setOrder_follows _ _ _ h)
        · split
          · exact State.addCrypto_follows _ _ _ _ (State.setFrame_follows _ _ h)
          · split
            · exact h
            · exact ih _ (finishClass_follows _ _ (State.setOrder_follows _ _ _ h))

theorem State.runOrder_follows {tb : Bool} {a : State} (s : State) (c : ℕ) (h : Follows tb a s) :
    Follows tb a (State.runOrder s c) := by
  unfold State.runOrder
  repeat' first
    | with_reducible assumption
    | with_reducible apply drainOrder_follows

theorem State.queueOrder_follows {tb : Bool} {a : State} (s : State) (f : Frame) (h : Follows tb a s) :
    Follows tb a (State.queueOrder s f) := by
  unfold State.queueOrder
  repeat' first
    | with_reducible assumption
    | with_reducible apply State.runOrder_follows
    | with_reducible apply State.setOrder_follows
    | with_reducible apply State.setFrame_follows

theorem Cl.toOrder_follows {tb : Bool} {a : State} (c : Cl) (h : Follows tb a c.s) (hc_ : ClF tb a c) :
    Follows tb a (Cl.toOrder c) := by
  unfold Cl.toOrder
  repeat' first
    | with_reducible assumption
    | with_reducible apply State.queueOrder_follows
    | with_reducible apply State.dropFrame_follows
    | with_reducible apply State.debit_follows
    | (lift_lets; intro x; refine Follows.cut (tb := tb) (a := a) (x := x) ?_ (fun _ => ?_); on_goal 2 => clear_value x)
    | (intro)
    | (split)
    | (dsimp +zetaDelta -zeta only)

theorem steps456_follows {tb : Bool} {a : State} (p : Parsed) (late : Bool) (r : Option Found) (key : BitVec 128) (c : Cl) (h :
    Follows tb a c.s) (hc_ : ClF tb a c) : ClF tb a (steps456 p late r key c) := by
  unfold steps456
  repeat' first
    | with_reducible assumption
    | with_reducible apply stepHold_follows
    | with_reducible apply stepPolice_follows
    | with_reducible apply stepStream_follows
    | with_reducible apply Cl.next_follows
    | (split)
    | (with_reducible apply ClF.out; with_reducible apply Cl.next_follows)

theorem consumed_follows {tb : Bool} {a : State} (c : Cl) (h : Follows tb a c.s) (hc_ : ClF tb a c) : ClF tb a (consumed c) := by
  unfold consumed
  repeat' first
    | with_reducible assumption
    | (lift_lets; intro x; clear_value x)
    | (intro)
    | with_reducible apply ClF.intro

theorem State.dropEarly_follows {tb : Bool} {a : State} (s : State) (f : Frame) (code : ℕ) (h : Follows tb a s) :
    Follows tb a (State.dropEarly s f code) := by
  unfold State.dropEarly
  repeat' first
    | with_reducible assumption
    | with_reducible apply State.dropFrame_follows
    | with_reducible apply State.settleFrame_follows
    | with_reducible apply State.setFrame_follows

theorem State.classify_follows {tb : Bool} {a : State} (s : State) (f : Frame) (err : Bool) (h : Follows tb a s) :
    Follows tb a (State.classify s f err) := by
  unfold State.classify
  repeat' first
    | with_reducible assumption
    | with_reducible apply State.dropEarly_follows
    | with_reducible apply consumed_follows
    | with_reducible apply steps456_follows
    | with_reducible apply Cl.toOrder_follows
    | with_reducible apply State.bridgeTake_follows
    | with_reducible apply State.freeFrame_follows
    | with_reducible exact OptF.none
    | (intro x; refine ClF.cut (tb := tb) (a := a) (x := x) ?_ (fun _ => ?_); on_goal 2 => clear_value x)
    | (lift_lets; intro x; clear_value x)
    | (intro)
    | (split)
    | (refine OptF.elim ?_ (by with_reducible assumption))
    | (with_reducible apply ClF.out; first | (with_reducible apply consumed_follows) | (with_reducible apply steps456_follows) | (with_reducible apply stepMissed_follows) | (with_reducible apply stepRouted_follows) | (with_reducible apply stepVlan_follows))
    | with_reducible apply ClF.intro
    | (dsimp +zetaDelta -zeta only)

/-! ### Sources -/

theorem State.setBounds_follows {tb : Bool} {a : State} (s : State) (c : ℕ) (l : List Boundpt) (h : Follows tb a s) :
    Follows tb a (State.setBounds s c l) := by
  unfold State.setBounds
  repeat' first
    | (lift_lets; intro x; clear_value x)
    | (with_reducible apply Follows.same; with_reducible assumption)

theorem State.takeStamp_follows {tb : Bool} {a : State} (s : State) (c : ℕ) (h : Follows tb a s) :
    PairF tb a (State.takeStamp s c) := by
  unfold State.takeStamp
  repeat' first
    | with_reducible assumption
    | (lift_lets; intro x; clear_value x)
    | (intro)
    | (split)
    | (with_reducible apply Follows.same; with_reducible apply PairF.out; with_reducible apply drawNat_follows)
    | with_reducible apply PairF.intro

theorem frameBoundary_follows {tb : Bool} {a : State} (c : PortCode) (s : State) (h : Follows tb a s) :
    Follows tb a (frameBoundary c s) := by
  unfold frameBoundary
  repeat' first
    | with_reducible assumption
    | with_reducible apply State.setBounds_follows
    | (lift_lets; intro x; clear_value x)
    | (split)
    | (with_reducible apply PairF.out; with_reducible apply State.takeStamp_follows)

theorem execFrameBoundary_follows {tb : Bool} {a : State} (c : PortCode) (s : State) (h : Follows tb a s) :
    ResF tb a (execFrameBoundary c s) := by
  unfold execFrameBoundary
  repeat' first
    | with_reducible assumption
    | with_reducible apply frameBoundary_follows
    | with_reducible apply clocked_follows
    | with_reducible exact ResF.fault
    | with_reducible apply ResF.next
    | (split)

theorem State.pickLane_follows {tb : Bool} {a : State} (s : State) (h : Follows tb a s) : PairF tb a (State.pickLane s) := by
  unfold State.pickLane
  repeat' first
    | with_reducible assumption
    | with_reducible apply drawNat_follows
    | (split)
    | (refine PairF.elim (by with_reducible assumption) ?_)
    | with_reducible apply PairF.intro

theorem State.newFrame_follows {tb : Bool} {a : State} (s : State) (ingress : PortCode) (owner : Part) (b : Boundpt) (hslot :
    BitVec 128) (bytes : List Byte) (cls : Byte) (vid : ℕ) (acct : ℕ) (h : Follows tb a s) : PairF tb a (State.newFrame s ingress owner b hslot bytes cls vid acct) := by
  unfold State.newFrame
  repeat' first
    | with_reducible assumption
    | with_reducible apply State.pickLane_follows
    | with_reducible apply State.bufferField_follows
    | with_reducible apply State.pickBanks_follows
    | (lift_lets; intro x; clear_value x)
    | (split)
    | (refine PairF.elim (by with_reducible assumption) ?_)
    | (with_reducible apply Follows.same; (refine PairF.elim (by with_reducible assumption) ?_))
    | with_reducible apply PairF.intro

theorem State.bufFull_follows {tb : Bool} {a : State} (s : State) (h : Follows tb a s) : Follows tb a (State.bufFull s) := by
  unfold State.bufFull
  repeat' first
    | with_reducible assumption
    | with_reducible apply State.dropFrame_follows

theorem State.intake_follows {tb : Bool} {a : State} (s : State) (c : ℕ) (b : Boundpt) (hslot : BitVec 128) (bytes : List Byte)
    (h : Follows tb a s) : PairF tb a (State.intake s c b hslot bytes) := by
  unfold State.intake
  repeat' first
    | with_reducible assumption
    | with_reducible apply State.bufFull_follows
    | with_reducible apply State.newFrame_follows
    | with_reducible apply State.admitFrame_follows
    | (lift_lets; intro x; clear_value x)
    | (intro)
    | (split)
    | (refine PairF.elim (by with_reducible assumption) ?_)
    | with_reducible apply PairF.intro

theorem State.localFrame_follows {tb : Bool} {a : State} (s : State) (ingress : PortCode) (tc : ℕ) (locked : Bool) (hslot :
    BitVec 128) (bytes : List Byte) (h : Follows tb a s) : PairF tb a (State.localFrame s ingress tc locked hslot bytes) := by
  unfold State.localFrame
  repeat' first
    | with_reducible assumption
    | with_reducible apply State.bufFull_follows
    | with_reducible apply State.newFrame_follows
    | with_reducible apply State.admitFrame_follows
    | (lift_lets; intro x; clear_value x)
    | (split)
    | (refine PairF.elim (by with_reducible assumption) ?_)
    | with_reducible apply PairF.intro

theorem State.sendDirect_follows {tb : Bool} {a : State} (s : State) (id : ℕ) (c : ℕ) (h : Follows tb a s) :
    Follows tb a (State.sendDirect s id c) := by
  unfold State.sendDirect
  repeat' first
    | with_reducible assumption
    | with_reducible apply State.enqueue_follows
    | with_reducible apply State.settleFrame_follows
    | (split)

/-! ### Bridge -/

theorem xlPrefix_follows {tb : Bool} {a : State} (s : State) (h : Follows tb a s) : PairF tb a (xlPrefix s) := by
  unfold xlPrefix
  repeat' first
    | with_reducible assumption
    | with_reducible apply drawBytes_follows
    | (split)
    | (refine PairF.elim (by with_reducible assumption) ?_)
    | with_reducible apply PairF.intro

theorem padTo_follows {tb : Bool} {a : State} (n : ℕ) (l : List Byte) (s : State) (h : Follows tb a s) :
    PairF tb a (padTo n l s) := by
  unfold padTo
  repeat' first
    | with_reducible assumption
    | with_reducible apply drawBytes_follows
    | (split)
    | (refine PairF.elim (by with_reducible assumption) ?_)
    | with_reducible apply PairF.intro

theorem State.requestFrame_follows {tb : Bool} {a : State} (s : State) (e : Window) (l : List Byte) (h : Follows tb a s) :
    TriF tb a (State.requestFrame s e l) := by
  unfold State.requestFrame
  repeat' first
    | with_reducible assumption
    | with_reducible apply padTo_follows
    | with_reducible apply xlPrefix_follows
    | (lift_lets; intro x; clear_value x)
    | (intro)
    | (split)
    | (refine PairF.elim (by with_reducible assumption) ?_)
    | with_reducible apply TriF.intro

theorem State.insertLin_follows {tb : Bool} {a : State} (s : State) (e : Window) (h : Follows tb a s) :
    Follows tb a (State.insertLin s e) := by
  unfold State.insertLin
  repeat' first
    | with_reducible assumption
    | with_reducible apply State.setLin_follows
    | (lift_lets; intro x; clear_value x)
    | (intro)
    | (split)

theorem State.startRequest_follows {tb : Bool} {a : State} (s : State) (p : Part) (k : ℕ) (w : ℕ) (write : Bool) (len : ℕ) (off :
    ℕ) (data : List Byte) (cmd : Option (BitVec 12 × Bool)) (h : Follows tb a s) : Follows tb a (State.startRequest s p k w write len off data cmd) := by
  unfold State.startRequest
  repeat' first
    | with_reducible assumption
    | with_reducible apply State.insertLin_follows
    | with_reducible apply State.requestFrame_follows
    | with_reducible apply State.sendDirect_follows
    | with_reducible apply State.endSlot_follows
    | with_reducible apply State.setSlot_follows
    | (intro x; refine Follows.cut (tb := tb) (a := a) (x := x) ?_ (fun _ => ?_); on_goal 2 => clear_value x)
    | (lift_lets; intro x; clear_value x)
    | (intro)
    | (split)
    | (refine TriF.elim (by with_reducible assumption) ?_)
    | (with_reducible apply PairF.out; with_reducible apply State.localFrame_follows)
    | (with_reducible apply Follows.same; first | (with_reducible assumption) | (with_reducible apply State.setSlot_follows))
    | (dsimp -zeta only)

theorem State.tryRemote_follows {tb : Bool} {a : State} (s : State) (p : Part) (d : CmdDesc) (h : Follows tb a s) :
    Follows tb a (State.tryRemote s p d) := by
  unfold State.tryRemote
  repeat' first
    | with_reducible assumption
    | with_reducible apply State.startRequest_follows
    | (lift_lets; intro x; clear_value x)
    | (split)
    | (with_reducible apply PairF.out; with_reducible apply drawNat_follows)
    | (with_reducible apply Follows.same; with_reducible assumption)

theorem State.startRemotes_follows {tb : Bool} {a : State} (s : State) (h : Follows tb a s) :
    Follows tb a (State.startRemotes s) := by
  unfold State.startRemotes
  repeat' first
    | with_reducible assumption
    | with_reducible apply State.tryRemote_follows
    | with_reducible apply Follows.foldl
    | (intro x y (hx : Follows tb a x))
    | (lift_lets; intro x; clear_value x)
    | (with_reducible apply Follows.same; with_reducible assumption)

theorem remoteAccess_follows {tb : Bool} {a : State} (p : Part) (d : CmdDesc) (s : State) (h : Follows tb a s) :
    Follows tb a (remoteAccess p d s) := by
  unfold remoteAccess
  repeat' first
    | with_reducible assumption
    | with_reducible apply State.tryRemote_follows
    | with_reducible apply targetCheck_follows
    | with_reducible apply fail_follows
    | with_reducible apply finish_follows
    | with_reducible exact OptA.none
    | (lift_lets; intro x; clear_value x)
    | (split)
    | (refine OptA.elim ?_ (by with_reducible assumption))
    | (with_reducible apply AnsF.out; first | (with_reducible apply fail_follows) | (refine OptA.elim ?_ (by with_reducible assumption)))

theorem execRemoteAccess_follows {tb : Bool} {a : State} (p : Part) (d : CmdDesc) (s : State) (h : Follows tb a s) :
    ResF tb a (execRemoteAccess p d s) := by
  unfold execRemoteAccess
  repeat' first
    | with_reducible assumption
    | with_reducible apply remoteAccess_follows
    | with_reducible apply onForm_follows
    | with_reducible apply ResF.next

theorem windowBody_follows {tb : Bool} {a : State} (p : Part) (d : CmdDesc) (s : State) (h : Follows tb a s) :
    AnsF tb a (windowBody p d s) := by
  unfold windowBody
  repeat' first
    | with_reducible assumption
    | with_reducible apply stageItem_follows
    | with_reducible apply onTarget_follows
    | with_reducible apply fail_follows
    | (intro x (hx : Follows tb a x))
    | (split)

theorem execWindowWrite_follows {tb : Bool} {a : State} (p : Part) (d : CmdDesc) (s : State) (h : Follows tb a s) :
    ResF tb a (execWindowWrite p d s) := by
  unfold execWindowWrite
  repeat' first
    | with_reducible assumption
    | with_reducible apply windowBody_follows
    | with_reducible apply runCommand_follows
    | with_reducible apply ResF.next

theorem brgSlotReq_follows {tb : Bool} {a : State} (p : Part) (k : Fin 8) (v : W32) (s : State) (h : Follows tb a s) :
    Follows tb a (brgSlotReq p k v s) := by
  unfold brgSlotReq
  repeat' first
    | with_reducible assumption
    | with_reducible apply State.startRequest_follows
    | with_reducible apply State.report_follows
    | (lift_lets; intro x; clear_value x)
    | (split)

theorem execBrgSlotReq_follows {tb : Bool} {a : State} (p : Part) (k : Fin 8) (v : W32) (s : State) (h : Follows tb a s) :
    ResF tb a (execBrgSlotReq p k v s) := by
  unfold execBrgSlotReq
  repeat' first
    | with_reducible assumption
    | with_reducible apply brgSlotReq_follows
    | with_reducible apply onWrite_follows
    | with_reducible apply ResF.next

theorem brgSlotRelease_follows {tb : Bool} {a : State} (p : Part) (k : Fin 8) (v : W32) (s : State) (h : Follows tb a s) :
    Follows tb a (brgSlotRelease p k v s) := by
  unfold brgSlotRelease
  repeat' first
    | with_reducible assumption
    | with_reducible apply State.startRemotes_follows
    | with_reducible apply State.freeSlot_follows
    | with_reducible apply State.complete_follows
    | (lift_lets; intro x; clear_value x)
    | (split)

theorem execBrgSlotRelease_follows {tb : Bool} {a : State} (p : Part) (k : Fin 8) (v : W32) (s : State) (h : Follows tb a s) :
    ResF tb a (execBrgSlotRelease p k v s) := by
  unfold execBrgSlotRelease
  repeat' first
    | with_reducible assumption
    | with_reducible apply brgSlotRelease_follows
    | with_reducible apply onWrite_follows
    | with_reducible apply ResF.next

theorem delayedReadExpire_follows {tb : Bool} {a : State} (p : Part) (k : Fin 8) (s : State) (h : Follows tb a s) :
    Follows tb a (delayedReadExpire p k s) := by
  unfold delayedReadExpire
  repeat' first
    | with_reducible assumption
    | with_reducible apply State.startRemotes_follows
    | with_reducible apply State.freeSlot_follows
    | with_reducible apply State.report_follows
    | with_reducible apply State.modRgp_follows
    | (lift_lets; intro x; clear_value x)
    | (split)

theorem execDelayedReadExpire_follows {tb : Bool} {a : State} (p : Part) (k : Fin 8) (s : State) (h : Follows tb a s) :
    ResF tb a (execDelayedReadExpire p k s) := by
  unfold execDelayedReadExpire
  repeat' first
    | with_reducible assumption
    | with_reducible apply delayedReadExpire_follows
    | with_reducible apply clocked_follows
    | with_reducible apply ResF.next

theorem bridgeFarTimeout_follows {tb : Bool} {a : State} (p : Part) (window : Fin 32) (tag : Byte) (s : State) (h :
    Follows tb a s) : Follows tb a (bridgeFarTimeout p window tag s) := by
  unfold bridgeFarTimeout
  repeat' first
    | with_reducible assumption
    | with_reducible apply State.startRemotes_follows
    | with_reducible apply State.farError_follows
    | (split)

theorem execBridgeFarTimeout_follows {tb : Bool} {a : State} (p : Part) (window : Fin 32) (tag : Byte) (s : State) (h :
    Follows tb a s) : ResF tb a (execBridgeFarTimeout p window tag s) := by
  unfold execBridgeFarTimeout
  repeat' first
    | with_reducible assumption
    | with_reducible apply bridgeFarTimeout_follows
    | with_reducible apply clocked_follows
    | with_reducible apply ResF.next

theorem State.takeSem_follows {tb : Bool} {a : State} (s : State) (copy : Part) (n : ℕ) (h : Follows tb a s) :
    PairF tb a (State.takeSem s copy n) := by
  unfold State.takeSem
  repeat' first
    | with_reducible assumption
    | with_reducible apply State.setRgp_follows
    | with_reducible apply PairF.intro

theorem brgSemTake_follows {tb : Bool} {a : State} (p : Part) (n : Fin 64) (s : State) (h : Follows tb a s) :
    Follows tb a (brgSemTake p n s) := by
  unfold brgSemTake
  repeat' first
    | with_reducible assumption
    | with_reducible apply answer_follows
    | (with_reducible apply PairF.out; with_reducible apply State.takeSem_follows)

theorem execBrgSemTake_follows {tb : Bool} {a : State} (p : Part) (n : Fin 64) (s : State) (h : Follows tb a s) :
    ResF tb a (execBrgSemTake p n s) := by
  unfold execBrgSemTake
  repeat' first
    | with_reducible assumption
    | with_reducible apply brgSemTake_follows
    | with_reducible apply onRead_follows
    | with_reducible apply ResF.next

theorem brgSemRelease_follows {tb : Bool} {a : State} (p : Part) (hi : Bool) (v : W32) (s : State) (h : Follows tb a s) :
    Follows tb a (brgSemRelease p hi v s) := by
  unfold brgSemRelease
  repeat' first
    | with_reducible assumption
    | with_reducible apply State.setRgp_follows
    | with_reducible apply Follows.foldl
    | (intro x y (hx : Follows tb a x))
    | (split)

theorem execBrgSemRelease_follows {tb : Bool} {a : State} (p : Part) (hi : Bool) (v : W32) (s : State) (h : Follows tb a s) :
    ResF tb a (execBrgSemRelease p hi v s) := by
  unfold execBrgSemRelease
  repeat' first
    | with_reducible assumption
    | with_reducible apply brgSemRelease_follows
    | with_reducible apply onWrite_follows
    | with_reducible apply ResF.next

theorem unsupported_follows {tb : Bool} {a : State} (p : Part) (x1 : ℕ) (write : Bool) (s : State) (h : Follows tb a s) :
    Follows tb a (unsupported p x1 write s) := by
  unfold unsupported
  repeat' first
    | with_reducible assumption
    | with_reducible apply State.report_follows
    | with_reducible apply State.emit_follows
    | (split)

theorem mailboxAt_follows {tb : Bool} {a : State} (p : Part) (x1 : ℕ) (n : ℕ) (w : Option (List Byte)) (s : State) (h :
    Follows tb a s) : Follows tb a (mailboxAt p x1 n w s) := by
  unfold mailboxAt
  repeat' first
    | with_reducible assumption
    | with_reducible apply State.emit_follows
    | (lift_lets; intro x; clear_value x)
    | (intro)
    | (split)
    | (with_reducible apply Follows.boxWrite; with_reducible assumption)

theorem mailboxAccess_follows {tb : Bool} {a : State} (p : Part) (x1 : ℕ) (n : ℕ) (w : Option (List Byte)) (s : State) (h :
    Follows tb a s) : Follows tb a (mailboxAccess p x1 n w s) := by
  unfold mailboxAccess
  repeat' first
    | with_reducible assumption
    | with_reducible apply mailboxAt_follows
    | with_reducible apply unsupported_follows
    | with_reducible apply State.emit_follows
    | (split)

theorem execMailboxAccess_follows {tb : Bool} {a : State} (p : Part) (addr : W32) (len : ℕ) (data : Option (List Byte)) (s :
    State) (h : Follows tb a s) : ResF tb a (execMailboxAccess p addr len data s) := by
  unfold execMailboxAccess
  repeat' first
    | with_reducible assumption
    | with_reducible apply mailboxAccess_follows
    | with_reducible apply onAccess_follows
    | with_reducible exact ResF.fault
    | with_reducible apply ResF.next
    | (split)

theorem execLockedRequest_follows {tb : Bool} {a : State} (x0 : HostPort) (addr : W32) (s : State) (h : Follows tb a s) :
    ResF tb a (execLockedRequest x0 addr s) := by
  unfold execLockedRequest
  repeat' first
    | with_reducible assumption
    | with_reducible apply State.emit_follows
    | with_reducible apply ResF.next
    | (split)

end Sys2Proof.Machine
end

