-- ==== Sys2Proof/Laws/FollowsTime.lean ====
section
/-! SUPPORT. What every effect keeps, one lemma per function: the time bases. -/

set_option linter.all false

namespace Sys2Proof.Machine

/-! ### Servo -/

theorem State.toDom_follows {tb : Bool} {a : State} (s : State) (x : ℕ) (new : ℕ) (h : Follows tb a s) :
    Follows tb a (State.toDom s x new) := by
  unfold State.toDom
  repeat' first
    | with_reducible assumption
    | with_reducible apply State.report_follows
    | with_reducible apply State.setDom_follows
    | with_reducible apply State.setFd_follows
    | with_reducible apply State.setBt_follows
    | (intro x; refine Follows.cut (tb := tb) (a := a) (x := x) ?_ (fun _ => ?_); on_goal 2 => clear_value x)
    | (lift_lets; intro x; clear_value x)
    | (intro)
    | (split)

theorem State.setDelta_follows {tb : Bool} {a : State} (s : State) (v : ℤ) (h : Follows tb a s) :
    Follows tb a (State.setDelta s v) := by
  unfold State.setDelta
  repeat' first
    | with_reducible apply State.setBt_follows
    | (lift_lets; intro x; clear_value x)
    | (with_reducible apply Follows.same; with_reducible assumption)

theorem State.fixLeapDay_follows {tb : Bool} {a : State} (s : State) (x : ℕ) (h : Follows tb a s) :
    Follows tb a (State.fixLeapDay s x) := by
  unfold State.fixLeapDay
  repeat' first
    | with_reducible assumption
    | with_reducible apply State.setDom_follows

theorem State.leapsStepped_follows {tb : Bool} {a : State} (s : State) (t : State) (h : Follows tb a s) (h1 : Follows tb a t) :
    Follows tb a (State.leapsStepped s t) := by
  unfold State.leapsStepped
  repeat' first
    | with_reducible assumption
    | with_reducible apply State.setDom_follows
    | (intro x; refine Follows.cut (tb := tb) (a := a) (x := x) ?_ (fun _ => ?_); on_goal 2 => clear_value x)
    | (lift_lets; intro x; clear_value x)
    | (intro)
    | (with_reducible apply Follows.same; with_reducible assumption)

theorem State.stepDomain_follows {tb : Bool} {a : State} (s : State) (x : ℕ) (d : ℤ) (h : Follows tb a s) :
    Follows tb a (State.stepDomain s x d) := by
  unfold State.stepDomain
  repeat' first
    | with_reducible assumption
    | with_reducible apply State.leapsStepped_follows
    | with_reducible apply State.setDelta_follows
    | with_reducible apply State.gatesStepped_follows
    | with_reducible apply State.eventAll_follows
    | with_reducible apply State.setDom_follows
    | with_reducible apply State.count_follows
    | with_reducible apply State.setBt_follows
    | (intro x; refine Follows.cut (tb := tb) (a := a) (x := x) ?_ (fun _ => ?_); on_goal 2 => clear_value x)
    | (lift_lets; intro x; clear_value x)
    | (split)

theorem State.setRate_follows {tb : Bool} {a : State} (s : State) (x : ℕ) (r : ℤ) (clamped : Bool) (h : Follows tb a s) :
    Follows tb a (State.setRate s x r clamped) := by
  unfold State.setRate
  repeat' first
    | with_reducible assumption
    | with_reducible apply State.setDom_follows
    | with_reducible apply State.setBt_follows
    | with_reducible apply State.setRg_follows

theorem State.runServo_follows {tb : Bool} {a : State} (s : State) (x : ℕ) (th : ℤ) (inv : ℕ) (h : Follows tb a s) :
    Follows tb a (State.runServo s x th inv) := by
  unfold State.runServo
  repeat' first
    | with_reducible assumption
    | with_reducible apply State.setRate_follows
    | with_reducible apply State.setDom_follows
    | (with_reducible apply PairF.out; with_reducible apply drawBit_follows)

theorem State.applyOffset_follows {tb : Bool} {a : State} (s : State) (x : ℕ) (th : ℤ) (inv : ℕ) (h : Follows tb a s) :
    Follows tb a (State.applyOffset s x th inv) := by
  unfold State.applyOffset
  repeat' first
    | with_reducible assumption
    | with_reducible apply State.runServo_follows
    | with_reducible apply State.setRate_follows
    | with_reducible apply State.stepDomain_follows
    | with_reducible apply State.toDom_follows
    | with_reducible apply State.setDom_follows
    | with_reducible apply State.setRg_follows
    | (intro x; refine Follows.cut (tb := tb) (a := a) (x := x) ?_ (fun _ => ?_); on_goal 2 => clear_value x)
    | (lift_lets; intro x; refine Follows.cut (tb := tb) (a := a) (x := x) ?_ (fun _ => ?_); on_goal 2 => clear_value x)
    | (lift_lets; intro x; clear_value x)
    | (intro)
    | (split)
    | (with_reducible apply PairF.out; with_reducible apply drawBit_follows)
    | (dsimp -zeta only)

theorem syncReceiptTimeout_follows {tb : Bool} {a : State} (x : Fin 2) (s : State) (h : Follows tb a s) :
    Follows tb a (syncReceiptTimeout x s) := by
  unfold syncReceiptTimeout
  repeat' first
    | with_reducible assumption
    | with_reducible apply State.setRate_follows
    | with_reducible apply State.toDom_follows
    | with_reducible apply State.count_follows
    | (split)
    | (with_reducible apply PairF.out; with_reducible apply drawBit_follows)

theorem execSyncReceiptTimeout_follows {tb : Bool} {a : State} (x : Fin 2) (s : State) (h : Follows tb a s) :
    ResF tb a (execSyncReceiptTimeout x s) := by
  unfold execSyncReceiptTimeout
  repeat' first
    | with_reducible assumption
    | with_reducible apply syncReceiptTimeout_follows
    | with_reducible apply clocked_follows
    | with_reducible apply ResF.next

theorem State.setSlave_follows {tb : Bool} {a : State} (s : State) (x : ℕ) (n : Option ℕ) (h : Follows tb a s) :
    Follows tb a (State.setSlave s x n) := by
  unfold State.setSlave
  repeat' first
    | with_reducible assumption
    | with_reducible apply State.setDom_follows
    | with_reducible apply State.setRg_follows
    | (lift_lets; intro x; clear_value x)
    | (intro)
    | (split)

theorem State.chooseSlave_follows {tb : Bool} {a : State} (s : State) (x : ℕ) (h : Follows tb a s) :
    Follows tb a (State.chooseSlave s x) := by
  unfold State.chooseSlave
  repeat' first
    | with_reducible assumption
    | with_reducible apply State.setSlave_follows
    | (split)

theorem State.switchTo_follows {tb : Bool} {a : State} (s : State) (y : ℕ) (h : Follows tb a s) :
    Follows tb a (State.switchTo s y) := by
  unfold State.switchTo
  repeat' first
    | with_reducible assumption
    | with_reducible apply State.fixLeapDay_follows
    | with_reducible apply State.setDelta_follows
    | with_reducible apply State.eventAll_follows
    | with_reducible apply State.report_follows
    | with_reducible apply State.count_follows
    | with_reducible apply State.setBt_follows
    | (intro x; refine Follows.cut (tb := tb) (a := a) (x := x) ?_ (fun _ => ?_); on_goal 2 => clear_value x)
    | (lift_lets; intro x; clear_value x)
    | (split)

theorem State.evaluateDom_follows {tb : Bool} {a : State} (s : State) (x : ℕ) (h : Follows tb a s) :
    Follows tb a (State.evaluateDom s x) := by
  unfold State.evaluateDom
  repeat' first
    | with_reducible assumption
    | with_reducible apply State.toDom_follows
    | with_reducible apply State.setDom_follows
    | (lift_lets; intro x; clear_value x)
    | (split)

theorem State.ageAnnounces_follows {tb : Bool} {a : State} (s : State) (h : Follows tb a s) :
    Follows tb a (State.ageAnnounces s) := by
  unfold State.ageAnnounces
  repeat' first
    | with_reducible assumption
    | with_reducible apply State.chooseSlave_follows
    | (lift_lets; intro x; clear_value x)
    | (split)
    | (with_reducible apply Follows.same; with_reducible assumption)

theorem selectorEvaluation_follows {tb : Bool} {a : State} (s : State) (h : Follows tb a s) :
    Follows tb a (selectorEvaluation s) := by
  unfold selectorEvaluation
  repeat' first
    | with_reducible assumption
    | with_reducible apply State.ageAnnounces_follows
    | with_reducible apply State.evaluateDom_follows
    | with_reducible apply State.switchTo_follows

theorem execSelectorEvaluation_follows {tb : Bool} {a : State} (s : State) (h : Follows tb a s) :
    ResF tb a (execSelectorEvaluation s) := by
  unfold execSelectorEvaluation
  repeat' first
    | with_reducible assumption
    | with_reducible apply selectorEvaluation_follows
    | with_reducible apply clocked_follows
    | with_reducible apply ResF.next

theorem deltaSlewDone_follows {tb : Bool} {a : State} (s : State) (h : Follows tb a s) : Follows tb a (deltaSlewDone s) := by
  unfold deltaSlewDone
  repeat' first
    | with_reducible assumption
    | with_reducible apply State.setBt_follows

theorem execDeltaSlewDone_follows {tb : Bool} {a : State} (s : State) (h : Follows tb a s) : ResF tb a (execDeltaSlewDone s) := by
  unfold execDeltaSlewDone
  repeat' first
    | with_reducible assumption
    | with_reducible apply deltaSlewDone_follows
    | with_reducible apply clocked_follows
    | with_reducible apply ResF.next

theorem tclkPllUnlock_follows {tb : Bool} {a : State} (x : Fin 2) (s : State) (h : Follows tb a s) :
    Follows tb a (tclkPllUnlock x s) := by
  unfold tclkPllUnlock
  repeat' first
    | with_reducible assumption
    | with_reducible apply State.toDom_follows
    | with_reducible apply State.report_follows
    | with_reducible apply State.setDom_follows
    | (intro x; refine Follows.cut (tb := tb) (a := a) (x := x) ?_ (fun _ => ?_); on_goal 2 => clear_value x)
    | (lift_lets; intro x; clear_value x)
    | (split)

theorem execTclkPllUnlock_follows {tb : Bool} {a : State} (x : Fin 2) (s : State) (h : Follows tb a s) :
    ResF tb a (execTclkPllUnlock x s) := by
  unfold execTclkPllUnlock
  repeat' first
    | with_reducible assumption
    | with_reducible apply tclkPllUnlock_follows
    | with_reducible apply clocked_follows
    | with_reducible apply ResF.next

theorem tclkPllRelock_follows {tb : Bool} {a : State} (x : Fin 2) (s : State) (h : Follows tb a s) :
    Follows tb a (tclkPllRelock x s) := by
  unfold tclkPllRelock
  repeat' first
    | with_reducible assumption
    | with_reducible apply State.report_follows
    | with_reducible apply State.setDom_follows

theorem execTclkPllRelock_follows {tb : Bool} {a : State} (x : Fin 2) (s : State) (h : Follows tb a s) :
    ResF tb a (execTclkPllRelock x s) := by
  unfold execTclkPllRelock
  repeat' first
    | with_reducible assumption
    | with_reducible apply tclkPllRelock_follows
    | with_reducible apply clocked_follows
    | with_reducible apply ResF.next

theorem tsuServoParityError_follows {tb : Bool} {a : State} (x : Fin 2) (s : State) (h : Follows tb a s) :
    Follows tb a (tsuServoParityError x s) := by
  unfold tsuServoParityError
  repeat' first
    | with_reducible assumption
    | with_reducible apply State.report_follows
    | with_reducible apply State.setDom_follows
    | with_reducible apply State.setRg_follows

theorem execTsuServoParityError_follows {tb : Bool} {a : State} (x : Fin 2) (s : State) (h : Follows tb a s) :
    ResF tb a (execTsuServoParityError x s) := by
  unfold execTsuServoParityError
  repeat' first
    | with_reducible assumption
    | with_reducible apply tsuServoParityError_follows
    | with_reducible apply clocked_follows
    | with_reducible apply ResF.next

theorem State.advance_follows {tb : Bool} {a : State} (s : State) (x : ℕ) (h : Follows tb a s) :
    Follows tb a (State.advance s x) := by
  unfold State.advance
  repeat' first
    | with_reducible assumption
    | with_reducible apply State.setDom_follows
    | (lift_lets; intro x; clear_value x)
    | (intro)
    | (split)
    | (with_reducible apply PairF.out; with_reducible apply drawBit_follows)

theorem State.tclk_follows {tb : Bool} {a : State} (s : State) (h : Follows tb a s) : Follows tb a (State.tclk s) := by
  unfold State.tclk
  repeat' first
    | with_reducible assumption
    | with_reducible apply State.advance_follows
    | with_reducible apply State.setDelta_follows
    | (with_reducible apply PairF.out; with_reducible apply drawBit_follows)

theorem State.setPps_follows {tb : Bool} {a : State} (s : State) (n : ℕ) (v : Pps) (h : Follows tb a s) :
    Follows tb a (State.setPps s n v) := by
  unfold State.setPps
  repeat' first
    | (lift_lets; intro x; clear_value x)
    | (with_reducible apply Follows.same; with_reducible assumption)

theorem State.useLabel_follows {tb : Bool} {a : State} (s : State) (n : ℕ) (e : PpsEdge) (u : ℤ) (h : Follows tb a s) :
    Follows tb a (State.useLabel s n e u) := by
  unfold State.useLabel
  repeat' first
    | with_reducible assumption
    | with_reducible apply State.applyOffset_follows
    | with_reducible apply Follows.foldl
    | (intro x y (hx : Follows tb a x))
    | (lift_lets; intro x; clear_value x)
    | (split)

theorem State.labelEdge_follows {tb : Bool} {a : State} (s : State) (n : ℕ) (u : ℤ) (h : Follows tb a s) :
    Follows tb a (State.labelEdge s n u) := by
  unfold State.labelEdge
  repeat' first
    | with_reducible assumption
    | with_reducible apply State.useLabel_follows
    | with_reducible apply State.setPps_follows
    | with_reducible apply State.setRg_follows
    | (lift_lets; intro x; clear_value x)
    | (split)
    | (with_reducible apply PairF.out; with_reducible apply drawNat_follows)

theorem State.labelPrev_follows {tb : Bool} {a : State} (s : State) (n : ℕ) (u : ℤ) (h : Follows tb a s) :
    Follows tb a (State.labelPrev s n u) := by
  unfold State.labelPrev
  repeat' first
    | with_reducible assumption
    | with_reducible apply State.useLabel_follows
    | with_reducible apply State.setPps_follows
    | (lift_lets; intro x; clear_value x)
    | (split)

theorem State.labelFrom_follows {tb : Bool} {a : State} (s : State) (n : ℕ) (t : ℕ) (u : ℤ) (h : Follows tb a s) :
    Follows tb a (State.labelFrom s n t u) := by
  unfold State.labelFrom
  repeat' first
    | with_reducible assumption
    | with_reducible apply State.labelPrev_follows
    | with_reducible apply State.labelEdge_follows
    | with_reducible apply State.setPps_follows
    | (lift_lets; intro x; clear_value x)
    | (intro)
    | (split)

theorem ppsEdge_follows {tb : Bool} {a : State} (n : Fin 4) (s : State) (h : Follows tb a s) : Follows tb a (ppsEdge n s) := by
  unfold ppsEdge
  repeat' first
    | with_reducible assumption
    | with_reducible apply State.labelEdge_follows
    | with_reducible apply State.setPps_follows
    | with_reducible apply stampWithin_follows
    | with_reducible apply State.count_follows
    | with_reducible apply State.setRg_follows
    | (intro x; refine Follows.cut (tb := tb) (a := a) (x := x) ?_ (fun _ => ?_); on_goal 2 => clear_value x)
    | (lift_lets; intro x; refine Follows.cut (tb := tb) (a := a) (x := x) ?_ (fun _ => ?_); on_goal 2 => clear_value x)
    | (lift_lets; intro x; clear_value x)
    | (intro)
    | (split)
    | (refine PairF.elim (by with_reducible assumption) ?_)
    | (dsimp +zetaDelta -zeta only)

theorem execPpsEdge_follows {tb : Bool} {a : State} (n : Fin 4) (s : State) (h : Follows tb a s) :
    ResF tb a (execPpsEdge n s) := by
  unfold execPpsEdge
  repeat' first
    | with_reducible assumption
    | with_reducible apply ppsEdge_follows
    | with_reducible apply clocked_follows
    | with_reducible apply ResF.next

/-! ### Gptp -/

theorem State.setGport_follows {tb : Bool} {a : State} (s : State) (n : ℕ) (g : GptpPort) (h : Follows tb a s) :
    Follows tb a (State.setGport s n g) := by
  unfold State.setGport
  repeat' first
    | (lift_lets; intro x; clear_value x)
    | (with_reducible apply Follows.same; with_reducible assumption)

theorem State.gptpMessage_follows {tb : Bool} {a : State} (s : State) (n : ℕ) (type : ℕ) (dnum : ℕ) (flags : ℕ) (corr : ℕ) (seq :
    ℕ) (body : List Byte) (h : Follows tb a s) : PairF tb a (State.gptpMessage s n type dnum flags corr seq body) := by
  unfold State.gptpMessage
  repeat' first
    | with_reducible assumption
    | with_reducible apply drawBytes_follows
    | (lift_lets; intro x; clear_value x)
    | (split)
    | (refine PairF.elim (by with_reducible assumption) ?_)
    | (with_reducible apply PairF.out; with_reducible apply drawBytes_follows)
    | with_reducible apply PairF.intro

theorem State.sendGptp_follows {tb : Bool} {a : State} (s : State) (n : ℕ) (locked : Bool) (l : List Byte) (h : Follows tb a s) :
    Follows tb a (State.sendGptp s n locked l) := by
  unfold State.sendGptp
  repeat' first
    | with_reducible assumption
    | with_reducible apply State.sendDirect_follows
    | with_reducible apply State.localFrame_follows
    | (split)
    | (refine PairF.elim (by with_reducible assumption) ?_)

theorem State.sendSync_follows {tb : Bool} {a : State} (s : State) (n : ℕ) (x : ℕ) (h : Follows tb a s) :
    Follows tb a (State.sendSync s n x) := by
  unfold State.sendSync
  repeat' first
    | with_reducible assumption
    | with_reducible apply State.sendGptp_follows
    | with_reducible apply State.setGport_follows
    | (split)
    | (with_reducible apply PairF.out; with_reducible apply State.gptpMessage_follows)

theorem State.sendAnnounce_follows {tb : Bool} {a : State} (s : State) (n : ℕ) (x : ℕ) (h : Follows tb a s) :
    Follows tb a (State.sendAnnounce s n x) := by
  unfold State.sendAnnounce
  repeat' first
    | with_reducible assumption
    | with_reducible apply State.sendGptp_follows
    | with_reducible apply State.setGport_follows
    | (with_reducible apply PairF.out; first | (with_reducible apply State.gptpMessage_follows) | (with_reducible apply drawBytes_follows))

theorem State.sendPdelay_follows {tb : Bool} {a : State} (s : State) (n : ℕ) (h : Follows tb a s) :
    Follows tb a (State.sendPdelay s n) := by
  unfold State.sendPdelay
  repeat' first
    | with_reducible assumption
    | with_reducible apply State.sendGptp_follows
    | with_reducible apply State.setGport_follows
    | (with_reducible apply PairF.out; with_reducible apply State.gptpMessage_follows)

theorem gptpTxTimer_follows {tb : Bool} {a : State} (n : EPort) (x : Fin 2) (kind : GptpTx) (s : State) (h : Follows tb a s) :
    Follows tb a (gptpTxTimer n x kind s) := by
  unfold gptpTxTimer
  repeat' first
    | with_reducible assumption
    | with_reducible apply State.sendPdelay_follows
    | with_reducible apply State.sendAnnounce_follows
    | with_reducible apply State.sendSync_follows
    | (lift_lets; intro x; clear_value x)
    | (split)

theorem execGptpTxTimer_follows {tb : Bool} {a : State} (n : EPort) (x : Fin 2) (kind : GptpTx) (s : State) (h : Follows tb a s) :
    ResF tb a (execGptpTxTimer n x kind s) := by
  unfold execGptpTxTimer
  repeat' first
    | with_reducible assumption
    | with_reducible apply gptpTxTimer_follows
    | with_reducible apply clocked_follows
    | with_reducible apply ResF.next

theorem State.txStamp_follows {tb : Bool} {a : State} (s : State) (n : ℕ) (t : Tx) (h : Follows tb a s) :
    PairF tb a (State.txStamp s n t) := by
  unfold State.txStamp
  repeat' first
    | with_reducible assumption
    | with_reducible apply drawNat_follows
    | (lift_lets; intro x; clear_value x)
    | (split)
    | (refine PairF.elim (by with_reducible assumption) ?_)
    | with_reducible apply PairF.intro

theorem gptpSent_follows {tb : Bool} {a : State} (n : ℕ) (f : Frame) (t : Tx) (s : State) (h : Follows tb a s) :
    Follows tb a (gptpSent n f t s) := by
  unfold gptpSent
  repeat' first
    | with_reducible assumption
    | with_reducible apply State.sendGptp_follows
    | with_reducible apply State.setGport_follows
    | (lift_lets; intro x; clear_value x)
    | (intro)
    | (split)
    | (with_reducible apply PairF.out; first | (with_reducible apply State.txStamp_follows) | (with_reducible apply State.gptpMessage_follows))
    | (dsimp -zeta only)

theorem State.syncOffset_follows {tb : Bool} {a : State} (s : State) (x : ℕ) (n : ℕ) (rx : ℤ) (origin : ℤ) (corr : ℤ) (h :
    Follows tb a s) : Follows tb a (State.syncOffset s x n rx origin corr) := by
  unfold State.syncOffset
  repeat' first
    | with_reducible assumption
    | with_reducible apply State.applyOffset_follows
    | (split)
    | (with_reducible apply PairF.out; with_reducible apply drawNat_follows)

theorem State.rxSync_follows {tb : Bool} {a : State} (s : State) (x : ℕ) (n : ℕ) (f : Frame) (h : Follows tb a s) :
    Follows tb a (State.rxSync s x n f) := by
  unfold State.rxSync
  repeat' first
    | with_reducible assumption
    | with_reducible apply State.syncOffset_follows
    | with_reducible apply State.setDom_follows
    | (lift_lets; intro x; clear_value x)
    | (intro)
    | (split)

theorem State.rxFollowUp_follows {tb : Bool} {a : State} (s : State) (x : ℕ) (n : ℕ) (f : Frame) (h : Follows tb a s) :
    Follows tb a (State.rxFollowUp s x n f) := by
  unfold State.rxFollowUp
  repeat' first
    | with_reducible assumption
    | with_reducible apply State.syncOffset_follows
    | with_reducible apply State.setDom_follows
    | (intro x; refine Follows.cut (tb := tb) (a := a) (x := x) ?_ (fun _ => ?_); on_goal 2 => clear_value x)
    | (lift_lets; intro x; clear_value x)
    | (intro)
    | (split)

theorem State.endPdelay_follows {tb : Bool} {a : State} (s : State) (n : ℕ) (c : Pdelay) (h : Follows tb a s) :
    Follows tb a (State.endPdelay s n c) := by
  unfold State.endPdelay
  repeat' first
    | with_reducible assumption
    | with_reducible apply State.setGport_follows
    | (with_reducible apply PairF.out; with_reducible apply drawBit_follows)

theorem State.rxPdelayReq_follows {tb : Bool} {a : State} (s : State) (n : ℕ) (f : Frame) (h : Follows tb a s) :
    Follows tb a (State.rxPdelayReq s n f) := by
  unfold State.rxPdelayReq
  repeat' first
    | with_reducible assumption
    | with_reducible apply State.sendGptp_follows
    | (with_reducible apply PairF.out; with_reducible apply State.gptpMessage_follows)

theorem State.rxPdelayResp_follows {tb : Bool} {a : State} (s : State) (n : ℕ) (f : Frame) (followUp : Bool) (h : Follows tb a s) :
    Follows tb a (State.rxPdelayResp s n f followUp) := by
  unfold State.rxPdelayResp
  repeat' first
    | with_reducible assumption
    | with_reducible apply State.endPdelay_follows
    | with_reducible apply State.setGport_follows
    | (lift_lets; intro x; clear_value x)
    | (intro)
    | (split)

theorem State.takeUtc_follows {tb : Bool} {a : State} (s : State) (x : ℕ) (l : List Byte) (o : ℕ) (h : Follows tb a s) :
    Follows tb a (State.takeUtc s x l o) := by
  unfold State.takeUtc
  repeat' first
    | with_reducible assumption
    | with_reducible apply State.fixLeapDay_follows
    | with_reducible apply State.setDom_follows
    | (split)

theorem State.rxAnnounce_follows {tb : Bool} {a : State} (s : State) (x : ℕ) (n : ℕ) (f : Frame) (h : Follows tb a s) :
    Follows tb a (State.rxAnnounce s x n f) := by
  unfold State.rxAnnounce
  repeat' first
    | with_reducible assumption
    | with_reducible apply State.takeUtc_follows
    | with_reducible apply State.chooseSlave_follows
    | (intro x; refine Follows.cut (tb := tb) (a := a) (x := x) ?_ (fun _ => ?_); on_goal 2 => clear_value x)
    | (lift_lets; intro x; clear_value x)
    | (intro)
    | (split)
    | (with_reducible apply Follows.same; with_reducible assumption)

theorem State.gptpPortDown_follows {tb : Bool} {a : State} (s : State) (n : ℕ) (h : Follows tb a s) :
    Follows tb a (State.gptpPortDown s n) := by
  unfold State.gptpPortDown
  repeat' first
    | with_reducible apply State.setGport_follows
    | with_reducible apply State.chooseSlave_follows
    | (lift_lets; intro x; clear_value x)
    | (with_reducible apply Follows.same; with_reducible assumption)

theorem gptpReceived_follows {tb : Bool} {a : State} (f : Frame) (s : State) (h : Follows tb a s) :
    Follows tb a (gptpReceived f s) := by
  unfold gptpReceived
  repeat' first
    | with_reducible assumption
    | with_reducible apply State.rxAnnounce_follows
    | with_reducible apply State.rxPdelayResp_follows
    | with_reducible apply State.rxPdelayReq_follows
    | with_reducible apply State.rxFollowUp_follows
    | with_reducible apply State.rxSync_follows
    | (lift_lets; intro x; clear_value x)
    | (intro)
    | (split)
    | (dsimp +zetaDelta -zeta only)

/-! ### Tsu -/

theorem timeSetBody_follows {tb : Bool} {a : State} (d : CmdDesc) (s : State) (h : Follows tb a s) :
    AnsF tb a (timeSetBody d s) := by
  unfold timeSetBody
  repeat' first
    | with_reducible assumption
    | with_reducible apply State.stepDomain_follows
    | with_reducible apply fail_follows
    | with_reducible apply State.setBt_follows
    | (split)
    | with_reducible apply AnsF.intro

theorem execTimeSet_follows {tb : Bool} {a : State} (p : Part) (d : CmdDesc) (s : State) (h : Follows tb a s) :
    ResF tb a (execTimeSet p d s) := by
  unfold execTimeSet
  repeat' first
    | with_reducible assumption
    | with_reducible apply timeSetBody_follows
    | with_reducible apply runCommand_follows
    | with_reducible apply ResF.next

theorem timeReadBody_follows {tb : Bool} {a : State} (s : State) (h : Follows tb a s) : AnsF tb a (timeReadBody s) := by
  unfold timeReadBody
  repeat' first
    | with_reducible assumption
    | with_reducible apply AnsF.intro

theorem execTimeRead_follows {tb : Bool} {a : State} (p : Part) (d : CmdDesc) (s : State) (h : Follows tb a s) :
    ResF tb a (execTimeRead p d s) := by
  unfold execTimeRead
  repeat' first
    | with_reducible assumption
    | with_reducible apply timeReadBody_follows
    | with_reducible apply runCommand_follows
    | with_reducible apply ResF.next

theorem latchTime_follows {tb : Bool} {a : State} (p : Part) (s : State) (h : Follows tb a s) : Follows tb a (latchTime p s) := by
  unfold latchTime
  repeat' first
    | with_reducible assumption
    | with_reducible apply State.setRgp_follows

theorem tsuLatch_follows {tb : Bool} {a : State} (p : Part) (v : W32) (s : State) (h : Follows tb a s) :
    Follows tb a (tsuLatch p v s) := by
  unfold tsuLatch
  repeat' first
    | with_reducible assumption
    | with_reducible apply latchTime_follows
    | (split)

theorem execTsuLatch_follows {tb : Bool} {a : State} (p : Part) (v : W32) (s : State) (h : Follows tb a s) :
    ResF tb a (execTsuLatch p v s) := by
  unfold execTsuLatch
  repeat' first
    | with_reducible assumption
    | with_reducible apply tsuLatch_follows
    | with_reducible apply onWrite_follows
    | with_reducible apply ResF.next

theorem State.zdaStart_follows {tb : Bool} {a : State} (s : State) (n : ℕ) (h : Follows tb a s) :
    Follows tb a (State.zdaStart s n) := by
  unfold State.zdaStart
  repeat' first
    | with_reducible apply State.localFrame_follows
    | with_reducible apply State.startOther_follows
    | with_reducible apply State.settleFrame_follows
    | (lift_lets; intro x; clear_value x)
    | (intro)
    | (split)
    | (refine PairF.elim (by with_reducible assumption) ?_)
    | (with_reducible apply Follows.same; with_reducible assumption)

theorem zdaSend_follows {tb : Bool} {a : State} (s : State) (h : Follows tb a s) : Follows tb a (zdaSend s) := by
  unfold zdaSend
  repeat' first
    | with_reducible assumption
    | with_reducible apply State.zdaStart_follows
    | with_reducible apply State.count_follows
    | (intro x; refine Follows.cut (tb := tb) (a := a) (x := x) ?_ (fun _ => ?_); on_goal 2 => clear_value x)
    | (lift_lets; intro x; clear_value x)
    | (intro)
    | (split)
    | (with_reducible apply Follows.same; with_reducible assumption)

theorem State.zdaDelayed_follows {tb : Bool} {a : State} (s : State) (h : Follows tb a s) :
    Follows tb a (State.zdaDelayed s) := by
  unfold State.zdaDelayed
  repeat' first
    | with_reducible assumption
    | with_reducible apply State.zdaStart_follows
    | (lift_lets; intro x; clear_value x)
    | (split)
    | (with_reducible apply Follows.same; with_reducible assumption)

theorem execZdaSend_follows {tb : Bool} {a : State} (s : State) (h : Follows tb a s) : ResF tb a (execZdaSend s) := by
  unfold execZdaSend
  repeat' first
    | with_reducible assumption
    | with_reducible apply zdaSend_follows
    | with_reducible apply clocked_follows
    | with_reducible apply ResF.next

theorem State.clearLeap_follows {tb : Bool} {a : State} (s : State) (l : Leap) (h : Follows tb a s) :
    Follows tb a (State.clearLeap s l) := by
  unfold State.clearLeap
  repeat' first
    | with_reducible assumption
    | with_reducible apply State.setDom_follows
    | with_reducible apply State.setFd_follows
    | (intro x; refine Follows.cut (tb := tb) (a := a) (x := x) ?_ (fun _ => ?_); on_goal 2 => clear_value x)
    | (lift_lets; intro x; clear_value x)
    | (intro)
    | (split)
    | (with_reducible apply Follows.same; with_reducible assumption)
    | (dsimp +zetaDelta -zeta only)

theorem State.moveOffset_follows {tb : Bool} {a : State} (s : State) (step : ℤ) (h : Follows tb a s) :
    Follows tb a (State.moveOffset s step) := by
  unfold State.moveOffset
  repeat' first
    | with_reducible assumption
    | with_reducible apply State.setDom_follows
    | with_reducible apply State.modRg_follows
    | (lift_lets; intro x; refine Follows.cut (tb := tb) (a := a) (x := x) ?_ (fun _ => ?_); on_goal 2 => clear_value x)
    | (intro)
    | (split)

theorem State.applyLeap_follows {tb : Bool} {a : State} (s : State) (l : Leap) (h : Follows tb a s) :
    Follows tb a (State.applyLeap s l) := by
  unfold State.applyLeap
  repeat' first
    | with_reducible assumption
    | with_reducible apply State.moveOffset_follows
    | with_reducible apply State.clearLeap_follows

theorem leapApply_follows {tb : Bool} {a : State} (s : State) (h : Follows tb a s) : Follows tb a (leapApply s) := by
  unfold leapApply
  repeat' first
    | with_reducible assumption
    | with_reducible apply State.applyLeap_follows
    | with_reducible apply State.report_follows
    | (lift_lets; intro x; refine Follows.cut (tb := tb) (a := a) (x := x) ?_ (fun _ => ?_); on_goal 2 => clear_value x)
    | (split)

theorem execLeapApply_follows {tb : Bool} {a : State} (s : State) (h : Follows tb a s) : ResF tb a (execLeapApply s) := by
  unfold execLeapApply
  repeat' first
    | with_reducible assumption
    | with_reducible apply leapApply_follows
    | with_reducible apply clocked_follows
    | with_reducible apply ResF.next

theorem State.sentence_follows {tb : Bool} {a : State} (s : State) (n : ℕ) (t : ℕ) (l : List Byte) (h : Follows tb a s) :
    Follows tb a (State.sentence s n t l) := by
  unfold State.sentence
  repeat' first
    | with_reducible assumption
    | with_reducible apply State.labelFrom_follows
    | with_reducible apply State.report_follows
    | with_reducible apply State.count_follows
    | (lift_lets; intro x; refine Follows.cut (tb := tb) (a := a) (x := x) ?_ (fun _ => ?_); on_goal 2 => clear_value x)
    | (split)

end Sys2Proof.Machine
end

