-- ==== Sys2Proof/Laws/FollowsLinks.lean ====
section
/-! SUPPORT. What every effect keeps, one lemma per function: reception, pours applied, tunnels, links, turntables. -/

set_option linter.all false

namespace Sys2Proof.Machine

/-! ### Wake -/

theorem State.refreshPin_follows {tb : Bool} {a : State} (s : State) (n : ℕ) (h : Follows tb a s) :
    Follows tb a (State.refreshPin s n) := by
  unfold State.refreshPin
  repeat' first
    | with_reducible assumption
    | with_reducible apply State.setBt_follows
    | (split)

theorem State.canAsserts_follows {tb : Bool} {a : State} (s : State) (n : ℕ) (x2 : BitVec 128) (l : List Byte) (h :
    Follows tb a s) : Follows tb a (State.canAsserts s n x2 l) := by
  unfold State.canAsserts
  repeat' first
    | with_reducible assumption
    | with_reducible apply State.setBt_follows
    | (lift_lets; intro x; refine Follows.cut (tb := tb) (a := a) (x := x) ?_ (fun _ => ?_); on_goal 2 => clear_value x)
    | (intro)
    | (split)
    | (with_reducible apply Follows.same; with_reducible assumption)

theorem State.endFallback_follows {tb : Bool} {a : State} (s : State) (n : ℕ) (h : Follows tb a s) :
    Follows tb a (State.endFallback s n) := by
  unfold State.endFallback
  repeat' first
    | with_reducible assumption
    | with_reducible apply State.modRg_follows
    | (split)

/-! ### Intake -/

theorem State.setRx_follows {tb : Bool} {a : State} (s : State) (c : ℕ) (l : List RxFrame) (h : Follows tb a s) :
    Follows tb a (State.setRx s c l) := by
  unfold State.setRx
  repeat' first
    | (lift_lets; intro x; clear_value x)
    | (with_reducible apply Follows.same; with_reducible assumption)

theorem State.completeFrame_follows {tb : Bool} {a : State} (s : State) (f : Frame) (h : Follows tb a s) :
    Follows tb a (State.completeFrame s f) := by
  unfold State.completeFrame
  repeat' first
    | with_reducible assumption
    | with_reducible apply State.runOrder_follows
    | with_reducible apply State.settleFrame_follows
    | with_reducible apply State.modFrame_follows

theorem State.verifyWork_follows {tb : Bool} {a : State} (s : State) (c : ℕ) (len : ℕ) (id : ℕ) (sec : SecFound) (h :
    Follows tb a s) : Follows tb a (State.verifyWork s c len id sec) := by
  unfold State.verifyWork
  repeat' first
    | with_reducible assumption
    | with_reducible apply State.addCrypto_follows
    | (split)

theorem State.ethIntake_follows {tb : Bool} {a : State} (s : State) (c : ℕ) (b : Boundpt) (l : List Byte) (h : Follows tb a s) :
    Follows tb a (State.ethIntake s c b l) := by
  unfold State.ethIntake
  repeat' first
    | with_reducible assumption
    | with_reducible apply State.verifyWork_follows
    | with_reducible apply State.setRx_follows
    | with_reducible apply State.intake_follows
    | with_reducible apply State.classify_follows
    | with_reducible apply State.setFrame_follows
    | (lift_lets; intro x; refine Follows.cut (tb := tb) (a := a) (x := x) ?_ (fun _ => ?_); on_goal 2 => clear_value x)
    | (lift_lets; intro x; clear_value x)
    | (split)
    | (refine PairF.elim (by with_reducible assumption) ?_)

theorem frameIntake_follows {tb : Bool} {a : State} (c : ℕ) (l : List Byte) (s : State) (h : Follows tb a s) :
    Follows tb a (frameIntake c l s) := by
  unfold frameIntake
  repeat' first
    | with_reducible assumption
    | with_reducible apply State.ethIntake_follows
    | with_reducible apply State.setRx_follows
    | with_reducible apply State.setBounds_follows
    | with_reducible apply State.countWide_follows
    | (lift_lets; intro x; refine Follows.cut (tb := tb) (a := a) (x := x) ?_ (fun _ => ?_); on_goal 2 => clear_value x)
    | (split)

theorem execFrameIntake_follows {tb : Bool} {a : State} (c : PortCode) (bytes : List Byte) (s : State) (h : Follows tb a s) :
    ResF tb a (execFrameIntake c bytes s) := by
  unfold execFrameIntake
  repeat' first
    | with_reducible assumption
    | with_reducible apply frameIntake_follows
    | with_reducible apply clocked_follows
    | with_reducible exact ResF.fault
    | with_reducible apply ResF.next
    | (split)

theorem State.pullPort_follows {tb : Bool} {a : State} (s : State) (c : ℕ) (id : ℕ) (h : Follows tb a s) :
    Follows tb a (State.pullPort s c id) := by
  unfold State.pullPort
  repeat' first
    | with_reducible assumption
    | with_reducible apply State.settleQueue_follows
    | with_reducible apply State.setQueue_follows
    | with_reducible apply Follows.foldl
    | (intro x y (hx : Follows tb a x))
    | (lift_lets; intro x; clear_value x)
    | (split)

theorem State.pullCommit_follows {tb : Bool} {a : State} (s : State) (c : ℕ) (id : ℕ) (h : Follows tb a s) :
    Follows tb a (State.pullCommit s c id) := by
  unfold State.pullCommit
  repeat' first
    | with_reducible assumption
    | with_reducible apply State.noProtect_follows
    | with_reducible apply State.setEg_follows
    | with_reducible apply State.count_follows
    | (lift_lets; intro x; clear_value x)
    | (split)

theorem State.pullNext_follows {tb : Bool} {a : State} (s : State) (c : ℕ) (id : ℕ) (h : Follows tb a s) :
    Follows tb a (State.pullNext s c id) := by
  unfold State.pullNext
  repeat' first
    | with_reducible assumption
    | with_reducible apply State.noProtect_follows
    | with_reducible apply State.setEg_follows
    | (lift_lets; intro x; clear_value x)
    | (split)

theorem State.stompPort_follows {tb : Bool} {a : State} (s : State) (c : ℕ) (id : ℕ) (h : Follows tb a s) :
    Follows tb a (State.stompPort s c id) := by
  unfold State.stompPort
  repeat' first
    | with_reducible assumption
    | with_reducible apply State.txAbort_follows
    | with_reducible apply State.endCopy_follows
    | with_reducible apply State.setEg_follows
    | with_reducible apply State.emit_follows
    | (intro x; refine Follows.cut (tb := tb) (a := a) (x := x) ?_ (fun _ => ?_); on_goal 2 => clear_value x)
    | (lift_lets; intro x; clear_value x)
    | (split)
    | (dsimp +zetaDelta -zeta only)

theorem State.pullCaptures_follows {tb : Bool} {a : State} (s : State) (id : ℕ) (h : Follows tb a s) :
    Follows tb a (State.pullCaptures s id) := by
  unfold State.pullCaptures
  repeat' first
    | with_reducible assumption
    | with_reducible apply State.setCapq_follows
    | with_reducible apply Follows.foldl
    | (intro x y (hx : Follows tb a x))

theorem State.dropCaptures_follows {tb : Bool} {a : State} (s : State) (id : ℕ) (code : ℕ) (h : Follows tb a s) :
    Follows tb a (State.dropCaptures s id code) := by
  unfold State.dropCaptures
  repeat' first
    | with_reducible assumption
    | with_reducible apply State.setCapq_follows
    | with_reducible apply Follows.foldl
    | (intro x y (hx : Follows tb a x))

theorem State.pullFrame_follows {tb : Bool} {a : State} (s : State) (id : ℕ) (h : Follows tb a s) :
    Follows tb a (State.pullFrame s id) := by
  unfold State.pullFrame
  repeat' first
    | with_reducible assumption
    | with_reducible apply State.stompPort_follows
    | with_reducible apply State.pullNext_follows
    | with_reducible apply State.pullCommit_follows
    | with_reducible apply State.pullPort_follows
    | with_reducible apply Follows.foldl
    | (intro x y (hx : Follows tb a x))
    | (lift_lets; intro x; refine Follows.cut (tb := tb) (a := a) (x := x) ?_ (fun _ => ?_); on_goal 2 => clear_value x)
    | (intro)
    | (with_reducible apply Follows.same; with_reducible assumption)

theorem State.lateError_follows {tb : Bool} {a : State} (s : State) (f : Frame) (h : Follows tb a s) :
    Follows tb a (State.lateError s f) := by
  unfold State.lateError
  repeat' first
    | with_reducible assumption
    | with_reducible apply State.pullFrame_follows
    | with_reducible apply State.pullCaptures_follows
    | with_reducible apply State.completeFrame_follows
    | with_reducible apply State.debit_follows
    | with_reducible apply State.setFrame_follows
    | with_reducible apply State.countDrop_follows
    | (split)

theorem State.lateFilter_follows {tb : Bool} {a : State} (s : State) (f : Frame) (h : Follows tb a s) :
    Follows tb a (State.lateFilter s f) := by
  unfold State.lateFilter
  repeat' first
    | with_reducible assumption
    | with_reducible apply State.pullFrame_follows
    | with_reducible apply State.dropCaptures_follows
    | with_reducible apply State.completeFrame_follows
    | with_reducible apply State.setFrame_follows
    | with_reducible apply State.countDrop_follows
    | (split)

theorem State.goodEnd_follows {tb : Bool} {a : State} (s : State) (f : Frame) (h : Follows tb a s) :
    Follows tb a (State.goodEnd s f) := by
  unfold State.goodEnd
  repeat' first
    | with_reducible assumption
    | with_reducible apply State.lateFilter_follows
    | with_reducible apply State.completeFrame_follows
    | with_reducible apply gptpReceived_follows
    | with_reducible apply State.debit_follows
    | (lift_lets; intro x; refine Follows.cut (tb := tb) (a := a) (x := x) ?_ (fun _ => ?_); on_goal 2 => clear_value x)
    | (split)

theorem State.countRx_follows {tb : Bool} {a : State} (s0 : State) (c : ℕ) (x : RxFrame) (e : RxEnd) (h : Follows tb a s0) :
    Follows tb a (State.countRx s0 c x e) := by
  unfold State.countRx
  repeat' first
    | with_reducible assumption
    | with_reducible apply State.countWide_follows
    | with_reducible apply State.count_follows
    | (intro x; refine Follows.cut (tb := tb) (a := a) (x := x) ?_ (fun _ => ?_); on_goal 2 => clear_value x)
    | (lift_lets; intro x; clear_value x)
    | (split)
    | (dsimp +zetaDelta -zeta only)

theorem State.endRx_follows {tb : Bool} {a : State} (s : State) (c : ℕ) (e : RxEnd) (h : Follows tb a s) :
    Follows tb a (State.endRx s c e) := by
  unfold State.endRx
  repeat' first
    | with_reducible assumption
    | with_reducible apply State.countRx_follows
    | with_reducible apply State.goodEnd_follows
    | with_reducible apply State.lateError_follows
    | with_reducible apply State.setRx_follows
    | (lift_lets; intro x; refine Follows.cut (tb := tb) (a := a) (x := x) ?_ (fun _ => ?_); on_goal 2 => clear_value x)
    | (split)

theorem State.mmAnswer_follows {tb : Bool} {a : State} (s : State) (n : ℕ) (x2 : Fin 4) (h : Follows tb a s) :
    Follows tb a (State.mmAnswer s n x2) := by
  unfold State.mmAnswer
  repeat' first
    | with_reducible assumption
    | with_reducible apply State.setEg_follows
    | with_reducible apply State.setBt_follows
    | (intro x; refine Follows.cut (tb := tb) (a := a) (x := x) ?_ (fun _ => ?_); on_goal 2 => clear_value x)
    | (lift_lets; intro x; clear_value x)
    | (split)

theorem frameEnd_follows {tb : Bool} {a : State} (c : ℕ) (e : RxEnd) (s : State) (h : Follows tb a s) :
    Follows tb a (frameEnd c e s) := by
  unfold frameEnd
  repeat' first
    | with_reducible assumption
    | with_reducible apply State.mmAnswer_follows
    | with_reducible apply State.endRx_follows
    | with_reducible apply State.countWide_follows
    | (split)

theorem State.abortRx_follows {tb : Bool} {a : State} (s : State) (c : ℕ) (h : Follows tb a s) :
    Follows tb a (State.abortRx s c) := by
  unfold State.abortRx
  repeat' first
    | with_reducible assumption
    | with_reducible apply State.lateError_follows
    | with_reducible apply State.setRx_follows
    | with_reducible apply State.setBounds_follows
    | with_reducible apply Follows.foldl
    | (intro x y (hx : Follows tb a x))
    | (split)

theorem State.busEnter_follows {tb : Bool} {a : State} (s : State) (c : ℕ) (b : Boundpt) (x3 : BitVec 128) (l : List Byte) (err :
    Bool) (h : Follows tb a s) : Follows tb a (State.busEnter s c b x3 l err) := by
  unfold State.busEnter
  repeat' first
    | with_reducible assumption
    | with_reducible apply State.intake_follows
    | with_reducible apply State.classify_follows
    | with_reducible apply State.setFrame_follows
    | (split)
    | (refine PairF.elim (by with_reducible assumption) ?_)

theorem State.busReceived_follows {tb : Bool} {a : State} (s : State) (c : ℕ) (b : Boundpt) (x3 : BitVec 128) (l : List Byte) (h :
    Follows tb a s) : Follows tb a (State.busReceived s c b x3 l) := by
  unfold State.busReceived
  repeat' first
    | with_reducible assumption
    | with_reducible apply State.endFallback_follows
    | with_reducible apply State.canAsserts_follows
    | with_reducible apply State.sentence_follows
    | with_reducible apply State.canTally_follows
    | with_reducible apply State.setLin_follows
    | with_reducible apply State.count_follows
    | (intro x; refine Follows.cut (tb := tb) (a := a) (x := x) ?_ (fun _ => ?_); on_goal 2 => clear_value x)
    | (lift_lets; intro x; clear_value x)
    | (intro)
    | (split)

theorem busReceiveError_follows {tb : Bool} {a : State} (c : ℕ) (e : BusError) (s : State) (h : Follows tb a s) :
    Follows tb a (busReceiveError c e s) := by
  unfold busReceiveError
  repeat' first
    | with_reducible assumption
    | with_reducible apply State.setBounds_follows
    | with_reducible apply State.canTally_follows
    | with_reducible apply State.count_follows
    | (intro x; refine Follows.cut (tb := tb) (a := a) (x := x) ?_ (fun _ => ?_); on_goal 2 => clear_value x)
    | (lift_lets; intro x; refine Follows.cut (tb := tb) (a := a) (x := x) ?_ (fun _ => ?_); on_goal 2 => clear_value x)
    | (split)
    | (dsimp +zetaDelta -zeta only)

theorem execBusReceiveError_follows {tb : Bool} {a : State} (c : PortCode) (e : BusError) (s : State) (h : Follows tb a s) :
    ResF tb a (execBusReceiveError c e s) := by
  unfold execBusReceiveError
  repeat' first
    | with_reducible assumption
    | with_reducible apply busReceiveError_follows
    | with_reducible apply clocked_follows
    | with_reducible exact ResF.fault
    | with_reducible apply ResF.next
    | (split)

theorem busFrameHandover_follows {tb : Bool} {a : State} (c : ℕ) (h0 : BitVec 128) (l : List Byte) (s : State) (h :
    Follows tb a s) : Follows tb a (busFrameHandover c h0 l s) := by
  unfold busFrameHandover
  repeat' first
    | with_reducible assumption
    | with_reducible apply busReceiveError_follows
    | with_reducible apply State.busReceived_follows
    | with_reducible apply State.busEnter_follows
    | with_reducible apply State.startRemotes_follows
    | with_reducible apply State.setBounds_follows
    | (lift_lets; intro x; clear_value x)
    | (split)

theorem execBusFrameHandover_follows {tb : Bool} {a : State} (c : PortCode) (hslot : BitVec 128) (bytes : List Byte) (s : State)
    (h : Follows tb a s) : ResF tb a (execBusFrameHandover c hslot bytes s) := by
  unfold execBusFrameHandover
  repeat' first
    | with_reducible assumption
    | with_reducible apply busFrameHandover_follows
    | with_reducible apply clocked_follows
    | with_reducible exact ResF.fault
    | with_reducible apply ResF.next
    | (split)

theorem streamAgeExpire_follows {tb : Bool} {a : State} (i : Fin 4096) (s : State) (h : Follows tb a s) :
    Follows tb a (streamAgeExpire i s) := by
  unfold streamAgeExpire
  repeat' first
    | with_reducible assumption
    | with_reducible apply State.setStream_follows
    | (lift_lets; intro x; clear_value x)
    | (split)

theorem execStreamAgeExpire_follows {tb : Bool} {a : State} (i : Fin 4096) (s : State) (h : Follows tb a s) :
    ResF tb a (execStreamAgeExpire i s) := by
  unfold execStreamAgeExpire
  repeat' first
    | with_reducible assumption
    | with_reducible apply streamAgeExpire_follows
    | with_reducible apply clocked_follows
    | with_reducible apply ResF.next

theorem frerResetExpire_follows {tb : Bool} {a : State} (i : Fin 4096) (s : State) (h : Follows tb a s) :
    Follows tb a (frerResetExpire i s) := by
  unfold frerResetExpire
  repeat' first
    | with_reducible assumption
    | with_reducible apply State.setStream_follows
    | (lift_lets; intro x; clear_value x)
    | (split)

theorem execFrerResetExpire_follows {tb : Bool} {a : State} (i : Fin 4096) (s : State) (h : Follows tb a s) :
    ResF tb a (execFrerResetExpire i s) := by
  unfold execFrerResetExpire
  repeat' first
    | with_reducible assumption
    | with_reducible apply frerResetExpire_follows
    | with_reducible apply clocked_follows
    | with_reducible apply ResF.next

theorem execEgressGrant_follows {tb : Bool} {a : State} (c : PortCode) (s : State) (h : Follows tb a s) :
    ResF tb a (execEgressGrant c s) := by
  unfold execEgressGrant
  repeat' first
    | with_reducible assumption
    | with_reducible apply State.startRemotes_follows
    | with_reducible apply egressGrant_follows
    | with_reducible apply clocked_follows
    | with_reducible exact ResF.fault
    | with_reducible apply ResF.next
    | (intro x (hx : Follows tb a x))
    | (split)

theorem txEnds_follows {tb : Bool} {a : State} (c : PortCode) (e : TxEnd) (s : State) (h : Follows tb a s) :
    Follows tb a (txEnds c e s) := by
  unfold txEnds
  repeat' first
    | with_reducible assumption
    | with_reducible apply State.zdaDelayed_follows
    | with_reducible apply gptpSent_follows
    | with_reducible apply State.startRemotes_follows
    | with_reducible apply egressTxComplete_follows
    | (intro x; refine Follows.cut (tb := tb) (a := a) (x := x) ?_ (fun _ => ?_); on_goal 2 => clear_value x)
    | (lift_lets; intro x; clear_value x)
    | (intro)
    | (split)
    | (dsimp +zetaDelta -zeta only)

/-! ### Retire -/

theorem State.endPour_follows {tb : Bool} {a : State} (s : State) (x : Pour) (status : Byte) (result : ℕ) (h : Follows tb a s) :
    Follows tb a (State.endPour s x status result) := by
  unfold State.endPour
  repeat' first
    | with_reducible apply State.complete_follows
    | (lift_lets; intro x; clear_value x)
    | (with_reducible apply Follows.same; with_reducible assumption)

theorem State.abortNaming_follows {tb : Bool} {a : State} (s : State) (c : ℕ) (h : Follows tb a s) :
    Follows tb a (State.abortNaming s c) := by
  unfold State.abortNaming
  repeat' first
    | with_reducible assumption
    | with_reducible apply State.endPour_follows
    | with_reducible apply Follows.foldl
    | (intro x y (hx : Follows tb a x))

theorem State.setRetired_follows {tb : Bool} {a : State} (s : State) (c : ℕ) (h : Follows tb a s) :
    Follows tb a (State.setRetired s c) := by
  unfold State.setRetired
  repeat' first
    | with_reducible assumption
    | with_reducible apply State.setBt_follows
    | (split)

theorem State.retirePort_follows {tb : Bool} {a : State} (s : State) (c : ℕ) (h : Follows tb a s) :
    Follows tb a (State.retirePort s c) := by
  unfold State.retirePort
  repeat' first
    | with_reducible assumption
    | with_reducible apply State.setRetired_follows
    | with_reducible apply State.abortNaming_follows
    | with_reducible apply State.abortRx_follows
    | with_reducible apply State.startRemotes_follows
    | with_reducible apply State.portGone_follows
    | with_reducible apply State.setLin_follows
    | with_reducible apply State.setFault_follows
    | with_reducible apply State.report_follows
    | with_reducible apply State.setFd_follows
    | with_reducible apply Follows.foldl
    | (intro x y (hx : Follows tb a x))
    | (intro x; refine Follows.cut (tb := tb) (a := a) (x := x) ?_ (fun _ => ?_); on_goal 2 => clear_value x)
    | (lift_lets; intro x; refine Follows.cut (tb := tb) (a := a) (x := x) ?_ (fun _ => ?_); on_goal 2 => clear_value x)
    | (split)
    | (dsimp +zetaDelta -zeta only)

/-! ### Nodes -/

theorem nodeWriteBody_follows {tb : Bool} {a : State} (p : Part) (d : CmdDesc) (x2 : State) (h : Follows tb a x2) :
    AnsF tb a (nodeWriteBody p d x2) := by
  unfold nodeWriteBody
  repeat' first
    | with_reducible assumption
    | with_reducible apply stagePort_follows
    | with_reducible apply onTarget_follows

theorem execNodeWrite_follows {tb : Bool} {a : State} (p : Part) (d : CmdDesc) (s : State) (h : Follows tb a s) :
    ResF tb a (execNodeWrite p d s) := by
  unfold execNodeWrite
  repeat' first
    | with_reducible assumption
    | with_reducible apply nodeWriteBody_follows
    | with_reducible apply runCommand_follows
    | with_reducible apply ResF.next

theorem nodeEraseBody_follows {tb : Bool} {a : State} (p : Part) (d : CmdDesc) (x2 : State) (h : Follows tb a x2) :
    AnsF tb a (nodeEraseBody p d x2) := by
  unfold nodeEraseBody
  repeat' first
    | with_reducible assumption
    | with_reducible apply stageItem_follows
    | with_reducible apply onTarget_follows
    | (intro x (hx : Follows tb a x))

theorem execNodeErase_follows {tb : Bool} {a : State} (p : Part) (d : CmdDesc) (s : State) (h : Follows tb a s) :
    ResF tb a (execNodeErase p d s) := by
  unfold execNodeErase
  repeat' first
    | with_reducible assumption
    | with_reducible apply nodeEraseBody_follows
    | with_reducible apply runCommand_follows
    | with_reducible apply ResF.next

theorem nodeReadBody_follows {tb : Bool} {a : State} (p : Part) (d : CmdDesc) (x2 : State) (h : Follows tb a x2) :
    AnsF tb a (nodeReadBody p d x2) := by
  unfold nodeReadBody
  repeat' first
    | with_reducible assumption
    | with_reducible apply onTarget_follows
    | with_reducible apply withOutput_follows
    | with_reducible apply fail_follows
    | (intro x (hx : Follows tb a x))
    | (lift_lets; intro x; clear_value x)
    | (split)
    | (with_reducible apply PairF.out; with_reducible apply drawNat_follows)

theorem execNodeRead_follows {tb : Bool} {a : State} (p : Part) (d : CmdDesc) (s : State) (h : Follows tb a s) :
    ResF tb a (execNodeRead p d s) := by
  unfold execNodeRead
  repeat' first
    | with_reducible assumption
    | with_reducible apply nodeReadBody_follows
    | with_reducible apply runCommand_follows
    | with_reducible apply ResF.next

theorem State.releaseNode_follows {tb : Bool} {a : State} (s : State) (i : ℕ) (h : Follows tb a s) :
    Follows tb a (State.releaseNode s i) := by
  unfold State.releaseNode
  repeat' first
    | with_reducible assumption
    | with_reducible apply State.setNode_follows
    | with_reducible apply State.setBt_follows
    | with_reducible apply Follows.foldl
    | (intro x y (hx : Follows tb a x))
    | (lift_lets; intro x; refine Follows.cut (tb := tb) (a := a) (x := x) ?_ (fun _ => ?_); on_goal 2 => clear_value x)
    | (intro)
    | (split)
    | (with_reducible apply Follows.same; with_reducible assumption)

theorem nodeReleaseBody_follows {tb : Bool} {a : State} (p : Part) (d : CmdDesc) (x2 : State) (h : Follows tb a x2) :
    AnsF tb a (nodeReleaseBody p d x2) := by
  unfold nodeReleaseBody
  repeat' first
    | with_reducible assumption
    | with_reducible apply State.releaseNode_follows
    | with_reducible apply onTarget_follows
    | with_reducible apply fail_follows
    | (intro x (hx : Follows tb a x))
    | (split)
    | with_reducible apply AnsF.intro

theorem execNodeRelease_follows {tb : Bool} {a : State} (p : Part) (d : CmdDesc) (s : State) (h : Follows tb a s) :
    ResF tb a (execNodeRelease p d s) := by
  unfold execNodeRelease
  repeat' first
    | with_reducible assumption
    | with_reducible apply nodeReleaseBody_follows
    | with_reducible apply runCommand_follows
    | with_reducible apply ResF.next

theorem nodeHoldBody_follows {tb : Bool} {a : State} (p : Part) (d : CmdDesc) (x2 : State) (h : Follows tb a x2) :
    AnsF tb a (nodeHoldBody p d x2) := by
  unfold nodeHoldBody
  repeat' first
    | with_reducible assumption
    | with_reducible apply State.holdNode_follows
    | with_reducible apply onTarget_follows
    | with_reducible apply fail_follows
    | (intro x (hx : Follows tb a x))
    | (split)
    | with_reducible apply AnsF.intro

theorem execNodeHold_follows {tb : Bool} {a : State} (p : Part) (d : CmdDesc) (s : State) (h : Follows tb a s) :
    ResF tb a (execNodeHold p d s) := by
  unfold execNodeHold
  repeat' first
    | with_reducible assumption
    | with_reducible apply nodeHoldBody_follows
    | with_reducible apply runCommand_follows
    | with_reducible apply ResF.next

theorem nodeHoldExpire_follows {tb : Bool} {a : State} (i : Fin 262144) (s : State) (h : Follows tb a s) :
    Follows tb a (nodeHoldExpire i s) := by
  unfold nodeHoldExpire
  repeat' first
    | with_reducible assumption
    | with_reducible apply State.releaseNode_follows
    | (split)

theorem execNodeHoldExpire_follows {tb : Bool} {a : State} (i : Fin 262144) (s : State) (h : Follows tb a s) :
    ResF tb a (execNodeHoldExpire i s) := by
  unfold execNodeHoldExpire
  repeat' first
    | with_reducible assumption
    | with_reducible apply nodeHoldExpire_follows
    | with_reducible apply clocked_follows
    | with_reducible apply ResF.next

theorem partGrantBody_follows {tb : Bool} {a : State} (p : Part) (d : CmdDesc) (s : State) (h : Follows tb a s) :
    AnsF tb a (partGrantBody p d s) := by
  unfold partGrantBody
  repeat' first
    | with_reducible assumption
    | with_reducible apply stageItem_follows

theorem execPartGrant_follows {tb : Bool} {a : State} (p : Part) (d : CmdDesc) (s : State) (h : Follows tb a s) :
    ResF tb a (execPartGrant p d s) := by
  unfold execPartGrant
  repeat' first
    | with_reducible assumption
    | with_reducible apply partGrantBody_follows
    | with_reducible apply runCommand_follows
    | with_reducible apply ResF.next

theorem partReadBody_follows {tb : Bool} {a : State} (p : Part) (d : CmdDesc) (s : State) (h : Follows tb a s) :
    AnsF tb a (partReadBody p d s) := by
  unfold partReadBody
  repeat' first
    | with_reducible assumption
    | with_reducible apply withOutput_follows
    | with_reducible apply fail_follows
    | (lift_lets; intro x; clear_value x)
    | (split)

theorem execPartRead_follows {tb : Bool} {a : State} (p : Part) (d : CmdDesc) (s : State) (h : Follows tb a s) :
    ResF tb a (execPartRead p d s) := by
  unfold execPartRead
  repeat' first
    | with_reducible assumption
    | with_reducible apply partReadBody_follows
    | with_reducible apply runCommand_follows
    | with_reducible apply ResF.next

theorem partFreezeBody_follows {tb : Bool} {a : State} (d : CmdDesc) (s : State) (h : Follows tb a s) :
    AnsF tb a (partFreezeBody d s) := by
  unfold partFreezeBody
  repeat' first
    | with_reducible assumption
    | with_reducible apply fail_follows
    | with_reducible apply State.violate_follows
    | (split)
    | with_reducible apply AnsF.intro

theorem execPartFreeze_follows {tb : Bool} {a : State} (p : Part) (d : CmdDesc) (s : State) (h : Follows tb a s) :
    ResF tb a (execPartFreeze p d s) := by
  unfold execPartFreeze
  repeat' first
    | with_reducible assumption
    | with_reducible apply partFreezeBody_follows
    | with_reducible apply runCommand_follows
    | with_reducible apply ResF.next

/-! ### Apply -/

theorem State.mergeReg_follows {tb : Bool} {a : State} (s : State) (k : ℕ) (v : W32) (h : Follows tb a s) :
    Follows tb a (State.mergeReg s k v) := by
  unfold State.mergeReg
  repeat' first
    | with_reducible assumption
    | with_reducible apply State.setKey_follows

theorem Built.route_follows {a : State} (b : Built) (x : Item) (e : BitVec 256) (h : Follows false a b.s) (hb_ : BltF false a b) :
    BltF false a (Built.route b x e) := by
  unfold Built.route
  repeat' first
    | with_reducible assumption
    | (lift_lets; intro x; refine Follows.cut (tb := false) (a := a) (x := x) ?_ (fun _ => ?_); on_goal 2 => clear_value x)
    | (intro)
    | (split)
    | (with_reducible apply Follows.newTab; with_reducible assumption)
    | with_reducible apply BltF.intro

theorem State.setNodes_follows {tb : Bool} {a : State} (s : State) (m : List (ℕ × Option Node)) (h : Follows tb a s) :
    Follows tb a (State.setNodes s m) := by
  unfold State.setNodes
  repeat' first
    | (lift_lets; intro x; have : Tables := x; clear this)
    | (lift_lets; intro x; clear_value x)
    | (with_reducible apply Follows.sameTab; with_reducible assumption)

theorem State.followMoves_follows {tb : Bool} {a : State} (s : State) (old : List (ℕ × Option Node)) (h : Follows tb a s) :
    Follows tb a (State.followMoves s old) := by
  unfold State.followMoves
  repeat' first
    | (lift_lets; intro x; clear_value x)
    | (intro)
    | (with_reducible apply Follows.same; with_reducible assumption)

theorem Built.node_follows {tb : Bool} {a : State} (b : Built) (x : Item) (flags : Byte) (e : Node) (h : Follows tb a b.s) (hb_ :
    BltF tb a b) : BltF tb a (Built.node b x flags e) := by
  unfold Built.node
  repeat' first
    | with_reducible assumption
    | with_reducible apply State.followMoves_follows
    | with_reducible apply State.setNodes_follows
    | (lift_lets; intro x; refine Follows.cut (tb := tb) (a := a) (x := x) ?_ (fun _ => ?_); on_goal 2 => clear_value x)
    | (intro)
    | (split)
    | (with_reducible apply Follows.same; with_reducible assumption)
    | with_reducible apply BltF.intro

theorem Built.pinAt_follows {tb : Bool} {a : State} (b : Built) (i : ℕ) (owner : Part) (identity : BitVec 128) (prof : Byte) (h :
    Follows tb a b.s) (hb_ : BltF tb a b) : BltF tb a (Built.pinAt b i owner identity prof) := by
  unfold Built.pinAt
  repeat' first
    | with_reducible assumption
    | with_reducible apply State.setStream_follows
    | (lift_lets; intro x; clear_value x)
    | with_reducible apply BltF.intro

theorem Built.pin_follows {tb : Bool} {a : State} (b : Built) (x : Item) (owner : Part) (identity : BitVec 128) (prof : Byte) (h :
    Follows tb a b.s) (hb_ : BltF tb a b) : BltF tb a (Built.pin b x owner identity prof) := by
  unfold Built.pin
  repeat' first
    | with_reducible assumption
    | with_reducible apply Built.pinAt_follows
    | with_reducible apply State.setStream_follows
    | (split)
    | with_reducible apply BltF.intro

theorem State.dropMaterial_follows {tb : Bool} {a : State} (s : State) (i : ℕ) (h : Follows tb a s) :
    Follows tb a (State.dropMaterial s i) := by
  unfold State.dropMaterial
  repeat' first
    | with_reducible assumption
    | (lift_lets; intro x; clear_value x)
    | (intro)
    | (split)
    | (with_reducible apply Follows.same; with_reducible assumption)

theorem State.putKey_follows {a : State} (s : State) (i : ℕ) (k : KeySlot) (h : Follows false a s) :
    Follows false a (State.putKey s i k) := by
  unfold State.putKey
  repeat' first
    | with_reducible assumption
    | (intro x; refine Follows.cut (tb := false) (a := a) (x := x) ?_ (fun _ => ?_); on_goal 2 => clear_value x)
    | (lift_lets; intro x; have : Tables := x; clear this)
    | (lift_lets; intro x; clear_value x)
    | (intro)
    | (split)
    | (with_reducible apply Follows.same; with_reducible assumption)
    | (with_reducible apply Follows.newTab; with_reducible assumption)

theorem State.writeKey_follows {a : State} (s : State) (i : ℕ) (fresh : Bool) (k : KeySlot) (h : Follows false a s) :
    Follows false a (State.writeKey s i fresh k) := by
  unfold State.writeKey
  repeat' first
    | with_reducible assumption
    | with_reducible apply State.putKey_follows
    | with_reducible apply State.dropMaterial_follows
    | with_reducible apply State.setSa_follows
    | (lift_lets; intro x; clear_value x)
    | (split)

theorem State.eraseKey_follows {a : State} (s : State) (i : ℕ) (h : Follows false a s) :
    Follows false a (State.eraseKey s i) := by
  unfold State.eraseKey
  repeat' first
    | with_reducible assumption
    | with_reducible apply State.putKey_follows
    | with_reducible apply State.dropMaterial_follows
    | with_reducible apply State.setSa_follows

theorem State.takeKeygen_follows {a : State} (s : State) (p : Part) (h : Follows false a s) :
    Follows false a (State.takeKeygen s p) := by
  unfold State.takeKeygen
  repeat' first
    | with_reducible assumption
    | with_reducible apply State.putKey_follows
    | with_reducible apply State.dropMaterial_follows
    | with_reducible apply Follows.foldl
    | (intro x y (hx : Follows false a x))
    | (intro x; refine Follows.cut (tb := false) (a := a) (x := x) ?_ (fun _ => ?_); on_goal 2 => clear_value x)
    | (lift_lets; intro x; clear_value x)
    | (intro)
    | (split)
    | (with_reducible apply Follows.same; with_reducible assumption)

theorem State.writeGate_follows {tb : Bool} {a : State} (s : State) (n : ℕ) (t : Timetable) (h : Follows tb a s) :
    Follows tb a (State.writeGate s n t) := by
  unfold State.writeGate
  repeat' first
    | (lift_lets; intro x; clear_value x)
    | (intro)
    | (split)
    | (with_reducible apply Follows.same; with_reducible assumption)
    | (with_reducible apply Follows.sameTab; with_reducible assumption)

theorem applyItem_follows {a : State} (g : State) (b : Built) (y : Staged) (h : Follows false a g) (h1 : Follows false a b.s)
    (hb_ : BltF false a b) : BltF false a (applyItem g b y) := by
  unfold applyItem
  repeat' first
    | with_reducible assumption
    | with_reducible apply State.writeGate_follows
    | with_reducible apply State.eraseKey_follows
    | with_reducible apply State.writeKey_follows
    | with_reducible apply Built.pin_follows
    | with_reducible apply Built.node_follows
    | with_reducible apply State.setNodes_follows
    | with_reducible apply Built.route_follows
    | with_reducible apply State.mergeReg_follows
    | with_reducible apply State.setStream_follows
    | (lift_lets; intro x; refine Follows.cut (tb := false) (a := a) (x := x) ?_ (fun _ => ?_); on_goal 2 => clear_value x)
    | (intro)
    | (split)
    | (with_reducible apply Follows.newTab; with_reducible assumption)
    | with_reducible apply BltF.intro

theorem buildTables_follows {a : State} (g s : State) (seed : Nat) (items : List Staged) (kept : List Nat) (h : Follows false a g)
    (h1 : Follows false a s) : BltF false a (buildTables g s seed items kept) :=
  BltF.foldl (fun _ _ k => applyItem_follows _ _ _ h k.out k) _ _ ⟨h1⟩

theorem State.purge_follows {a : State} (s : State) (r : Revoke) (h : Follows false a s) : Follows false a (State.purge s r) := by
  unfold State.purge
  repeat' first
    | with_reducible assumption
    | with_reducible apply State.writeGate_follows
    | with_reducible apply State.eraseKey_follows
    | with_reducible apply State.setNodes_follows
    | with_reducible apply State.setBt_follows
    | with_reducible apply State.modRgp_follows
    | with_reducible apply Follows.foldl
    | (intro x y (hx : Follows false a x))
    | (intro x; refine Follows.cut (tb := false) (a := a) (x := x) ?_ (fun _ => ?_); on_goal 2 => clear_value x)
    | (lift_lets; intro x; have : Tables := x; clear this)
    | (lift_lets; intro x; clear_value x)
    | (intro)
    | (split)
    | (with_reducible apply Follows.newTab; with_reducible assumption)
    | (dsimp +zetaDelta -zeta only)

theorem State.purged_follows {a : State} (s : State) (t : State) (h : Follows false a s) (h1 : Follows false a t) :
    Follows false a (State.purged s t) := by
  unfold State.purged
  repeat' first
    | with_reducible assumption
    | with_reducible apply State.purge_follows
    | with_reducible apply Follows.foldl
    | (intro x y (hx : Follows false a x))
    | (split)

/-! ### Tunnel -/

theorem State.takeTrailer_follows {tb : Bool} {a : State} (s : State) (i : ℕ) (h : Follows tb a s) :
    PairF tb a (State.takeTrailer s i) := by
  unfold State.takeTrailer
  repeat' first
    | with_reducible assumption
    | with_reducible apply State.setEprof_follows
    | (lift_lets; intro x; clear_value x)
    | with_reducible apply PairF.intro

theorem State.pduBytes_follows {tb : Bool} {a : State} (s : State) (t : Tprof) (seq : Byte) (stampX : W64) (eprof : ℕ) (msgs :
    List Byte) (h : Follows tb a s) : PairF tb a (State.pduBytes s t seq stampX eprof msgs) := by
  unfold State.pduBytes
  repeat' first
    | with_reducible assumption
    | with_reducible apply State.takeTrailer_follows
    | (lift_lets; intro x; clear_value x)
    | (split)
    | (refine PairF.elim (by with_reducible assumption) ?_)
    | with_reducible apply PairF.intro

theorem State.engineFrame_follows {tb : Bool} {a : State} (s : State) (d : FrameDesc) (stampX : W64) (hslot : BitVec 128) (bytes :
    List Byte) (vid : ℕ) (owner : Part) (epoch : W64) (h : Follows tb a s) : PairF tb a (State.engineFrame s d stampX hslot bytes vid owner epoch) := by
  unfold State.engineFrame
  repeat' first
    | with_reducible assumption
    | with_reducible apply State.admitFrame_follows
    | with_reducible apply State.bufferField_follows
    | with_reducible apply State.pickBanks_follows
    | (lift_lets; intro x; clear_value x)
    | (intro)
    | (split)
    | (refine PairF.elim (by with_reducible assumption) ?_)
    | (with_reducible apply Follows.same; (refine PairF.elim (by with_reducible assumption) ?_))
    | with_reducible apply PairF.intro

theorem State.closePdu_follows {tb : Bool} {a : State} (s : State) (prof : ℕ) (h : Follows tb a s) :
    Follows tb a (State.closePdu s prof) := by
  unfold State.closePdu
  repeat' first
    | with_reducible assumption
    | with_reducible apply State.sendPlanned_follows
    | with_reducible apply State.finishBranch_follows
    | with_reducible apply State.countWide_follows
    | with_reducible apply Follows.foldl
    | (intro x; refine Follows.cut (tb := tb) (a := a) (x := x) ?_ (fun _ => ?_); on_goal 2 => clear_value x)
    | (lift_lets; intro x; clear_value x)
    | (intro)
    | (split)
    | (with_reducible apply PairF.out; first | (with_reducible apply State.engineFrame_follows) | (with_reducible apply State.pduBytes_follows))
    | (with_reducible apply Follows.same; with_reducible assumption)

theorem State.appendMessage_follows {tb : Bool} {a : State} (s : State) (prof : ℕ) (t : Tprof) (f : Frame) (m : List Byte) (h :
    Follows tb a s) : Follows tb a (State.appendMessage s prof t f m) := by
  unfold State.appendMessage
  repeat' first
    | with_reducible assumption
    | with_reducible apply State.closePdu_follows
    | with_reducible apply State.countWide_follows
    | (intro x; refine Follows.cut (tb := tb) (a := a) (x := x) ?_ (fun _ => ?_); on_goal 2 => clear_value x)
    | (lift_lets; intro x; clear_value x)
    | (intro)
    | (split)
    | (with_reducible apply Follows.same; with_reducible assumption)
    | (dsimp +zetaDelta -zeta only)

theorem State.wrapCopy_follows {tb : Bool} {a : State} (s : State) (f : Frame) (h : Follows tb a s) :
    Follows tb a (State.wrapCopy s f) := by
  unfold State.wrapCopy
  repeat' first
    | with_reducible assumption
    | with_reducible apply State.appendMessage_follows
    | with_reducible apply State.dropCopy_follows
    | with_reducible apply State.settleFrame_follows
    | (lift_lets; intro x; clear_value x)
    | (split)

theorem State.deliver_follows {tb : Bool} {a : State} (s : State) (f : Frame) (x : Carried) (c : ℕ) (h : Follows tb a s) :
    Follows tb a (State.deliver s f x c) := by
  unfold State.deliver
  repeat' first
    | with_reducible assumption
    | with_reducible apply State.admitCopy_follows
    | with_reducible apply State.finishBranch_follows
    | with_reducible apply State.countDrop_follows
    | with_reducible apply State.countWide_follows
    | (lift_lets; intro x; clear_value x)
    | (intro)
    | (split)
    | (with_reducible apply PairF.out; with_reducible apply State.engineFrame_follows)

theorem State.unwrapMessages_follows {tb : Bool} {a : State} (t : Tprof) (f : Frame) (bad : Bool) (x3 : List Acf) (x4 : State) (h :
    Follows tb a x4) : Follows tb a (State.unwrapMessages t f bad x3 x4) := by
  induction x3 generalizing x4 with
  | nil =>
    unfold State.unwrapMessages
    repeat' first
      | with_reducible assumption
      | with_reducible apply State.countDrop_follows
      | (split)
  | cons y l ih =>
    unfold State.unwrapMessages
    repeat' first
      | with_reducible assumption
      | with_reducible apply ih
      | with_reducible apply State.countDrop_follows
      | with_reducible apply drawNat_follows
      | with_reducible apply State.deliver_follows
      | (lift_lets; intro x; clear_value x)
      | (split)
      | (refine PairF.elim (by with_reducible assumption) ?_)
      | with_reducible apply PairF.intro

theorem State.checkSeq_follows {tb : Bool} {a : State} (s : State) (prof : ℕ) (seq : Byte) (h : Follows tb a s) :
    Follows tb a (State.checkSeq s prof seq) := by
  unfold State.checkSeq
  repeat' first
    | with_reducible assumption
    | with_reducible apply State.countWide_follows
    | (lift_lets; intro x; refine Follows.cut (tb := tb) (a := a) (x := x) ?_ (fun _ => ?_); on_goal 2 => clear_value x)
    | (intro)
    | (split)
    | (with_reducible apply Follows.same; with_reducible assumption)
    | (dsimp +zetaDelta -zeta only)

theorem State.unwrapCopy_follows {tb : Bool} {a : State} (s : State) (f : Frame) (h : Follows tb a s) :
    Follows tb a (State.unwrapCopy s f) := by
  unfold State.unwrapCopy
  repeat' first
    | with_reducible assumption
    | with_reducible apply State.checkSeq_follows
    | with_reducible apply State.unwrapMessages_follows
    | with_reducible apply State.dropCopy_follows
    | with_reducible apply State.settleFrame_follows
    | with_reducible apply State.countWide_follows
    | (lift_lets; intro x; clear_value x)
    | (split)

theorem tunnelGrant_follows {tb : Bool} {a : State} (s : State) (h : Follows tb a s) : Follows tb a (tunnelGrant s) := by
  unfold tunnelGrant
  repeat' first
    | with_reducible assumption
    | with_reducible apply State.unwrapCopy_follows
    | with_reducible apply State.wrapCopy_follows
    | with_reducible apply State.granted_follows
    | (extract_lets +onlyGivenNames x; refine Follows.cut (tb := tb) (a := a) (x := x) ?_ (fun _ => ?_); on_goal 2 => clear_value x)
    | (extract_lets +onlyGivenNames x; clear_value x)
    | (split)
    | (with_reducible apply Follows.same; with_reducible assumption)

theorem execTunnelGrant_follows {tb : Bool} {a : State} (s : State) (h : Follows tb a s) : ResF tb a (execTunnelGrant s) := by
  unfold execTunnelGrant
  repeat' first
    | with_reducible assumption
    | with_reducible apply tunnelGrant_follows
    | with_reducible apply clocked_follows
    | with_reducible apply ResF.next

theorem aggHoldExpire_follows {tb : Bool} {a : State} (prof : Fin 1024) (s : State) (h : Follows tb a s) :
    Follows tb a (aggHoldExpire prof s) := by
  unfold aggHoldExpire
  repeat' first
    | with_reducible assumption
    | with_reducible apply State.closePdu_follows

theorem execAggHoldExpire_follows {tb : Bool} {a : State} (prof : Fin 1024) (s : State) (h : Follows tb a s) :
    ResF tb a (execAggHoldExpire prof s) := by
  unfold execAggHoldExpire
  repeat' first
    | with_reducible assumption
    | with_reducible apply aggHoldExpire_follows
    | with_reducible apply clocked_follows
    | with_reducible apply ResF.next

theorem State.cryptoEnds_follows {tb : Bool} {a : State} (s : State) (w : CryptoWork) (h : Follows tb a s) :
    Follows tb a (State.cryptoEnds s w) := by
  unfold State.cryptoEnds
  repeat' first
    | with_reducible assumption
    | with_reducible apply State.runOrder_follows
    | with_reducible apply State.complete_follows
    | (split)

theorem cryptoGrant_follows {tb : Bool} {a : State} (s : State) (h : Follows tb a s) : Follows tb a (cryptoGrant s) := by
  unfold cryptoGrant
  repeat' first
    | with_reducible assumption
    | with_reducible apply State.cryptoEnds_follows
    | with_reducible apply State.granted_follows
    | (lift_lets; intro x; refine Follows.cut (tb := tb) (a := a) (x := x) ?_ (fun _ => ?_); on_goal 2 => clear_value x)
    | (intro)
    | (split)
    | (with_reducible apply Follows.same; with_reducible assumption)

theorem execCryptoGrant_follows {tb : Bool} {a : State} (s : State) (h : Follows tb a s) : ResF tb a (execCryptoGrant s) := by
  unfold execCryptoGrant
  repeat' first
    | with_reducible assumption
    | with_reducible apply cryptoGrant_follows
    | with_reducible apply clocked_follows
    | with_reducible apply ResF.next

/-! ### Links -/

theorem State.countRetrain_follows {tb : Bool} {a : State} (s : State) (n : EPort) (h : Follows tb a s) :
    Follows tb a (State.countRetrain s n) := by
  unfold State.countRetrain
  repeat' first
    | with_reducible assumption
    | with_reducible apply State.retirePort_follows
    | with_reducible apply State.countFault_follows
    | with_reducible apply State.report_follows
    | with_reducible apply State.setFd_follows
    | (intro x; refine Follows.cut (tb := tb) (a := a) (x := x) ?_ (fun _ => ?_); on_goal 2 => clear_value x)
    | (lift_lets; intro x; refine Follows.cut (tb := tb) (a := a) (x := x) ?_ (fun _ => ?_); on_goal 2 => clear_value x)
    | (intro)
    | (split)

theorem State.retrainIfGood_follows {tb : Bool} {a : State} (s : State) (n : EPort) (h : Follows tb a s) :
    Follows tb a (State.retrainIfGood s n) := by
  unfold State.retrainIfGood
  repeat' first
    | with_reducible assumption
    | with_reducible apply State.countRetrain_follows
    | (split)

theorem State.setEthState_follows {tb : Bool} {a : State} (s : State) (n : ℕ) (v : ℕ) (h : Follows tb a s) :
    Follows tb a (State.setEthState s n v) := by
  unfold State.setEthState
  repeat' first
    | with_reducible assumption
    | with_reducible apply State.setFd_follows

theorem ethSignalDetect_follows {tb : Bool} {a : State} (n : EPort) (s : State) (h : Follows tb a s) :
    Follows tb a (ethSignalDetect n s) := by
  unfold ethSignalDetect
  repeat' first
    | with_reducible assumption
    | with_reducible apply State.setEthState_follows
    | with_reducible apply State.setBt_follows
    | (lift_lets; intro x; refine Follows.cut (tb := tb) (a := a) (x := x) ?_ (fun _ => ?_); on_goal 2 => clear_value x)
    | (split)

theorem execEthSignalDetect_follows {tb : Bool} {a : State} (n : EPort) (s : State) (h : Follows tb a s) :
    ResF tb a (execEthSignalDetect n s) := by
  unfold execEthSignalDetect
  repeat' first
    | with_reducible assumption
    | with_reducible apply ethSignalDetect_follows
    | with_reducible apply clocked_follows
    | with_reducible apply ResF.next

theorem State.startVerify_follows {tb : Bool} {a : State} (s : State) (n : EPort) (h : Follows tb a s) :
    Follows tb a (State.startVerify s n) := by
  unfold State.startVerify
  repeat' first
    | with_reducible assumption
    | with_reducible apply State.setEg_follows
    | with_reducible apply State.emit_follows
    | with_reducible apply State.setBt_follows
    | (intro x; refine Follows.cut (tb := tb) (a := a) (x := x) ?_ (fun _ => ?_); on_goal 2 => clear_value x)
    | (lift_lets; intro x; clear_value x)
    | (split)

theorem ethTrainingDone_follows {tb : Bool} {a : State} (n : EPort) (speedOk : Bool) (s : State) (h : Follows tb a s) :
    Follows tb a (ethTrainingDone n speedOk s) := by
  unfold ethTrainingDone
  repeat' first
    | with_reducible assumption
    | with_reducible apply State.startVerify_follows
    | with_reducible apply State.countRetrain_follows
    | with_reducible apply State.setLane_follows
    | with_reducible apply State.setBt_follows
    | with_reducible apply State.modRg_follows
    | (lift_lets; intro x; refine Follows.cut (tb := tb) (a := a) (x := x) ?_ (fun _ => ?_); on_goal 2 => clear_value x)
    | (split)

theorem execEthTrainingDone_follows {tb : Bool} {a : State} (n : EPort) (speedOk : Bool) (s : State) (h : Follows tb a s) :
    ResF tb a (execEthTrainingDone n speedOk s) := by
  unfold execEthTrainingDone
  repeat' first
    | with_reducible assumption
    | with_reducible apply ethTrainingDone_follows
    | with_reducible apply clocked_follows
    | with_reducible apply ResF.next

theorem ethTrainingTimeout_follows {tb : Bool} {a : State} (n : EPort) (s : State) (h : Follows tb a s) :
    Follows tb a (ethTrainingTimeout n s) := by
  unfold ethTrainingTimeout
  repeat' first
    | with_reducible assumption
    | with_reducible apply State.retrainIfGood_follows
    | with_reducible apply State.modRg_follows
    | (lift_lets; intro x; refine Follows.cut (tb := tb) (a := a) (x := x) ?_ (fun _ => ?_); on_goal 2 => clear_value x)
    | (split)

theorem execEthTrainingTimeout_follows {tb : Bool} {a : State} (n : EPort) (s : State) (h : Follows tb a s) :
    ResF tb a (execEthTrainingTimeout n s) := by
  unfold execEthTrainingTimeout
  repeat' first
    | with_reducible assumption
    | with_reducible apply ethTrainingTimeout_follows
    | with_reducible apply clocked_follows
    | with_reducible apply ResF.next

theorem downCause_follows {tb : Bool} {a : State} (c : LossCause) (s : State) (h : Follows tb a s) :
    PairF tb a (downCause c s) := by
  unfold downCause
  repeat' first
    | with_reducible assumption
    | with_reducible apply drawNat_follows
    | (split)
    | (refine PairF.elim (by with_reducible assumption) ?_)
    | with_reducible apply PairF.intro

theorem State.leaveUp_follows {tb : Bool} {a : State} (s : State) (n : EPort) (down : ℕ) (h : Follows tb a s) :
    Follows tb a (State.leaveUp s n down) := by
  unfold State.leaveUp
  repeat' first
    | with_reducible assumption
    | with_reducible apply State.abortRx_follows
    | with_reducible apply State.gptpPortDown_follows
    | with_reducible apply State.startRemotes_follows
    | with_reducible apply State.linkLoss_follows
    | with_reducible apply State.report_follows
    | with_reducible apply State.countWide_follows
    | with_reducible apply State.setBt_follows
    | with_reducible apply State.modRg_follows

theorem State.lossSeen_follows {tb : Bool} {a : State} (s : State) (n : EPort) (c : LossCause) (h : Follows tb a s) :
    Follows tb a (State.lossSeen s n c) := by
  unfold State.lossSeen
  repeat' first
    | with_reducible assumption
    | with_reducible apply State.setEthState_follows
    | with_reducible apply State.setLane_follows
    | with_reducible apply State.report_follows
    | with_reducible apply State.modRg_follows
    | (lift_lets; intro x; refine Follows.cut (tb := tb) (a := a) (x := x) ?_ (fun _ => ?_); on_goal 2 => clear_value x)
    | (intro)
    | (split)

theorem ethLinkLost_follows {tb : Bool} {a : State} (n : EPort) (c : LossCause) (s0 : State) (h : Follows tb a s0) :
    Follows tb a (ethLinkLost n c s0) := by
  unfold ethLinkLost
  repeat' first
    | with_reducible assumption
    | with_reducible apply State.lossSeen_follows
    | with_reducible apply State.leaveUp_follows
    | with_reducible apply downCause_follows
    | with_reducible apply State.retrainIfGood_follows
    | with_reducible apply State.countWide_follows
    | with_reducible apply State.modRg_follows
    | (lift_lets; intro x; refine Follows.cut (tb := tb) (a := a) (x := x) ?_ (fun _ => ?_); on_goal 2 => clear_value x)
    | (split)
    | (refine PairF.elim (by with_reducible assumption) ?_)
    | (dsimp +zetaDelta -zeta only)

theorem execEthLinkLost_follows {tb : Bool} {a : State} (n : EPort) (cause : LossCause) (s : State) (h : Follows tb a s) :
    ResF tb a (execEthLinkLost n cause s) := by
  unfold execEthLinkLost
  repeat' first
    | with_reducible assumption
    | with_reducible apply ethLinkLost_follows
    | with_reducible apply clocked_follows
    | with_reducible apply ResF.next

theorem laneRetuneDone_follows {tb : Bool} {a : State} (n : EPort) (lost : Bool) (s : State) (h : Follows tb a s) :
    Follows tb a (laneRetuneDone n lost s) := by
  unfold laneRetuneDone
  repeat' first
    | with_reducible assumption
    | with_reducible apply State.lossSeen_follows
    | with_reducible apply State.setEthState_follows
    | with_reducible apply State.setLane_follows
    | (intro x; refine Follows.cut (tb := tb) (a := a) (x := x) ?_ (fun _ => ?_); on_goal 2 => clear_value x)
    | (lift_lets; intro x; clear_value x)
    | (split)

theorem execLaneRetuneDone_follows {tb : Bool} {a : State} (n : EPort) (lost : Bool) (s : State) (h : Follows tb a s) :
    ResF tb a (execLaneRetuneDone n lost s) := by
  unfold execLaneRetuneDone
  repeat' first
    | with_reducible assumption
    | with_reducible apply laneRetuneDone_follows
    | with_reducible apply clocked_follows
    | with_reducible apply ResF.next

theorem mmVerifyTimer_follows {tb : Bool} {a : State} (n : EPort) (s : State) (h : Follows tb a s) :
    Follows tb a (mmVerifyTimer n s) := by
  unfold mmVerifyTimer
  repeat' first
    | with_reducible assumption
    | with_reducible apply State.setEg_follows
    | with_reducible apply State.emit_follows
    | (intro x; refine Follows.cut (tb := tb) (a := a) (x := x) ?_ (fun _ => ?_); on_goal 2 => clear_value x)
    | (lift_lets; intro x; clear_value x)
    | (split)

theorem execMmVerifyTimer_follows {tb : Bool} {a : State} (n : EPort) (s : State) (h : Follows tb a s) :
    ResF tb a (execMmVerifyTimer n s) := by
  unfold execMmVerifyTimer
  repeat' first
    | with_reducible assumption
    | with_reducible apply mmVerifyTimer_follows
    | with_reducible apply clocked_follows
    | with_reducible apply ResF.next

theorem t1sUpTimer_follows {tb : Bool} {a : State} (n : Fin 8) (s : State) (h : Follows tb a s) :
    Follows tb a (t1sUpTimer n s) := by
  unfold t1sUpTimer
  repeat' first
    | with_reducible assumption
    | with_reducible apply State.setFd_follows
    | (split)

theorem execT1sUpTimer_follows {tb : Bool} {a : State} (n : Fin 8) (s : State) (h : Follows tb a s) :
    ResF tb a (execT1sUpTimer n s) := by
  unfold execT1sUpTimer
  repeat' first
    | with_reducible assumption
    | with_reducible apply t1sUpTimer_follows
    | with_reducible apply clocked_follows
    | with_reducible apply ResF.next

theorem t1sBeaconReceived_follows {tb : Bool} {a : State} (n : Fin 8) (s : State) (h : Follows tb a s) :
    Follows tb a (t1sBeaconReceived n s) := by
  unfold t1sBeaconReceived
  repeat' first
    | with_reducible assumption
    | with_reducible apply State.setFd_follows
    | (split)

theorem execT1sBeaconReceived_follows {tb : Bool} {a : State} (n : Fin 8) (s : State) (h : Follows tb a s) :
    ResF tb a (execT1sBeaconReceived n s) := by
  unfold execT1sBeaconReceived
  repeat' first
    | with_reducible assumption
    | with_reducible apply t1sBeaconReceived_follows
    | with_reducible apply clocked_follows
    | with_reducible apply ResF.next

theorem t1sBeaconLoss_follows {tb : Bool} {a : State} (n : Fin 8) (s : State) (h : Follows tb a s) :
    Follows tb a (t1sBeaconLoss n s) := by
  unfold t1sBeaconLoss
  repeat' first
    | with_reducible assumption
    | with_reducible apply State.abortRx_follows
    | with_reducible apply State.linkLoss_follows
    | with_reducible apply State.count_follows
    | with_reducible apply State.setFd_follows
    | (lift_lets; intro x; refine Follows.cut (tb := tb) (a := a) (x := x) ?_ (fun _ => ?_); on_goal 2 => clear_value x)
    | (split)

theorem execT1sBeaconLoss_follows {tb : Bool} {a : State} (n : Fin 8) (s : State) (h : Follows tb a s) :
    ResF tb a (execT1sBeaconLoss n s) := by
  unfold execT1sBeaconLoss
  repeat' first
    | with_reducible assumption
    | with_reducible apply t1sBeaconLoss_follows
    | with_reducible apply clocked_follows
    | with_reducible apply ResF.next

theorem State.setMdioQ_follows {tb : Bool} {a : State} (s : State) (m : ℕ) (l : List MdioReq) (h : Follows tb a s) :
    Follows tb a (State.setMdioQ s m l) := by
  unfold State.setMdioQ
  repeat' first
    | (lift_lets; intro x; clear_value x)
    | (with_reducible apply Follows.same; with_reducible assumption)

theorem State.mdioShow_follows {tb : Bool} {a : State} (s : State) (m : ℕ) (x : MdioReq) (h : Follows tb a s) :
    Follows tb a (State.mdioShow s m x) := by
  unfold State.mdioShow
  repeat' first
    | with_reducible assumption
    | with_reducible apply State.emit_follows

theorem State.mdioAdd_follows {tb : Bool} {a : State} (s : State) (m : ℕ) (x : MdioReq) (h : Follows tb a s) :
    Follows tb a (State.mdioAdd s m x) := by
  unfold State.mdioAdd
  repeat' first
    | with_reducible assumption
    | with_reducible apply State.mdioShow_follows
    | with_reducible apply State.setMdioQ_follows
    | (split)

theorem State.mdioStart_follows {tb : Bool} {a : State} (s : State) (master : Part) (p : Part) (m : Fin 4) (v : W32) (h :
    Follows tb a s) : Follows tb a (State.mdioStart s master p m v) := by
  unfold State.mdioStart
  repeat' first
    | with_reducible assumption
    | with_reducible apply State.mdioAdd_follows
    | with_reducible apply State.violate_follows
    | with_reducible apply State.modRgp_follows
    | (intro x; refine Follows.cut (tb := tb) (a := a) (x := x) ?_ (fun _ => ?_); on_goal 2 => clear_value x)
    | (lift_lets; intro x; refine Follows.cut (tb := tb) (a := a) (x := x) ?_ (fun _ => ?_); on_goal 2 => clear_value x)
    | (intro)
    | (split)

theorem mdioAccessStart_follows {tb : Bool} {a : State} (p : Part) (m : Fin 4) (v : W32) (s : State) (h : Follows tb a s) :
    Follows tb a (mdioAccessStart p m v s) := by
  unfold mdioAccessStart
  repeat' first
    | with_reducible assumption
    | with_reducible apply State.mdioStart_follows

theorem execMdioAccessStart_follows {tb : Bool} {a : State} (p : Part) (m : Fin 4) (v : W32) (s : State) (h : Follows tb a s) :
    ResF tb a (execMdioAccessStart p m v s) := by
  unfold execMdioAccessStart
  repeat' first
    | with_reducible assumption
    | with_reducible apply mdioAccessStart_follows
    | with_reducible apply onWrite_follows
    | with_reducible apply ResF.next

theorem State.pollRead_follows {tb : Bool} {a : State} (s : State) (n : EPort) (status : BitVec 16) (h : Follows tb a s) :
    Follows tb a (State.pollRead s n status) := by
  unfold State.pollRead
  repeat' first
    | with_reducible assumption
    | with_reducible apply ethLinkLost_follows
    | with_reducible apply State.setBt_follows
    | (lift_lets; intro x; clear_value x)
    | (split)

theorem mdioLinkPoll_follows {tb : Bool} {a : State} (n : EPort) (ms : ℕ) (s : State) (h : Follows tb a s) :
    Follows tb a (mdioLinkPoll n ms s) := by
  unfold mdioLinkPoll
  repeat' first
    | with_reducible assumption
    | with_reducible apply State.mdioAdd_follows
    | (split)

theorem execMdioLinkPoll_follows {tb : Bool} {a : State} (n : EPort) (ms : ℕ) (s : State) (h : Follows tb a s) :
    ResF tb a (execMdioLinkPoll n ms s) := by
  unfold execMdioLinkPoll
  repeat' first
    | with_reducible assumption
    | with_reducible apply mdioLinkPoll_follows
    | with_reducible apply clocked_follows
    | with_reducible apply ResF.next

theorem State.afterRetune_follows {tb : Bool} {a : State} (t : State) (s : State) (n : EPort) (h : Follows tb a t) (h1 :
    Follows tb a s) : Follows tb a (State.afterRetune t s n) := by
  unfold State.afterRetune
  repeat' first
    | with_reducible assumption
    | with_reducible apply State.retrainIfGood_follows
    | with_reducible apply State.abortRx_follows
    | with_reducible apply State.gptpPortDown_follows
    | (split)

theorem onLanes_follows {tb : Bool} {a : State} (f : State → State) (s : State) (h : Follows tb a s) (hf :
    ∀ x0_, Follows tb a x0_ → Follows tb a (f x0_)) : Follows tb a (onLanes f s) := by
  unfold onLanes
  repeat' first
    | with_reducible assumption
    | with_reducible apply hf
    | with_reducible apply State.afterRetune_follows
    | with_reducible apply Follows.foldl
    | (intro x y (hx : Follows tb a x))

theorem execFrameEnd_follows {tb : Bool} {a : State} (c : PortCode) (e : RxEnd) (s : State) (h : Follows tb a s) :
    ResF tb a (execFrameEnd c e s) := by
  unfold execFrameEnd
  repeat' first
    | with_reducible assumption
    | with_reducible apply onLanes_follows
    | with_reducible apply frameEnd_follows
    | with_reducible apply clocked_follows
    | with_reducible exact ResF.fault
    | with_reducible apply ResF.next
    | (intro x (hx : Follows tb a x))
    | (split)

theorem execEgressTxComplete_follows {tb : Bool} {a : State} (c : PortCode) (e : TxEnd) (s : State) (h : Follows tb a s) :
    ResF tb a (execEgressTxComplete c e s) := by
  unfold execEgressTxComplete
  repeat' first
    | with_reducible assumption
    | with_reducible apply onLanes_follows
    | with_reducible apply txEnds_follows
    | with_reducible apply clocked_follows
    | with_reducible exact ResF.fault
    | with_reducible apply ResF.next
    | (intro x (hx : Follows tb a x))
    | (split)

/-! ### Media -/

theorem canBusOff_follows {tb : Bool} {a : State} (n : Fin 48) (s : State) (h : Follows tb a s) :
    Follows tb a (canBusOff n s) := by
  unfold canBusOff
  repeat' first
    | with_reducible assumption
    | with_reducible apply State.startRemotes_follows
    | with_reducible apply State.linkLoss_follows
    | with_reducible apply State.count_follows
    | with_reducible apply State.setFd_follows
    | (lift_lets; intro x; refine Follows.cut (tb := tb) (a := a) (x := x) ?_ (fun _ => ?_); on_goal 2 => clear_value x)
    | (split)

theorem execCanBusOff_follows {tb : Bool} {a : State} (n : Fin 48) (s : State) (h : Follows tb a s) :
    ResF tb a (execCanBusOff n s) := by
  unfold execCanBusOff
  repeat' first
    | with_reducible assumption
    | with_reducible apply canBusOff_follows
    | with_reducible apply clocked_follows
    | with_reducible apply ResF.next

theorem canBusOffRecovered_follows {tb : Bool} {a : State} (n : Fin 48) (s : State) (h : Follows tb a s) :
    Follows tb a (canBusOffRecovered n s) := by
  unfold canBusOffRecovered
  repeat' first
    | with_reducible assumption
    | with_reducible apply State.setRg_follows
    | (split)

theorem execCanBusOffRecovered_follows {tb : Bool} {a : State} (n : Fin 48) (s : State) (h : Follows tb a s) :
    ResF tb a (execCanBusOffRecovered n s) := by
  unfold execCanBusOffRecovered
  repeat' first
    | with_reducible assumption
    | with_reducible apply canBusOffRecovered_follows
    | with_reducible apply clocked_follows
    | with_reducible apply ResF.next

theorem State.linServe_follows {tb : Bool} {a : State} (s : State) (n : ℕ) (pid : Byte) (own : Bool) (h : Follows tb a s) :
    Follows tb a (State.linServe s n pid own) := by
  unfold State.linServe
  repeat' first
    | with_reducible assumption
    | with_reducible apply State.startOther_follows
    | with_reducible apply State.settleQueue_follows
    | with_reducible apply State.setQueue_follows
    | with_reducible apply State.granted_follows
    | with_reducible apply State.setLin_follows
    | (intro x; refine Follows.cut (tb := tb) (a := a) (x := x) ?_ (fun _ => ?_); on_goal 2 => clear_value x)
    | (lift_lets; intro x; clear_value x)
    | (intro)
    | (split)

theorem State.linSend_follows {tb : Bool} {a : State} (s : State) (n : ℕ) (pid : Byte) (h : Follows tb a s) :
    Follows tb a (State.linSend s n pid) := by
  unfold State.linSend
  repeat' first
    | with_reducible assumption
    | with_reducible apply State.linServe_follows
    | with_reducible apply State.emit_follows

theorem linScheduleSlot_follows {tb : Bool} {a : State} (n : Fin 24) (s : State) (h : Follows tb a s) :
    Follows tb a (linScheduleSlot n s) := by
  unfold linScheduleSlot
  repeat' first
    | with_reducible assumption
    | with_reducible apply State.linSend_follows
    | with_reducible apply State.setLin_follows
    | (lift_lets; intro x; clear_value x)
    | (intro)
    | (split)

theorem execLinScheduleSlot_follows {tb : Bool} {a : State} (n : Fin 24) (s : State) (h : Follows tb a s) :
    ResF tb a (execLinScheduleSlot n s) := by
  unfold execLinScheduleSlot
  repeat' first
    | with_reducible assumption
    | with_reducible apply linScheduleSlot_follows
    | with_reducible apply clocked_follows
    | with_reducible apply ResF.next

theorem linHeaderReceived_follows {tb : Bool} {a : State} (n : Fin 24) (pid : Byte) (rate : ℕ) (s : State) (h : Follows tb a s) :
    Follows tb a (linHeaderReceived n pid rate s) := by
  unfold linHeaderReceived
  repeat' first
    | with_reducible assumption
    | with_reducible apply State.linServe_follows
    | with_reducible apply State.count_follows
    | (lift_lets; intro x; clear_value x)
    | (split)

theorem execLinHeaderReceived_follows {tb : Bool} {a : State} (n : Fin 24) (pid : Byte) (rate : ℕ) (s : State) (h :
    Follows tb a s) : ResF tb a (execLinHeaderReceived n pid rate s) := by
  unfold execLinHeaderReceived
  repeat' first
    | with_reducible assumption
    | with_reducible apply linHeaderReceived_follows
    | with_reducible apply clocked_follows
    | with_reducible apply ResF.next

theorem linResponseTimeout_follows {tb : Bool} {a : State} (n : Fin 24) (s : State) (h : Follows tb a s) :
    Follows tb a (linResponseTimeout n s) := by
  unfold linResponseTimeout
  repeat' first
    | with_reducible assumption
    | with_reducible apply State.setLin_follows
    | with_reducible apply State.count_follows
    | (lift_lets; intro x; clear_value x)
    | (split)

theorem execLinResponseTimeout_follows {tb : Bool} {a : State} (n : Fin 24) (s : State) (h : Follows tb a s) :
    ResF tb a (execLinResponseTimeout n s) := by
  unfold execLinResponseTimeout
  repeat' first
    | with_reducible assumption
    | with_reducible apply linResponseTimeout_follows
    | with_reducible apply clocked_follows
    | with_reducible apply ResF.next

theorem State.frSend_follows {tb : Bool} {a : State} (s : State) (c : ℕ) (b : ℕ) (cycle : ℕ) (slot : ℕ) (key : Bool) (h :
    Follows tb a s) : OptF tb a (State.frSend s c b cycle slot key) := by
  unfold State.frSend
  repeat' first
    | with_reducible assumption
    | with_reducible apply State.countUnstamped_follows
    | with_reducible apply State.beginTx_follows
    | with_reducible exact OptF.none
    | with_reducible apply OptF.some
    | (intro x; refine Follows.cut (tb := tb) (a := a) (x := x) ?_ (fun _ => ?_); on_goal 2 => clear_value x)
    | (lift_lets; intro x; clear_value x)
    | (intro)
    | (split)
    | (with_reducible apply Follows.same; with_reducible assumption)

theorem State.frTransmit_follows {tb : Bool} {a : State} (s : State) (f ch cycle slot left : ℕ) (h : Follows tb a s) :
    Follows tb a (State.frTransmit s f ch cycle slot left) := by
  have hg : ∀ (o : Option State) (d : State), OptF tb a o → Follows tb a d → Follows tb a (o.getD d) := by
    intro o d ho hd
    cases o with
    | none => exact hd
    | some u => exact ho.out u rfl
  have hf : ∀ (g : ℕ → Option State) (l : List ℕ), (∀ b, OptF tb a (g b)) → OptF tb a (l.findSome? g) := by
    intro g l hl
    induction l with
    | nil => exact OptF.none
    | cons b l ih =>
      rw [List.findSome?_cons]
      split
      · next u e => exact OptF.some ((hl b).out u e)
      · exact ih
  unfold State.frTransmit
  extract_lets c key null
  have hn : Follows tb a null := State.emit_follows _ _ h
  clear_value null
  split
  · exact hg _ _ (hf _ _ fun b => State.frSend_follows _ _ _ _ _ _ h) hn
  · split
    · exact h
    · split
      · exact h
      · refine hg _ _ (State.frSend_follows _ _ _ _ _ _ h) ?_
        split
        · exact hn
        · exact h

theorem frSlot_follows {tb : Bool} {a : State} (f : Fin 2) (chB : Bool) (cycle : BitVec 6) (slot : BitVec 11) (left : ℕ) (s :
    State) (h : Follows tb a s) : Follows tb a (frSlot f chB cycle slot left s) := by
  unfold frSlot
  repeat' first
    | with_reducible assumption
    | with_reducible apply State.frTransmit_follows
    | with_reducible apply State.emit_follows
    | with_reducible apply State.setFd_follows
    | (intro x; refine Follows.cut (tb := tb) (a := a) (x := x) ?_ (fun _ => ?_); on_goal 2 => clear_value x)
    | (lift_lets; intro x; clear_value x)
    | (intro)
    | (split)

theorem execFrSlot_follows {tb : Bool} {a : State} (f : Fin 2) (chB : Bool) (cycle : BitVec 6) (slot : SlotAt) (s : State) (h :
    Follows tb a s) : ResF tb a (execFrSlot f chB cycle slot s) := by
  unfold execFrSlot
  repeat' first
    | with_reducible assumption
    | with_reducible apply frSlot_follows
    | with_reducible apply clocked_follows
    | with_reducible apply ResF.next

theorem State.frDown_follows {tb : Bool} {a : State} (s : State) (f : ℕ) (h : Follows tb a s) :
    Follows tb a (State.frDown s f) := by
  unfold State.frDown
  repeat' first
    | with_reducible assumption
    | with_reducible apply State.linkLoss_follows

theorem frPocChange_follows {tb : Bool} {a : State} (f : Fin 2) (poc : Fin 6) (s : State) (h : Follows tb a s) :
    Follows tb a (frPocChange f poc s) := by
  unfold frPocChange
  repeat' first
    | with_reducible assumption
    | with_reducible apply State.frDown_follows
    | with_reducible apply State.startRemotes_follows
    | with_reducible apply State.count_follows
    | with_reducible apply State.setFd_follows
    | with_reducible apply Follows.foldl
    | (intro x y (hx : Follows tb a x))
    | (intro x; refine Follows.cut (tb := tb) (a := a) (x := x) ?_ (fun _ => ?_); on_goal 2 => clear_value x)
    | (lift_lets; intro x; clear_value x)
    | (intro)
    | (split)
    | (dsimp +zetaDelta -zeta only)

theorem execFrPocChange_follows {tb : Bool} {a : State} (f : Fin 2) (poc : Fin 6) (s : State) (h : Follows tb a s) :
    ResF tb a (execFrPocChange f poc s) := by
  unfold execFrPocChange
  repeat' first
    | with_reducible assumption
    | with_reducible apply frPocChange_follows
    | with_reducible apply clocked_follows
    | with_reducible apply ResF.next

theorem State.restartCtrl_follows {tb : Bool} {a : State} (s : State) (c : ℕ) (h : Follows tb a s) :
    Follows tb a (State.restartCtrl s c) := by
  unfold State.restartCtrl
  repeat' first
    | with_reducible assumption
    | with_reducible apply State.frDown_follows
    | with_reducible apply busReceiveError_follows
    | with_reducible apply State.abortRx_follows
    | with_reducible apply State.setBounds_follows
    | with_reducible apply State.txRetry_follows
    | with_reducible apply State.setLin_follows
    | with_reducible apply State.setFd_follows
    | with_reducible apply State.setRg_follows
    | (intro x; refine Follows.cut (tb := tb) (a := a) (x := x) ?_ (fun _ => ?_); on_goal 2 => clear_value x)
    | (lift_lets; intro x; refine Follows.cut (tb := tb) (a := a) (x := x) ?_ (fun _ => ?_); on_goal 2 => clear_value x)
    | (intro)
    | (split)
    | (dsimp +zetaDelta -zeta only)

theorem busCtrlFault_follows {tb : Bool} {a : State} (c : ℕ) (s : State) (h : Follows tb a s) :
    Follows tb a (busCtrlFault c s) := by
  unfold busCtrlFault
  repeat' first
    | with_reducible assumption
    | with_reducible apply State.restartCtrl_follows
    | with_reducible apply State.retirePort_follows
    | with_reducible apply State.startRemotes_follows
    | with_reducible apply State.countFault_follows
    | with_reducible apply State.report_follows
    | (intro x; refine Follows.cut (tb := tb) (a := a) (x := x) ?_ (fun _ => ?_); on_goal 2 => clear_value x)
    | (lift_lets; intro x; clear_value x)
    | (split)

theorem execBusCtrlFault_follows {tb : Bool} {a : State} (c : PortCode) (s : State) (h : Follows tb a s) :
    ResF tb a (execBusCtrlFault c s) := by
  unfold execBusCtrlFault
  repeat' first
    | with_reducible assumption
    | with_reducible apply busCtrlFault_follows
    | with_reducible apply clocked_follows
    | with_reducible exact ResF.fault
    | with_reducible apply ResF.next
    | (split)

/-! ### Turntables -/

theorem ttPhaseAtBody_follows {tb : Bool} {a : State} (p : Part) (d : CmdDesc) (s : State) (h : Follows tb a s) :
    AnsF tb a (ttPhaseAtBody p d s) := by
  unfold ttPhaseAtBody
  repeat' first
    | with_reducible assumption
    | with_reducible apply onTarget_follows
    | with_reducible apply fail_follows
    | (intro x (hx : Follows tb a x))
    | (lift_lets; intro x; clear_value x)
    | (split)
    | with_reducible apply AnsF.intro

theorem execTtPhaseAt_follows {tb : Bool} {a : State} (p : Part) (d : CmdDesc) (s : State) (h : Follows tb a s) :
    ResF tb a (execTtPhaseAt p d s) := by
  unfold execTtPhaseAt
  repeat' first
    | with_reducible assumption
    | with_reducible apply ttPhaseAtBody_follows
    | with_reducible apply runCommand_follows
    | with_reducible apply ResF.next

theorem ttNextCrossBody_follows {tb : Bool} {a : State} (p : Part) (d : CmdDesc) (s : State) (h : Follows tb a s) :
    AnsF tb a (ttNextCrossBody p d s) := by
  unfold ttNextCrossBody
  repeat' first
    | with_reducible assumption
    | with_reducible apply onTarget_follows
    | with_reducible apply fail_follows
    | (intro x (hx : Follows tb a x))
    | (split)
    | (with_reducible apply PairF.out; with_reducible apply drawNat_follows)
    | with_reducible apply AnsF.intro

theorem execTtNextCross_follows {tb : Bool} {a : State} (p : Part) (d : CmdDesc) (s : State) (h : Follows tb a s) :
    ResF tb a (execTtNextCross p d s) := by
  unfold execTtNextCross
  repeat' first
    | with_reducible assumption
    | with_reducible apply ttNextCrossBody_follows
    | with_reducible apply runCommand_follows
    | with_reducible apply ResF.next

theorem State.phaseNow_follows {tb : Bool} {a : State} (s : State) (copy : Part) (n : ℕ) (h : Follows tb a s) :
    PairF tb a (State.phaseNow s copy n) := by
  unfold State.phaseNow
  repeat' first
    | with_reducible assumption
    | with_reducible apply State.setRgp_follows
    | with_reducible apply PairF.intro

theorem ttPhaseRead_follows {tb : Bool} {a : State} (p : Part) (n : Fin 16) (s : State) (h : Follows tb a s) :
    Follows tb a (ttPhaseRead p n s) := by
  unfold ttPhaseRead
  repeat' first
    | with_reducible assumption
    | with_reducible apply answer_follows
    | (with_reducible apply PairF.out; with_reducible apply State.phaseNow_follows)

theorem execTtPhaseRead_follows {tb : Bool} {a : State} (p : Part) (n : Fin 16) (s : State) (h : Follows tb a s) :
    ResF tb a (execTtPhaseRead p n s) := by
  unfold execTtPhaseRead
  repeat' first
    | with_reducible assumption
    | with_reducible apply ttPhaseRead_follows
    | with_reducible apply onRead_follows
    | with_reducible apply ResF.next

theorem State.setTtState_follows {tb : Bool} {a : State} (s : State) (n : ℕ) (st : ℕ) (h : Follows tb a s) :
    Follows tb a (State.setTtState s n st) := by
  unfold State.setTtState
  repeat' first
    | with_reducible assumption
    | with_reducible apply State.setFd_follows

theorem State.setVel_follows {tb : Bool} {a : State} (s : State) (n : ℕ) (v : ℤ) (h : Follows tb a s) :
    Follows tb a (State.setVel s n v) := by
  unfold State.setVel
  repeat' first
    | with_reducible assumption
    | with_reducible apply State.setRg_follows

theorem State.markPours_follows {tb : Bool} {a : State} (s : State) (n : ℕ) (m : Option ℤ) (h : Follows tb a s) :
    Follows tb a (State.markPours s n m) := by
  unfold State.markPours
  repeat' first
    | (lift_lets; intro x; clear_value x)
    | (with_reducible apply Follows.same; with_reducible assumption)

theorem State.leaveTracking_follows {tb : Bool} {a : State} (s : State) (n : ℕ) (h : Follows tb a s) :
    Follows tb a (State.leaveTracking s n) := by
  unfold State.leaveTracking
  repeat' first
    | with_reducible assumption
    | with_reducible apply State.markPours_follows
    | with_reducible apply State.gatesLost_follows
    | with_reducible apply State.setTt_follows
    | with_reducible apply State.count_follows
    | with_reducible apply State.setBt_follows
    | (intro x; refine Follows.cut (tb := tb) (a := a) (x := x) ?_ (fun _ => ?_); on_goal 2 => clear_value x)
    | (lift_lets; intro x; clear_value x)
    | (split)

theorem State.enterAcquire_follows {tb : Bool} {a : State} (s : State) (n : ℕ) (h : Follows tb a s) :
    Follows tb a (State.enterAcquire s n) := by
  unfold State.enterAcquire
  repeat' first
    | with_reducible assumption
    | with_reducible apply State.leaveTracking_follows
    | with_reducible apply State.setVel_follows
    | with_reducible apply State.setTtState_follows
    | with_reducible apply State.setTt_follows

theorem State.enterTracking_follows {tb : Bool} {a : State} (s : State) (n : ℕ) (t : W64) (h : Follows tb a s) :
    Follows tb a (State.enterTracking s n t) := by
  unfold State.enterTracking
  repeat' first
    | with_reducible assumption
    | with_reducible apply State.markPours_follows
    | with_reducible apply State.setVel_follows
    | with_reducible apply State.setTtState_follows
    | with_reducible apply State.gatesResume_follows
    | with_reducible apply State.setTt_follows
    | (split)
    | (with_reducible apply PairF.out; with_reducible apply drawNat_follows)

theorem State.enterStalled_follows {tb : Bool} {a : State} (s : State) (n : ℕ) (h : Follows tb a s) :
    Follows tb a (State.enterStalled s n) := by
  unfold State.enterStalled
  repeat' first
    | with_reducible assumption
    | with_reducible apply State.leaveTracking_follows
    | with_reducible apply State.setVel_follows
    | with_reducible apply State.setTtState_follows
    | with_reducible apply State.setTt_follows
    | with_reducible apply State.count_follows
    | with_reducible apply State.setBt_follows

theorem ttStallTimeout_follows {tb : Bool} {a : State} (n : Fin 16) (s : State) (h : Follows tb a s) :
    Follows tb a (ttStallTimeout n s) := by
  unfold ttStallTimeout
  repeat' first
    | with_reducible assumption
    | with_reducible apply State.enterStalled_follows
    | (split)

theorem execTtStallTimeout_follows {tb : Bool} {a : State} (n : Fin 16) (s : State) (h : Follows tb a s) :
    ResF tb a (execTtStallTimeout n s) := by
  unfold execTtStallTimeout
  repeat' first
    | with_reducible assumption
    | with_reducible apply ttStallTimeout_follows
    | with_reducible apply clocked_follows
    | with_reducible apply ResF.next

theorem ttIndexEdge_follows {tb : Bool} {a : State} (n : Fin 16) (glitches : ℕ) (s : State) (h : Follows tb a s) :
    Follows tb a (ttIndexEdge n glitches s) := by
  unfold ttIndexEdge
  repeat' first
    | with_reducible assumption
    | with_reducible apply State.setTt_follows
    | with_reducible apply State.count_follows
    | (lift_lets; intro x; refine Follows.cut (tb := tb) (a := a) (x := x) ?_ (fun _ => ?_); on_goal 2 => clear_value x)
    | (split)
    | (with_reducible apply PairF.out; with_reducible apply stampWithin_follows)

theorem execTtIndexEdge_follows {tb : Bool} {a : State} (n : Fin 16) (glitches : ℕ) (s : State) (h : Follows tb a s) :
    ResF tb a (execTtIndexEdge n glitches s) := by
  unfold execTtIndexEdge
  repeat' first
    | with_reducible assumption
    | with_reducible apply ttIndexEdge_follows
    | with_reducible apply clocked_follows
    | with_reducible apply ResF.next

theorem State.applyIndex_follows {tb : Bool} {a : State} (s : State) (n : ℕ) (h : Follows tb a s) :
    Follows tb a (State.applyIndex s n) := by
  unfold State.applyIndex
  repeat' first
    | with_reducible assumption
    | with_reducible apply State.enterAcquire_follows
    | with_reducible apply State.setTt_follows
    | with_reducible apply State.count_follows
    | with_reducible apply State.setBt_follows
    | with_reducible apply State.setRg_follows
    | (intro x; refine Follows.cut (tb := tb) (a := a) (x := x) ?_ (fun _ => ?_); on_goal 2 => clear_value x)
    | (lift_lets; intro x; refine Follows.cut (tb := tb) (a := a) (x := x) ?_ (fun _ => ?_); on_goal 2 => clear_value x)
    | (lift_lets; intro x; clear_value x)
    | (intro)
    | (split)

theorem State.checkIndexLost_follows {tb : Bool} {a : State} (s : State) (n : ℕ) (h : Follows tb a s) :
    Follows tb a (State.checkIndexLost s n) := by
  unfold State.checkIndexLost
  repeat' first
    | with_reducible assumption
    | with_reducible apply State.count_follows
    | with_reducible apply State.setBt_follows
    | (lift_lets; intro x; clear_value x)
    | (split)

theorem State.updateLoop_follows {tb : Bool} {a : State} (s : State) (n : ℕ) (t : W64) (h : Follows tb a s) :
    Follows tb a (State.updateLoop s n t) := by
  unfold State.updateLoop
  repeat' first
    | with_reducible assumption
    | with_reducible apply State.setVel_follows
    | with_reducible apply State.setTt_follows
    | (extract_lets +onlyGivenNames x; clear_value x)
    | (extract_lets +onlyGivenNames x)
    | (split)
    | (with_reducible apply PairF.out; with_reducible apply drawNat_follows)

theorem State.carryLoop_follows {tb : Bool} {a : State} (s : State) (n : ℕ) (t : W64) (h : Follows tb a s) :
    Follows tb a (State.carryLoop s n t) := by
  unfold State.carryLoop
  repeat' first
    | with_reducible assumption
    | with_reducible apply State.setTt_follows
    | (extract_lets +onlyGivenNames x; clear_value x)
    | (split)

theorem State.loopEdge_follows {tb : Bool} {a : State} (s : State) (n : ℕ) (t : W64) (near : Bool) (h : Follows tb a s) :
    Follows tb a (State.loopEdge s n t near) := by
  unfold State.loopEdge
  repeat' first
    | with_reducible assumption
    | with_reducible apply State.carryLoop_follows
    | with_reducible apply State.updateLoop_follows
    | (split)

theorem State.countEdge_follows {tb : Bool} {a : State} (s : State) (n : ℕ) (t : W64) (k : ℕ) (down : Bool) (h : Follows tb a s) :
    Follows tb a (State.countEdge s n t k down) := by
  unfold State.countEdge
  repeat' first
    | with_reducible assumption
    | with_reducible apply State.setTt_follows
    | with_reducible apply State.count_follows
    | with_reducible apply State.setBt_follows
    | with_reducible apply State.setRg_follows

theorem State.acquireEdge_follows {tb : Bool} {a : State} (s : State) (n : ℕ) (t : W64) (turned : Bool) (h : Follows tb a s) :
    Follows tb a (State.acquireEdge s n t turned) := by
  unfold State.acquireEdge
  repeat' first
    | with_reducible assumption
    | with_reducible apply State.setTt_follows
    | (lift_lets; intro x; clear_value x)
    | (split)

theorem State.tryTrack_follows {tb : Bool} {a : State} (s : State) (n : ℕ) (t : W64) (h : Follows tb a s) :
    Follows tb a (State.tryTrack s n t) := by
  unfold State.tryTrack
  repeat' first
    | with_reducible assumption
    | with_reducible apply State.enterTracking_follows
    | (lift_lets; intro x; clear_value x)
    | (intro)
    | (split)

theorem State.trackEdge_follows {tb : Bool} {a : State} (s : State) (n : ℕ) (t : W64) (near : Bool) (h : Follows tb a s) :
    Follows tb a (State.trackEdge s n t near) := by
  have hc : ∀ k b, Follows tb a (s.countEdge n t k b) := fun k b => State.countEdge_follows _ _ _ _ _ h
  have he : ∀ u : State, Follows tb a u → ∀ x : Nat, Follows tb a (if x + 1 = 4 then u.enterAcquire n else u) := by
    intro u k x
    split
    · exact State.enterAcquire_follows _ _ k
    · exact k
  have key : ∀ (x : Turntable) (b : Bool) (e : EdgeCase), Follows tb a (if b then (s.countEdge n t 1 false).carryLoop n t
      else match e with
      | .extra =>
        let s1 := (s.count (R.ttCnt n 2)).setTt n { x with extras := x.extras + 1 }
        if x.extras + 1 = 4 then s1.enterAcquire n else s1
      | .normal => (s.countEdge n t 1 false).loopEdge n t near
      | .missing m => ((s.countEdge n t (m + 1) false).count (R.ttCnt n 3) m).loopEdge n t near
      | .tooMany m => ((s.countEdge n t (m + 1) false).count (R.ttCnt n 3) m).enterAcquire n) := by
    intro x b e
    cases b with
    | true => exact State.carryLoop_follows _ _ _ (hc _ _)
    | false =>
      cases e with
      | extra => exact he _ (State.setTt_follows _ _ _ (State.count_follows _ _ _ h)) _
      | normal => exact State.loopEdge_follows _ _ _ _ (hc _ _)
      | missing m => exact State.loopEdge_follows _ _ _ _ (State.count_follows _ _ _ (hc _ _))
      | tooMany m => exact State.enterAcquire_follows _ _ (State.count_follows _ _ _ (hc _ _))
  exact key _ _ _

theorem State.plainEdge_follows {tb : Bool} {a : State} (s : State) (n : ℕ) (t : W64) (k : ℕ) (down : Bool) (near : Bool) (h :
    Follows tb a s) : Follows tb a (State.plainEdge s n t k down near) := by
  unfold State.plainEdge
  repeat' first
    | with_reducible assumption
    | with_reducible apply State.acquireEdge_follows
    | with_reducible apply State.countEdge_follows
    | with_reducible apply State.loopEdge_follows
    | with_reducible apply State.enterAcquire_follows
    | with_reducible apply State.count_follows
    | (intro x; refine Follows.cut (tb := tb) (a := a) (x := x) ?_ (fun _ => ?_); on_goal 2 => clear_value x)
    | (lift_lets; intro x; clear_value x)
    | (split)
    | (dsimp +zetaDelta -zeta only)

theorem ttCountedEdge_follows {tb : Bool} {a : State} (n : Fin 16) (aLeads : Bool) (both : Bool) (glitches : ℕ) (r : State) (h :
    Follows tb a r) : Follows tb a (ttCountedEdge n aLeads both glitches r) := by
  unfold ttCountedEdge
  repeat' first
    | with_reducible assumption
    | with_reducible apply State.plainEdge_follows
    | with_reducible apply State.trackEdge_follows
    | with_reducible apply State.tryTrack_follows
    | with_reducible apply State.checkIndexLost_follows
    | with_reducible apply State.applyIndex_follows
    | with_reducible apply State.setTtState_follows
    | with_reducible apply State.setTt_follows
    | with_reducible apply State.count_follows
    | (intro x; refine Follows.cut (tb := tb) (a := a) (x := x) ?_ (fun _ => ?_); on_goal 2 => clear_value x)
    | (lift_lets; intro x; refine Follows.cut (tb := tb) (a := a) (x := x) ?_ (fun _ => ?_); on_goal 2 => clear_value x)
    | (lift_lets; intro x; clear_value x)
    | (intro)
    | (split)
    | (with_reducible apply PairF.out; with_reducible apply stampWithin_follows)
    | (dsimp -zeta only)
    | (dsimp +zetaDelta -zeta only)

theorem execTtCountedEdge_follows {tb : Bool} {a : State} (n : Fin 16) (aLeads : Bool) (both : Bool) (glitches : ℕ) (s : State)
    (h : Follows tb a s) : ResF tb a (execTtCountedEdge n aLeads both glitches s) := by
  unfold execTtCountedEdge
  repeat' first
    | with_reducible assumption
    | with_reducible apply ttCountedEdge_follows
    | with_reducible apply clocked_follows
    | with_reducible apply ResF.next

theorem State.driveTrg_follows {tb : Bool} {a : State} (s : State) (m : ℕ) (active : Bool) (h : Follows tb a s) :
    Follows tb a (State.driveTrg s m active) := by
  unfold State.driveTrg
  repeat' first
    | with_reducible assumption
    | with_reducible apply State.emit_follows
    | (lift_lets; intro x; clear_value x)
    | (with_reducible apply Follows.same; with_reducible apply State.setBt_follows)

theorem State.firePulse_follows {tb : Bool} {a : State} (s : State) (m : ℕ) (h : Follows tb a s) :
    Follows tb a (State.firePulse s m) := by
  unfold State.firePulse
  repeat' first
    | with_reducible assumption
    | with_reducible apply State.driveTrg_follows
    | with_reducible apply State.setTrg_follows
    | with_reducible apply State.count_follows

theorem State.issuePulse_follows {tb : Bool} {a : State} (s : State) (m : ℕ) (h : Follows tb a s) :
    Follows tb a (State.issuePulse s m) := by
  unfold State.issuePulse
  repeat' first
    | with_reducible assumption
    | with_reducible apply State.firePulse_follows
    | with_reducible apply State.setBt_follows
    | (split)

theorem triggerActiveEdge_follows {tb : Bool} {a : State} (m : Fin 32) (s : State) (h : Follows tb a s) :
    Follows tb a (triggerActiveEdge m s) := by
  unfold triggerActiveEdge
  repeat' first
    | with_reducible assumption
    | with_reducible apply State.issuePulse_follows
    | with_reducible apply State.setTrg_follows
    | with_reducible apply State.count_follows
    | with_reducible apply State.setBt_follows
    | (lift_lets; intro x; clear_value x)
    | (intro)
    | (split)
    | (with_reducible apply PairF.out; with_reducible apply drawNat_follows)

theorem execTriggerActiveEdge_follows {tb : Bool} {a : State} (m : Fin 32) (s : State) (h : Follows tb a s) :
    ResF tb a (execTriggerActiveEdge m s) := by
  unfold execTriggerActiveEdge
  repeat' first
    | with_reducible assumption
    | with_reducible apply triggerActiveEdge_follows
    | with_reducible apply clocked_follows
    | with_reducible apply ResF.next

theorem timeTrigger_follows {tb : Bool} {a : State} (m : Fin 32) (s : State) (h : Follows tb a s) :
    Follows tb a (timeTrigger m s) := by
  unfold timeTrigger
  extract_lets k
  split
  · exact State.issuePulse_follows _ _ (State.setTrg_follows _ _ _ h)
  · exact h

theorem execTimeTrigger_follows {tb : Bool} {a : State} (m : Fin 32) (s : State) (h : Follows tb a s) :
    ResF tb a (execTimeTrigger m s) := by
  unfold execTimeTrigger
  repeat' first
    | with_reducible assumption
    | with_reducible apply timeTrigger_follows
    | with_reducible apply clocked_follows
    | with_reducible apply ResF.next

theorem triggerInactiveEdge_follows {tb : Bool} {a : State} (m : Fin 32) (s : State) (h : Follows tb a s) :
    Follows tb a (triggerInactiveEdge m s) := by
  unfold triggerInactiveEdge
  repeat' first
    | with_reducible assumption
    | with_reducible apply State.driveTrg_follows
    | (split)

theorem execTriggerInactiveEdge_follows {tb : Bool} {a : State} (m : Fin 32) (s : State) (h : Follows tb a s) :
    ResF tb a (execTriggerInactiveEdge m s) := by
  unfold execTriggerInactiveEdge
  repeat' first
    | with_reducible assumption
    | with_reducible apply triggerInactiveEdge_follows
    | with_reducible apply clocked_follows
    | with_reducible apply ResF.next

end Sys2Proof.Machine
end

