-- ==== Sys2Proof/Laws/FollowsManage.lean ====
section
/-! SUPPORT. What every effect keeps, one lemma per function: the log, units, pours and images. -/

set_option linter.all false

namespace Sys2Proof.Machine

/-! ### Log -/

theorem State.tellPm_follows {tb : Bool} {a : State} (s : State) (e : LogEntry) (h : Follows tb a s) :
    Follows tb a (State.tellPm s e) := by
  unfold State.tellPm
  repeat' first
    | with_reducible assumption
    | with_reducible apply State.setBt_follows
    | (lift_lets; intro x; refine Follows.cut (tb := tb) (a := a) (x := x) ?_ (fun _ => ?_); on_goal 2 => clear_value x)
    | (intro)
    | (split)
    | (with_reducible apply Follows.same; with_reducible assumption)

theorem State.writeEntry_follows {tb : Bool} {a : State} (s : State) (r : LogEntry) (h : Follows tb a s) :
    Follows tb a (State.writeEntry s r) := by
  unfold State.writeEntry
  repeat' first
    | with_reducible assumption
    | with_reducible apply State.count_follows
    | with_reducible apply State.setFd_follows
    | with_reducible apply State.modRg_follows
    | (lift_lets; intro x; clear_value x)
    | (split)
    | (with_reducible apply Follows.same; first | (with_reducible assumption) | (with_reducible apply State.setBt_follows))

theorem errorLogWrite_follows {tb : Bool} {a : State} (block : Fin 14) (s : State) (h : Follows tb a s) :
    Follows tb a (errorLogWrite block s) := by
  unfold errorLogWrite
  repeat' first
    | with_reducible assumption
    | with_reducible apply State.writeEntry_follows
    | with_reducible apply State.tellPm_follows
    | (lift_lets; intro x; clear_value x)
    | (split)
    | (with_reducible apply Follows.same; with_reducible assumption)
    | (dsimp -zeta only)

theorem execErrorLogWrite_follows {tb : Bool} {a : State} (block : Fin 14) (s : State) (h : Follows tb a s) :
    ResF tb a (execErrorLogWrite block s) := by
  unfold execErrorLogWrite
  repeat' first
    | with_reducible assumption
    | with_reducible apply errorLogWrite_follows
    | with_reducible apply clocked_follows
    | with_reducible apply ResF.next

theorem errReadBody_follows {tb : Bool} {a : State} (p : Part) (d : CmdDesc) (s : State) (h : Follows tb a s) :
    AnsF tb a (errReadBody p d s) := by
  unfold errReadBody
  repeat' first
    | with_reducible assumption
    | with_reducible apply withOutput_follows
    | with_reducible apply fail_follows
    | (lift_lets; intro x; clear_value x)
    | (intro)
    | (split)

theorem execErrRead_follows {tb : Bool} {a : State} (p : Part) (d : CmdDesc) (s : State) (h : Follows tb a s) :
    ResF tb a (execErrRead p d s) := by
  unfold execErrRead
  repeat' first
    | with_reducible assumption
    | with_reducible apply errReadBody_follows
    | with_reducible apply runCommand_follows
    | with_reducible apply ResF.next

theorem execNop_follows {tb : Bool} {a : State} (p : Part) (d : CmdDesc) (s : State) (h : Follows tb a s) :
    ResF tb a (execNop p d s) := by
  unfold execNop
  repeat' first
    | with_reducible assumption
    | with_reducible apply runCommand_follows
    | with_reducible apply ResF.next
    | (intro x (hx : Follows tb a x))
    | with_reducible apply AnsF.intro

theorem State.chkEnter_follows {tb : Bool} {a : State} (s : State) (h : Follows tb a s) : Follows tb a (State.chkEnter s) := by
  unfold State.chkEnter
  repeat' first
    | with_reducible assumption
    | with_reducible apply State.setBt_follows
    | (lift_lets; intro x; clear_value x)
    | (intro)
    | (split)
    | (with_reducible apply Follows.sameMem; with_reducible assumption)

theorem State.chkLeave_follows {tb : Bool} {a : State} (s : State) (was : Bool) (h : Follows tb a s) :
    Follows tb a (State.chkLeave s was) := by
  unfold State.chkLeave
  repeat' first
    | with_reducible assumption
    | with_reducible apply State.setBt_follows

theorem selfTestBody_follows {tb : Bool} {a : State} (d : CmdDesc) (s : State) (h : Follows tb a s) :
    AnsF tb a (selfTestBody d s) := by
  unfold selfTestBody
  repeat' first
    | with_reducible assumption
    | with_reducible apply State.chkLeave_follows
    | with_reducible apply State.chkEnter_follows
    | with_reducible apply fail_follows
    | with_reducible apply drawNat_follows
    | (split)
    | (refine PairF.elim (by with_reducible assumption) ?_)
    | with_reducible apply AnsF.intro

theorem execSelfTest_follows {tb : Bool} {a : State} (p : Part) (d : CmdDesc) (s : State) (h : Follows tb a s) :
    ResF tb a (execSelfTest p d s) := by
  unfold execSelfTest
  repeat' first
    | with_reducible assumption
    | with_reducible apply selfTestBody_follows
    | with_reducible apply runCommand_follows
    | with_reducible apply ResF.next

/-! ### Units -/

theorem State.endStarted_follows {tb : Bool} {a : State} (s : State) (c : ℕ) (id : ℕ) (h : Follows tb a s) :
    Follows tb a (State.endStarted s c id) := by
  unfold State.endStarted
  repeat' first
    | with_reducible assumption
    | with_reducible apply State.stompPort_follows
    | with_reducible apply State.txAbort_follows
    | (split)

theorem State.dropWork_follows {tb : Bool} {a : State} (s : State) (id : ℕ) (h : Follows tb a s) :
    Follows tb a (State.dropWork s id) := by
  unfold State.dropWork
  repeat' first
    | (lift_lets; intro x; clear_value x)
    | (with_reducible apply Follows.same; with_reducible assumption)

theorem State.closeWrite_follows {tb : Bool} {a : State} (s : State) (q : ℕ) (h : Follows tb a s) :
    Follows tb a (State.closeWrite s q) := by
  unfold State.closeWrite
  repeat' first
    | with_reducible assumption
    | with_reducible apply State.pump_follows
    | with_reducible apply State.capLost_follows
    | with_reducible apply State.setCapq_follows

theorem State.closeWriting_follows {tb : Bool} {a : State} (s : State) (id : ℕ) (h : Follows tb a s) :
    Follows tb a (State.closeWriting s id) := by
  unfold State.closeWriting
  repeat' first
    | with_reducible assumption
    | with_reducible apply State.closeWrite_follows
    | with_reducible apply Follows.foldl

theorem State.loseFrame_follows {tb : Bool} {a : State} (s : State) (f : Frame) (h : Follows tb a s) :
    Follows tb a (State.loseFrame s f) := by
  unfold State.loseFrame
  repeat' first
    | with_reducible assumption
    | with_reducible apply State.closeWriting_follows
    | with_reducible apply State.dropWork_follows
    | with_reducible apply State.endStarted_follows
    | with_reducible apply State.pullNext_follows
    | with_reducible apply State.pullCommit_follows
    | with_reducible apply State.pullPort_follows
    | with_reducible apply State.setRx_follows
    | with_reducible apply State.runOrder_follows
    | with_reducible apply State.freeFrame_follows
    | with_reducible apply State.countWide_follows
    | with_reducible apply Follows.foldl
    | (intro x y (hx : Follows tb a x))
    | (lift_lets; intro x; clear_value x)
    | (intro)
    | (split)
    | (with_reducible apply Follows.same; with_reducible apply State.pullCaptures_follows)

theorem State.loseBank_follows {tb : Bool} {a : State} (s : State) (b : Fin 16) (h : Follows tb a s) :
    Follows tb a (State.loseBank s b) := by
  unfold State.loseBank
  repeat' first
    | with_reducible assumption
    | with_reducible apply State.loseFrame_follows
    | with_reducible apply Follows.foldl

theorem State.retireBank_follows {tb : Bool} {a : State} (s : State) (b : Fin 16) (h : Follows tb a s) :
    Follows tb a (State.retireBank s b) := by
  unfold State.retireBank
  repeat' first
    | with_reducible assumption
    | with_reducible apply State.loseBank_follows
    | with_reducible apply State.setFault_follows
    | with_reducible apply State.report_follows
    | with_reducible apply State.setBt_follows
    | (split)

theorem State.retireParser_follows {tb : Bool} {a : State} (s : State) (n : ℕ) (h : Follows tb a s) :
    Follows tb a (State.retireParser s n) := by
  unfold State.retireParser
  repeat' first
    | with_reducible assumption
    | with_reducible apply State.setFault_follows
    | with_reducible apply State.report_follows
    | with_reducible apply State.setBt_follows
    | (split)

theorem State.retireLadle_follows {tb : Bool} {a : State} (s : State) (n : ℕ) (h : Follows tb a s) :
    Follows tb a (State.retireLadle s n) := by
  unfold State.retireLadle
  repeat' first
    | with_reducible assumption
    | with_reducible apply State.setFault_follows
    | with_reducible apply State.report_follows
    | with_reducible apply State.setBt_follows
    | (split)

theorem State.enableSlices_follows {tb : Bool} {a : State} (s : State) (h : Follows tb a s) :
    Follows tb a (State.enableSlices s) := by
  unfold State.enableSlices
  repeat' first
    | with_reducible assumption
    | with_reducible apply State.setFd_follows

theorem State.retireSlice_follows {tb : Bool} {a : State} (s : State) (n : ℕ) (h : Follows tb a s) :
    Follows tb a (State.retireSlice s n) := by
  unfold State.retireSlice
  repeat' first
    | with_reducible assumption
    | with_reducible apply State.enableSlices_follows
    | with_reducible apply State.setFault_follows
    | with_reducible apply State.report_follows
    | with_reducible apply State.setBt_follows
    | (split)

theorem State.moveSegment_follows {tb : Bool} {a : State} (s : State) (mem : ℕ) (seg : ℕ) (h : Follows tb a s) :
    Follows tb a (State.moveSegment s mem seg) := by
  unfold State.moveSegment
  repeat' first
    | with_reducible assumption
    | with_reducible apply State.setFault_follows
    | with_reducible apply State.report_follows
    | with_reducible apply State.setFd_follows
    | (lift_lets; intro x; refine Follows.cut (tb := tb) (a := a) (x := x) ?_ (fun _ => ?_); on_goal 2 => clear_value x)
    | (intro)
    | (split)
    | (with_reducible apply Follows.same; with_reducible assumption)

theorem State.moveSome_follows {tb : Bool} {a : State} (s : State) (mem : ℕ) (h : Follows tb a s) :
    Follows tb a (State.moveSome s mem) := by
  unfold State.moveSome
  repeat' first
    | with_reducible assumption
    | with_reducible apply State.moveSegment_follows
    | (with_reducible apply PairF.out; with_reducible apply drawNat_follows)

theorem State.closeRecord_follows {tb : Bool} {a : State} (s : State) (lane : ℕ) (h : Follows tb a s) :
    Follows tb a (State.closeRecord s lane) := by
  unfold State.closeRecord
  repeat' first
    | with_reducible assumption
    | with_reducible apply State.closeWrite_follows
    | (split)

theorem State.cellFrame_follows {tb : Bool} {a : State} (s : State) (index : BitVec 19) (h : Follows tb a s) :
    PairF tb a (State.cellFrame s index) := by
  unfold State.cellFrame
  repeat' first
    | with_reducible assumption
    | with_reducible apply drawNat_follows
    | (lift_lets; intro x; clear_value x)
    | (split)
    | (refine PairF.elim (by with_reducible assumption) ?_)
    | with_reducible apply PairF.intro

theorem State.cellFault_follows {tb : Bool} {a : State} (s : State) (index : BitVec 19) (h : Follows tb a s) :
    Follows tb a (State.cellFault s index) := by
  unfold State.cellFault
  repeat' first
    | with_reducible assumption
    | with_reducible apply State.cellFrame_follows
    | with_reducible apply State.retireBank_follows
    | with_reducible apply State.loseFrame_follows
    | with_reducible apply State.countFault_follows
    | with_reducible apply State.report_follows
    | (lift_lets; intro x)
    | (intro)
    | (split)
    | (refine PairF.elim (by with_reducible assumption) ?_)
    | (dsimp +zetaDelta -zeta only)

theorem State.nodeFault_follows {tb : Bool} {a : State} (s : State) (i : ℕ) (both : Bool) (h : Follows tb a s) :
    Follows tb a (State.nodeFault s i both) := by
  unfold State.nodeFault
  repeat' first
    | with_reducible assumption
    | with_reducible apply State.moveSome_follows
    | with_reducible apply State.setNode_follows
    | (split)

theorem State.keyFault_follows {tb : Bool} {a : State} (s : State) (i : ℕ) (h : Follows tb a s) :
    Follows tb a (State.keyFault s i) := by
  unfold State.keyFault
  repeat' first
    | with_reducible apply State.report_follows
    | (lift_lets; intro x; clear_value x)
    | (with_reducible apply Follows.same; with_reducible assumption)

theorem State.dropLane_follows {tb : Bool} {a : State} (s : State) (n : ℕ) (h : Follows tb a s) :
    Follows tb a (State.dropLane s n) := by
  unfold State.dropLane
  repeat' first
    | with_reducible assumption
    | with_reducible apply State.dropWork_follows
    | with_reducible apply State.dropEarly_follows
    | with_reducible apply State.runOrder_follows
    | with_reducible apply Follows.foldl
    | (intro x y (hx : Follows tb a x))

theorem State.restartCounter_follows {tb : Bool} {a : State} (s : State) (o : ℕ) (h : Follows tb a s) :
    Follows tb a (State.restartCounter s o) := by
  unfold State.restartCounter
  repeat' first
    | with_reducible assumption
    | with_reducible apply State.report_follows
    | with_reducible apply State.setWide_follows
    | with_reducible apply State.setRg_follows
    | (lift_lets; intro x; refine Follows.cut (tb := tb) (a := a) (x := x) ?_ (fun _ => ?_); on_goal 2 => clear_value x)
    | (split)
    | (dsimp +zetaDelta -zeta only)

theorem State.abortCommit_follows {tb : Bool} {a : State} (s : State) (n : ℕ) (code : ℕ) (h : Follows tb a s) :
    Follows tb a (State.abortCommit s n code) := by
  unfold State.abortCommit
  repeat' first
    | with_reducible assumption
    | with_reducible apply State.txAbort_follows
    | with_reducible apply State.endCopy_follows
    | with_reducible apply State.setEg_follows
    | with_reducible apply State.emit_follows
    | with_reducible apply State.count_follows
    | (intro x; refine Follows.cut (tb := tb) (a := a) (x := x) ?_ (fun _ => ?_); on_goal 2 => clear_value x)
    | (lift_lets; intro x; clear_value x)
    | (split)

theorem State.abortIn_follows {tb : Bool} {a : State} (s : State) (slice : ℕ) (h : Follows tb a s) :
    Follows tb a (State.abortIn s slice) := by
  unfold State.abortIn
  repeat' first
    | with_reducible assumption
    | with_reducible apply State.abortCommit_follows
    | with_reducible apply Follows.foldl
    | (intro x y (hx : Follows tb a x))

theorem State.sliceFault_follows {tb : Bool} {a : State} (s : State) (n : ℕ) (pass : Bool) (h : Follows tb a s) :
    Follows tb a (State.sliceFault s n pass) := by
  unfold State.sliceFault
  repeat' first
    | with_reducible assumption
    | with_reducible apply State.abortIn_follows
    | with_reducible apply State.retireSlice_follows
    | with_reducible apply State.report_follows
    | with_reducible apply State.count_follows
    | (lift_lets; intro x; refine Follows.cut (tb := tb) (a := a) (x := x) ?_ (fun _ => ?_); on_goal 2 => clear_value x)
    | (split)

theorem datapathUnitFault_follows {tb : Bool} {a : State} (u : DpUnit) (pass : Bool) (s : State) (h : Follows tb a s) :
    Follows tb a (datapathUnitFault u pass s) := by
  unfold datapathUnitFault
  repeat' first
    | with_reducible assumption
    | with_reducible apply State.sliceFault_follows
    | with_reducible apply State.restartCounter_follows
    | with_reducible apply State.dropLane_follows
    | with_reducible apply State.keyFault_follows
    | with_reducible apply State.nodeFault_follows
    | with_reducible apply State.cellFault_follows
    | with_reducible apply State.closeRecord_follows
    | with_reducible apply State.moveSome_follows
    | with_reducible apply State.moveSegment_follows
    | with_reducible apply State.retireSlice_follows
    | with_reducible apply State.retireLadle_follows
    | with_reducible apply State.retireParser_follows
    | with_reducible apply State.retireBank_follows
    | with_reducible apply State.loseBank_follows
    | with_reducible apply State.report_follows
    | with_reducible apply State.count_follows
    | (lift_lets; intro x; refine Follows.cut (tb := tb) (a := a) (x := x) ?_ (fun _ => ?_); on_goal 2 => clear_value x)
    | (split)

theorem execDatapathUnitFault_follows {tb : Bool} {a : State} (u : DpUnit) (retestPass : Bool) (s : State) (h : Follows tb a s) :
    ResF tb a (execDatapathUnitFault u retestPass s) := by
  unfold execDatapathUnitFault
  repeat' first
    | with_reducible assumption
    | with_reducible apply datapathUnitFault_follows
    | with_reducible apply onLanes_follows
    | with_reducible apply clocked_follows
    | with_reducible apply ResF.next
    | (intro x (hx : Follows tb a x))

theorem State.sliceWork_follows {tb : Bool} {a : State} (s : State) (w : SliceWork) (h : Follows tb a s) :
    Follows tb a (State.sliceWork s w) := by
  unfold State.sliceWork
  repeat' first
    | with_reducible assumption
    | with_reducible apply State.abortCommit_follows
    | with_reducible apply State.dropWork_follows
    | with_reducible apply State.startRemotes_follows
    | with_reducible apply State.runOrder_follows
    | with_reducible apply State.txAbort_follows
    | with_reducible apply State.modFrame_follows
    | (lift_lets; intro x; clear_value x)
    | (split)
    | (with_reducible apply Follows.same; with_reducible assumption)

theorem sliceControlFault_follows {tb : Bool} {a : State} (k : Fin 8) (w : SliceWork) (s : State) (h : Follows tb a s) :
    Follows tb a (sliceControlFault k w s) := by
  unfold sliceControlFault
  repeat' first
    | with_reducible assumption
    | with_reducible apply State.sliceWork_follows
    | with_reducible apply State.retireSlice_follows
    | with_reducible apply State.countFault_follows
    | with_reducible apply State.report_follows
    | (lift_lets; intro x; refine Follows.cut (tb := tb) (a := a) (x := x) ?_ (fun _ => ?_); on_goal 2 => clear_value x)
    | (split)

theorem execSliceControlFault_follows {tb : Bool} {a : State} (k : Fin 8) (w : SliceWork) (s : State) (h : Follows tb a s) :
    ResF tb a (execSliceControlFault k w s) := by
  unfold execSliceControlFault
  repeat' first
    | with_reducible assumption
    | with_reducible apply sliceControlFault_follows
    | with_reducible apply onLanes_follows
    | with_reducible apply clocked_follows
    | with_reducible apply ResF.next
    | (intro x (hx : Follows tb a x))

theorem State.showTest_follows {tb : Bool} {a : State} (s : State) (h : Follows tb a s) : Follows tb a (State.showTest s) := by
  unfold State.showTest
  repeat' first
    | with_reducible assumption
    | with_reducible apply State.modRg_follows

theorem State.rotateTest_follows {tb : Bool} {a : State} (s : State) (kind : ℕ) (h : Follows tb a s) :
    Follows tb a (State.rotateTest s kind) := by
  unfold State.rotateTest
  repeat' first
    | (lift_lets; intro x; clear_value x)
    | (intro)
    | (with_reducible apply Follows.same; with_reducible assumption)

theorem State.retireTested_follows {tb : Bool} {a : State} (s : State) (kind : ℕ) (h : Follows tb a s) :
    Follows tb a (State.retireTested s kind) := by
  unfold State.retireTested
  repeat' first
    | with_reducible assumption
    | with_reducible apply State.moveSome_follows
    | with_reducible apply State.retireSlice_follows
    | with_reducible apply State.retireParser_follows
    | with_reducible apply State.retireBank_follows
    | (lift_lets; intro x; clear_value x)
    | (intro)
    | (split)
    | (with_reducible apply PairF.out; with_reducible apply drawNat_follows)

theorem State.testKind_follows {tb : Bool} {a : State} (s : State) (kind : ℕ) (failed : Bool) (h : Follows tb a s) :
    Follows tb a (State.testKind s kind failed) := by
  unfold State.testKind
  repeat' first
    | with_reducible assumption
    | with_reducible apply State.retireTested_follows
    | with_reducible apply State.rotateTest_follows
    | with_reducible apply State.report_follows
    | with_reducible apply State.count_follows
    | (intro x; refine Follows.cut (tb := tb) (a := a) (x := x) ?_ (fun _ => ?_); on_goal 2 => clear_value x)
    | (lift_lets; intro x; clear_value x)
    | (intro)
    | (split)
    | (with_reducible apply Follows.same; with_reducible assumption)
    | (dsimp +zetaDelta -zeta only)

theorem selfTestStep_follows {tb : Bool} {a : State} (f0 : Bool) (f1 : Bool) (f2 : Bool) (f3 : Bool) (s : State) (h :
    Follows tb a s) : Follows tb a (selfTestStep f0 f1 f2 f3 s) := by
  unfold selfTestStep
  repeat' first
    | with_reducible assumption
    | with_reducible apply State.testKind_follows
    | with_reducible apply State.showTest_follows
    | (split)

theorem execSelfTestStep_follows {tb : Bool} {a : State} (failSlice : Bool) (failParser : Bool) (failBank : Bool) (failSegment :
    Bool) (s : State) (h : Follows tb a s) : ResF tb a (execSelfTestStep failSlice failParser failBank failSegment s) := by
  unfold execSelfTestStep
  repeat' first
    | with_reducible assumption
    | with_reducible apply selfTestStep_follows
    | with_reducible apply onLanes_follows
    | with_reducible apply clocked_follows
    | with_reducible apply ResF.next
    | (intro x (hx : Follows tb a x))

theorem lpddrChannelFault_follows {tb : Bool} {a : State} (c : Fin 4) (s : State) (h : Follows tb a s) :
    Follows tb a (lpddrChannelFault c s) := by
  unfold lpddrChannelFault
  repeat' first
    | with_reducible assumption
    | (lift_lets; intro x; clear_value x)
    | (split)
    | (with_reducible apply Follows.same; with_reducible assumption)

theorem execLpddrChannelFault_follows {tb : Bool} {a : State} (c : Fin 4) (s : State) (h : Follows tb a s) :
    ResF tb a (execLpddrChannelFault c s) := by
  unfold execLpddrChannelFault
  repeat' first
    | with_reducible assumption
    | with_reducible apply lpddrChannelFault_follows
    | with_reducible apply clocked_follows
    | with_reducible apply ResF.next

theorem lpddrRetrainDone_follows {tb : Bool} {a : State} (c : Fin 4) (ok : Bool) (s : State) (h : Follows tb a s) :
    Follows tb a (lpddrRetrainDone c ok s) := by
  unfold lpddrRetrainDone
  repeat' first
    | with_reducible assumption
    | with_reducible apply State.retireChannel_follows
    | with_reducible apply State.report_follows
    | (lift_lets; intro x; clear_value x)
    | (split)
    | (with_reducible apply Follows.same; with_reducible assumption)

theorem execLpddrRetrainDone_follows {tb : Bool} {a : State} (c : Fin 4) (ok : Bool) (s : State) (h : Follows tb a s) :
    ResF tb a (execLpddrRetrainDone c ok s) := by
  unfold execLpddrRetrainDone
  repeat' first
    | with_reducible assumption
    | with_reducible apply lpddrRetrainDone_follows
    | with_reducible apply clocked_follows
    | with_reducible apply ResF.next

theorem State.abandonLock_follows {tb : Bool} {a : State} (s : State) (n : ℕ) (h : Follows tb a s) :
    Follows tb a (State.abandonLock s n) := by
  unfold State.abandonLock
  repeat' first
    | with_reducible assumption
    | with_reducible apply State.abortCommit_follows
    | with_reducible apply State.report_follows
    | (with_reducible apply PairF.out; with_reducible apply drawNat_follows)

theorem lockedSequenceTimeout_follows {tb : Bool} {a : State} (x0 : ArbId) (s : State) (h : Follows tb a s) :
    Follows tb a (lockedSequenceTimeout x0 s) := by
  unfold lockedSequenceTimeout
  repeat' first
    | with_reducible assumption
    | with_reducible apply State.abandonLock_follows
    | with_reducible apply State.endLock_follows
    | with_reducible apply State.violate_follows
    | (split)

theorem execLockedSequenceTimeout_follows {tb : Bool} {a : State} (x0 : ArbId) (s : State) (h : Follows tb a s) :
    ResF tb a (execLockedSequenceTimeout x0 s) := by
  unfold execLockedSequenceTimeout
  repeat' first
    | with_reducible assumption
    | with_reducible apply lockedSequenceTimeout_follows
    | with_reducible apply onLanes_follows
    | with_reducible apply clocked_follows
    | with_reducible apply ResF.next
    | (intro x (hx : Follows tb a x))

/-! ### Effects -/

theorem ethPoured_follows {tb : Bool} {a : State} (s : State) (t : State) (n : EPort) (h : Follows tb a s) (h1 : Follows tb a t) :
    Follows tb a (ethPoured s t n) := by
  unfold ethPoured
  repeat' first
    | with_reducible assumption
    | with_reducible apply State.afterRetune_follows
    | with_reducible apply State.setEthState_follows
    | with_reducible apply State.finishRetune_follows
    | with_reducible apply State.portGone_follows
    | with_reducible apply State.setLane_follows
    | with_reducible apply State.setFd_follows
    | with_reducible apply State.setBt_follows
    | with_reducible apply State.modRg_follows
    | (intro x; refine Follows.cut (tb := tb) (a := a) (x := x) ?_ (fun _ => ?_); on_goal 2 => clear_value x)
    | (lift_lets; intro x; clear_value x)
    | (intro)
    | (split)
    | (dsimp +zetaDelta -zeta only)

theorem State.goneButSent_follows {tb : Bool} {a : State} (t : State) (c : ℕ) (h : Follows tb a t) :
    Follows tb a (State.goneButSent t c) := by
  unfold State.goneButSent
  repeat' first
    | with_reducible assumption
    | with_reducible apply State.portGone_follows
    | with_reducible apply State.setEg_follows

theorem t1sPoured_follows {tb : Bool} {a : State} (s : State) (t : State) (n : ℕ) (h : Follows tb a s) (h1 : Follows tb a t) :
    Follows tb a (t1sPoured s t n) := by
  unfold t1sPoured
  repeat' first
    | with_reducible assumption
    | with_reducible apply State.goneButSent_follows
    | with_reducible apply State.setFd_follows
    | (lift_lets; intro x; clear_value x)
    | (split)

theorem canPoured_follows {tb : Bool} {a : State} (t : State) (n : ℕ) (h : Follows tb a t) : Follows tb a (canPoured t n) := by
  unfold canPoured
  repeat' first
    | with_reducible assumption
    | with_reducible apply State.portGone_follows
    | with_reducible apply State.setRg_follows
    | (lift_lets; intro x; clear_value x)
    | (split)

theorem linPoured_follows {tb : Bool} {a : State} (s : State) (t : State) (n : ℕ) (h : Follows tb a s) (h1 : Follows tb a t) :
    Follows tb a (linPoured s t n) := by
  unfold linPoured
  repeat' first
    | with_reducible assumption
    | with_reducible apply State.portGone_follows
    | with_reducible apply State.setLin_follows
    | (split)

theorem frPoured_follows {tb : Bool} {a : State} (s : State) (t : State) (f : ℕ) (h : Follows tb a s) (h1 : Follows tb a t) :
    Follows tb a (frPoured s t f) := by
  unfold frPoured
  repeat' first
    | with_reducible assumption
    | with_reducible apply State.frDown_follows
    | with_reducible apply State.setFd_follows
    | (intro x; refine Follows.cut (tb := tb) (a := a) (x := x) ?_ (fun _ => ?_); on_goal 2 => clear_value x)
    | (lift_lets; intro x; clear_value x)
    | (split)

theorem domPoured_follows {tb : Bool} {a : State} (s : State) (t : State) (x : ℕ) (h : Follows tb a s) (h1 : Follows tb a t) :
    Follows tb a (domPoured s t x) := by
  unfold domPoured
  repeat' first
    | with_reducible assumption
    | with_reducible apply State.chooseSlave_follows
    | with_reducible apply State.toDom_follows
    | (split)

theorem ppsPoured_follows {tb : Bool} {a : State} (s : State) (t : State) (n : ℕ) (h : Follows tb a s) (h1 : Follows tb a t) :
    Follows tb a (ppsPoured s t n) := by
  unfold ppsPoured
  repeat' first
    | with_reducible assumption
    | with_reducible apply State.setPps_follows
    | (split)

theorem ttPoured_follows {tb : Bool} {a : State} (s : State) (t : State) (n : ℕ) (h : Follows tb a s) (h1 : Follows tb a t) :
    Follows tb a (ttPoured s t n) := by
  unfold ttPoured
  repeat' first
    | with_reducible assumption
    | with_reducible apply State.leaveTracking_follows
    | with_reducible apply State.setVel_follows
    | with_reducible apply State.setTtState_follows
    | with_reducible apply State.setTt_follows
    | (intro x; refine Follows.cut (tb := tb) (a := a) (x := x) ?_ (fun _ => ?_); on_goal 2 => clear_value x)
    | (lift_lets; intro x; clear_value x)
    | (split)

theorem trgPoured_follows {tb : Bool} {a : State} (s : State) (t : State) (m : ℕ) (h : Follows tb a s) (h1 : Follows tb a t) :
    Follows tb a (trgPoured s t m) := by
  unfold trgPoured
  repeat' first
    | with_reducible assumption
    | with_reducible apply State.setTrg_follows
    | with_reducible apply State.emit_follows
    | (intro x; refine Follows.cut (tb := tb) (a := a) (x := x) ?_ (fun _ => ?_); on_goal 2 => clear_value x)
    | (lift_lets; intro x; clear_value x)
    | (intro)
    | (split)
    | (with_reducible apply Follows.same; with_reducible assumption)
    | (dsimp +zetaDelta -zeta only)

theorem State.rejudgeHigh_follows {tb : Bool} {a : State} (t : State) (q : ℕ) (h : Follows tb a t) :
    Follows tb a (State.rejudgeHigh t q) := by
  unfold State.rejudgeHigh
  repeat' first
    | with_reducible assumption
    | with_reducible apply State.setCapq_follows

theorem capPoured_follows {tb : Bool} {a : State} (s : State) (t : State) (q : ℕ) (h : Follows tb a s) (h1 : Follows tb a t) :
    Follows tb a (capPoured s t q) := by
  unfold capPoured
  repeat' first
    | with_reducible assumption
    | with_reducible apply State.rejudgeHigh_follows
    | with_reducible apply State.stopQueue_follows
    | with_reducible apply State.discardSiding_follows
    | with_reducible apply State.setCapq_follows
    | with_reducible apply State.setRg_follows
    | (lift_lets; intro x)
    | (intro)
    | (split)

theorem State.restripe_follows {tb : Bool} {a : State} (t : State) (h : Follows tb a t) : Follows tb a (State.restripe t) := by
  unfold State.restripe
  repeat' first
    | with_reducible assumption
    | with_reducible apply State.setCapq_follows
    | with_reducible apply State.setFd_follows
    | with_reducible apply State.setBt_follows
    | with_reducible apply Follows.foldl
    | (intro x y (hx : Follows tb a x))
    | (lift_lets; intro x; refine Follows.cut (tb := tb) (a := a) (x := x) ?_ (fun _ => ?_); on_goal 2 => clear_value x)
    | (lift_lets; intro x; clear_value x)
    | (split)

theorem pinPoured_follows {tb : Bool} {a : State} (s : State) (t : State) (n : ℕ) (h : Follows tb a s) (h1 : Follows tb a t) :
    Follows tb a (pinPoured s t n) := by
  unfold pinPoured
  repeat' first
    | with_reducible assumption
    | with_reducible apply State.refreshPin_follows
    | with_reducible apply State.setBt_follows
    | (split)

theorem regPoured_follows {tb : Bool} {a : State} (s : State) (t : State) (k : ℕ) (h : Follows tb a s) (h1 : Follows tb a t) :
    Follows tb a (regPoured s t k) := by
  unfold regPoured
  repeat' first
    | with_reducible assumption
    | with_reducible apply pinPoured_follows
    | with_reducible apply capPoured_follows
    | with_reducible apply trgPoured_follows
    | with_reducible apply ttPoured_follows
    | with_reducible apply ppsPoured_follows
    | with_reducible apply domPoured_follows
    | with_reducible apply frPoured_follows
    | with_reducible apply linPoured_follows
    | with_reducible apply canPoured_follows
    | with_reducible apply t1sPoured_follows
    | with_reducible apply ethPoured_follows
    | with_reducible apply State.enableSlices_follows
    | with_reducible apply State.switchTo_follows
    | with_reducible apply State.chooseSlave_follows
    | with_reducible apply State.fixLeapDay_follows
    | with_reducible apply State.rejudge_follows
    | with_reducible apply State.cfcUpdate_follows
    | (lift_lets; intro x; clear_value x)
    | (intro)
    | (split)
    | (with_reducible apply Follows.same; with_reducible assumption)

theorem gatePoured_follows {tb : Bool} {a : State} (t : State) (n : ℕ) (h : Follows tb a t) : Follows tb a (gatePoured t n) := by
  unfold gatePoured
  repeat' first
    | with_reducible assumption
    | with_reducible apply State.gatesOff_follows
    | with_reducible apply State.setBt_follows
    | (lift_lets; intro x; refine Follows.cut (tb := tb) (a := a) (x := x) ?_ (fun _ => ?_); on_goal 2 => clear_value x)
    | (split)

theorem grantPoured_follows {tb : Bool} {a : State} (s : State) (t : State) (p : Part) (h : Follows tb a s) (h1 : Follows tb a t) :
    Follows tb a (grantPoured s t p) := by
  unfold grantPoured
  repeat' first
    | with_reducible assumption
    | with_reducible apply State.setPath_follows
    | (lift_lets; intro x; clear_value x)
    | (split)

theorem chkPoured_follows {tb : Bool} {a : State} (t : State) (h : Follows tb a t) : Follows tb a (chkPoured t) := by
  unfold chkPoured
  repeat' first
    | with_reducible assumption
    | with_reducible apply State.setFd_follows

theorem afterPour_follows {tb : Bool} {a : State} (s : State) (t : State) (items : List Staged) (h : Follows tb a s) (h1 :
    Follows tb a t) : Follows tb a (afterPour s t items) := by
  unfold afterPour
  repeat' first
    | with_reducible assumption
    | with_reducible apply chkPoured_follows
    | with_reducible apply grantPoured_follows
    | with_reducible apply gatePoured_follows
    | with_reducible apply regPoured_follows
    | with_reducible apply State.restripe_follows
    | with_reducible apply State.startRemotes_follows
    | with_reducible apply State.zeroRings_follows
    | with_reducible apply State.stopQueue_follows
    | with_reducible apply Follows.foldl
    | (intro x y (hx : Follows tb a x))
    | (lift_lets; intro x; refine Follows.cut (tb := tb) (a := a) (x := x) ?_ (fun _ => ?_); on_goal 2 => clear_value x)
    | (split)
    | (with_reducible apply PairF.out; with_reducible apply State.discardQueue_follows)
    | (dsimp +zetaDelta -zeta only)

/-! ### Pours -/

theorem mouldOpenBody_follows {tb : Bool} {a : State} (p : Part) (s : State) (h : Follows tb a s) :
    AnsF tb a (mouldOpenBody p s) := by
  unfold mouldOpenBody
  repeat' first
    | with_reducible assumption
    | with_reducible apply State.setMould_follows
    | (split)
    | with_reducible apply AnsF.intro

theorem execMouldOpen_follows {tb : Bool} {a : State} (p : Part) (d : CmdDesc) (s : State) (h : Follows tb a s) :
    ResF tb a (execMouldOpen p d s) := by
  unfold execMouldOpen
  repeat' first
    | with_reducible assumption
    | with_reducible apply mouldOpenBody_follows
    | with_reducible apply runCommand_follows
    | with_reducible apply ResF.next

theorem mouldDiscardBody_follows {tb : Bool} {a : State} (p : Part) (s : State) (h : Follows tb a s) :
    AnsF tb a (mouldDiscardBody p s) := by
  unfold mouldDiscardBody
  repeat' first
    | with_reducible assumption
    | with_reducible apply fail_follows
    | with_reducible apply State.setMould_follows
    | (split)
    | with_reducible apply AnsF.intro

theorem execMouldDiscard_follows {tb : Bool} {a : State} (p : Part) (d : CmdDesc) (s : State) (h : Follows tb a s) :
    ResF tb a (execMouldDiscard p d s) := by
  unfold execMouldDiscard
  repeat' first
    | with_reducible assumption
    | with_reducible apply mouldDiscardBody_follows
    | with_reducible apply runCommand_follows
    | with_reducible apply ResF.next

theorem execMouldStat_follows {tb : Bool} {a : State} (p : Part) (d : CmdDesc) (s : State) (h : Follows tb a s) :
    ResF tb a (execMouldStat p d s) := by
  unfold execMouldStat
  repeat' first
    | with_reducible assumption
    | with_reducible apply runCommand_follows
    | with_reducible apply ResF.next
    | (intro x (hx : Follows tb a x))
    | with_reducible apply AnsF.intro

theorem State.stageReg_follows {tb : Bool} {a : State} (s : State) (p : Part) (key : ℕ) (v : W32) (h : Follows tb a s) :
    AnsF tb a (State.stageReg s p key v) := by
  unfold State.stageReg
  repeat' first
    | with_reducible assumption
    | with_reducible apply stageItem_follows

theorem pourBody_follows {tb : Bool} {a : State} (p : Part) (d : CmdDesc) (s : State) (h : Follows tb a s) :
    ExF tb a (pourBody p d s) := by
  unfold pourBody
  repeat' first
    | with_reducible assumption
    | with_reducible apply fail_follows
    | with_reducible apply State.setMould_follows
    | with_reducible apply ExF.ok
    | with_reducible apply ExF.error
    | (lift_lets; intro x; refine Follows.cut (tb := tb) (a := a) (x := x) ?_ (fun _ => ?_); on_goal 2 => clear_value x)
    | (intro)
    | (split)
    | (with_reducible apply Follows.same; with_reducible assumption)

theorem execPour_follows {tb : Bool} {a : State} (p : Part) (d : CmdDesc) (s : State) (h : Follows tb a s) :
    ResF tb a (execPour p d s) := by
  unfold execPour
  repeat' first
    | with_reducible assumption
    | with_reducible apply pourBody_follows
    | with_reducible apply runWaiting_follows
    | with_reducible apply ResF.next

theorem State.shadow_follows {a : State} (s : State) (x : Pour) (seed : Nat) (h : Follows false a s) :
    PairF false a (State.shadow s x seed) := by
  have hk := State.takeKeygen_follows _ x.part h
  exact ⟨State.purged_follows _ _ hk (buildTables_follows _ _ _ _ _ hk hk).out⟩

theorem State.readied_follows {tb : Bool} {a : State} (s : State) (x : Pour) (b : Built) (h : Follows tb a s) :
    Follows tb a (State.readied s x b) :=
  h.same

theorem State.makeReady_follows {tb : Bool} {a : State} (s : State) (x : Pour) (h : Follows tb a s) :
    Follows tb a (State.makeReady s x) := by
  unfold State.makeReady
  dsimp only
  split
  · exact State.endPour_follows _ _ _ _ h
  · split
    · exact State.endPour_follows _ _ _ _ h
    · split
      · exact h
      · exact State.readied_follows _ _ _ h

theorem pourReady_follows {tb : Bool} {a : State} (s0 : State) (h : Follows tb a s0) : Follows tb a (pourReady s0) := by
  unfold pourReady
  repeat' first
    | with_reducible assumption
    | with_reducible apply State.makeReady_follows
    | with_reducible apply State.endPourStep_follows
    | (lift_lets; intro x; refine Follows.cut (tb := tb) (a := a) (x := x) ?_ (fun _ => ?_); on_goal 2 => clear_value x)
    | (split)

theorem execPourReady_follows {tb : Bool} {a : State} (s : State) (h : Follows tb a s) : ResF tb a (execPourReady s) := by
  unfold execPourReady
  repeat' first
    | with_reducible assumption
    | with_reducible apply pourReady_follows
    | with_reducible apply onSignalBox_follows
    | with_reducible apply ResF.next

theorem State.closeChanged_follows {tb : Bool} {a : State} (s : State) (t : State) (items : List Staged) (h : Follows tb a s) (h1 :
    Follows tb a t) : Follows tb a (State.closeChanged s t items) := by
  unfold State.closeChanged
  repeat' first
    | with_reducible assumption
    | with_reducible apply State.closePdu_follows
    | with_reducible apply Follows.foldl
    | (intro x y (hx : Follows tb a x))
    | (split)

theorem State.apply_follows {a : State} (s : State) (x : Pour) (h : Follows false a s) : Follows false a (State.apply s x) := by
  unfold State.apply
  repeat' first
    | with_reducible assumption
    | with_reducible apply State.closeChanged_follows
    | with_reducible apply afterPour_follows
    | with_reducible apply State.settleShapers_follows
    | with_reducible apply State.setWide_follows
    | (with_reducible apply PairF.out; with_reducible apply State.shadow_follows)

theorem State.pourNow_follows {a : State} (s : State) (x : Pour) (h : Follows false a s) :
    Follows false a (State.pourNow s x) := by
  unfold State.pourNow
  repeat' first
    | with_reducible assumption
    | with_reducible apply State.apply_follows
    | with_reducible apply State.endPour_follows

theorem pourBoundary_follows {a : State} (s : State) (h : Follows false a s) : Follows false a (pourBoundary s) := by
  unfold pourBoundary
  repeat' first
    | with_reducible assumption
    | with_reducible apply State.pourNow_follows
    | (split)

theorem execPourBoundary_follows {a : State} (s : State) (h : Follows false a s) : ResF false a (execPourBoundary s) := by
  unfold execPourBoundary
  repeat' first
    | with_reducible assumption
    | with_reducible apply pourBoundary_follows
    | with_reducible apply clocked_follows
    | with_reducible apply ResF.next

theorem pourTimeout_follows {tb : Bool} {a : State} (s : State) (h : Follows tb a s) : Follows tb a (pourTimeout s) := by
  unfold pourTimeout
  repeat' first
    | with_reducible assumption
    | with_reducible apply State.endPour_follows
    | (split)

theorem execPourTimeout_follows {tb : Bool} {a : State} (s : State) (h : Follows tb a s) : ResF tb a (execPourTimeout s) := by
  unfold execPourTimeout
  repeat' first
    | with_reducible assumption
    | with_reducible apply pourTimeout_follows
    | with_reducible apply clocked_follows
    | with_reducible apply ResF.next

/-! ### Image -/

theorem stageOp_follows {tb : Bool} {a : State} (n : ℕ) (o : StageOp) (e : stageOp n = some o) (p : Part) (d : CmdDesc) (s :
    State)
    (h : Follows tb a s) : AnsF tb a (o.body p d s) := by
  unfold stageOp at e
  split at e
  · cases e; exact routeAddBody_follows _ _ _ h
  · cases e; exact routeDelBody_follows _ _ _ h
  · cases e; exact tcamWriteBody_follows _ _ _ h
  · cases e; exact dsetWriteBody_follows _ _ _ h
  · cases e; exact vlanWriteBody_follows _ _ _ h
  · cases e; exact profWriteBody_follows _ _ _ h
  · cases e; exact streamPinBody_follows _ _ _ h
  · cases e; exact streamUnpinBody_follows _ _ _ h
  · cases e; exact gateWriteBody_follows _ _ _ h
  · cases e; exact keyWriteBody_follows _ _ _ h
  · cases e; exact keyEraseBody_follows _ _ _ h
  · cases e; exact nodeWriteBody_follows _ _ _ h
  · cases e; exact nodeEraseBody_follows _ _ _ h
  · cases e; exact partGrantBody_follows _ _ _ h
  · cases e; exact windowBody_follows _ _ _ h
  · cases e

theorem stageRec_follows {tb : Bool} {a : State} (s : State) (r : ImageRec) (h : Follows tb a s) : ExB tb a (stageRec s r) := by
  unfold stageRec
  split
  · split
    · exact ExB.error
    · next o e =>
      dsimp only
      split
      · exact ExB.error
      · split
        · exact ExB.ok (stageOp_follows _ o e _ _ s h).out
        · exact ExB.error
  · split
    · exact ExB.error
    · split
      · exact ExB.error
      · exact ExB.ok (State.stageReg_follows _ _ _ _ h).out

theorem stageAll_follows {tb : Bool} {a : State} (s : State) (x1 : List ImageRec) (h : Follows tb a s) :
    ExB tb a (stageAll s x1) := by
  induction x1 generalizing s with
  | nil =>
    unfold stageAll
    repeat' first
      | with_reducible assumption
      | with_reducible apply ExB.ok
  | cons y l ih =>
    unfold stageAll
    repeat' first
      | with_reducible assumption
      | with_reducible apply ih
      | with_reducible apply stageRec_follows
      | with_reducible exact ExB.error
      | (split)
      | (refine ExB.elim ?_ (by with_reducible assumption))

theorem State.openMoulds_follows {tb : Bool} {a : State} (s : State) (h : Follows tb a s) :
    Follows tb a (State.openMoulds s) := by
  unfold State.openMoulds
  repeat' first
    | with_reducible assumption
    | with_reducible apply State.setMould_follows
    | with_reducible apply Follows.foldl
    | (intro x y (hx : Follows tb a x))

theorem State.closeMoulds_follows {tb : Bool} {a : State} (s : State) (h : Follows tb a s) :
    Follows tb a (State.closeMoulds s) := by
  unfold State.closeMoulds
  repeat' first
    | (lift_lets; intro x; clear_value x)
    | (with_reducible apply Follows.same; with_reducible assumption)

theorem imageGrants_follows {a : State} (s : State) (l : List ImageRec) (h : Follows false a s) :
    Follows false a (imageGrants s l) := by
  unfold imageGrants
  repeat' first
    | with_reducible assumption
    | with_reducible apply Follows.foldl
    | (intro x y (hx : Follows false a x))
    | (lift_lets; intro x; have : Tables := x; clear this)
    | (split)
    | (with_reducible apply Follows.newTab; with_reducible assumption)

theorem State.firstEpoch_follows {tb : Bool} {a : State} (s : State) (t : State) (items : List Staged) (h : Follows tb a s) (h1 :
    Follows tb a t) : Follows tb a (State.firstEpoch s t items) := by
  unfold State.firstEpoch
  repeat' first
    | with_reducible assumption
    | with_reducible apply State.closeMoulds_follows
    | with_reducible apply afterPour_follows
    | with_reducible apply State.setWide_follows

theorem pourImage_follows {a : State} (s : State) (l : List ImageRec) (h : Follows false a s) : ExB false a (pourImage s l) := by
  have hs := stageAll_follows _ (imageOrder l) (State.openMoulds_follows _ (imageGrants_follows _ l h))
  unfold pourImage
  split
  · exact ExB.error
  · next t e =>
    dsimp only
    split
    · exact ExB.error
    · exact ExB.ok (State.firstEpoch_follows _ _ _ h (buildTables_follows _ _ _ _ _ (hs.elim e) h).out.same)

theorem pourNothing_follows {tb : Bool} {a : State} (s : State) (h : Follows tb a s) : Follows tb a (pourNothing s) := by
  unfold pourNothing
  repeat' first
    | with_reducible assumption
    | with_reducible apply State.firstEpoch_follows

/-! ### Retain -/

theorem State.enterRetained_follows {tb : Bool} {a : State} (s : State) (n : ℕ) (h : Follows tb a s) :
    Follows tb a (State.enterRetained s n) := by
  unfold State.enterRetained
  repeat' first
    | with_reducible assumption
    | with_reducible apply State.busEnter_follows
    | with_reducible apply State.setBt_follows
    | (intro x; refine Follows.cut (tb := tb) (a := a) (x := x) ?_ (fun _ => ?_); on_goal 2 => clear_value x)
    | (lift_lets; intro x; clear_value x)
    | (intro)
    | (split)
    | (with_reducible apply Follows.same; with_reducible assumption)

theorem State.enterAllRetained_follows {tb : Bool} {a : State} (s : State) (h : Follows tb a s) :
    Follows tb a (State.enterAllRetained s) := by
  unfold State.enterAllRetained
  repeat' first
    | with_reducible assumption
    | with_reducible apply State.enterRetained_follows
    | with_reducible apply Follows.foldl

theorem State.tc10Write_follows {tb : Bool} {a : State} (s : State) (n : ℕ) (code : ℕ) (h : Follows tb a s) :
    Follows tb a (State.tc10Write s n code) := by
  unfold State.tc10Write
  repeat' first
    | with_reducible assumption
    | with_reducible apply State.mdioAdd_follows

theorem State.tc10Wake_follows {tb : Bool} {a : State} (s : State) (h : Follows tb a s) : Follows tb a (State.tc10Wake s) := by
  unfold State.tc10Wake
  repeat' first
    | with_reducible assumption
    | with_reducible apply State.tc10Write_follows
    | with_reducible apply Follows.foldl
    | (intro x y (hx : Follows tb a x))
    | (split)

end Sys2Proof.Machine
end

