-- ==== Sys2Proof/Laws/FollowsBoot.lean ====
section
/-! SUPPORT. What every effect keeps, one lemma per function: boot, resets and sleep. -/

set_option linter.all false

namespace Sys2Proof.Machine

/-! ### Boot -/

theorem State.program_follows {tb : Bool} {a : State} (s : State) (off : ℕ) (size : ℕ) (v : ℕ) (h : Follows tb a s) :
    Follows tb a (State.program s off size v) := by
  unfold State.program
  repeat' first
    | with_reducible assumption
    | (lift_lets; intro x; clear_value x)
    | (split)
    | (with_reducible apply Follows.same; with_reducible assumption)

theorem State.setLevel_follows {tb : Bool} {a : State} (s : State) (n : ℕ) (level : ℕ) (fcnt : ℕ) (h : Follows tb a s) :
    Follows tb a (State.setLevel s n level fcnt) := by
  unfold State.setLevel
  repeat' first
    | (lift_lets; intro x; clear_value x)
    | (with_reducible apply Follows.same; with_reducible assumption)

theorem State.deriveLevels_follows {tb : Bool} {a : State} (s : State) (prev : Option LedgerRec) (h : Follows tb a s) :
    Follows tb a (State.deriveLevels s prev) := by
  unfold State.deriveLevels
  repeat' first
    | with_reducible assumption
    | with_reducible apply State.setLevel_follows
    | with_reducible apply Follows.foldl
    | (intro x y (hx : Follows tb a x))

theorem State.showPolicy_follows {tb : Bool} {a : State} (s : State) (steps : List ℕ) (h : Follows tb a s) :
    Follows tb a (State.showPolicy s steps) := by
  unfold State.showPolicy
  repeat' first
    | with_reducible assumption
    | with_reducible apply State.setFd_follows
    | with_reducible apply Follows.foldl
    | (intro x y (hx : Follows tb a x))

theorem State.outcome_follows {tb : Bool} {a : State} (s : State) (n : ℕ) (out : ℕ) (ok : Bool) (code : Byte) (h :
    Follows tb a s) : Follows tb a (State.outcome s n out ok code) := by
  unfold State.outcome
  repeat' first
    | with_reducible apply State.program_follows
    | (lift_lets; intro x; clear_value x)
    | (with_reducible apply Follows.same; with_reducible assumption)

theorem State.unitsOut_follows {tb : Bool} {a : State} (s : State) (bits : ℕ) (h : Follows tb a s) :
    Follows tb a (State.unitsOut s bits) := by
  unfold State.unitsOut
  repeat' first
    | with_reducible assumption
    | with_reducible apply State.program_follows
    | with_reducible apply State.modRg_follows

theorem State.refreshFault_follows {tb : Bool} {a : State} (s : State) (h : Follows tb a s) :
    Follows tb a (State.refreshFault s) := by
  unfold State.refreshFault
  repeat' first
    | (lift_lets; intro x; clear_value x)
    | (with_reducible apply Follows.same; with_reducible assumption)

theorem State.finishBoot_follows {tb : Bool} {a : State} (s : State) (h : Follows tb a s) :
    Follows tb a (State.finishBoot s) := by
  unfold State.finishBoot
  repeat' first
    | with_reducible assumption
    | with_reducible apply State.program_follows
    | with_reducible apply State.tc10Wake_follows
    | with_reducible apply State.enterAllRetained_follows
    | with_reducible apply State.setFd_follows
    | with_reducible apply State.setBt_follows
    | (intro x; refine Follows.cut (tb := tb) (a := a) (x := x) ?_ (fun _ => ?_); on_goal 2 => clear_value x)
    | (lift_lets; intro x; refine Follows.cut (tb := tb) (a := a) (x := x) ?_ (fun _ => ?_); on_goal 2 => clear_value x)
    | (intro)
    | (split)
    | (with_reducible apply Follows.same; with_reducible assumption)

theorem State.skipStep_follows {tb : Bool} {a : State} (s : State) (n : ℕ) (h : Follows tb a s) :
    Follows tb a (State.skipStep s n) := by
  unfold State.skipStep
  repeat' first
    | with_reducible assumption
    | with_reducible apply State.unitsOut_follows
    | with_reducible apply pourNothing_follows
    | (split)

theorem State.enterStep_follows {tb : Bool} {a : State} (s : State) (k : ℕ) (h : Follows tb a s) :
    Follows tb a (State.enterStep s k) := by
  induction k generalizing s with
  | zero =>
    unfold State.enterStep
    repeat' first
      | with_reducible assumption
      | with_reducible apply State.finishBoot_follows
  | succ n ih =>
    unfold State.enterStep
    repeat' first
      | with_reducible assumption
      | with_reducible apply ih
      | with_reducible apply State.setFd_follows
      | with_reducible apply State.outcome_follows
      | with_reducible apply State.setBt_follows
      | with_reducible apply State.skipStep_follows
      | with_reducible apply State.refreshFault_follows
      | (intro x; refine Follows.cut (tb := tb) (a := a) (x := x) ?_ (fun _ => ?_); on_goal 2 => clear_value x)
      | (lift_lets; intro x; clear_value x)
      | (intro)
      | (split)
      | (with_reducible apply Follows.same; with_reducible assumption)
      | (dsimp +zetaDelta -zeta only)

theorem State.afterReset_follows {a : State} (s : State) (code : ℕ) (h : Follows false a s) :
    Follows false a (State.afterReset s code) := by
  unfold State.afterReset
  exact Follows.foldl (fun _ _ k => State.refreshPin_follows _ _ k) _ _ (State.setFd_follows _ _ _ _ _ (State.setBt_follows _ _ _ _
    (State.setRg_follows _ _ _ ⟨h.queue, h.fuse, h.sent.trans (List.prefix_append _ _), fun _ => ⟨rfl, rfl⟩, fun e => nomatch e⟩)))

theorem State.restart_follows {a : State} (s : State) (code : ℕ) (h : Follows false a s) :
    Follows false a (State.restart s code) := by
  unfold State.restart
  repeat' first
    | with_reducible assumption
    | with_reducible apply State.afterReset_follows
    | with_reducible apply State.enterStep_follows
    | with_reducible apply State.showPolicy_follows

theorem powerOnReset_follows {a : State} (s : State) (h : Follows false a s) : Follows false a (powerOnReset s) := by
  unfold powerOnReset
  repeat' first
    | with_reducible assumption
    | with_reducible apply State.restart_follows
    | (split)

theorem execPowerOnReset_follows {a : State} (s : State) (h : Follows false a s) : ResF false a (execPowerOnReset s) := by
  unfold execPowerOnReset
  repeat' first
    | with_reducible assumption
    | with_reducible apply powerOnReset_follows
    | with_reducible apply ResF.next

theorem supplyMonitorReset_follows {a : State} (s : State) (h : Follows false a s) : Follows false a (supplyMonitorReset s) := by
  unfold supplyMonitorReset
  repeat' first
    | with_reducible assumption
    | with_reducible apply State.restart_follows
    | (split)

theorem execSupplyMonitorReset_follows {a : State} (s : State) (h : Follows false a s) :
    ResF false a (execSupplyMonitorReset s) := by
  unfold execSupplyMonitorReset
  repeat' first
    | with_reducible assumption
    | with_reducible apply supplyMonitorReset_follows
    | with_reducible apply ResF.next

theorem resetNAsserted_follows {a : State} (s : State) (h : Follows false a s) : Follows false a (resetNAsserted s) := by
  unfold resetNAsserted
  repeat' first
    | with_reducible assumption
    | with_reducible apply State.restart_follows
    | (split)

theorem execResetNAsserted_follows {a : State} (s : State) (h : Follows false a s) : ResF false a (execResetNAsserted s) := by
  unfold execResetNAsserted
  repeat' first
    | with_reducible assumption
    | with_reducible apply resetNAsserted_follows
    | with_reducible apply ResF.next

theorem porstNAsserted_follows {tb : Bool} {a : State} (s : State) (h : Follows tb a s) : Follows tb a (porstNAsserted s) := by
  unfold porstNAsserted
  repeat' first
    | (lift_lets; intro x; clear_value x)
    | (intro)
    | (with_reducible apply Follows.same; with_reducible assumption)

theorem execPorstNAsserted_follows {tb : Bool} {a : State} (s : State) (h : Follows tb a s) :
    ResF tb a (execPorstNAsserted s) := by
  unfold execPorstNAsserted
  repeat' first
    | with_reducible assumption
    | with_reducible apply porstNAsserted_follows
    | with_reducible apply ResF.next

theorem vddaonValid_follows {a : State} (s : State) (h : Follows false a s) : Follows false a (vddaonValid s) :=
  ⟨h.queue, h.fuse, h.sent, fun _ => ⟨rfl, rfl⟩, fun e => nomatch e⟩

theorem execVddaonValid_follows {a : State} (s : State) (h : Follows false a s) : ResF false a (execVddaonValid s) := by
  unfold execVddaonValid
  repeat' first
    | with_reducible assumption
    | with_reducible apply vddaonValid_follows
    | with_reducible apply ResF.next

theorem ledgerRestart_follows {a : State} (s : State) (h : Follows false a s) : Follows false a (ledgerRestart s) := by
  unfold ledgerRestart
  repeat' first
    | with_reducible assumption
    | with_reducible apply State.restart_follows
    | (split)

theorem execLedgerRestart_follows {a : State} (s : State) (h : Follows false a s) : ResF false a (execLedgerRestart s) := by
  unfold execLedgerRestart
  repeat' first
    | with_reducible assumption
    | with_reducible apply ledgerRestart_follows
    | with_reducible apply ResF.next

theorem ledgerEraseDone_follows {tb : Bool} {a : State} (s : State) (h : Follows tb a s) : Follows tb a (ledgerEraseDone s) := by
  unfold ledgerEraseDone
  repeat' first
    | with_reducible assumption
    | (lift_lets; intro x; clear_value x)
    | (intro)
    | (split)
    | (with_reducible apply Follows.same; with_reducible assumption)

theorem execLedgerEraseDone_follows {tb : Bool} {a : State} (s : State) (h : Follows tb a s) :
    ResF tb a (execLedgerEraseDone s) := by
  unfold execLedgerEraseDone
  repeat' first
    | with_reducible assumption
    | with_reducible apply ledgerEraseDone_follows
    | with_reducible apply clocked_follows
    | with_reducible apply ResF.next

theorem State.countBoot_follows {tb : Bool} {a : State} (s : State) (n : ℕ) (failed : Bool) (h : Follows tb a s) :
    Follows tb a (State.countBoot s n failed) := by
  unfold State.countBoot
  repeat' first
    | with_reducible assumption
    | with_reducible apply State.setLevel_follows
    | (split)

theorem State.step3Done_follows {tb : Bool} {a : State} (s : State) (alternate : Bool) (h : Follows tb a s) :
    Follows tb a (State.step3Done s alternate) := by
  unfold State.step3Done
  repeat' first
    | with_reducible assumption
    | with_reducible apply State.refreshFault_follows
    | with_reducible apply State.showPolicy_follows
    | with_reducible apply State.deriveLevels_follows
    | with_reducible apply State.setFd_follows
    | with_reducible apply State.setBt_follows
    | with_reducible apply drawBit_follows
    | (intro x; refine Follows.cut (tb := tb) (a := a) (x := x) ?_ (fun _ => ?_); on_goal 2 => clear_value x)
    | (lift_lets; intro x; refine Follows.cut (tb := tb) (a := a) (x := x) ?_ (fun _ => ?_); on_goal 2 => clear_value x)
    | (lift_lets; intro x; clear_value x)
    | (intro)
    | (split)
    | (refine PairF.elim (by with_reducible assumption) ?_)
    | (with_reducible apply Follows.same; with_reducible assumption)

theorem State.step5Done_follows {tb : Bool} {a : State} (s : State) (dp : BitVec 28) (h : Follows tb a s) :
    Follows tb a (State.step5Done s dp) := by
  unfold State.step5Done
  repeat' first
    | with_reducible assumption
    | with_reducible apply State.retireLadle_follows
    | with_reducible apply State.retireParser_follows
    | with_reducible apply State.retireBank_follows
    | with_reducible apply Follows.foldl
    | (intro x y (hx : Follows tb a x))
    | (split)

theorem State.step6Done_follows {tb : Bool} {a : State} (s : State) (units : BitVec 24) (h : Follows tb a s) :
    Follows tb a (State.step6Done s units) := by
  unfold State.step6Done
  repeat' first
    | with_reducible assumption
    | with_reducible apply State.unitsOut_follows
    | with_reducible apply State.retirePort_follows
    | with_reducible apply Follows.foldl
    | (intro x y (hx : Follows tb a x))
    | (split)

theorem State.step7Done_follows {tb : Bool} {a : State} (s : State) (e : BootEnd) (h : Follows tb a s) :
    Follows tb a (State.step7Done s e) := by
  unfold State.step7Done
  repeat' first
    | with_reducible assumption
    | with_reducible apply State.unitsOut_follows
    | with_reducible apply State.setFault_follows
    | with_reducible apply State.report_follows
    | with_reducible apply State.setFd_follows
    | with_reducible apply State.setBt_follows
    | with_reducible apply Follows.foldl
    | (intro x y (hx : Follows tb a x))

theorem State.step8Done_follows {tb : Bool} {a : State} (s : State) (units : BitVec 24) (h : Follows tb a s) :
    Follows tb a (State.step8Done s units) := by
  unfold State.step8Done
  repeat' first
    | with_reducible assumption
    | with_reducible apply State.unitsOut_follows
    | with_reducible apply Follows.foldl
    | (intro x y (hx : Follows tb a x))
    | (lift_lets; intro x; clear_value x)
    | (with_reducible apply Follows.same; with_reducible assumption)

theorem State.step9Done_follows {tb : Bool} {a : State} (s : State) (degraded : Bool) (h : Follows tb a s) :
    Follows tb a (State.step9Done s degraded) := by
  unfold State.step9Done
  repeat' first
    | with_reducible assumption
    | with_reducible apply tclkPllUnlock_follows
    | with_reducible apply State.setDom_follows
    | (intro x; refine Follows.cut (tb := tb) (a := a) (x := x) ?_ (fun _ => ?_); on_goal 2 => clear_value x)
    | (lift_lets; intro x; clear_value x)
    | (split)
    | (with_reducible apply PairF.out; with_reducible apply drawBit_follows)

theorem State.stepDone_follows {tb : Bool} {a : State} (s : State) (n : ℕ) (degraded : Bool) (e : BootEnd) (h : Follows tb a s) :
    Follows tb a (State.stepDone s n degraded e) := by
  unfold State.stepDone
  repeat' first
    | with_reducible assumption
    | with_reducible apply State.step9Done_follows
    | with_reducible apply State.step8Done_follows
    | with_reducible apply State.step7Done_follows
    | with_reducible apply State.step6Done_follows
    | with_reducible apply State.step5Done_follows
    | with_reducible apply State.step3Done_follows
    | (split)

theorem State.stepFailed_follows {tb : Bool} {a : State} (s : State) (n : ℕ) (code : Byte) (h : Follows tb a s) :
    Follows tb a (State.stepFailed s n code) := by
  unfold State.stepFailed
  repeat' first
    | with_reducible assumption
    | with_reducible apply State.countBoot_follows
    | with_reducible apply State.outcome_follows
    | (lift_lets; intro x; refine Follows.cut (tb := tb) (a := a) (x := x) ?_ (fun _ => ?_); on_goal 2 => clear_value x)
    | (intro)
    | (with_reducible apply Follows.same; with_reducible assumption)

theorem State.failedUnits_follows {tb : Bool} {a : State} (s : State) (n : ℕ) (e : BootEnd) (h : Follows tb a s) :
    Follows tb a (State.failedUnits s n e) := by
  unfold State.failedUnits
  repeat' first
    | with_reducible assumption
    | with_reducible apply State.unitsOut_follows
    | (split)

theorem State.noteValues_follows {tb : Bool} {a : State} (s : State) (n : ℕ) (e : BootEnd) (h : Follows tb a s) :
    Follows tb a (State.noteValues s n e) := by
  unfold State.noteValues
  repeat' first
    | with_reducible assumption
    | (lift_lets; intro x; clear_value x)
    | (split)
    | (with_reducible apply Follows.same; with_reducible assumption)

theorem State.stepPassed_follows {tb : Bool} {a : State} (s : State) (n : ℕ) (degraded : Bool) (e : BootEnd) (h : Follows tb a s) :
    Follows tb a (State.stepPassed s n degraded e) := by
  unfold State.stepPassed
  repeat' first
    | with_reducible assumption
    | with_reducible apply State.noteValues_follows
    | with_reducible apply State.stepDone_follows
    | with_reducible apply State.countBoot_follows
    | with_reducible apply State.enterStep_follows
    | with_reducible apply State.outcome_follows
    | with_reducible apply State.setBt_follows
    | (split)

theorem State.step10End_follows {a : State} (s : State) (e : BootEnd) (h : Follows false a s) :
    Follows false a (State.step10End s e) := by
  unfold State.step10End
  repeat' first
    | with_reducible assumption
    | with_reducible apply State.stepPassed_follows
    | with_reducible apply State.stepFailed_follows
    | with_reducible apply pourImage_follows
    | with_reducible apply State.setFd_follows
    | (split)
    | (refine ExB.elim ?_ (by with_reducible assumption))

theorem State.step4End_follows {tb : Bool} {a : State} (s : State) (e : BootEnd) (h : Follows tb a s) :
    Follows tb a (State.step4End s e) := by
  unfold State.step4End
  repeat' first
    | with_reducible assumption
    | with_reducible apply State.stepPassed_follows
    | with_reducible apply State.stepFailed_follows
    | (split)

theorem bootStepEnd_follows {a : State} (e : BootEnd) (s : State) (h : Follows false a s) :
    Follows false a (bootStepEnd e s) := by
  unfold bootStepEnd
  repeat' first
    | with_reducible assumption
    | with_reducible apply State.step4End_follows
    | with_reducible apply State.step10End_follows
    | with_reducible apply State.failedUnits_follows
    | with_reducible apply State.stepPassed_follows
    | with_reducible apply State.stepFailed_follows
    | (lift_lets; intro x; clear_value x)
    | (split)

theorem execBootStepEnd_follows {a : State} (e : BootEnd) (s : State) (h : Follows false a s) :
    ResF false a (execBootStepEnd e s) := by
  unfold execBootStepEnd
  repeat' first
    | with_reducible assumption
    | with_reducible apply bootStepEnd_follows
    | with_reducible apply ResF.next

theorem onBootWrite_follows {tb : Bool} {a : State} (p : Part) (off : ℕ) (f : State → State) (s : State) (h : Follows tb a s) (hf :
    ∀ x0_, Follows tb a x0_ → Follows tb a (f x0_)) : Follows tb a (onBootWrite p off f s) := by
  unfold onBootWrite
  repeat' first
    | with_reducible assumption
    | with_reducible apply hf
    | with_reducible apply onWrite_follows
    | (split)

theorem bootRearm_follows {tb : Bool} {a : State} (v : W32) (s : State) (h : Follows tb a s) : Follows tb a (bootRearm v s) := by
  unfold bootRearm
  repeat' first
    | with_reducible assumption
    | with_reducible apply State.setLevel_follows
    | with_reducible apply State.program_follows
    | with_reducible apply Follows.foldl
    | (intro x y (hx : Follows tb a x))
    | (split)

theorem execBootRearm_follows {tb : Bool} {a : State} (p : Part) (v : W32) (s : State) (h : Follows tb a s) :
    ResF tb a (execBootRearm p v s) := by
  unfold execBootRearm
  repeat' first
    | with_reducible assumption
    | with_reducible apply bootRearm_follows
    | with_reducible apply onBootWrite_follows
    | with_reducible apply ResF.next

theorem bootReset_follows {a : State} (p : Part) (v : W32) (s : State) (h : Follows false a s) :
    Follows false a (bootReset p v s) := by
  unfold bootReset
  repeat' first
    | with_reducible assumption
    | with_reducible apply State.restart_follows
    | with_reducible apply State.report_follows
    | (split)

theorem execBootReset_follows {a : State} (p : Part) (v : W32) (s : State) (h : Follows false a s) :
    ResF false a (execBootReset p v s) := by
  unfold execBootReset
  repeat' first
    | with_reducible assumption
    | with_reducible apply bootReset_follows
    | with_reducible apply onBootWrite_follows
    | with_reducible apply ResF.next

/-! ### Power -/

theorem State.setCause_follows {tb : Bool} {a : State} (s : State) (src : ℕ) (h : Follows tb a s) :
    Follows tb a (State.setCause s src) := by
  unfold State.setCause
  repeat' first
    | with_reducible assumption
    | with_reducible apply State.setBt_follows
    | (split)

theorem State.sleepTick_follows {tb : Bool} {a : State} (s : State) (h : Follows tb a s) : PairF tb a (State.sleepTick s) := by
  unfold State.sleepTick
  repeat' first
    | with_reducible assumption
    | with_reducible apply drawNat_follows
    | (split)
    | (refine PairF.elim (by with_reducible assumption) ?_)
    | with_reducible apply PairF.intro

theorem State.beginWake_follows {a : State} (s : State) (h : Follows false a s) : Follows false a (State.beginWake s) := by
  unfold State.beginWake
  repeat' first
    | with_reducible assumption
    | with_reducible apply State.restart_follows
    | with_reducible apply State.setFd_follows
    | (lift_lets; intro x; refine Follows.cut (tb := false) (a := a) (x := x) ?_ (fun _ => ?_); on_goal 2 => clear_value x)
    | (intro)
    | (split)
    | (with_reducible apply Follows.same; with_reducible assumption)

theorem State.noteFirst_follows {tb : Bool} {a : State} (s : State) (src : ℕ) (tick : W64) (h : Follows tb a s) :
    Follows tb a (State.noteFirst s src tick) := by
  unfold State.noteFirst
  repeat' first
    | with_reducible assumption
    | with_reducible apply State.setWide_follows
    | (lift_lets; intro x; refine Follows.cut (tb := tb) (a := a) (x := x) ?_ (fun _ => ?_); on_goal 2 => clear_value x)
    | (intro)
    | (split)
    | (with_reducible apply Follows.same; with_reducible assumption)

theorem State.latchCause_follows {a : State} (s : State) (src : ℕ) (h : Follows false a s) :
    Follows false a (State.latchCause s src) := by
  unfold State.latchCause
  repeat' first
    | with_reducible assumption
    | with_reducible apply State.beginWake_follows
    | with_reducible apply State.setCause_follows
    | (lift_lets; intro x; clear_value x)
    | (split)
    | (with_reducible apply PairF.out; with_reducible apply State.sleepTick_follows)
    | (with_reducible apply Follows.same; with_reducible apply State.noteFirst_follows)

theorem State.enterEntry_follows {tb : Bool} {a : State} (s : State) (d : CmdDesc) (h : Follows tb a s) :
    Follows tb a (State.enterEntry s d) := by
  unfold State.enterEntry
  repeat' first
    | with_reducible assumption
    | with_reducible apply State.setFd_follows
    | with_reducible apply State.modRg_follows
    | with_reducible apply State.setRg_follows
    | with_reducible apply Follows.foldl
    | (intro x y (hx : Follows tb a x))
    | (intro x; refine Follows.cut (tb := tb) (a := a) (x := x) ?_ (fun _ => ?_); on_goal 2 => clear_value x)
    | (lift_lets; intro x; refine Follows.cut (tb := tb) (a := a) (x := x) ?_ (fun _ => ?_); on_goal 2 => clear_value x)
    | (intro)
    | (with_reducible apply Follows.same; with_reducible assumption)

theorem sleepBody_follows {tb : Bool} {a : State} (d : CmdDesc) (s : State) (h : Follows tb a s) : ExF tb a (sleepBody d s) := by
  unfold sleepBody
  repeat' first
    | with_reducible assumption
    | with_reducible apply State.enterEntry_follows
    | with_reducible apply fail_follows
    | with_reducible apply ExF.ok
    | with_reducible apply ExF.error
    | (split)
    | with_reducible apply AnsF.intro

theorem execSleep_follows {tb : Bool} {a : State} (p : Part) (d : CmdDesc) (s : State) (h : Follows tb a s) :
    ResF tb a (execSleep p d s) := by
  unfold execSleep
  repeat' first
    | with_reducible assumption
    | with_reducible apply sleepBody_follows
    | with_reducible apply runWaiting_follows
    | with_reducible apply ResF.next

theorem State.stopPorts_follows {tb : Bool} {a : State} (s : State) (h : Follows tb a s) : Follows tb a (State.stopPorts s) := by
  unfold State.stopPorts
  repeat' first
    | with_reducible assumption
    | with_reducible apply State.abortRx_follows
    | with_reducible apply State.gptpPortDown_follows
    | with_reducible apply State.linkLoss_follows
    | with_reducible apply State.setLane_follows
    | with_reducible apply State.setFd_follows
    | with_reducible apply State.setBt_follows
    | with_reducible apply Follows.foldl
    | (intro x y (hx : Follows tb a x))
    | (split)

theorem State.sleepReply_follows {tb : Bool} {a : State} (s : State) (h : Follows tb a s) :
    Follows tb a (State.sleepReply s) := by
  unfold State.sleepReply
  repeat' first
    | with_reducible assumption
    | with_reducible apply State.complete_follows
    | (intro x; refine Follows.cut (tb := tb) (a := a) (x := x) ?_ (fun _ => ?_); on_goal 2 => clear_value x)
    | (lift_lets; intro x; clear_value x)
    | (split)
    | (with_reducible apply Follows.same; with_reducible assumption)

theorem sleepDrainEnd_follows {tb : Bool} {a : State} (s : State) (h : Follows tb a s) : Follows tb a (sleepDrainEnd s) := by
  unfold sleepDrainEnd
  repeat' first
    | with_reducible assumption
    | with_reducible apply State.sleepReply_follows
    | with_reducible apply State.stopPorts_follows
    | with_reducible apply State.tc10Write_follows
    | with_reducible apply Follows.foldl
    | (intro x y (hx : Follows tb a x))
    | (intro x; refine Follows.cut (tb := tb) (a := a) (x := x) ?_ (fun _ => ?_); on_goal 2 => clear_value x)
    | (lift_lets; intro x; clear_value x)
    | (intro)
    | (split)
    | (with_reducible apply Follows.same; with_reducible assumption)

theorem execSleepDrainEnd_follows {tb : Bool} {a : State} (s : State) (h : Follows tb a s) : ResF tb a (execSleepDrainEnd s) := by
  unfold execSleepDrainEnd
  repeat' first
    | with_reducible assumption
    | with_reducible apply sleepDrainEnd_follows
    | with_reducible apply clocked_follows
    | with_reducible apply ResF.next

theorem State.tc10Read_follows {tb : Bool} {a : State} (s : State) (n : EPort) (h : Follows tb a s) :
    Follows tb a (State.tc10Read s n) := by
  unfold State.tc10Read
  repeat' first
    | with_reducible assumption
    | with_reducible apply State.mdioAdd_follows

theorem State.tc10End_follows {tb : Bool} {a : State} (s : State) (n : EPort) (ack : Bool) (h : Follows tb a s) :
    Follows tb a (State.tc10End s n ack) := by
  unfold State.tc10End
  repeat' first
    | with_reducible assumption
    | with_reducible apply State.sleepReply_follows
    | (intro x; refine Follows.cut (tb := tb) (a := a) (x := x) ?_ (fun _ => ?_); on_goal 2 => clear_value x)
    | (lift_lets; intro x; clear_value x)
    | (intro)
    | (split)
    | (with_reducible apply Follows.same; with_reducible assumption)
    | (dsimp +zetaDelta -zeta only)

theorem tc10Poll_follows {tb : Bool} {a : State} (n : EPort) (read expired : Bool) (s : State) (h : Follows tb a s) :
    Follows tb a (tc10Poll n read expired s) := by
  unfold tc10Poll
  repeat' first
    | with_reducible assumption
    | with_reducible apply State.tc10End_follows
    | with_reducible apply State.tc10Read_follows
    | (intro x; refine Follows.cut (tb := tb) (a := a) (x := x) ?_ (fun _ => ?_); on_goal 2 => clear_value x)
    | (lift_lets; intro x; clear_value x)
    | (split)
    | (with_reducible apply Follows.same; with_reducible assumption)

theorem execTc10Poll_follows {tb : Bool} {a : State} (n : EPort) (read expired : Bool) (s : State) (h : Follows tb a s) :
    ResF tb a (execTc10Poll n read expired s) := by
  unfold execTc10Poll
  repeat' first
    | with_reducible assumption
    | with_reducible apply tc10Poll_follows
    | with_reducible apply clocked_follows
    | with_reducible apply ResF.next

theorem State.tc10Found_follows {tb : Bool} {a : State} (s : State) (n : EPort) (status : BitVec 16) (h : Follows tb a s) :
    Follows tb a (State.tc10Found s n status) := by
  unfold State.tc10Found
  repeat' first
    | with_reducible assumption
    | with_reducible apply State.tc10End_follows
    | (lift_lets; intro x; clear_value x)
    | (intro)
    | (split)

theorem State.mdioResult_follows {tb : Bool} {a : State} (s : State) (m : ℕ) (x : MdioReq) (rdata : BitVec 16) (noTurn : Bool) (h :
    Follows tb a s) : Follows tb a (State.mdioResult s m x rdata noTurn) := by
  unfold State.mdioResult
  repeat' first
    | with_reducible assumption
    | with_reducible apply State.tc10Found_follows
    | with_reducible apply State.pollRead_follows
    | with_reducible apply State.modRgp_follows
    | (split)

theorem mdioAccessDone_follows {tb : Bool} {a : State} (m : Fin 4) (rdata : BitVec 16) (noTurn : Bool) (s : State) (h :
    Follows tb a s) : Follows tb a (mdioAccessDone m rdata noTurn s) := by
  unfold mdioAccessDone
  repeat' first
    | with_reducible assumption
    | with_reducible apply State.mdioResult_follows
    | with_reducible apply State.mdioShow_follows
    | with_reducible apply State.setMdioQ_follows
    | (lift_lets; intro x; refine Follows.cut (tb := tb) (a := a) (x := x) ?_ (fun _ => ?_); on_goal 2 => clear_value x)
    | (split)

theorem execMdioAccessDone_follows {tb : Bool} {a : State} (m : Fin 4) (rdata : BitVec 16) (noTurn : Bool) (s : State) (h :
    Follows tb a s) : ResF tb a (execMdioAccessDone m rdata noTurn s) := by
  unfold execMdioAccessDone
  repeat' first
    | with_reducible assumption
    | with_reducible apply mdioAccessDone_follows
    | with_reducible apply clocked_follows
    | with_reducible apply ResF.next

theorem sleepHoldEnd_follows {a : State} (s : State) (h : Follows false a s) : Follows false a (sleepHoldEnd s) := by
  unfold sleepHoldEnd
  repeat' first
    | with_reducible assumption
    | with_reducible apply State.beginWake_follows
    | with_reducible apply State.modRg_follows
    | (intro x; refine Follows.cut (tb := false) (a := a) (x := x) ?_ (fun _ => ?_); on_goal 2 => clear_value x)
    | (lift_lets; intro x; clear_value x)
    | (intro)
    | (split)
    | (with_reducible apply Follows.same; with_reducible assumption)

theorem execSleepHoldEnd_follows {a : State} (s : State) (h : Follows false a s) : ResF false a (execSleepHoldEnd s) := by
  unfold execSleepHoldEnd
  repeat' first
    | with_reducible assumption
    | with_reducible apply sleepHoldEnd_follows
    | with_reducible apply clocked_follows
    | with_reducible apply ResF.next

theorem State.decodeCount_follows {tb : Bool} {a : State} (s : State) (n : ℕ) (error : Bool) (h : Follows tb a s) :
    Follows tb a (State.decodeCount s n error) := by
  unfold State.decodeCount
  repeat' first
    | with_reducible assumption
    | with_reducible apply State.modRg_follows

theorem State.retain_follows {tb : Bool} {a : State} (s : State) (n : ℕ) (f : WakeFrame) (sof : W64) (h : Follows tb a s) :
    Follows tb a (State.retain s n f sof) := by
  unfold State.retain
  repeat' first
    | with_reducible assumption
    | with_reducible apply State.setBt_follows
    | (intro x; refine Follows.cut (tb := tb) (a := a) (x := x) ?_ (fun _ => ?_); on_goal 2 => clear_value x)
    | (lift_lets; intro x; clear_value x)
    | (intro)
    | (with_reducible apply Follows.same; with_reducible assumption)

theorem State.lateRetained_follows {tb : Bool} {a : State} (s : State) (n : ℕ) (h : Follows tb a s) :
    Follows tb a (State.lateRetained s n) := by
  unfold State.lateRetained
  repeat' first
    | with_reducible assumption
    | with_reducible apply State.enterRetained_follows
    | (split)

theorem canWakeFrame_follows {a : State} (n : Fin 16) (f : WakeFrame) (sof : W64) (s : State) (h : Follows false a s) :
    Follows false a (canWakeFrame n f sof s) := by
  unfold canWakeFrame
  repeat' first
    | with_reducible assumption
    | with_reducible apply State.lateRetained_follows
    | with_reducible apply State.retain_follows
    | with_reducible apply State.decodeCount_follows
    | with_reducible apply State.latchCause_follows
    | with_reducible apply State.count_follows
    | (intro x; refine Follows.cut (tb := false) (a := a) (x := x) ?_ (fun _ => ?_); on_goal 2 => clear_value x)
    | (lift_lets; intro x; clear_value x)
    | (split)

theorem execCanWakeFrame_follows {a : State} (n : Fin 16) (f : WakeFrame) (sofTick : W64) (s : State) (h : Follows false a s) :
    ResF false a (execCanWakeFrame n f sofTick s) := by
  unfold execCanWakeFrame
  repeat' first
    | with_reducible assumption
    | with_reducible apply canWakeFrame_follows
    | with_reducible apply ResF.next

theorem canWakePattern_follows {a : State} (n : Fin 16) (s : State) (h : Follows false a s) :
    Follows false a (canWakePattern n s) := by
  unfold canWakePattern
  repeat' first
    | with_reducible assumption
    | with_reducible apply State.latchCause_follows
    | with_reducible apply State.count_follows
    | (split)

theorem execCanWakePattern_follows {a : State} (n : Fin 16) (s : State) (h : Follows false a s) :
    ResF false a (execCanWakePattern n s) := by
  unfold execCanWakePattern
  repeat' first
    | with_reducible assumption
    | with_reducible apply canWakePattern_follows
    | with_reducible apply ResF.next

theorem wakeInEvent_follows {a : State} (n : Fin 8) (active : Bool) (s : State) (h : Follows false a s) :
    Follows false a (wakeInEvent n active s) := by
  unfold wakeInEvent
  repeat' first
    | with_reducible assumption
    | with_reducible apply State.latchCause_follows
    | with_reducible apply State.setBt_follows
    | (intro x; refine Follows.cut (tb := false) (a := a) (x := x) ?_ (fun _ => ?_); on_goal 2 => clear_value x)
    | (lift_lets; intro x; clear_value x)
    | (split)
    | (with_reducible apply Follows.same; with_reducible assumption)
    | (dsimp +zetaDelta -zeta only)

theorem execWakeInEvent_follows {a : State} (n : Fin 8) (active : Bool) (s : State) (h : Follows false a s) :
    ResF false a (execWakeInEvent n active s) := by
  unfold execWakeInEvent
  repeat' first
    | with_reducible assumption
    | with_reducible apply wakeInEvent_follows
    | with_reducible apply ResF.next

theorem t1sActivity_follows {a : State} (n : Fin 8) (s : State) (h : Follows false a s) : Follows false a (t1sActivity n s) := by
  unfold t1sActivity
  repeat' first
    | with_reducible assumption
    | with_reducible apply State.latchCause_follows

theorem execT1sActivity_follows {a : State} (n : Fin 8) (s : State) (h : Follows false a s) :
    ResF false a (execT1sActivity n s) := by
  unfold execT1sActivity
  repeat' first
    | with_reducible assumption
    | with_reducible apply t1sActivity_follows
    | with_reducible apply ResF.next

theorem wakeTimerExpire_follows {a : State} (s : State) (h : Follows false a s) : Follows false a (wakeTimerExpire s) := by
  unfold wakeTimerExpire
  repeat' first
    | with_reducible assumption
    | with_reducible apply State.latchCause_follows
    | (split)

theorem execWakeTimerExpire_follows {a : State} (s : State) (h : Follows false a s) : ResF false a (execWakeTimerExpire s) := by
  unfold execWakeTimerExpire
  repeat' first
    | with_reducible assumption
    | with_reducible apply wakeTimerExpire_follows
    | with_reducible apply ResF.next

theorem State.asleepFine_follows {tb : Bool} {a : State} (s : State) (h : Follows tb a s) : PairF tb a (State.asleepFine s) := by
  unfold State.asleepFine
  repeat' first
    | with_reducible assumption
    | with_reducible apply drawBit_follows
    | (split)
    | (refine PairF.elim (by with_reducible assumption) ?_)
    | with_reducible apply PairF.intro

theorem State.resumeDom_follows {tb : Bool} {a : State} (s : State) (d : ℤ) (x : ℕ) (h : Follows tb a s) :
    Follows tb a (State.resumeDom s d x) := by
  unfold State.resumeDom
  repeat' first
    | with_reducible assumption
    | with_reducible apply State.toDom_follows
    | with_reducible apply State.setDom_follows
    | with_reducible apply drawBit_follows
    | (lift_lets; intro x; refine Follows.cut (tb := tb) (a := a) (x := x) ?_ (fun _ => ?_); on_goal 2 => clear_value x)
    | (lift_lets; intro x; clear_value x)
    | (split)
    | (refine PairF.elim (by with_reducible assumption) ?_)

theorem State.resumeTime_follows {tb : Bool} {a : State} (s : State) (h : Follows tb a s) :
    Follows tb a (State.resumeTime s) := by
  unfold State.resumeTime
  repeat' first
    | with_reducible assumption
    | with_reducible apply State.resumeDom_follows
    | with_reducible apply State.enterAcquire_follows
    | with_reducible apply Follows.foldl
    | (intro x y (hx : Follows tb a x))
    | (split)
    | (with_reducible apply PairF.out; with_reducible apply State.asleepFine_follows)

theorem State.startPorts_follows {tb : Bool} {a : State} (s : State) (h : Follows tb a s) :
    Follows tb a (State.startPorts s) := by
  unfold State.startPorts
  repeat' first
    | with_reducible assumption
    | with_reducible apply State.tc10Wake_follows
    | with_reducible apply State.setLin_follows
    | with_reducible apply State.setRg_follows
    | with_reducible apply Follows.foldl
    | (intro x y (hx : Follows tb a x))
    | (split)

theorem State.ringDoorbell_follows {tb : Bool} {a : State} (s : State) (m : Part) (copy : Part) (v : W32) (h : Follows tb a s) :
    Follows tb a (State.ringDoorbell s m copy v) := by
  unfold State.ringDoorbell
  repeat' first
    | with_reducible assumption
    | with_reducible apply State.report_follows
    | with_reducible apply State.setRgp_follows
    | (split)

theorem State.wakeDoorbell_follows {tb : Bool} {a : State} (s : State) (x1 : HostPort) (h : Follows tb a s) :
    Follows tb a (State.wakeDoorbell s x1) := by
  unfold State.wakeDoorbell
  repeat' first
    | with_reducible assumption
    | with_reducible apply State.ringDoorbell_follows
    | with_reducible apply State.setPath_follows
    | (lift_lets; intro x; clear_value x)
    | (split)

theorem State.wakePush_follows {tb : Bool} {a : State} (s : State) (h : Follows tb a s) : Follows tb a (State.wakePush s) := by
  unfold State.wakePush
  repeat' first
    | with_reducible assumption
    | with_reducible apply State.setPath_follows

theorem State.enterRun_follows {tb : Bool} {a : State} (s : State) (h : Follows tb a s) : Follows tb a (State.enterRun s) := by
  unfold State.enterRun
  repeat' first
    | with_reducible assumption
    | with_reducible apply State.wakePush_follows
    | with_reducible apply State.wakeDoorbell_follows
    | with_reducible apply State.setFd_follows
    | with_reducible apply Follows.foldl
    | (lift_lets; intro x; refine Follows.cut (tb := tb) (a := a) (x := x) ?_ (fun _ => ?_); on_goal 2 => clear_value x)
    | (intro)
    | (with_reducible apply Follows.same; with_reducible assumption)

theorem wakingStepDone_follows {tb : Bool} {a : State} (s : State) (h : Follows tb a s) : Follows tb a (wakingStepDone s) := by
  unfold wakingStepDone
  repeat' first
    | with_reducible assumption
    | with_reducible apply State.enterRun_follows
    | with_reducible apply State.startPorts_follows
    | with_reducible apply State.resumeTime_follows
    | with_reducible apply State.enterAllRetained_follows
    | (intro x; refine Follows.cut (tb := tb) (a := a) (x := x) ?_ (fun _ => ?_); on_goal 2 => clear_value x)
    | (lift_lets; intro x; clear_value x)
    | (intro)
    | (split)
    | (with_reducible apply Follows.same; with_reducible assumption)

theorem execWakingStepDone_follows {tb : Bool} {a : State} (s : State) (h : Follows tb a s) :
    ResF tb a (execWakingStepDone s) := by
  unfold execWakingStepDone
  repeat' first
    | with_reducible assumption
    | with_reducible apply wakingStepDone_follows
    | with_reducible apply ResF.next

theorem resumeBody_follows {tb : Bool} {a : State} (p : Part) (d : CmdDesc) (s : State) (h : Follows tb a s) :
    AnsF tb a (resumeBody p d s) := by
  unfold resumeBody
  repeat' first
    | with_reducible assumption
    | with_reducible apply fail_follows
    | (lift_lets; intro x; clear_value x)
    | (intro)
    | (split)
    | with_reducible apply AnsF.intro

theorem execResume_follows {tb : Bool} {a : State} (p : Part) (d : CmdDesc) (s : State) (h : Follows tb a s) :
    ResF tb a (execResume p d s) := by
  unfold execResume
  repeat' first
    | with_reducible assumption
    | with_reducible apply resumeBody_follows
    | with_reducible apply runCommand_follows
    | with_reducible apply ResF.next

theorem State.wakeRecord_follows {tb : Bool} {a : State} (s : State) (h : Follows tb a s) : PairF tb a (State.wakeRecord s) := by
  unfold State.wakeRecord
  repeat' first
    | with_reducible assumption
    | (lift_lets; intro x; clear_value x)
    | (with_reducible apply PairF.out; with_reducible apply drawNat_follows)
    | with_reducible apply PairF.intro

theorem wakeReadBody_follows {tb : Bool} {a : State} (d : CmdDesc) (s : State) (h : Follows tb a s) :
    AnsF tb a (wakeReadBody d s) := by
  unfold wakeReadBody
  repeat' first
    | with_reducible assumption
    | with_reducible apply withOutput_follows
    | (with_reducible apply PairF.out; with_reducible apply State.wakeRecord_follows)

theorem execWakeRead_follows {tb : Bool} {a : State} (p : Part) (d : CmdDesc) (s : State) (h : Follows tb a s) :
    ResF tb a (execWakeRead p d s) := by
  unfold execWakeRead
  repeat' first
    | with_reducible assumption
    | with_reducible apply wakeReadBody_follows
    | with_reducible apply runCommand_follows
    | with_reducible apply ResF.next

theorem wakeAbuse_follows {tb : Bool} {a : State} (src : Fin 24) (s : State) (h : Follows tb a s) :
    Follows tb a (wakeAbuse src s) := by
  unfold wakeAbuse
  repeat' first
    | with_reducible assumption
    | with_reducible apply State.holdNode_follows
    | with_reducible apply State.report_follows
    | with_reducible apply State.count_follows
    | with_reducible apply State.setBt_follows
    | (intro x; refine Follows.cut (tb := tb) (a := a) (x := x) ?_ (fun _ => ?_); on_goal 2 => clear_value x)
    | (lift_lets; intro x; refine Follows.cut (tb := tb) (a := a) (x := x) ?_ (fun _ => ?_); on_goal 2 => clear_value x)
    | (intro)
    | (split)
    | (with_reducible apply Follows.same; with_reducible assumption)

theorem execWakeAbuse_follows {tb : Bool} {a : State} (src : Fin 24) (s : State) (h : Follows tb a s) :
    ResF tb a (execWakeAbuse src s) := by
  unfold execWakeAbuse
  repeat' first
    | with_reducible assumption
    | with_reducible apply wakeAbuse_follows
    | with_reducible apply clocked_follows
    | with_reducible apply ResF.next

theorem wakeAssertionEnd_follows {tb : Bool} {a : State} (src : Fin 24) (s : State) (h : Follows tb a s) :
    Follows tb a (wakeAssertionEnd src s) := by
  unfold wakeAssertionEnd
  repeat' first
    | with_reducible assumption
    | with_reducible apply State.setBt_follows
    | (split)

theorem execWakeAssertionEnd_follows {tb : Bool} {a : State} (src : Fin 24) (s : State) (h : Follows tb a s) :
    ResF tb a (execWakeAssertionEnd src s) := by
  unfold execWakeAssertionEnd
  repeat' first
    | with_reducible assumption
    | with_reducible apply wakeAssertionEnd_follows
    | with_reducible apply clocked_follows
    | with_reducible apply ResF.next

theorem idleClockGating_follows {tb : Bool} {a : State} (u : GateUnit) (gated : Bool) (s : State) (h : Follows tb a s) :
    Follows tb a (idleClockGating u gated s) := by
  unfold idleClockGating
  repeat' first
    | with_reducible assumption
    | with_reducible apply State.setBt_follows
    | (split)

theorem execIdleClockGating_follows {tb : Bool} {a : State} (u : GateUnit) (gated : Bool) (s : State) (h : Follows tb a s) :
    ResF tb a (execIdleClockGating u gated s) := by
  unfold execIdleClockGating
  repeat' first
    | with_reducible assumption
    | with_reducible apply idleClockGating_follows
    | with_reducible apply clocked_follows
    | with_reducible apply ResF.next

end Sys2Proof.Machine
end

