-- ==== Sys2Proof/Laws/FollowsHost.lean ====
section
/-! SUPPORT. What every effect keeps, one lemma per function: rings, register accesses, SPI, pairs, the thermal limits and the tick. -/

set_option linter.all false

namespace Sys2Proof.Machine

/-! ### Rings -/

theorem State.doorbellOn_follows {a : State} (s : State) (m : Part) (copy : Part) (v : W32) (h : Follows false a s) :
    Follows false a (State.doorbellOn s m copy v) := by
  unfold State.doorbellOn
  repeat' first
    | with_reducible assumption
    | with_reducible apply State.ringDoorbell_follows
    | with_reducible apply State.latchCause_follows
    | with_reducible apply State.setPath_follows
    | (intro x; refine Follows.cut (tb := false) (a := a) (x := x) ?_ (fun _ => ?_); on_goal 2 => clear_value x)
    | (lift_lets; intro x; clear_value x)
    | (split)

theorem doorbell_follows {a : State} (x0 : HostPort) (v : W32) (x2 : State) (h : Follows false a x2) :
    Follows false a (doorbell x0 v x2) := by
  unfold doorbell
  repeat' first
    | with_reducible assumption
    | with_reducible apply State.doorbellOn_follows
    | with_reducible apply onAccess_follows
    | (intro x (hx : Follows false a x))

theorem execDoorbell_follows {a : State} (x0 : HostPort) (v : W32) (s : State) (h : Follows false a s) :
    ResF false a (execDoorbell x0 v s) := by
  unfold execDoorbell
  repeat' first
    | with_reducible assumption
    | with_reducible apply doorbell_follows
    | with_reducible apply ResF.next

theorem State.takeDesc_follows {tb : Bool} {a : State} (s : State) (p : Part) (d : CmdDesc) (h : Follows tb a s) :
    Follows tb a (State.takeDesc s p d) := by
  unfold State.takeDesc
  repeat' first
    | with_reducible assumption
    | with_reducible apply State.setPath_follows
    | with_reducible apply State.setRgp_follows

theorem commandFetch_follows {tb : Bool} {a : State} (p : Part) (raw : List Byte) (buf : List Byte) (s : State) (h :
    Follows tb a s) : Follows tb a (commandFetch p raw buf s) := by
  unfold commandFetch
  repeat' first
    | with_reducible assumption
    | with_reducible apply State.takeDesc_follows
    | with_reducible apply State.violate_follows
    | with_reducible apply State.setPath_follows
    | (lift_lets; intro x; clear_value x)
    | (intro)
    | (split)

theorem execCommandFetch_follows {tb : Bool} {a : State} (p : Part) (raw : List Byte) (buf : List Byte) (s : State) (h :
    Follows tb a s) : ResF tb a (execCommandFetch p raw buf s) := by
  unfold execCommandFetch
  repeat' first
    | with_reducible assumption
    | with_reducible apply commandFetch_follows
    | with_reducible apply onSignalBox_follows
    | with_reducible apply ResF.next

theorem State.writeOut_follows {tb : Bool} {a : State} (s : State) (p : Part) (r : Reply) (h : Follows tb a s) :
    Follows tb a (State.writeOut s p r) := by
  unfold State.writeOut
  repeat' first
    | with_reducible assumption
    | with_reducible apply State.violate_follows
    | with_reducible apply State.emit_follows
    | (lift_lets; intro x; have : RegUnit := x; clear this)
    | (split)
    | (with_reducible apply Follows.bufWrite; with_reducible assumption)

theorem State.dropOut_follows {tb : Bool} {a : State} (s : State) (p : Part) (h : Follows tb a s) :
    Follows tb a (State.dropOut s p) := by
  unfold State.dropOut
  repeat' first
    | with_reducible assumption
    | with_reducible apply State.setPath_follows
    | (lift_lets; intro x; clear_value x)
    | (split)

theorem State.releaseReply_follows {tb : Bool} {a : State} (s : State) (p : Part) (r : Reply) (h : Follows tb a s) :
    Follows tb a (State.releaseReply s p r) := by
  unfold State.releaseReply
  repeat' first
    | with_reducible assumption
    | with_reducible apply State.writeOut_follows
    | with_reducible apply State.endSeal_follows
    | with_reducible apply State.setPath_follows
    | (split)

theorem replyRelease_follows {tb : Bool} {a : State} (p : Part) (tag : BitVec 12) (s : State) (h : Follows tb a s) :
    Follows tb a (replyRelease p tag s) := by
  unfold replyRelease
  repeat' first
    | with_reducible assumption
    | with_reducible apply State.releaseReply_follows
    | (split)

theorem execReplyRelease_follows {tb : Bool} {a : State} (p : Part) (tag : BitVec 12) (s : State) (h : Follows tb a s) :
    ResF tb a (execReplyRelease p tag s) := by
  unfold execReplyRelease
  repeat' first
    | with_reducible assumption
    | with_reducible apply replyRelease_follows
    | with_reducible apply onSignalBox_follows
    | with_reducible apply ResF.next

theorem State.cqAdvance_follows {tb : Bool} {a : State} (s : State) (p : Part) (r : Reply) (h : Follows tb a s) :
    Follows tb a (State.cqAdvance s p r) := by
  unfold State.cqAdvance
  repeat' first
    | with_reducible assumption
    | with_reducible apply State.setPath_follows
    | with_reducible apply State.modRgp_follows

theorem State.writeReply_follows {tb : Bool} {a : State} (s : State) (p : Part) (h : Follows tb a s) :
    PairF tb a (State.writeReply s p) := by
  unfold State.writeReply
  repeat' first
    | with_reducible assumption
    | with_reducible apply State.cqAdvance_follows
    | with_reducible apply State.dropOut_follows
    | with_reducible apply State.writeOut_follows
    | with_reducible apply State.violate_follows
    | with_reducible apply State.emit_follows
    | (intro x; refine Follows.cut (tb := tb) (a := a) (x := x) ?_ (fun _ => ?_); on_goal 2 => clear_value x)
    | (lift_lets; intro x; refine Follows.cut (tb := tb) (a := a) (x := x) ?_ (fun _ => ?_); on_goal 2 => clear_value x)
    | (split)
    | with_reducible apply PairF.intro

theorem cqReplyWrite_follows {tb : Bool} {a : State} (p : Part) (s : State) (h : Follows tb a s) :
    Follows tb a (cqReplyWrite p s) := by
  unfold cqReplyWrite
  repeat' first
    | with_reducible assumption
    | (split)
    | (with_reducible apply PairF.out; with_reducible apply State.writeReply_follows)

theorem execCqReplyWrite_follows {tb : Bool} {a : State} (p : Part) (s : State) (h : Follows tb a s) :
    ResF tb a (execCqReplyWrite p s) := by
  unfold execCqReplyWrite
  repeat' first
    | with_reducible assumption
    | with_reducible apply cqReplyWrite_follows
    | with_reducible apply onSignalBox_follows
    | with_reducible apply ResF.next

theorem State.ringIgnored_follows {tb : Bool} {a : State} (s : State) (m : Part) (off : ℕ) (h : Follows tb a s) :
    Follows tb a (State.ringIgnored s m off) := by
  unfold State.ringIgnored
  repeat' first
    | with_reducible assumption
    | with_reducible apply State.report_follows

theorem State.writeCqHead_follows {tb : Bool} {a : State} (s : State) (m : Part) (copy : Part) (v : W32) (h : Follows tb a s) :
    Follows tb a (State.writeCqHead s m copy v) := by
  unfold State.writeCqHead
  repeat' first
    | with_reducible assumption
    | with_reducible apply State.report_follows
    | with_reducible apply State.setRgp_follows
    | (lift_lets; intro x; clear_value x)
    | (intro)
    | (split)

theorem execCqHeadWrite_follows {tb : Bool} {a : State} (x0 : HostPort) (v : W32) (s : State) (h : Follows tb a s) :
    ResF tb a (execCqHeadWrite x0 v s) := by
  unfold execCqHeadWrite
  repeat' first
    | with_reducible assumption
    | with_reducible apply State.writeCqHead_follows
    | with_reducible apply onWrite_follows
    | with_reducible apply ResF.next
    | (intro x (hx : Follows tb a x))

theorem State.writeCmdCtl_follows {tb : Bool} {a : State} (s : State) (copy : Part) (v : W32) (h : Follows tb a s) :
    Follows tb a (State.writeCmdCtl s copy v) := by
  unfold State.writeCmdCtl
  repeat' first
    | with_reducible assumption
    | with_reducible apply State.setPath_follows
    | with_reducible apply State.setRgp_follows
    | (intro x; refine Follows.cut (tb := tb) (a := a) (x := x) ?_ (fun _ => ?_); on_goal 2 => clear_value x)
    | (lift_lets; intro x; clear_value x)
    | (intro)
    | (split)

theorem execCmdCtlWrite_follows {tb : Bool} {a : State} (x0 : HostPort) (v : W32) (s : State) (h : Follows tb a s) :
    ResF tb a (execCmdCtlWrite x0 v s) := by
  unfold execCmdCtlWrite
  repeat' first
    | with_reducible assumption
    | with_reducible apply State.writeCmdCtl_follows
    | with_reducible apply onWrite_follows
    | with_reducible apply ResF.next
    | (intro x (hx : Follows tb a x))

theorem State.writeRing_follows {tb : Bool} {a : State} (s : State) (m : Part) (copy : Part) (off : ℕ) (v : W32) (h :
    Follows tb a s) : Follows tb a (State.writeRing s m copy off v) := by
  unfold State.writeRing
  repeat' first
    | with_reducible assumption
    | with_reducible apply State.ringIgnored_follows
    | with_reducible apply State.setRgp_follows
    | (lift_lets; intro x; clear_value x)
    | (intro)
    | (split)

theorem State.writeHeld_follows {tb : Bool} {a : State} (s : State) (p : Part) (x2 : ℕ) (h : Follows tb a s) :
    Follows tb a (State.writeHeld s p x2) := by
  induction x2 generalizing s with
  | zero =>
    unfold State.writeHeld
    repeat' with_reducible assumption
  | succ n ih =>
    unfold State.writeHeld
    repeat' first
      | with_reducible assumption
      | with_reducible apply ih
      | with_reducible apply State.writeReply_follows
      | (split)
      | (refine PairF.elim (by with_reducible assumption) ?_)

theorem State.sendWaiting_follows {tb : Bool} {a : State} (s : State) (p : Part) (h : Follows tb a s) :
    Follows tb a (State.sendWaiting s p) := by
  unfold State.sendWaiting
  repeat' first
    | with_reducible assumption
    | with_reducible apply State.resumeCapture_follows
    | with_reducible apply State.setPath_follows
    | with_reducible apply State.emit_follows
    | with_reducible apply Follows.foldl
    | (intro x y (hx : Follows tb a x))
    | (lift_lets; intro x; clear_value x)
    | (split)

theorem State.thaw_follows {tb : Bool} {a : State} (s : State) (p : Part) (h : Follows tb a s) :
    Follows tb a (State.thaw s p) := by
  unfold State.thaw
  repeat' first
    | with_reducible assumption
    | with_reducible apply State.sendWaiting_follows
    | with_reducible apply State.writeHeld_follows
    | with_reducible apply State.releaseReply_follows
    | with_reducible apply State.modRgp_follows
    | with_reducible apply Follows.foldl
    | (intro x y (hx : Follows tb a x))
    | (split)

theorem partThawBody_follows {tb : Bool} {a : State} (d : CmdDesc) (s : State) (h : Follows tb a s) :
    AnsF tb a (partThawBody d s) := by
  unfold partThawBody
  repeat' first
    | with_reducible assumption
    | with_reducible apply State.thaw_follows
    | with_reducible apply fail_follows
    | (lift_lets; intro x; clear_value x)
    | (split)
    | with_reducible apply AnsF.intro

theorem execPartThaw_follows {tb : Bool} {a : State} (p : Part) (d : CmdDesc) (s : State) (h : Follows tb a s) :
    ResF tb a (execPartThaw p d s) := by
  unfold execPartThaw
  repeat' first
    | with_reducible assumption
    | with_reducible apply partThawBody_follows
    | with_reducible apply runCommand_follows
    | with_reducible apply ResF.next

theorem State.resetPath_follows {tb : Bool} {a : State} (s : State) (p : Part) (h : Follows tb a s) :
    Follows tb a (State.resetPath s p) := by
  unfold State.resetPath
  repeat' first
    | with_reducible assumption
    | with_reducible apply State.endSeal_follows
    | with_reducible apply State.setPath_follows
    | with_reducible apply Follows.foldl
    | (intro x y (hx : Follows tb a x))

theorem State.resetSlot_follows {tb : Bool} {a : State} (s : State) (p : Part) (k : ℕ) (h : Follows tb a s) :
    Follows tb a (State.resetSlot s p k) := by
  unfold State.resetSlot
  repeat' first
    | with_reducible assumption
    | with_reducible apply State.freeSlot_follows
    | with_reducible apply State.complete_follows
    | (split)

theorem State.resetCapRings_follows {tb : Bool} {a : State} (s : State) (p : Part) (h : Follows tb a s) :
    Follows tb a (State.resetCapRings s p) := by
  unfold State.resetCapRings
  repeat' first
    | with_reducible assumption
    | with_reducible apply State.zeroRings_follows
    | with_reducible apply Follows.foldl

theorem State.resetFunction_follows {tb : Bool} {a : State} (s : State) (p : Part) (h : Follows tb a s) :
    Follows tb a (State.resetFunction s p) := by
  unfold State.resetFunction
  repeat' first
    | with_reducible assumption
    | with_reducible apply State.resetCapRings_follows
    | with_reducible apply State.resetSlot_follows
    | with_reducible apply State.resetPath_follows
    | with_reducible apply State.startRemotes_follows
    | with_reducible apply State.setMould_follows
    | with_reducible apply State.modRgp_follows
    | with_reducible apply State.setRgp_follows
    | with_reducible apply Follows.foldl
    | (intro x y (hx : Follows tb a x))
    | (split)

theorem functionLevelReset_follows {tb : Bool} {a : State} (x0 : HostPort) (s : State) (h : Follows tb a s) :
    Follows tb a (functionLevelReset x0 s) := by
  unfold functionLevelReset
  repeat' first
    | with_reducible assumption
    | with_reducible apply State.resetFunction_follows
    | (split)

theorem execFunctionLevelReset_follows {tb : Bool} {a : State} (x0 : HostPort) (s : State) (h : Follows tb a s) :
    ResF tb a (execFunctionLevelReset x0 s) := by
  unfold execFunctionLevelReset
  repeat' first
    | with_reducible assumption
    | with_reducible apply functionLevelReset_follows
    | with_reducible apply ResF.next

theorem State.setLink_follows {tb : Bool} {a : State} (s : State) (x1 : HostPort) (up : Bool) (h : Follows tb a s) :
    Follows tb a (State.setLink s x1 up) := by
  unfold State.setLink
  repeat' first
    | (lift_lets; intro x; clear_value x)
    | (with_reducible apply Follows.same; with_reducible assumption)

theorem hostLinkDown_follows {tb : Bool} {a : State} (x0 : HostPort) (s : State) (h : Follows tb a s) :
    Follows tb a (hostLinkDown x0 s) := by
  unfold hostLinkDown
  repeat' first
    | with_reducible assumption
    | with_reducible apply State.setLink_follows
    | with_reducible apply State.report_follows
    | (split)

theorem execHostLinkDown_follows {tb : Bool} {a : State} (x0 : HostPort) (s : State) (h : Follows tb a s) :
    ResF tb a (execHostLinkDown x0 s) := by
  unfold execHostLinkDown
  repeat' first
    | with_reducible assumption
    | with_reducible apply hostLinkDown_follows
    | with_reducible apply clocked_follows
    | with_reducible apply ResF.next

theorem hostLinkUp_follows {tb : Bool} {a : State} (x0 : HostPort) (width : ℕ) (s : State) (h : Follows tb a s) :
    Follows tb a (hostLinkUp x0 width s) := by
  unfold hostLinkUp
  repeat' first
    | with_reducible assumption
    | with_reducible apply State.setLink_follows
    | with_reducible apply State.sendWaiting_follows
    | with_reducible apply State.report_follows
    | (split)

theorem execHostLinkUp_follows {tb : Bool} {a : State} (x0 : HostPort) (width : ℕ) (s : State) (h : Follows tb a s) :
    ResF tb a (execHostLinkUp x0 width s) := by
  unfold execHostLinkUp
  repeat' first
    | with_reducible assumption
    | with_reducible apply hostLinkUp_follows
    | with_reducible apply clocked_follows
    | with_reducible apply ResF.next

theorem hostLinkTimeout_follows {tb : Bool} {a : State} (x0 : HostPort) (s : State) (h : Follows tb a s) :
    Follows tb a (hostLinkTimeout x0 s) := by
  unfold hostLinkTimeout
  repeat' first
    | with_reducible assumption
    | with_reducible apply State.resetFunction_follows
    | with_reducible apply State.report_follows
    | (split)

theorem execHostLinkTimeout_follows {tb : Bool} {a : State} (x0 : HostPort) (s : State) (h : Follows tb a s) :
    ResF tb a (execHostLinkTimeout x0 s) := by
  unfold execHostLinkTimeout
  repeat' first
    | with_reducible assumption
    | with_reducible apply hostLinkTimeout_follows
    | with_reducible apply clocked_follows
    | with_reducible apply ResF.next

/-! ### Chk -/

theorem State.chkFold_follows {tb : Bool} {a : State} (s : State) (k : ℕ) (l : List Byte) (h : Follows tb a s) :
    Follows tb a (State.chkFold s k l) := by
  unfold State.chkFold
  repeat' first
    | with_reducible assumption
    | with_reducible apply State.setWide_follows
    | with_reducible apply State.count_follows

theorem State.chkLoad_follows {tb : Bool} {a : State} (s : State) (k : ℕ) (v : W32) (h : Follows tb a s) :
    Follows tb a (State.chkLoad s k v) := by
  unfold State.chkLoad
  repeat' first
    | with_reducible assumption
    | with_reducible apply State.setWide_follows
    | with_reducible apply State.setRg_follows
    | (split)

theorem execChkLoad_follows {tb : Bool} {a : State} (p : Part) (k : Fin 8) (v : W32) (s : State) (h : Follows tb a s) :
    ResF tb a (execChkLoad p k v s) := by
  unfold execChkLoad
  repeat' first
    | with_reducible assumption
    | with_reducible apply State.chkLoad_follows
    | with_reducible apply onWrite_follows
    | with_reducible apply ResF.next
    | (intro x (hx : Follows tb a x))

theorem chkDataWrite_follows {tb : Bool} {a : State} (k : ℕ) (r : ChkData) (v : W64) (s : State) (h : Follows tb a s) :
    Follows tb a (chkDataWrite k r v s) := by
  unfold chkDataWrite
  repeat' first
    | with_reducible assumption
    | with_reducible apply State.chkFold_follows

theorem execChkDataWrite_follows {tb : Bool} {a : State} (p : Part) (k : Fin 8) (r : ChkData) (v : W64) (s : State) (h :
    Follows tb a s) : ResF tb a (execChkDataWrite p k r v s) := by
  unfold execChkDataWrite
  repeat' first
    | with_reducible assumption
    | with_reducible apply chkDataWrite_follows
    | with_reducible apply onWrite_follows
    | with_reducible apply ResF.next

theorem State.writeChkCfg_follows {tb : Bool} {a : State} (s : State) (m : Part) (k : ℕ) (v : W32) (h : Follows tb a s) :
    Follows tb a (State.writeChkCfg s m k v) := by
  unfold State.writeChkCfg
  repeat' first
    | with_reducible assumption
    | with_reducible apply State.report_follows
    | with_reducible apply State.setRg_follows
    | (split)

theorem execChkCfgWrite_follows {tb : Bool} {a : State} (p : Part) (k : Fin 8) (v : W32) (s : State) (h : Follows tb a s) :
    ResF tb a (execChkCfgWrite p k v s) := by
  unfold execChkCfgWrite
  repeat' first
    | with_reducible assumption
    | with_reducible apply State.writeChkCfg_follows
    | with_reducible apply onWrite_follows
    | with_reducible apply ResF.next
    | (intro x (hx : Follows tb a x))

/-! ### Access -/

theorem State.readWord_follows {tb : Bool} {a : State} (s : State) (m : Part) (copy : Part) (off : ℕ) (h : Follows tb a s) :
    PairF tb a (State.readWord s m copy off) := by
  unfold State.readWord
  repeat' first
    | with_reducible assumption
    | with_reducible apply State.phaseNow_follows
    | with_reducible apply State.takeSem_follows
    | with_reducible apply State.peek_follows
    | with_reducible apply State.setLatch_follows
    | with_reducible apply State.setRg_follows
    | (intro x; refine Follows.cut (tb := tb) (a := a) (x := x) ?_ (fun _ => ?_); on_goal 2 => clear_value x)
    | (lift_lets; intro x; clear_value x)
    | (intro)
    | (split)
    | (with_reducible apply Follows.same; with_reducible assumption)
    | with_reducible apply PairF.intro

theorem State.slotWord_follows {tb : Bool} {a : State} (s : State) (copy : Part) (off : ℕ) (h : Follows tb a s) :
    PairF tb a (State.slotWord s copy off) := by
  unfold State.slotWord
  repeat' first
    | with_reducible assumption
    | with_reducible apply drawNat_follows
    | (lift_lets; intro x; clear_value x)
    | (split)
    | (refine PairF.elim (by with_reducible assumption) ?_)
    | with_reducible apply PairF.intro

theorem State.readAt_follows {tb : Bool} {a : State} (s : State) (m : Part) (addr : ℕ) (h : Follows tb a s) :
    PairF tb a (State.readAt s m addr) := by
  unfold State.readAt
  repeat' first
    | with_reducible assumption
    | with_reducible apply State.slotWord_follows
    | with_reducible apply State.readWord_follows
    | with_reducible apply State.violate_follows
    | with_reducible apply State.report_follows
    | (split)
    | with_reducible apply PairF.intro

theorem readRow_follows {tb : Bool} {a : State} (p : Part) (addr : W32) (eight : Bool) (x3 : State) (h : Follows tb a x3) :
    Follows tb a (readRow p addr eight x3) := by
  unfold readRow
  repeat' first
    | with_reducible assumption
    | with_reducible apply mailboxAt_follows
    | with_reducible apply unsupported_follows
    | with_reducible apply answer_follows
    | with_reducible apply onAccess_follows
    | (intro x (hx : Follows tb a x))
    | (split)
    | (with_reducible apply PairF.out; with_reducible apply State.readAt_follows)

theorem execRegisterRead_follows {tb : Bool} {a : State} (p : Part) (addr : W32) (eight : Bool) (s : State) (h : Follows tb a s) :
    ResF tb a (execRegisterRead p addr eight s) := by
  unfold execRegisterRead
  repeat' first
    | with_reducible assumption
    | with_reducible apply readRow_follows
    | with_reducible apply ResF.next

theorem execRocRead_follows {tb : Bool} {a : State} (p : Part) (addr : W32) (s : State) (h : Follows tb a s) :
    ResF tb a (execRocRead p addr s) := by
  unfold execRocRead
  repeat' first
    | with_reducible assumption
    | with_reducible apply readRow_follows
    | with_reducible apply ResF.next

theorem execCounterLoRead_follows {tb : Bool} {a : State} (p : Part) (addr : W32) (eight : Bool) (s : State) (h : Follows tb a s) :
    ResF tb a (execCounterLoRead p addr eight s) := by
  unfold execCounterLoRead
  repeat' first
    | with_reducible assumption
    | with_reducible apply readRow_follows
    | with_reducible apply ResF.next

theorem State.stageWrite_follows {tb : Bool} {a : State} (s : State) (m : Part) (copy : Part) (off : ℕ) (v : W32) (h :
    Follows tb a s) : Follows tb a (State.stageWrite s m copy off v) := by
  unfold State.stageWrite
  repeat' first
    | with_reducible assumption
    | with_reducible apply State.stageReg_follows
    | with_reducible apply State.report_follows
    | (intro x; refine AnsF.cut (tb := tb) (a := a) (x := x) ?_ (fun _ => ?_); on_goal 2 => clear_value x)
    | (lift_lets; intro x; clear_value x)
    | (split)
    | (with_reducible apply AnsF.out; with_reducible assumption)

theorem State.plainWrite_follows {tb : Bool} {a : State} (s : State) (m : Part) (copy : Part) (off : ℕ) (v : W32) (h :
    Follows tb a s) : Follows tb a (State.plainWrite s m copy off v) := by
  unfold State.plainWrite
  repeat' first
    | with_reducible assumption
    | with_reducible apply State.stageWrite_follows
    | with_reducible apply State.setKey_follows
    | (lift_lets; intro x; clear_value x)
    | (intro)
    | (split)

theorem State.writeCmd_follows {a : State} (s : State) (m : Part) (copy : Part) (off : ℕ) (v : W32) (h : Follows false a s) :
    Follows false a (State.writeCmd s m copy off v) := by
  unfold State.writeCmd
  repeat' first
    | with_reducible assumption
    | with_reducible apply State.plainWrite_follows
    | with_reducible apply State.writeRing_follows
    | with_reducible apply State.writeCmdCtl_follows
    | with_reducible apply State.writeCqHead_follows
    | with_reducible apply State.ringIgnored_follows
    | with_reducible apply State.doorbellOn_follows
    | with_reducible apply brgSemRelease_follows
    | with_reducible apply brgSlotRelease_follows
    | with_reducible apply brgSlotReq_follows
    | with_reducible apply State.report_follows
    | (lift_lets; intro x; clear_value x)
    | (split)

theorem State.writeCap_follows {tb : Bool} {a : State} (s : State) (m : Part) (copy : Part) (off : ℕ) (v : W32) (h :
    Follows tb a s) : Follows tb a (State.writeCap s m copy off v) := by
  unfold State.writeCap
  repeat' first
    | with_reducible assumption
    | with_reducible apply State.plainWrite_follows
    | with_reducible apply capPop_follows
    | with_reducible apply capAck_follows
    | with_reducible apply capHrdWrite_follows
    | (lift_lets; intro x; clear_value x)
    | (split)

theorem State.writeChk_follows {tb : Bool} {a : State} (s : State) (m : Part) (copy : Part) (off : ℕ) (v : W32) (h :
    Follows tb a s) : Follows tb a (State.writeChk s m copy off v) := by
  unfold State.writeChk
  repeat' first
    | with_reducible assumption
    | with_reducible apply State.plainWrite_follows
    | with_reducible apply State.writeChkCfg_follows
    | with_reducible apply State.chkLoad_follows
    | with_reducible apply State.chkFold_follows
    | with_reducible apply State.setWide_follows
    | (lift_lets; intro x; clear_value x)
    | (split)

theorem State.writeMask_follows {tb : Bool} {a : State} (s : State) (v : W32) (h : Follows tb a s) :
    Follows tb a (State.writeMask s v) := by
  unfold State.writeMask
  repeat' first
    | with_reducible assumption
    | with_reducible apply State.setBt_follows
    | with_reducible apply Follows.foldl
    | (intro x y (hx : Follows tb a x))
    | (lift_lets; intro x; refine Follows.cut (tb := tb) (a := a) (x := x) ?_ (fun _ => ?_); on_goal 2 => clear_value x)
    | (intro)
    | (split)
    | (with_reducible apply Follows.same; with_reducible assumption)

theorem State.writeWord_follows {a : State} (s : State) (m : Part) (copy : Part) (off : ℕ) (v : W32) (h : Follows false a s) :
    Follows false a (State.writeWord s m copy off v) := by
  unfold State.writeWord
  repeat' first
    | with_reducible assumption
    | with_reducible apply State.writeMask_follows
    | with_reducible apply State.writeChk_follows
    | with_reducible apply State.writeCap_follows
    | with_reducible apply State.writeCmd_follows
    | with_reducible apply State.plainWrite_follows
    | with_reducible apply bootReset_follows
    | with_reducible apply bootRearm_follows
    | with_reducible apply State.refreshFault_follows
    | with_reducible apply State.mdioStart_follows
    | with_reducible apply tsuLatch_follows
    | (split)

theorem State.writeAt_follows {a : State} (s : State) (m : Part) (addr : ℕ) (v : W32) (h : Follows false a s) :
    Follows false a (State.writeAt s m addr v) := by
  unfold State.writeAt
  repeat' first
    | with_reducible assumption
    | with_reducible apply State.writeWord_follows
    | with_reducible apply State.ringIgnored_follows
    | with_reducible apply State.violate_follows
    | with_reducible apply State.report_follows
    | (lift_lets; intro x; have : RegUnit := x; clear this)
    | (split)
    | (with_reducible apply Follows.boxWrite; with_reducible assumption)
    | (with_reducible apply Follows.bufWrite; with_reducible assumption)

theorem writeRow_follows {a : State} (p : Part) (addr : W32) (v : W64) (eight : Bool) (x4 : State) (h : Follows false a x4) :
    Follows false a (writeRow p addr v eight x4) := by
  unfold writeRow
  repeat' first
    | with_reducible assumption
    | with_reducible apply State.writeAt_follows
    | with_reducible apply mailboxAt_follows
    | with_reducible apply unsupported_follows
    | with_reducible apply onAccess_follows
    | (intro x (hx : Follows false a x))
    | (lift_lets; intro x; refine Follows.cut (tb := false) (a := a) (x := x) ?_ (fun _ => ?_); on_goal 2 => clear_value x)
    | (split)

theorem execRegisterWrite_follows {a : State} (p : Part) (addr : W32) (v : W64) (eight : Bool) (s : State) (h :
    Follows false a s) : ResF false a (execRegisterWrite p addr v eight s) := by
  unfold execRegisterWrite
  repeat' first
    | with_reducible assumption
    | with_reducible apply writeRow_follows
    | with_reducible apply ResF.next

theorem execRwpWrite_follows {a : State} (p : Part) (addr : W32) (v : W64) (eight : Bool) (s : State) (h : Follows false a s) :
    ResF false a (execRwpWrite p addr v eight s) := by
  unfold execRwpWrite
  repeat' first
    | with_reducible assumption
    | with_reducible apply writeRow_follows
    | with_reducible apply ResF.next

theorem diagSnapshotBody_follows {tb : Bool} {a : State} (p : Part) (d : CmdDesc) (s : State) (h : Follows tb a s) :
    AnsF tb a (diagSnapshotBody p d s) := by
  unfold diagSnapshotBody
  repeat' first
    | with_reducible assumption
    | with_reducible apply State.chkLeave_follows
    | with_reducible apply State.chkEnter_follows
    | with_reducible apply withOutput_follows

theorem execDiagSnapshot_follows {tb : Bool} {a : State} (p : Part) (d : CmdDesc) (s : State) (h : Follows tb a s) :
    ResF tb a (execDiagSnapshot p d s) := by
  unfold execDiagSnapshot
  repeat' first
    | with_reducible assumption
    | with_reducible apply diagSnapshotBody_follows
    | with_reducible apply runCommand_follows
    | with_reducible apply ResF.next

/-! ### Dispatcher -/

theorem State.start_follows {tb : Bool} {a : State} (s : State) (p : Part) (d : CmdDesc) (words : ℕ) (h : Follows tb a s) :
    Follows tb a (State.start s p d words) := by
  unfold State.start
  repeat' first
    | with_reducible assumption
    | with_reducible apply State.complete_follows
    | with_reducible apply State.violate_follows
    | with_reducible apply State.setPath_follows
    | (intro x; refine Follows.cut (tb := tb) (a := a) (x := x) ?_ (fun _ => ?_); on_goal 2 => clear_value x)
    | (lift_lets; intro x; clear_value x)
    | (intro)
    | (split)
    | (with_reducible apply Follows.same; with_reducible assumption)

theorem State.dispatch_follows {tb : Bool} {a : State} (s : State) (p : Part) (h : Follows tb a s) :
    Follows tb a (State.dispatch s p) := by
  unfold State.dispatch
  repeat' first
    | with_reducible assumption
    | with_reducible apply State.start_follows
    | with_reducible apply State.granted_follows
    | (lift_lets; intro x; refine Follows.cut (tb := tb) (a := a) (x := x) ?_ (fun _ => ?_); on_goal 2 => clear_value x)
    | (intro)
    | (split)
    | (with_reducible apply Follows.same; with_reducible assumption)

theorem dispatchGrant_follows {tb : Bool} {a : State} (s0 : State) (h : Follows tb a s0) : Follows tb a (dispatchGrant s0) := by
  unfold dispatchGrant
  repeat' first
    | with_reducible assumption
    | with_reducible apply State.dispatch_follows
    | with_reducible apply State.endPourStep_follows
    | (lift_lets; intro x; refine Follows.cut (tb := tb) (a := a) (x := x) ?_ (fun _ => ?_); on_goal 2 => clear_value x)
    | (split)

theorem execDispatchGrant_follows {tb : Bool} {a : State} (s : State) (h : Follows tb a s) : ResF tb a (execDispatchGrant s) := by
  unfold execDispatchGrant
  repeat' first
    | with_reducible assumption
    | with_reducible apply dispatchGrant_follows
    | with_reducible apply onSignalBox_follows
    | with_reducible apply ResF.next

/-! ### Pairs -/

theorem State.rewind_follows {tb : Bool} {a : State} (s : State) (p : Part) (h : Follows tb a s) :
    Follows tb a (State.rewind s p) := by
  unfold State.rewind
  repeat' first
    | with_reducible assumption
    | with_reducible apply State.freeSlot_follows
    | with_reducible apply State.setPath_follows
    | with_reducible apply Follows.foldl
    | (intro x y (hx : Follows tb a x))
    | (intro x; refine Follows.cut (tb := tb) (a := a) (x := x) ?_ (fun _ => ?_); on_goal 2 => clear_value x)
    | (lift_lets; intro x; clear_value x)
    | (intro)
    | (split)
    | (with_reducible apply Follows.same; with_reducible assumption)

theorem State.unpour_follows {tb : Bool} {a : State} (s : State) (h : Follows tb a s) : Follows tb a (State.unpour s) := by
  unfold State.unpour
  repeat' first
    | with_reducible assumption
    | with_reducible apply State.endSeal_follows
    | with_reducible apply Follows.foldl
    | (intro x y (hx : Follows tb a x))
    | (lift_lets; intro x; clear_value x)
    | (with_reducible apply Follows.same; with_reducible assumption)

theorem signalBoxFailover_follows {tb : Bool} {a : State} (s : State) (h : Follows tb a s) :
    Follows tb a (signalBoxFailover s) := by
  unfold signalBoxFailover
  repeat' first
    | with_reducible assumption
    | with_reducible apply State.unpour_follows
    | with_reducible apply State.rewind_follows
    | with_reducible apply State.chkEnter_follows
    | with_reducible apply State.setFault_follows
    | with_reducible apply State.report_follows
    | with_reducible apply State.setBt_follows
    | with_reducible apply Follows.foldl
    | (intro x; refine Follows.cut (tb := tb) (a := a) (x := x) ?_ (fun _ => ?_); on_goal 2 => clear_value x)
    | (lift_lets; intro x; clear_value x)
    | (intro)
    | (split)
    | (with_reducible apply Follows.same; with_reducible assumption)

theorem execSignalBoxFailover_follows {tb : Bool} {a : State} (s : State) (h : Follows tb a s) :
    ResF tb a (execSignalBoxFailover s) := by
  unfold execSignalBoxFailover
  repeat' first
    | with_reducible assumption
    | with_reducible apply signalBoxFailover_follows
    | with_reducible apply clocked_follows
    | with_reducible apply ResF.next

theorem pairSelfTestDone_follows {tb : Bool} {a : State} (pass : Bool) (s : State) (h : Follows tb a s) :
    Follows tb a (pairSelfTestDone pass s) := by
  unfold pairSelfTestDone
  repeat' first
    | with_reducible assumption
    | with_reducible apply State.chkLeave_follows
    | with_reducible apply State.setFault_follows
    | with_reducible apply State.report_follows
    | with_reducible apply State.setBt_follows
    | (intro x; refine Follows.cut (tb := tb) (a := a) (x := x) ?_ (fun _ => ?_); on_goal 2 => clear_value x)
    | (lift_lets; intro x; clear_value x)
    | (intro)
    | (split)
    | (with_reducible apply Follows.same; with_reducible assumption)

theorem execPairSelfTestDone_follows {tb : Bool} {a : State} (pass : Bool) (s : State) (h : Follows tb a s) :
    ResF tb a (execPairSelfTestDone pass s) := by
  unfold execPairSelfTestDone
  repeat' first
    | with_reducible assumption
    | with_reducible apply pairSelfTestDone_follows
    | with_reducible apply clocked_follows
    | with_reducible apply ResF.next

/-! ### Spi -/

theorem spiRun_follows {tb : Bool} {a : State} (f : State → SpiRes) (s : State) (h : Follows tb a s) (hf :
    ∀ x0_, Follows tb a x0_ → OptP tb a (f x0_)) : Follows tb a (spiRun f s) := by
  unfold spiRun
  repeat' first
    | with_reducible assumption
    | with_reducible apply hf
    | with_reducible apply State.emit_follows
    | (lift_lets; intro x; refine Follows.cut (tb := tb) (a := a) (x := x) ?_ (fun _ => ?_); on_goal 2 => clear_value x)
    | (intro)
    | (split)
    | (refine OptP.elim ?_ (by with_reducible assumption))
    | (with_reducible apply Follows.same; with_reducible assumption)

theorem State.readWords_follows {tb : Bool} {a : State} (s : State) (x1 : List ℕ) (h : Follows tb a s) :
    PairF tb a (State.readWords s x1) := by
  induction x1 generalizing s with
  | nil =>
    unfold State.readWords
    repeat' first
      | with_reducible assumption
      | with_reducible apply PairF.intro
  | cons y l ih =>
    unfold State.readWords
    repeat' first
      | with_reducible assumption
      | with_reducible apply ih
      | with_reducible apply State.readAt_follows
      | (split)
      | (refine PairF.elim (by with_reducible assumption) ?_)
      | with_reducible apply PairF.intro

theorem spiRead_follows {tb : Bool} {a : State} (addr : W32) (n : ℕ) (crcOk : Bool) (x3 : State) (h : Follows tb a x3) :
    Follows tb a (spiRead addr n crcOk x3) := by
  unfold spiRead
  repeat' first
    | with_reducible assumption
    | with_reducible apply spiRun_follows
    | with_reducible exact OptP.none
    | with_reducible apply OptP.some
    | (intro x (hx : Follows tb a x))
    | (lift_lets; intro x; clear_value x)
    | (split)
    | (with_reducible apply PairF.out; with_reducible apply State.readWords_follows)
    | with_reducible apply PairF.intro

theorem execSpiRead_follows {tb : Bool} {a : State} (addr : W32) (n : ℕ) (crcOk : Bool) (s : State) (h : Follows tb a s) :
    ResF tb a (execSpiRead addr n crcOk s) := by
  unfold execSpiRead
  repeat' first
    | with_reducible assumption
    | with_reducible apply spiRead_follows
    | with_reducible apply ResF.next

theorem spiWrite_follows {a : State} (addr : W32) (words : List W32) (crcOk : Bool) (x3 : State) (h : Follows false a x3) :
    Follows false a (spiWrite addr words crcOk x3) := by
  unfold spiWrite
  repeat' first
    | with_reducible assumption
    | with_reducible apply spiRun_follows
    | with_reducible apply State.writeAt_follows
    | with_reducible exact OptP.none
    | with_reducible apply OptP.some
    | with_reducible apply Follows.foldl
    | (intro x (hx : Follows false a x))
    | (intro x y (hx : Follows false a x))
    | (lift_lets; intro x; clear_value x)
    | (split)
    | with_reducible apply PairF.intro

theorem execSpiWrite_follows {a : State} (addr : W32) (words : List W32) (crcOk : Bool) (s : State) (h : Follows false a s) :
    ResF false a (execSpiWrite addr words crcOk s) := by
  unfold execSpiWrite
  repeat' first
    | with_reducible assumption
    | with_reducible apply spiWrite_follows
    | with_reducible apply ResF.next

theorem State.pushDesc_follows {tb : Bool} {a : State} (s : State) (raw : List Byte) (h : Follows tb a s) :
    Follows tb a (State.pushDesc s raw) := by
  unfold State.pushDesc
  repeat' first
    | with_reducible assumption
    | with_reducible apply State.setPath_follows
    | with_reducible apply State.setRgp_follows
    | (intro x; refine Follows.cut (tb := tb) (a := a) (x := x) ?_ (fun _ => ?_); on_goal 2 => clear_value x)
    | (lift_lets; intro x; clear_value x)
    | (split)

theorem State.takePush_follows {a : State} (s : State) (raw : List Byte) (h : Follows false a s) :
    Follows false a (State.takePush s raw) := by
  unfold State.takePush
  repeat' first
    | with_reducible assumption
    | with_reducible apply State.pushDesc_follows
    | with_reducible apply State.latchCause_follows
    | (split)

theorem spiPush_follows {a : State} (raw : List Byte) (crcOk : Bool) (s : State) (h : Follows false a s) :
    Follows false a (spiPush raw crcOk s) := by
  unfold spiPush
  repeat' first
    | with_reducible assumption
    | with_reducible apply State.takePush_follows
    | with_reducible apply spiRun_follows
    | with_reducible apply State.emit_follows
    | with_reducible exact OptP.none
    | with_reducible apply OptP.some
    | (intro x (hx : Follows false a x))
    | (lift_lets; intro x; clear_value x)
    | (split)
    | with_reducible apply PairF.intro

theorem execSpiPush_follows {a : State} (raw : List Byte) (crcOk : Bool) (s : State) (h : Follows false a s) :
    ResF false a (execSpiPush raw crcOk s) := by
  unfold execSpiPush
  repeat' first
    | with_reducible assumption
    | with_reducible apply spiPush_follows
    | with_reducible apply ResF.next

theorem spiPop_follows {tb : Bool} {a : State} (crcOk : Bool) (x1 : State) (h : Follows tb a x1) :
    Follows tb a (spiPop crcOk x1) := by
  unfold spiPop
  repeat' first
    | with_reducible assumption
    | with_reducible apply spiRun_follows
    | with_reducible apply State.setPath_follows
    | with_reducible apply State.setRgp_follows
    | with_reducible exact OptP.none
    | with_reducible apply OptP.some
    | (intro x (hx : Follows tb a x))
    | (lift_lets; intro x; clear_value x)
    | (split)
    | with_reducible apply PairF.intro

theorem execSpiPop_follows {tb : Bool} {a : State} (crcOk : Bool) (s : State) (h : Follows tb a s) :
    ResF tb a (execSpiPop crcOk s) := by
  unfold execSpiPop
  repeat' first
    | with_reducible assumption
    | with_reducible apply spiPop_follows
    | with_reducible apply ResF.next

theorem spiStatusRead_follows {tb : Bool} {a : State} (crcOk : Bool) (x1 : State) (h : Follows tb a x1) :
    Follows tb a (spiStatusRead crcOk x1) := by
  unfold spiStatusRead
  repeat' first
    | with_reducible assumption
    | with_reducible apply spiRun_follows
    | with_reducible exact OptP.none
    | with_reducible apply OptP.some
    | (intro x (hx : Follows tb a x))
    | (lift_lets; intro x; clear_value x)
    | (split)
    | (with_reducible apply Follows.same; with_reducible assumption)
    | with_reducible apply PairF.intro

theorem execSpiStatus_follows {tb : Bool} {a : State} (crcOk : Bool) (s : State) (h : Follows tb a s) :
    ResF tb a (execSpiStatus crcOk s) := by
  unfold execSpiStatus
  repeat' first
    | with_reducible assumption
    | with_reducible apply spiStatusRead_follows
    | with_reducible apply ResF.next

/-! ### Thermal -/

theorem State.storeTemps_follows {tb : Bool} {a : State} (s : State) (t : List (BitVec 12)) (h : Follows tb a s) :
    Follows tb a (State.storeTemps s t) := by
  unfold State.storeTemps
  repeat' first
    | with_reducible assumption
    | with_reducible apply State.setFd_follows
    | with_reducible apply State.setRg_follows
    | with_reducible apply Follows.foldl
    | (intro x y (hx : Follows tb a x))
    | (intro x; refine Follows.cut (tb := tb) (a := a) (x := x) ?_ (fun _ => ?_); on_goal 2 => clear_value x)
    | (lift_lets; intro x; clear_value x)
    | (intro)
    | (with_reducible apply Follows.same; with_reducible assumption)

theorem State.changeBand_follows {tb : Bool} {a : State} (s : State) (band : ℕ) (h : Follows tb a s) :
    Follows tb a (State.changeBand s band) := by
  unfold State.changeBand
  repeat' first
    | with_reducible assumption
    | with_reducible apply State.enableSlices_follows
    | with_reducible apply State.rejudge_follows
    | with_reducible apply State.settleShapers_follows
    | with_reducible apply State.count_follows
    | with_reducible apply State.setFd_follows
    | with_reducible apply State.setBt_follows
    | (intro x; refine Follows.cut (tb := tb) (a := a) (x := x) ?_ (fun _ => ?_); on_goal 2 => clear_value x)
    | (lift_lets; intro x; clear_value x)
    | (split)
    | (dsimp +zetaDelta -zeta only)

theorem State.thermalShutdown_follows {tb : Bool} {a : State} (s : State) (h : Follows tb a s) :
    Follows tb a (State.thermalShutdown s) := by
  unfold State.thermalShutdown
  repeat' first
    | (lift_lets; intro x; clear_value x)
    | (intro)
    | (with_reducible apply Follows.same; with_reducible assumption)

theorem thermalSample_follows {tb : Bool} {a : State} (t : Vector (BitVec 12) 6) (s : State) (h : Follows tb a s) :
    Follows tb a (thermalSample t s) := by
  unfold thermalSample
  repeat' first
    | with_reducible assumption
    | with_reducible apply State.thermalShutdown_follows
    | with_reducible apply State.changeBand_follows
    | with_reducible apply State.storeTemps_follows
    | with_reducible apply State.setFd_follows
    | with_reducible apply drawNat_follows
    | (intro x; refine Follows.cut (tb := tb) (a := a) (x := x) ?_ (fun _ => ?_); on_goal 2 => clear_value x)
    | (lift_lets; intro x; refine Follows.cut (tb := tb) (a := a) (x := x) ?_ (fun _ => ?_); on_goal 2 => clear_value x)
    | (lift_lets; intro x; clear_value x)
    | (intro)
    | (split)
    | (refine PairF.elim (by with_reducible assumption) ?_)

theorem execThermalSample_follows {tb : Bool} {a : State} (t : Vector (BitVec 12) 6) (s : State) (h : Follows tb a s) :
    ResF tb a (execThermalSample t s) := by
  unfold execThermalSample
  repeat' first
    | with_reducible assumption
    | with_reducible apply thermalSample_follows
    | with_reducible apply ResF.next

/-! ### Tick -/

theorem tick_follows {tb : Bool} {a : State} (s : State) (h : Follows tb a s) : Follows tb a (tick s) := by
  unfold tick
  repeat' first
    | with_reducible apply State.tclk_follows
    | with_reducible apply clocked_follows
    | (with_reducible apply Follows.same; with_reducible assumption)

end Sys2Proof.Machine
end

