-- ==== Sys2Proof/Laws/FollowsExec.lean ====
section
/-! SUPPORT. What every command keeps: one arm per constructor of Instr. -/

namespace Sys2Proof.Machine

/-- Every command that answers a next state keeps the queue, the fuse, what was sent and the canonical form of both memories;
one that does not reconfigure keeps the configuration in force. -/
theorem exec_follows (i : Instr) (s : State) : ResF (!i.reconfigures) s (exec i s) :=
  match i with
  | .routeAdd p d => execRouteAdd_follows p d s (.refl s)
  | .routeDel p d => execRouteDel_follows p d s (.refl s)
  | .routeRead p d => execRouteRead_follows p d s (.refl s)
  | .tcamWrite p d => execTcamWrite_follows p d s (.refl s)
  | .tcamRead p d => execTcamRead_follows p d s (.refl s)
  | .dsetWrite p d => execDsetWrite_follows p d s (.refl s)
  | .dsetRead p d => execDsetRead_follows p d s (.refl s)
  | .vlanWrite p d => execVlanWrite_follows p d s (.refl s)
  | .vlanRead p d => execVlanRead_follows p d s (.refl s)
  | .profWrite p d => execProfWrite_follows p d s (.refl s)
  | .profRead p d => execProfRead_follows p d s (.refl s)
  | .streamPin p d => execStreamPin_follows p d s (.refl s)
  | .streamUnpin p d => execStreamUnpin_follows p d s (.refl s)
  | .streamRead p d => execStreamRead_follows p d s (.refl s)
  | .streamClear p d => execStreamClear_follows p d s (.refl s)
  | .gateWrite p d => execGateWrite_follows p d s (.refl s)
  | .gateRead p d => execGateRead_follows p d s (.refl s)
  | .timeSet p d => execTimeSet_follows p d s (.refl s)
  | .timeRead p d => execTimeRead_follows p d s (.refl s)
  | .ttPhaseAt p d => execTtPhaseAt_follows p d s (.refl s)
  | .ttNextCross p d => execTtNextCross_follows p d s (.refl s)
  | .keyWrite p d => execKeyWrite_follows p d s (.refl s)
  | .keyErase p d => execKeyErase_follows p d s (.refl s)
  | .keyRead p d => execKeyRead_follows p d s (.refl s)
  | .rawCipher p d => execRawCipher_follows p d s (.refl s)
  | .rawCmac p d => execRawCmac_follows p d s (.refl s)
  | .pkVerify p d => execPkVerify_follows p d s (.refl s)
  | .pkEcdh p d => execPkEcdh_follows p d s (.refl s)
  | .pkKeygen p d => execPkKeygen_follows p d s (.refl s)
  | .pkEngineDone => execPkEngineDone_follows s (.refl s)
  | .cryRandom p d => execCryRandom_follows p d s (.refl s)
  | .capDiscard p d => execCapDiscard_follows p d s (.refl s)
  | .sleep p d => execSleep_follows p d s (.refl s)
  | .resume p d => execResume_follows p d s (.refl s)
  | .wakeRead p d => execWakeRead_follows p d s (.refl s)
  | .nop p d => execNop_follows p d s (.refl s)
  | .diagSnapshot p d => execDiagSnapshot_follows p d s (.refl s)
  | .errRead p d => execErrRead_follows p d s (.refl s)
  | .selfTest p d => execSelfTest_follows p d s (.refl s)
  | .mouldOpen p d => execMouldOpen_follows p d s (.refl s)
  | .mouldDiscard p d => execMouldDiscard_follows p d s (.refl s)
  | .pour p d => execPour_follows p d s (.refl s)
  | .pourReady => execPourReady_follows s (.refl s)
  | .pourBoundary => execPourBoundary_follows s (.refl s)
  | .pourTimeout => execPourTimeout_follows s (.refl s)
  | .mouldStat p d => execMouldStat_follows p d s (.refl s)
  | .nodeWrite p d => execNodeWrite_follows p d s (.refl s)
  | .nodeErase p d => execNodeErase_follows p d s (.refl s)
  | .nodeRead p d => execNodeRead_follows p d s (.refl s)
  | .nodeRelease p d => execNodeRelease_follows p d s (.refl s)
  | .nodeHold p d => execNodeHold_follows p d s (.refl s)
  | .partGrant p d => execPartGrant_follows p d s (.refl s)
  | .partRead p d => execPartRead_follows p d s (.refl s)
  | .partThaw p d => execPartThaw_follows p d s (.refl s)
  | .partFreeze p d => execPartFreeze_follows p d s (.refl s)
  | .windowWrite p d => execWindowWrite_follows p d s (.refl s)
  | .remoteAccess p d => execRemoteAccess_follows p d s (.refl s)
  | .doorbell h v => execDoorbell_follows h v s (.refl s)
  | .commandFetch p raw buf => execCommandFetch_follows p raw buf s (.refl s)
  | .dispatchGrant => execDispatchGrant_follows s (.refl s)
  | .replyRelease p tag => execReplyRelease_follows p tag s (.refl s)
  | .cqReplyWrite p => execCqReplyWrite_follows p s (.refl s)
  | .cqHeadWrite h v => execCqHeadWrite_follows h v s (.refl s)
  | .cmdCtlWrite h v => execCmdCtlWrite_follows h v s (.refl s)
  | .rwpWrite p addr v eight => execRwpWrite_follows p addr v eight s (.refl s)
  | .registerWrite p addr v eight => execRegisterWrite_follows p addr v eight s (.refl s)
  | .rocRead p addr => execRocRead_follows p addr s (.refl s)
  | .counterLoRead p addr eight => execCounterLoRead_follows p addr eight s (.refl s)
  | .lockedRequest h addr => execLockedRequest_follows h addr s (.refl s)
  | .mailboxAccess p addr len data => execMailboxAccess_follows p addr len data s (.refl s)
  | .brgSemTake p n => execBrgSemTake_follows p n s (.refl s)
  | .brgSemRelease p hi v => execBrgSemRelease_follows p hi v s (.refl s)
  | .brgSlotReq p k v => execBrgSlotReq_follows p k v s (.refl s)
  | .brgSlotRelease p k v => execBrgSlotRelease_follows p k v s (.refl s)
  | .bridgeFarTimeout p window tag => execBridgeFarTimeout_follows p window tag s (.refl s)
  | .delayedReadExpire p k => execDelayedReadExpire_follows p k s (.refl s)
  | .tsuLatch p v => execTsuLatch_follows p v s (.refl s)
  | .ttPhaseRead p n => execTtPhaseRead_follows p n s (.refl s)
  | .chkLoad p k v => execChkLoad_follows p k v s (.refl s)
  | .chkDataWrite p k r v => execChkDataWrite_follows p k r v s (.refl s)
  | .chkCfgWrite p k v => execChkCfgWrite_follows p k v s (.refl s)
  | .capPeekRead p q idx ecc => execCapPeekRead_follows p q idx ecc s (.refl s)
  | .capPop p q w => execCapPop_follows p q w s (.refl s)
  | .capAck p q v => execCapAck_follows p q v s (.refl s)
  | .capHrdWrite p q v => execCapHrdWrite_follows p q v s (.refl s)
  | .mdioAccessStart p m v => execMdioAccessStart_follows p m v s (.refl s)
  | .mdioAccessDone m rdata noTurn => execMdioAccessDone_follows m rdata noTurn s (.refl s)
  | .mdioLinkPoll n ms => execMdioLinkPoll_follows n ms s (.refl s)
  | .bootRearm p v => execBootRearm_follows p v s (.refl s)
  | .bootReset p v => execBootReset_follows p v s (.refl s)
  | .spiRead addr n crcOk => execSpiRead_follows addr n crcOk s (.refl s)
  | .spiWrite addr words crcOk => execSpiWrite_follows addr words crcOk s (.refl s)
  | .spiPush raw crcOk => execSpiPush_follows raw crcOk s (.refl s)
  | .spiPop crcOk => execSpiPop_follows crcOk s (.refl s)
  | .spiStatus crcOk => execSpiStatus_follows crcOk s (.refl s)
  | .functionLevelReset h => execFunctionLevelReset_follows h s (.refl s)
  | .hostLinkDown h => execHostLinkDown_follows h s (.refl s)
  | .hostLinkUp h width => execHostLinkUp_follows h width s (.refl s)
  | .hostLinkTimeout h => execHostLinkTimeout_follows h s (.refl s)
  | .frameBoundary c => execFrameBoundary_follows c s (.refl s)
  | .frameIntake c bytes => execFrameIntake_follows c bytes s (.refl s)
  | .frameEnd c e => execFrameEnd_follows c e s (.refl s)
  | .busFrameHandover c hslot bytes => execBusFrameHandover_follows c hslot bytes s (.refl s)
  | .arbiterWindowStart a => execArbiterWindowStart_follows a s (.refl s)
  | .egressGrant c => execEgressGrant_follows c s (.refl s)
  | .egressTxComplete c e => execEgressTxComplete_follows c e s (.refl s)
  | .preemptResume n => execPreemptResume_follows n s (.refl s)
  | .committedLaunch n => execCommittedLaunch_follows n s (.refl s)
  | .shaperWaitExpire c q => execShaperWaitExpire_follows c q s (.refl s)
  | .tunnelGrant => execTunnelGrant_follows s (.refl s)
  | .aggHoldExpire prof => execAggHoldExpire_follows prof s (.refl s)
  | .cryptoGrant => execCryptoGrant_follows s (.refl s)
  | .streamAgeExpire idx => execStreamAgeExpire_follows idx s (.refl s)
  | .frerResetExpire idx => execFrerResetExpire_follows idx s (.refl s)
  | .nodeHoldExpire idx => execNodeHoldExpire_follows idx s (.refl s)
  | .lockedSequenceTimeout a => execLockedSequenceTimeout_follows a s (.refl s)
  | .ethSignalDetect n => execEthSignalDetect_follows n s (.refl s)
  | .ethTrainingDone n speedOk => execEthTrainingDone_follows n speedOk s (.refl s)
  | .ethTrainingTimeout n => execEthTrainingTimeout_follows n s (.refl s)
  | .ethLinkLost n cause => execEthLinkLost_follows n cause s (.refl s)
  | .laneRetuneDone n lost => execLaneRetuneDone_follows n lost s (.refl s)
  | .mmVerifyTimer n => execMmVerifyTimer_follows n s (.refl s)
  | .t1sUpTimer n => execT1sUpTimer_follows n s (.refl s)
  | .t1sBeaconReceived n => execT1sBeaconReceived_follows n s (.refl s)
  | .t1sBeaconLoss n => execT1sBeaconLoss_follows n s (.refl s)
  | .canBusOff n => execCanBusOff_follows n s (.refl s)
  | .canBusOffRecovered n => execCanBusOffRecovered_follows n s (.refl s)
  | .linScheduleSlot n => execLinScheduleSlot_follows n s (.refl s)
  | .linHeaderReceived n pid rate => execLinHeaderReceived_follows n pid rate s (.refl s)
  | .linResponseTimeout n => execLinResponseTimeout_follows n s (.refl s)
  | .frSlot f chB cycle slot => execFrSlot_follows f chB cycle slot s (.refl s)
  | .frPocChange f poc => execFrPocChange_follows f poc s (.refl s)
  | .busCtrlFault c => execBusCtrlFault_follows c s (.refl s)
  | .syncReceiptTimeout x => execSyncReceiptTimeout_follows x s (.refl s)
  | .gptpTxTimer n x kind => execGptpTxTimer_follows n x kind s (.refl s)
  | .selectorEvaluation => execSelectorEvaluation_follows s (.refl s)
  | .deltaSlewDone => execDeltaSlewDone_follows s (.refl s)
  | .tclkPllUnlock x => execTclkPllUnlock_follows x s (.refl s)
  | .tclkPllRelock x => execTclkPllRelock_follows x s (.refl s)
  | .tsuServoParityError x => execTsuServoParityError_follows x s (.refl s)
  | .ppsEdge n => execPpsEdge_follows n s (.refl s)
  | .zdaSend => execZdaSend_follows s (.refl s)
  | .leapApply => execLeapApply_follows s (.refl s)
  | .ttCountedEdge n aLeads both glitches => execTtCountedEdge_follows n aLeads both glitches s (.refl s)
  | .ttIndexEdge n glitches => execTtIndexEdge_follows n glitches s (.refl s)
  | .ttStallTimeout n => execTtStallTimeout_follows n s (.refl s)
  | .triggerActiveEdge m => execTriggerActiveEdge_follows m s (.refl s)
  | .timeTrigger m => execTimeTrigger_follows m s (.refl s)
  | .triggerInactiveEdge m => execTriggerInactiveEdge_follows m s (.refl s)
  | .timetableEntryStart n => execTimetableEntryStart_follows n s (.refl s)
  | .timetablePhaseCrossing n => execTimetablePhaseCrossing_follows n s (.refl s)
  | .timetablePendingStart n => execTimetablePendingStart_follows n s (.refl s)
  | .thermalSample t => execThermalSample_follows t s (.refl s)
  | .ladleLaneTake lane => execLadleLaneTake_follows lane s (.refl s)
  | .captureMemGrant c => execCaptureMemGrant_follows c s (.refl s)
  | .captureDmaBatch q eccs => execCaptureDmaBatch_follows q eccs s (.refl s)
  | .sidingLossClose q => execSidingLossClose_follows q s (.refl s)
  | .errorLogWrite block => execErrorLogWrite_follows block s (.refl s)
  | .datapathUnitFault u retestPass => execDatapathUnitFault_follows u retestPass s (.refl s)
  | .sliceControlFault k w => execSliceControlFault_follows k w s (.refl s)
  | .selfTestStep failSlice failParser failBank failSegment => execSelfTestStep_follows failSlice failParser failBank failSegment s (.refl s)
  | .retryWindowClose u => execRetryWindowClose_follows u s (.refl s)
  | .lpddrChannelFault c => execLpddrChannelFault_follows c s (.refl s)
  | .lpddrRetrainDone c ok => execLpddrRetrainDone_follows c ok s (.refl s)
  | .signalBoxFailover => execSignalBoxFailover_follows s (.refl s)
  | .pairSelfTestDone pass => execPairSelfTestDone_follows pass s (.refl s)
  | .entropyHealthFail apt => execEntropyHealthFail_follows apt s (.refl s)
  | .entropyStartupDone => execEntropyStartupDone_follows s (.refl s)
  | .drbgReseed => execDrbgReseed_follows s (.refl s)
  | .maskReseed k => execMaskReseed_follows k s (.refl s)
  | .keyZeroize slot => execKeyZeroize_follows slot s (.refl s)
  | .sleepDrainEnd => execSleepDrainEnd_follows s (.refl s)
  | .tc10Poll n read expired => execTc10Poll_follows n read expired s (.refl s)
  | .sleepHoldEnd => execSleepHoldEnd_follows s (.refl s)
  | .canWakeFrame n f sofTick => execCanWakeFrame_follows n f sofTick s (.refl s)
  | .canWakePattern n => execCanWakePattern_follows n s (.refl s)
  | .wakeInEvent n active => execWakeInEvent_follows n active s (.refl s)
  | .t1sActivity n => execT1sActivity_follows n s (.refl s)
  | .wakeTimerExpire => execWakeTimerExpire_follows s (.refl s)
  | .wakingStepDone => execWakingStepDone_follows s (.refl s)
  | .wakeAbuse src => execWakeAbuse_follows src s (.refl s)
  | .powerOnReset => execPowerOnReset_follows s (.refl s)
  | .supplyMonitorReset => execSupplyMonitorReset_follows s (.refl s)
  | .resetNAsserted => execResetNAsserted_follows s (.refl s)
  | .bootStepEnd e => execBootStepEnd_follows e s (.refl s)
  | .ledgerRestart => execLedgerRestart_follows s (.refl s)
  | .registerRead p addr eight => execRegisterRead_follows p addr eight s (.refl s)
  | .busReceiveError c e => execBusReceiveError_follows c e s (.refl s)
  | .porstNAsserted => execPorstNAsserted_follows s (.refl s)
  | .vddaonValid => execVddaonValid_follows s (.refl s)
  | .sidingBurstDone q fill ecc => execSidingBurstDone_follows q fill ecc s (.refl s)
  | .idleClockGating u gated => execIdleClockGating_follows u gated s (.refl s)
  | .wakeAssertionEnd src => execWakeAssertionEnd_follows src s (.refl s)
  | .ledgerEraseDone => execLedgerEraseDone_follows s (.refl s)

end Sys2Proof.Machine
end

