-- ==== Sys2Proof/Laws/State.lean ====
section
/-! SUPPORT. The laws of the state: each named update leaves every other part of the state as it was, and a register reads back
what was written. -/

namespace Sys2Proof.Machine

variable (s : State)

/-! ### Frames of the named updates -/

@[simp] theorem State.setKey_pending (k : Nat) (v : W32) : (s.setKey k v).pending = s.pending := rfl
@[simp] theorem State.setKey_free (k : Nat) (v : W32) : (s.setKey k v).free = s.free := rfl
@[simp] theorem State.setKey_upNs (k : Nat) (v : W32) : (s.setKey k v).upNs = s.upNs := rfl
@[simp] theorem State.setKey_out (k : Nat) (v : W32) : (s.setKey k v).out = s.out := rfl
@[simp] theorem State.setKey_logger (k : Nat) (v : W32) : (s.setKey k v).logger = s.logger := rfl
@[simp] theorem State.setKey_tab (k : Nat) (v : W32) : (s.setKey k v).tab = s.tab := rfl
@[simp] theorem State.setKey_live (k : Nat) (v : W32) : (s.setKey k v).live = s.live := rfl
@[simp] theorem State.setKey_cmd (k : Nat) (v : W32) : (s.setKey k v).cmd = s.cmd := rfl
@[simp] theorem State.setKey_fwd (k : Nat) (v : W32) : (s.setKey k v).fwd = s.fwd := rfl
@[simp] theorem State.setKey_lnk (k : Nat) (v : W32) : (s.setKey k v).lnk = s.lnk := rfl
@[simp] theorem State.setKey_tsu (k : Nat) (v : W32) : (s.setKey k v).tsu = s.tsu := rfl
@[simp] theorem State.setKey_phw (k : Nat) (v : W32) : (s.setKey k v).phw = s.phw := rfl
@[simp] theorem State.setKey_cap (k : Nat) (v : W32) : (s.setKey k v).cap = s.cap := rfl
@[simp] theorem State.setKey_cry (k : Nat) (v : W32) : (s.setKey k v).cry = s.cry := rfl
@[simp] theorem State.setKey_slp (k : Nat) (v : W32) : (s.setKey k v).slp = s.slp := rfl
@[simp] theorem State.setKey_err (k : Nat) (v : W32) : (s.setKey k v).err = s.err := rfl
@[simp] theorem State.setKey_boot (k : Nat) (v : W32) : (s.setKey k v).boot = s.boot := rfl
@[simp] theorem State.setKey_pins (k : Nat) (v : W32) : (s.setKey k v).pins = s.pins := rfl
@[simp] theorem State.setKey_reg_wide (k : Nat) (v : W32) : (s.setKey k v).reg.wide = s.reg.wide := rfl
@[simp] theorem State.setKey_reg_latch (k : Nat) (v : W32) : (s.setKey k v).reg.latch = s.reg.latch := rfl
@[simp] theorem State.setKey_reg_pmBuf (k : Nat) (v : W32) : (s.setKey k v).reg.pmBuf = s.reg.pmBuf := rfl
@[simp] theorem State.setKey_reg_mailbox (k : Nat) (v : W32) : (s.setKey k v).reg.mailbox = s.reg.mailbox := rfl

@[simp] theorem State.setRg_pending (o : Nat) (v : W32) : (s.setRg o v).pending = s.pending := (s.setKey_pending o v)
@[simp] theorem State.setRg_free (o : Nat) (v : W32) : (s.setRg o v).free = s.free := (s.setKey_free o v)
@[simp] theorem State.setRg_upNs (o : Nat) (v : W32) : (s.setRg o v).upNs = s.upNs := (s.setKey_upNs o v)
@[simp] theorem State.setRg_out (o : Nat) (v : W32) : (s.setRg o v).out = s.out := (s.setKey_out o v)
@[simp] theorem State.setRg_logger (o : Nat) (v : W32) : (s.setRg o v).logger = s.logger := (s.setKey_logger o v)
@[simp] theorem State.setRg_tab (o : Nat) (v : W32) : (s.setRg o v).tab = s.tab := (s.setKey_tab o v)
@[simp] theorem State.setRg_live (o : Nat) (v : W32) : (s.setRg o v).live = s.live := (s.setKey_live o v)
@[simp] theorem State.setRg_cmd (o : Nat) (v : W32) : (s.setRg o v).cmd = s.cmd := (s.setKey_cmd o v)
@[simp] theorem State.setRg_fwd (o : Nat) (v : W32) : (s.setRg o v).fwd = s.fwd := (s.setKey_fwd o v)
@[simp] theorem State.setRg_lnk (o : Nat) (v : W32) : (s.setRg o v).lnk = s.lnk := (s.setKey_lnk o v)
@[simp] theorem State.setRg_tsu (o : Nat) (v : W32) : (s.setRg o v).tsu = s.tsu := (s.setKey_tsu o v)
@[simp] theorem State.setRg_phw (o : Nat) (v : W32) : (s.setRg o v).phw = s.phw := (s.setKey_phw o v)
@[simp] theorem State.setRg_cap (o : Nat) (v : W32) : (s.setRg o v).cap = s.cap := (s.setKey_cap o v)
@[simp] theorem State.setRg_cry (o : Nat) (v : W32) : (s.setRg o v).cry = s.cry := (s.setKey_cry o v)
@[simp] theorem State.setRg_slp (o : Nat) (v : W32) : (s.setRg o v).slp = s.slp := (s.setKey_slp o v)
@[simp] theorem State.setRg_err (o : Nat) (v : W32) : (s.setRg o v).err = s.err := (s.setKey_err o v)
@[simp] theorem State.setRg_boot (o : Nat) (v : W32) : (s.setRg o v).boot = s.boot := (s.setKey_boot o v)
@[simp] theorem State.setRg_pins (o : Nat) (v : W32) : (s.setRg o v).pins = s.pins := (s.setKey_pins o v)
@[simp] theorem State.setRg_reg_wide (o : Nat) (v : W32) : (s.setRg o v).reg.wide = s.reg.wide := (s.setKey_reg_wide o v)
@[simp] theorem State.setRg_reg_latch (o : Nat) (v : W32) : (s.setRg o v).reg.latch = s.reg.latch := (s.setKey_reg_latch o v)
@[simp] theorem State.setRg_reg_pmBuf (o : Nat) (v : W32) : (s.setRg o v).reg.pmBuf = s.reg.pmBuf := (s.setKey_reg_pmBuf o v)
@[simp] theorem State.setRg_reg_mailbox (o : Nat) (v : W32) : (s.setRg o v).reg.mailbox = s.reg.mailbox := (s.setKey_reg_mailbox o v)

@[simp] theorem State.setRgp_pending (p : Part) (o : Nat) (v : W32) : (s.setRgp p o v).pending = s.pending := (s.setKey_pending (copyKey p o) v)
@[simp] theorem State.setRgp_free (p : Part) (o : Nat) (v : W32) : (s.setRgp p o v).free = s.free := (s.setKey_free (copyKey p o) v)
@[simp] theorem State.setRgp_upNs (p : Part) (o : Nat) (v : W32) : (s.setRgp p o v).upNs = s.upNs := (s.setKey_upNs (copyKey p o) v)
@[simp] theorem State.setRgp_out (p : Part) (o : Nat) (v : W32) : (s.setRgp p o v).out = s.out := (s.setKey_out (copyKey p o) v)
@[simp] theorem State.setRgp_logger (p : Part) (o : Nat) (v : W32) : (s.setRgp p o v).logger = s.logger := (s.setKey_logger (copyKey p o) v)
@[simp] theorem State.setRgp_tab (p : Part) (o : Nat) (v : W32) : (s.setRgp p o v).tab = s.tab := (s.setKey_tab (copyKey p o) v)
@[simp] theorem State.setRgp_live (p : Part) (o : Nat) (v : W32) : (s.setRgp p o v).live = s.live := (s.setKey_live (copyKey p o) v)
@[simp] theorem State.setRgp_cmd (p : Part) (o : Nat) (v : W32) : (s.setRgp p o v).cmd = s.cmd := (s.setKey_cmd (copyKey p o) v)
@[simp] theorem State.setRgp_fwd (p : Part) (o : Nat) (v : W32) : (s.setRgp p o v).fwd = s.fwd := (s.setKey_fwd (copyKey p o) v)
@[simp] theorem State.setRgp_lnk (p : Part) (o : Nat) (v : W32) : (s.setRgp p o v).lnk = s.lnk := (s.setKey_lnk (copyKey p o) v)
@[simp] theorem State.setRgp_tsu (p : Part) (o : Nat) (v : W32) : (s.setRgp p o v).tsu = s.tsu := (s.setKey_tsu (copyKey p o) v)
@[simp] theorem State.setRgp_phw (p : Part) (o : Nat) (v : W32) : (s.setRgp p o v).phw = s.phw := (s.setKey_phw (copyKey p o) v)
@[simp] theorem State.setRgp_cap (p : Part) (o : Nat) (v : W32) : (s.setRgp p o v).cap = s.cap := (s.setKey_cap (copyKey p o) v)
@[simp] theorem State.setRgp_cry (p : Part) (o : Nat) (v : W32) : (s.setRgp p o v).cry = s.cry := (s.setKey_cry (copyKey p o) v)
@[simp] theorem State.setRgp_slp (p : Part) (o : Nat) (v : W32) : (s.setRgp p o v).slp = s.slp := (s.setKey_slp (copyKey p o) v)
@[simp] theorem State.setRgp_err (p : Part) (o : Nat) (v : W32) : (s.setRgp p o v).err = s.err := (s.setKey_err (copyKey p o) v)
@[simp] theorem State.setRgp_boot (p : Part) (o : Nat) (v : W32) : (s.setRgp p o v).boot = s.boot := (s.setKey_boot (copyKey p o) v)
@[simp] theorem State.setRgp_pins (p : Part) (o : Nat) (v : W32) : (s.setRgp p o v).pins = s.pins := (s.setKey_pins (copyKey p o) v)
@[simp] theorem State.setRgp_reg_wide (p : Part) (o : Nat) (v : W32) : (s.setRgp p o v).reg.wide = s.reg.wide := (s.setKey_reg_wide (copyKey p o) v)
@[simp] theorem State.setRgp_reg_latch (p : Part) (o : Nat) (v : W32) : (s.setRgp p o v).reg.latch = s.reg.latch := (s.setKey_reg_latch (copyKey p o) v)
@[simp] theorem State.setRgp_reg_pmBuf (p : Part) (o : Nat) (v : W32) : (s.setRgp p o v).reg.pmBuf = s.reg.pmBuf := (s.setKey_reg_pmBuf (copyKey p o) v)
@[simp] theorem State.setRgp_reg_mailbox (p : Part) (o : Nat) (v : W32) : (s.setRgp p o v).reg.mailbox = s.reg.mailbox := (s.setKey_reg_mailbox (copyKey p o) v)

@[simp] theorem State.modRg_pending (o : Nat) (f : W32 → W32) : (s.modRg o f).pending = s.pending := (s.setRg_pending o (f (s.rg o)))
@[simp] theorem State.modRg_free (o : Nat) (f : W32 → W32) : (s.modRg o f).free = s.free := (s.setRg_free o (f (s.rg o)))
@[simp] theorem State.modRg_upNs (o : Nat) (f : W32 → W32) : (s.modRg o f).upNs = s.upNs := (s.setRg_upNs o (f (s.rg o)))
@[simp] theorem State.modRg_out (o : Nat) (f : W32 → W32) : (s.modRg o f).out = s.out := (s.setRg_out o (f (s.rg o)))
@[simp] theorem State.modRg_logger (o : Nat) (f : W32 → W32) : (s.modRg o f).logger = s.logger := (s.setRg_logger o (f (s.rg o)))
@[simp] theorem State.modRg_tab (o : Nat) (f : W32 → W32) : (s.modRg o f).tab = s.tab := (s.setRg_tab o (f (s.rg o)))
@[simp] theorem State.modRg_live (o : Nat) (f : W32 → W32) : (s.modRg o f).live = s.live := (s.setRg_live o (f (s.rg o)))
@[simp] theorem State.modRg_cmd (o : Nat) (f : W32 → W32) : (s.modRg o f).cmd = s.cmd := (s.setRg_cmd o (f (s.rg o)))
@[simp] theorem State.modRg_fwd (o : Nat) (f : W32 → W32) : (s.modRg o f).fwd = s.fwd := (s.setRg_fwd o (f (s.rg o)))
@[simp] theorem State.modRg_lnk (o : Nat) (f : W32 → W32) : (s.modRg o f).lnk = s.lnk := (s.setRg_lnk o (f (s.rg o)))
@[simp] theorem State.modRg_tsu (o : Nat) (f : W32 → W32) : (s.modRg o f).tsu = s.tsu := (s.setRg_tsu o (f (s.rg o)))
@[simp] theorem State.modRg_phw (o : Nat) (f : W32 → W32) : (s.modRg o f).phw = s.phw := (s.setRg_phw o (f (s.rg o)))
@[simp] theorem State.modRg_cap (o : Nat) (f : W32 → W32) : (s.modRg o f).cap = s.cap := (s.setRg_cap o (f (s.rg o)))
@[simp] theorem State.modRg_cry (o : Nat) (f : W32 → W32) : (s.modRg o f).cry = s.cry := (s.setRg_cry o (f (s.rg o)))
@[simp] theorem State.modRg_slp (o : Nat) (f : W32 → W32) : (s.modRg o f).slp = s.slp := (s.setRg_slp o (f (s.rg o)))
@[simp] theorem State.modRg_err (o : Nat) (f : W32 → W32) : (s.modRg o f).err = s.err := (s.setRg_err o (f (s.rg o)))
@[simp] theorem State.modRg_boot (o : Nat) (f : W32 → W32) : (s.modRg o f).boot = s.boot := (s.setRg_boot o (f (s.rg o)))
@[simp] theorem State.modRg_pins (o : Nat) (f : W32 → W32) : (s.modRg o f).pins = s.pins := (s.setRg_pins o (f (s.rg o)))
@[simp] theorem State.modRg_reg_wide (o : Nat) (f : W32 → W32) : (s.modRg o f).reg.wide = s.reg.wide := (s.setRg_reg_wide o (f (s.rg o)))
@[simp] theorem State.modRg_reg_latch (o : Nat) (f : W32 → W32) : (s.modRg o f).reg.latch = s.reg.latch := (s.setRg_reg_latch o (f (s.rg o)))
@[simp] theorem State.modRg_reg_pmBuf (o : Nat) (f : W32 → W32) : (s.modRg o f).reg.pmBuf = s.reg.pmBuf := (s.setRg_reg_pmBuf o (f (s.rg o)))
@[simp] theorem State.modRg_reg_mailbox (o : Nat) (f : W32 → W32) : (s.modRg o f).reg.mailbox = s.reg.mailbox := (s.setRg_reg_mailbox o (f (s.rg o)))

@[simp] theorem State.modRgp_pending (p : Part) (o : Nat) (f : W32 → W32) : (s.modRgp p o f).pending = s.pending := (s.setRgp_pending p o (f (s.rgp p o)))
@[simp] theorem State.modRgp_free (p : Part) (o : Nat) (f : W32 → W32) : (s.modRgp p o f).free = s.free := (s.setRgp_free p o (f (s.rgp p o)))
@[simp] theorem State.modRgp_upNs (p : Part) (o : Nat) (f : W32 → W32) : (s.modRgp p o f).upNs = s.upNs := (s.setRgp_upNs p o (f (s.rgp p o)))
@[simp] theorem State.modRgp_out (p : Part) (o : Nat) (f : W32 → W32) : (s.modRgp p o f).out = s.out := (s.setRgp_out p o (f (s.rgp p o)))
@[simp] theorem State.modRgp_logger (p : Part) (o : Nat) (f : W32 → W32) : (s.modRgp p o f).logger = s.logger := (s.setRgp_logger p o (f (s.rgp p o)))
@[simp] theorem State.modRgp_tab (p : Part) (o : Nat) (f : W32 → W32) : (s.modRgp p o f).tab = s.tab := (s.setRgp_tab p o (f (s.rgp p o)))
@[simp] theorem State.modRgp_live (p : Part) (o : Nat) (f : W32 → W32) : (s.modRgp p o f).live = s.live := (s.setRgp_live p o (f (s.rgp p o)))
@[simp] theorem State.modRgp_cmd (p : Part) (o : Nat) (f : W32 → W32) : (s.modRgp p o f).cmd = s.cmd := (s.setRgp_cmd p o (f (s.rgp p o)))
@[simp] theorem State.modRgp_fwd (p : Part) (o : Nat) (f : W32 → W32) : (s.modRgp p o f).fwd = s.fwd := (s.setRgp_fwd p o (f (s.rgp p o)))
@[simp] theorem State.modRgp_lnk (p : Part) (o : Nat) (f : W32 → W32) : (s.modRgp p o f).lnk = s.lnk := (s.setRgp_lnk p o (f (s.rgp p o)))
@[simp] theorem State.modRgp_tsu (p : Part) (o : Nat) (f : W32 → W32) : (s.modRgp p o f).tsu = s.tsu := (s.setRgp_tsu p o (f (s.rgp p o)))
@[simp] theorem State.modRgp_phw (p : Part) (o : Nat) (f : W32 → W32) : (s.modRgp p o f).phw = s.phw := (s.setRgp_phw p o (f (s.rgp p o)))
@[simp] theorem State.modRgp_cap (p : Part) (o : Nat) (f : W32 → W32) : (s.modRgp p o f).cap = s.cap := (s.setRgp_cap p o (f (s.rgp p o)))
@[simp] theorem State.modRgp_cry (p : Part) (o : Nat) (f : W32 → W32) : (s.modRgp p o f).cry = s.cry := (s.setRgp_cry p o (f (s.rgp p o)))
@[simp] theorem State.modRgp_slp (p : Part) (o : Nat) (f : W32 → W32) : (s.modRgp p o f).slp = s.slp := (s.setRgp_slp p o (f (s.rgp p o)))
@[simp] theorem State.modRgp_err (p : Part) (o : Nat) (f : W32 → W32) : (s.modRgp p o f).err = s.err := (s.setRgp_err p o (f (s.rgp p o)))
@[simp] theorem State.modRgp_boot (p : Part) (o : Nat) (f : W32 → W32) : (s.modRgp p o f).boot = s.boot := (s.setRgp_boot p o (f (s.rgp p o)))
@[simp] theorem State.modRgp_pins (p : Part) (o : Nat) (f : W32 → W32) : (s.modRgp p o f).pins = s.pins := (s.setRgp_pins p o (f (s.rgp p o)))
@[simp] theorem State.modRgp_reg_wide (p : Part) (o : Nat) (f : W32 → W32) : (s.modRgp p o f).reg.wide = s.reg.wide := (s.setRgp_reg_wide p o (f (s.rgp p o)))
@[simp] theorem State.modRgp_reg_latch (p : Part) (o : Nat) (f : W32 → W32) : (s.modRgp p o f).reg.latch = s.reg.latch := (s.setRgp_reg_latch p o (f (s.rgp p o)))
@[simp] theorem State.modRgp_reg_pmBuf (p : Part) (o : Nat) (f : W32 → W32) : (s.modRgp p o f).reg.pmBuf = s.reg.pmBuf := (s.setRgp_reg_pmBuf p o (f (s.rgp p o)))
@[simp] theorem State.modRgp_reg_mailbox (p : Part) (o : Nat) (f : W32 → W32) : (s.modRgp p o f).reg.mailbox = s.reg.mailbox := (s.setRgp_reg_mailbox p o (f (s.rgp p o)))

@[simp] theorem State.setBt_pending (o i : Nat) (b : Bool) : (s.setBt o i b).pending = s.pending := (s.modRg_pending o _)
@[simp] theorem State.setBt_free (o i : Nat) (b : Bool) : (s.setBt o i b).free = s.free := (s.modRg_free o _)
@[simp] theorem State.setBt_upNs (o i : Nat) (b : Bool) : (s.setBt o i b).upNs = s.upNs := (s.modRg_upNs o _)
@[simp] theorem State.setBt_out (o i : Nat) (b : Bool) : (s.setBt o i b).out = s.out := (s.modRg_out o _)
@[simp] theorem State.setBt_logger (o i : Nat) (b : Bool) : (s.setBt o i b).logger = s.logger := (s.modRg_logger o _)
@[simp] theorem State.setBt_tab (o i : Nat) (b : Bool) : (s.setBt o i b).tab = s.tab := (s.modRg_tab o _)
@[simp] theorem State.setBt_live (o i : Nat) (b : Bool) : (s.setBt o i b).live = s.live := (s.modRg_live o _)
@[simp] theorem State.setBt_cmd (o i : Nat) (b : Bool) : (s.setBt o i b).cmd = s.cmd := (s.modRg_cmd o _)
@[simp] theorem State.setBt_fwd (o i : Nat) (b : Bool) : (s.setBt o i b).fwd = s.fwd := (s.modRg_fwd o _)
@[simp] theorem State.setBt_lnk (o i : Nat) (b : Bool) : (s.setBt o i b).lnk = s.lnk := (s.modRg_lnk o _)
@[simp] theorem State.setBt_tsu (o i : Nat) (b : Bool) : (s.setBt o i b).tsu = s.tsu := (s.modRg_tsu o _)
@[simp] theorem State.setBt_phw (o i : Nat) (b : Bool) : (s.setBt o i b).phw = s.phw := (s.modRg_phw o _)
@[simp] theorem State.setBt_cap (o i : Nat) (b : Bool) : (s.setBt o i b).cap = s.cap := (s.modRg_cap o _)
@[simp] theorem State.setBt_cry (o i : Nat) (b : Bool) : (s.setBt o i b).cry = s.cry := (s.modRg_cry o _)
@[simp] theorem State.setBt_slp (o i : Nat) (b : Bool) : (s.setBt o i b).slp = s.slp := (s.modRg_slp o _)
@[simp] theorem State.setBt_err (o i : Nat) (b : Bool) : (s.setBt o i b).err = s.err := (s.modRg_err o _)
@[simp] theorem State.setBt_boot (o i : Nat) (b : Bool) : (s.setBt o i b).boot = s.boot := (s.modRg_boot o _)
@[simp] theorem State.setBt_pins (o i : Nat) (b : Bool) : (s.setBt o i b).pins = s.pins := (s.modRg_pins o _)
@[simp] theorem State.setBt_reg_wide (o i : Nat) (b : Bool) : (s.setBt o i b).reg.wide = s.reg.wide := (s.modRg_reg_wide o _)
@[simp] theorem State.setBt_reg_latch (o i : Nat) (b : Bool) : (s.setBt o i b).reg.latch = s.reg.latch := (s.modRg_reg_latch o _)
@[simp] theorem State.setBt_reg_pmBuf (o i : Nat) (b : Bool) : (s.setBt o i b).reg.pmBuf = s.reg.pmBuf := (s.modRg_reg_pmBuf o _)
@[simp] theorem State.setBt_reg_mailbox (o i : Nat) (b : Bool) : (s.setBt o i b).reg.mailbox = s.reg.mailbox := (s.modRg_reg_mailbox o _)

@[simp] theorem State.setFd_pending (o hi lo v : Nat) : (s.setFd o hi lo v).pending = s.pending := (s.modRg_pending o _)
@[simp] theorem State.setFd_free (o hi lo v : Nat) : (s.setFd o hi lo v).free = s.free := (s.modRg_free o _)
@[simp] theorem State.setFd_upNs (o hi lo v : Nat) : (s.setFd o hi lo v).upNs = s.upNs := (s.modRg_upNs o _)
@[simp] theorem State.setFd_out (o hi lo v : Nat) : (s.setFd o hi lo v).out = s.out := (s.modRg_out o _)
@[simp] theorem State.setFd_logger (o hi lo v : Nat) : (s.setFd o hi lo v).logger = s.logger := (s.modRg_logger o _)
@[simp] theorem State.setFd_tab (o hi lo v : Nat) : (s.setFd o hi lo v).tab = s.tab := (s.modRg_tab o _)
@[simp] theorem State.setFd_live (o hi lo v : Nat) : (s.setFd o hi lo v).live = s.live := (s.modRg_live o _)
@[simp] theorem State.setFd_cmd (o hi lo v : Nat) : (s.setFd o hi lo v).cmd = s.cmd := (s.modRg_cmd o _)
@[simp] theorem State.setFd_fwd (o hi lo v : Nat) : (s.setFd o hi lo v).fwd = s.fwd := (s.modRg_fwd o _)
@[simp] theorem State.setFd_lnk (o hi lo v : Nat) : (s.setFd o hi lo v).lnk = s.lnk := (s.modRg_lnk o _)
@[simp] theorem State.setFd_tsu (o hi lo v : Nat) : (s.setFd o hi lo v).tsu = s.tsu := (s.modRg_tsu o _)
@[simp] theorem State.setFd_phw (o hi lo v : Nat) : (s.setFd o hi lo v).phw = s.phw := (s.modRg_phw o _)
@[simp] theorem State.setFd_cap (o hi lo v : Nat) : (s.setFd o hi lo v).cap = s.cap := (s.modRg_cap o _)
@[simp] theorem State.setFd_cry (o hi lo v : Nat) : (s.setFd o hi lo v).cry = s.cry := (s.modRg_cry o _)
@[simp] theorem State.setFd_slp (o hi lo v : Nat) : (s.setFd o hi lo v).slp = s.slp := (s.modRg_slp o _)
@[simp] theorem State.setFd_err (o hi lo v : Nat) : (s.setFd o hi lo v).err = s.err := (s.modRg_err o _)
@[simp] theorem State.setFd_boot (o hi lo v : Nat) : (s.setFd o hi lo v).boot = s.boot := (s.modRg_boot o _)
@[simp] theorem State.setFd_pins (o hi lo v : Nat) : (s.setFd o hi lo v).pins = s.pins := (s.modRg_pins o _)
@[simp] theorem State.setFd_reg_wide (o hi lo v : Nat) : (s.setFd o hi lo v).reg.wide = s.reg.wide := (s.modRg_reg_wide o _)
@[simp] theorem State.setFd_reg_latch (o hi lo v : Nat) : (s.setFd o hi lo v).reg.latch = s.reg.latch := (s.modRg_reg_latch o _)
@[simp] theorem State.setFd_reg_pmBuf (o hi lo v : Nat) : (s.setFd o hi lo v).reg.pmBuf = s.reg.pmBuf := (s.modRg_reg_pmBuf o _)
@[simp] theorem State.setFd_reg_mailbox (o hi lo v : Nat) : (s.setFd o hi lo v).reg.mailbox = s.reg.mailbox := (s.modRg_reg_mailbox o _)

@[simp] theorem State.count_pending (o k : Nat) : (s.count o k).pending = s.pending := (s.modRg_pending o _)
@[simp] theorem State.count_free (o k : Nat) : (s.count o k).free = s.free := (s.modRg_free o _)
@[simp] theorem State.count_upNs (o k : Nat) : (s.count o k).upNs = s.upNs := (s.modRg_upNs o _)
@[simp] theorem State.count_out (o k : Nat) : (s.count o k).out = s.out := (s.modRg_out o _)
@[simp] theorem State.count_logger (o k : Nat) : (s.count o k).logger = s.logger := (s.modRg_logger o _)
@[simp] theorem State.count_tab (o k : Nat) : (s.count o k).tab = s.tab := (s.modRg_tab o _)
@[simp] theorem State.count_live (o k : Nat) : (s.count o k).live = s.live := (s.modRg_live o _)
@[simp] theorem State.count_cmd (o k : Nat) : (s.count o k).cmd = s.cmd := (s.modRg_cmd o _)
@[simp] theorem State.count_fwd (o k : Nat) : (s.count o k).fwd = s.fwd := (s.modRg_fwd o _)
@[simp] theorem State.count_lnk (o k : Nat) : (s.count o k).lnk = s.lnk := (s.modRg_lnk o _)
@[simp] theorem State.count_tsu (o k : Nat) : (s.count o k).tsu = s.tsu := (s.modRg_tsu o _)
@[simp] theorem State.count_phw (o k : Nat) : (s.count o k).phw = s.phw := (s.modRg_phw o _)
@[simp] theorem State.count_cap (o k : Nat) : (s.count o k).cap = s.cap := (s.modRg_cap o _)
@[simp] theorem State.count_cry (o k : Nat) : (s.count o k).cry = s.cry := (s.modRg_cry o _)
@[simp] theorem State.count_slp (o k : Nat) : (s.count o k).slp = s.slp := (s.modRg_slp o _)
@[simp] theorem State.count_err (o k : Nat) : (s.count o k).err = s.err := (s.modRg_err o _)
@[simp] theorem State.count_boot (o k : Nat) : (s.count o k).boot = s.boot := (s.modRg_boot o _)
@[simp] theorem State.count_pins (o k : Nat) : (s.count o k).pins = s.pins := (s.modRg_pins o _)
@[simp] theorem State.count_reg_wide (o k : Nat) : (s.count o k).reg.wide = s.reg.wide := (s.modRg_reg_wide o _)
@[simp] theorem State.count_reg_latch (o k : Nat) : (s.count o k).reg.latch = s.reg.latch := (s.modRg_reg_latch o _)
@[simp] theorem State.count_reg_pmBuf (o k : Nat) : (s.count o k).reg.pmBuf = s.reg.pmBuf := (s.modRg_reg_pmBuf o _)
@[simp] theorem State.count_reg_mailbox (o k : Nat) : (s.count o k).reg.mailbox = s.reg.mailbox := (s.modRg_reg_mailbox o _)

@[simp] theorem State.setWide_pending (o : Nat) (v : W64) : (s.setWide o v).pending = s.pending := rfl
@[simp] theorem State.setWide_free (o : Nat) (v : W64) : (s.setWide o v).free = s.free := rfl
@[simp] theorem State.setWide_upNs (o : Nat) (v : W64) : (s.setWide o v).upNs = s.upNs := rfl
@[simp] theorem State.setWide_out (o : Nat) (v : W64) : (s.setWide o v).out = s.out := rfl
@[simp] theorem State.setWide_logger (o : Nat) (v : W64) : (s.setWide o v).logger = s.logger := rfl
@[simp] theorem State.setWide_tab (o : Nat) (v : W64) : (s.setWide o v).tab = s.tab := rfl
@[simp] theorem State.setWide_live (o : Nat) (v : W64) : (s.setWide o v).live = s.live := rfl
@[simp] theorem State.setWide_cmd (o : Nat) (v : W64) : (s.setWide o v).cmd = s.cmd := rfl
@[simp] theorem State.setWide_fwd (o : Nat) (v : W64) : (s.setWide o v).fwd = s.fwd := rfl
@[simp] theorem State.setWide_lnk (o : Nat) (v : W64) : (s.setWide o v).lnk = s.lnk := rfl
@[simp] theorem State.setWide_tsu (o : Nat) (v : W64) : (s.setWide o v).tsu = s.tsu := rfl
@[simp] theorem State.setWide_phw (o : Nat) (v : W64) : (s.setWide o v).phw = s.phw := rfl
@[simp] theorem State.setWide_cap (o : Nat) (v : W64) : (s.setWide o v).cap = s.cap := rfl
@[simp] theorem State.setWide_cry (o : Nat) (v : W64) : (s.setWide o v).cry = s.cry := rfl
@[simp] theorem State.setWide_slp (o : Nat) (v : W64) : (s.setWide o v).slp = s.slp := rfl
@[simp] theorem State.setWide_err (o : Nat) (v : W64) : (s.setWide o v).err = s.err := rfl
@[simp] theorem State.setWide_boot (o : Nat) (v : W64) : (s.setWide o v).boot = s.boot := rfl
@[simp] theorem State.setWide_pins (o : Nat) (v : W64) : (s.setWide o v).pins = s.pins := rfl
@[simp] theorem State.setWide_reg_regs (o : Nat) (v : W64) : (s.setWide o v).reg.regs = s.reg.regs := rfl
@[simp] theorem State.setWide_reg_latch (o : Nat) (v : W64) : (s.setWide o v).reg.latch = s.reg.latch := rfl
@[simp] theorem State.setWide_reg_pmBuf (o : Nat) (v : W64) : (s.setWide o v).reg.pmBuf = s.reg.pmBuf := rfl
@[simp] theorem State.setWide_reg_mailbox (o : Nat) (v : W64) : (s.setWide o v).reg.mailbox = s.reg.mailbox := rfl

@[simp] theorem State.countWide_pending (o k : Nat) : (s.countWide o k).pending = s.pending := (s.setWide_pending o _)
@[simp] theorem State.countWide_free (o k : Nat) : (s.countWide o k).free = s.free := (s.setWide_free o _)
@[simp] theorem State.countWide_upNs (o k : Nat) : (s.countWide o k).upNs = s.upNs := (s.setWide_upNs o _)
@[simp] theorem State.countWide_out (o k : Nat) : (s.countWide o k).out = s.out := (s.setWide_out o _)
@[simp] theorem State.countWide_logger (o k : Nat) : (s.countWide o k).logger = s.logger := (s.setWide_logger o _)
@[simp] theorem State.countWide_tab (o k : Nat) : (s.countWide o k).tab = s.tab := (s.setWide_tab o _)
@[simp] theorem State.countWide_live (o k : Nat) : (s.countWide o k).live = s.live := (s.setWide_live o _)
@[simp] theorem State.countWide_cmd (o k : Nat) : (s.countWide o k).cmd = s.cmd := (s.setWide_cmd o _)
@[simp] theorem State.countWide_fwd (o k : Nat) : (s.countWide o k).fwd = s.fwd := (s.setWide_fwd o _)
@[simp] theorem State.countWide_lnk (o k : Nat) : (s.countWide o k).lnk = s.lnk := (s.setWide_lnk o _)
@[simp] theorem State.countWide_tsu (o k : Nat) : (s.countWide o k).tsu = s.tsu := (s.setWide_tsu o _)
@[simp] theorem State.countWide_phw (o k : Nat) : (s.countWide o k).phw = s.phw := (s.setWide_phw o _)
@[simp] theorem State.countWide_cap (o k : Nat) : (s.countWide o k).cap = s.cap := (s.setWide_cap o _)
@[simp] theorem State.countWide_cry (o k : Nat) : (s.countWide o k).cry = s.cry := (s.setWide_cry o _)
@[simp] theorem State.countWide_slp (o k : Nat) : (s.countWide o k).slp = s.slp := (s.setWide_slp o _)
@[simp] theorem State.countWide_err (o k : Nat) : (s.countWide o k).err = s.err := (s.setWide_err o _)
@[simp] theorem State.countWide_boot (o k : Nat) : (s.countWide o k).boot = s.boot := (s.setWide_boot o _)
@[simp] theorem State.countWide_pins (o k : Nat) : (s.countWide o k).pins = s.pins := (s.setWide_pins o _)
@[simp] theorem State.countWide_reg_regs (o k : Nat) : (s.countWide o k).reg.regs = s.reg.regs := (s.setWide_reg_regs o _)
@[simp] theorem State.countWide_reg_latch (o k : Nat) : (s.countWide o k).reg.latch = s.reg.latch := (s.setWide_reg_latch o _)
@[simp] theorem State.countWide_reg_pmBuf (o k : Nat) : (s.countWide o k).reg.pmBuf = s.reg.pmBuf := (s.setWide_reg_pmBuf o _)
@[simp] theorem State.countWide_reg_mailbox (o k : Nat) : (s.countWide o k).reg.mailbox = s.reg.mailbox := (s.setWide_reg_mailbox o _)

@[simp] theorem State.countDrop_pending (k : Nat) : (s.countDrop k).pending = s.pending := (s.countWide_pending (R.dropCnt k) 1)
@[simp] theorem State.countDrop_free (k : Nat) : (s.countDrop k).free = s.free := (s.countWide_free (R.dropCnt k) 1)
@[simp] theorem State.countDrop_upNs (k : Nat) : (s.countDrop k).upNs = s.upNs := (s.countWide_upNs (R.dropCnt k) 1)
@[simp] theorem State.countDrop_out (k : Nat) : (s.countDrop k).out = s.out := (s.countWide_out (R.dropCnt k) 1)
@[simp] theorem State.countDrop_logger (k : Nat) : (s.countDrop k).logger = s.logger := (s.countWide_logger (R.dropCnt k) 1)
@[simp] theorem State.countDrop_tab (k : Nat) : (s.countDrop k).tab = s.tab := (s.countWide_tab (R.dropCnt k) 1)
@[simp] theorem State.countDrop_live (k : Nat) : (s.countDrop k).live = s.live := (s.countWide_live (R.dropCnt k) 1)
@[simp] theorem State.countDrop_cmd (k : Nat) : (s.countDrop k).cmd = s.cmd := (s.countWide_cmd (R.dropCnt k) 1)
@[simp] theorem State.countDrop_fwd (k : Nat) : (s.countDrop k).fwd = s.fwd := (s.countWide_fwd (R.dropCnt k) 1)
@[simp] theorem State.countDrop_lnk (k : Nat) : (s.countDrop k).lnk = s.lnk := (s.countWide_lnk (R.dropCnt k) 1)
@[simp] theorem State.countDrop_tsu (k : Nat) : (s.countDrop k).tsu = s.tsu := (s.countWide_tsu (R.dropCnt k) 1)
@[simp] theorem State.countDrop_phw (k : Nat) : (s.countDrop k).phw = s.phw := (s.countWide_phw (R.dropCnt k) 1)
@[simp] theorem State.countDrop_cap (k : Nat) : (s.countDrop k).cap = s.cap := (s.countWide_cap (R.dropCnt k) 1)
@[simp] theorem State.countDrop_cry (k : Nat) : (s.countDrop k).cry = s.cry := (s.countWide_cry (R.dropCnt k) 1)
@[simp] theorem State.countDrop_slp (k : Nat) : (s.countDrop k).slp = s.slp := (s.countWide_slp (R.dropCnt k) 1)
@[simp] theorem State.countDrop_err (k : Nat) : (s.countDrop k).err = s.err := (s.countWide_err (R.dropCnt k) 1)
@[simp] theorem State.countDrop_boot (k : Nat) : (s.countDrop k).boot = s.boot := (s.countWide_boot (R.dropCnt k) 1)
@[simp] theorem State.countDrop_pins (k : Nat) : (s.countDrop k).pins = s.pins := (s.countWide_pins (R.dropCnt k) 1)
@[simp] theorem State.countDrop_reg_regs (k : Nat) : (s.countDrop k).reg.regs = s.reg.regs := (s.countWide_reg_regs (R.dropCnt k) 1)
@[simp] theorem State.countDrop_reg_latch (k : Nat) : (s.countDrop k).reg.latch = s.reg.latch := (s.countWide_reg_latch (R.dropCnt k) 1)
@[simp] theorem State.countDrop_reg_pmBuf (k : Nat) : (s.countDrop k).reg.pmBuf = s.reg.pmBuf := (s.countWide_reg_pmBuf (R.dropCnt k) 1)
@[simp] theorem State.countDrop_reg_mailbox (k : Nat) : (s.countDrop k).reg.mailbox = s.reg.mailbox := (s.countWide_reg_mailbox (R.dropCnt k) 1)

@[simp] theorem State.setLatch_pending (p : Part) (o : Nat) (v : W32) : (s.setLatch p o v).pending = s.pending := rfl
@[simp] theorem State.setLatch_free (p : Part) (o : Nat) (v : W32) : (s.setLatch p o v).free = s.free := rfl
@[simp] theorem State.setLatch_upNs (p : Part) (o : Nat) (v : W32) : (s.setLatch p o v).upNs = s.upNs := rfl
@[simp] theorem State.setLatch_out (p : Part) (o : Nat) (v : W32) : (s.setLatch p o v).out = s.out := rfl
@[simp] theorem State.setLatch_logger (p : Part) (o : Nat) (v : W32) : (s.setLatch p o v).logger = s.logger := rfl
@[simp] theorem State.setLatch_tab (p : Part) (o : Nat) (v : W32) : (s.setLatch p o v).tab = s.tab := rfl
@[simp] theorem State.setLatch_live (p : Part) (o : Nat) (v : W32) : (s.setLatch p o v).live = s.live := rfl
@[simp] theorem State.setLatch_cmd (p : Part) (o : Nat) (v : W32) : (s.setLatch p o v).cmd = s.cmd := rfl
@[simp] theorem State.setLatch_fwd (p : Part) (o : Nat) (v : W32) : (s.setLatch p o v).fwd = s.fwd := rfl
@[simp] theorem State.setLatch_lnk (p : Part) (o : Nat) (v : W32) : (s.setLatch p o v).lnk = s.lnk := rfl
@[simp] theorem State.setLatch_tsu (p : Part) (o : Nat) (v : W32) : (s.setLatch p o v).tsu = s.tsu := rfl
@[simp] theorem State.setLatch_phw (p : Part) (o : Nat) (v : W32) : (s.setLatch p o v).phw = s.phw := rfl
@[simp] theorem State.setLatch_cap (p : Part) (o : Nat) (v : W32) : (s.setLatch p o v).cap = s.cap := rfl
@[simp] theorem State.setLatch_cry (p : Part) (o : Nat) (v : W32) : (s.setLatch p o v).cry = s.cry := rfl
@[simp] theorem State.setLatch_slp (p : Part) (o : Nat) (v : W32) : (s.setLatch p o v).slp = s.slp := rfl
@[simp] theorem State.setLatch_err (p : Part) (o : Nat) (v : W32) : (s.setLatch p o v).err = s.err := rfl
@[simp] theorem State.setLatch_boot (p : Part) (o : Nat) (v : W32) : (s.setLatch p o v).boot = s.boot := rfl
@[simp] theorem State.setLatch_pins (p : Part) (o : Nat) (v : W32) : (s.setLatch p o v).pins = s.pins := rfl
@[simp] theorem State.setLatch_reg_regs (p : Part) (o : Nat) (v : W32) : (s.setLatch p o v).reg.regs = s.reg.regs := rfl
@[simp] theorem State.setLatch_reg_wide (p : Part) (o : Nat) (v : W32) : (s.setLatch p o v).reg.wide = s.reg.wide := rfl
@[simp] theorem State.setLatch_reg_pmBuf (p : Part) (o : Nat) (v : W32) : (s.setLatch p o v).reg.pmBuf = s.reg.pmBuf := rfl
@[simp] theorem State.setLatch_reg_mailbox (p : Part) (o : Nat) (v : W32) : (s.setLatch p o v).reg.mailbox = s.reg.mailbox := rfl

@[simp] theorem State.emit_pending (o : Out) : (s.emit o).pending = s.pending := rfl
@[simp] theorem State.emit_free (o : Out) : (s.emit o).free = s.free := rfl
@[simp] theorem State.emit_upNs (o : Out) : (s.emit o).upNs = s.upNs := rfl
@[simp] theorem State.emit_logger (o : Out) : (s.emit o).logger = s.logger := rfl
@[simp] theorem State.emit_reg (o : Out) : (s.emit o).reg = s.reg := rfl
@[simp] theorem State.emit_tab (o : Out) : (s.emit o).tab = s.tab := rfl
@[simp] theorem State.emit_live (o : Out) : (s.emit o).live = s.live := rfl
@[simp] theorem State.emit_cmd (o : Out) : (s.emit o).cmd = s.cmd := rfl
@[simp] theorem State.emit_fwd (o : Out) : (s.emit o).fwd = s.fwd := rfl
@[simp] theorem State.emit_lnk (o : Out) : (s.emit o).lnk = s.lnk := rfl
@[simp] theorem State.emit_tsu (o : Out) : (s.emit o).tsu = s.tsu := rfl
@[simp] theorem State.emit_phw (o : Out) : (s.emit o).phw = s.phw := rfl
@[simp] theorem State.emit_cap (o : Out) : (s.emit o).cap = s.cap := rfl
@[simp] theorem State.emit_cry (o : Out) : (s.emit o).cry = s.cry := rfl
@[simp] theorem State.emit_slp (o : Out) : (s.emit o).slp = s.slp := rfl
@[simp] theorem State.emit_err (o : Out) : (s.emit o).err = s.err := rfl
@[simp] theorem State.emit_boot (o : Out) : (s.emit o).boot = s.boot := rfl
@[simp] theorem State.emit_pins (o : Out) : (s.emit o).pins = s.pins := rfl

@[simp] theorem State.setDom_pending (x : Nat) (d : Domain) : (s.setDom x d).pending = s.pending := rfl
@[simp] theorem State.setDom_free (x : Nat) (d : Domain) : (s.setDom x d).free = s.free := rfl
@[simp] theorem State.setDom_upNs (x : Nat) (d : Domain) : (s.setDom x d).upNs = s.upNs := rfl
@[simp] theorem State.setDom_out (x : Nat) (d : Domain) : (s.setDom x d).out = s.out := rfl
@[simp] theorem State.setDom_logger (x : Nat) (d : Domain) : (s.setDom x d).logger = s.logger := rfl
@[simp] theorem State.setDom_reg (x : Nat) (d : Domain) : (s.setDom x d).reg = s.reg := rfl
@[simp] theorem State.setDom_tab (x : Nat) (d : Domain) : (s.setDom x d).tab = s.tab := rfl
@[simp] theorem State.setDom_live (x : Nat) (d : Domain) : (s.setDom x d).live = s.live := rfl
@[simp] theorem State.setDom_cmd (x : Nat) (d : Domain) : (s.setDom x d).cmd = s.cmd := rfl
@[simp] theorem State.setDom_fwd (x : Nat) (d : Domain) : (s.setDom x d).fwd = s.fwd := rfl
@[simp] theorem State.setDom_lnk (x : Nat) (d : Domain) : (s.setDom x d).lnk = s.lnk := rfl
@[simp] theorem State.setDom_phw (x : Nat) (d : Domain) : (s.setDom x d).phw = s.phw := rfl
@[simp] theorem State.setDom_cap (x : Nat) (d : Domain) : (s.setDom x d).cap = s.cap := rfl
@[simp] theorem State.setDom_cry (x : Nat) (d : Domain) : (s.setDom x d).cry = s.cry := rfl
@[simp] theorem State.setDom_slp (x : Nat) (d : Domain) : (s.setDom x d).slp = s.slp := rfl
@[simp] theorem State.setDom_err (x : Nat) (d : Domain) : (s.setDom x d).err = s.err := rfl
@[simp] theorem State.setDom_boot (x : Nat) (d : Domain) : (s.setDom x d).boot = s.boot := rfl
@[simp] theorem State.setDom_pins (x : Nat) (d : Domain) : (s.setDom x d).pins = s.pins := rfl

@[simp] theorem State.setPath_pending (p : Part) (c : CmdPath) : (s.setPath p c).pending = s.pending := rfl
@[simp] theorem State.setPath_free (p : Part) (c : CmdPath) : (s.setPath p c).free = s.free := rfl
@[simp] theorem State.setPath_upNs (p : Part) (c : CmdPath) : (s.setPath p c).upNs = s.upNs := rfl
@[simp] theorem State.setPath_out (p : Part) (c : CmdPath) : (s.setPath p c).out = s.out := rfl
@[simp] theorem State.setPath_logger (p : Part) (c : CmdPath) : (s.setPath p c).logger = s.logger := rfl
@[simp] theorem State.setPath_reg (p : Part) (c : CmdPath) : (s.setPath p c).reg = s.reg := rfl
@[simp] theorem State.setPath_tab (p : Part) (c : CmdPath) : (s.setPath p c).tab = s.tab := rfl
@[simp] theorem State.setPath_live (p : Part) (c : CmdPath) : (s.setPath p c).live = s.live := rfl
@[simp] theorem State.setPath_fwd (p : Part) (c : CmdPath) : (s.setPath p c).fwd = s.fwd := rfl
@[simp] theorem State.setPath_lnk (p : Part) (c : CmdPath) : (s.setPath p c).lnk = s.lnk := rfl
@[simp] theorem State.setPath_tsu (p : Part) (c : CmdPath) : (s.setPath p c).tsu = s.tsu := rfl
@[simp] theorem State.setPath_phw (p : Part) (c : CmdPath) : (s.setPath p c).phw = s.phw := rfl
@[simp] theorem State.setPath_cap (p : Part) (c : CmdPath) : (s.setPath p c).cap = s.cap := rfl
@[simp] theorem State.setPath_cry (p : Part) (c : CmdPath) : (s.setPath p c).cry = s.cry := rfl
@[simp] theorem State.setPath_slp (p : Part) (c : CmdPath) : (s.setPath p c).slp = s.slp := rfl
@[simp] theorem State.setPath_err (p : Part) (c : CmdPath) : (s.setPath p c).err = s.err := rfl
@[simp] theorem State.setPath_boot (p : Part) (c : CmdPath) : (s.setPath p c).boot = s.boot := rfl
@[simp] theorem State.setPath_pins (p : Part) (c : CmdPath) : (s.setPath p c).pins = s.pins := rfl

@[simp] theorem State.setMould_pending (p : Part) (m : Option Mould) : (s.setMould p m).pending = s.pending := rfl
@[simp] theorem State.setMould_free (p : Part) (m : Option Mould) : (s.setMould p m).free = s.free := rfl
@[simp] theorem State.setMould_upNs (p : Part) (m : Option Mould) : (s.setMould p m).upNs = s.upNs := rfl
@[simp] theorem State.setMould_out (p : Part) (m : Option Mould) : (s.setMould p m).out = s.out := rfl
@[simp] theorem State.setMould_logger (p : Part) (m : Option Mould) : (s.setMould p m).logger = s.logger := rfl
@[simp] theorem State.setMould_reg (p : Part) (m : Option Mould) : (s.setMould p m).reg = s.reg := rfl
@[simp] theorem State.setMould_tab (p : Part) (m : Option Mould) : (s.setMould p m).tab = s.tab := rfl
@[simp] theorem State.setMould_live (p : Part) (m : Option Mould) : (s.setMould p m).live = s.live := rfl
@[simp] theorem State.setMould_fwd (p : Part) (m : Option Mould) : (s.setMould p m).fwd = s.fwd := rfl
@[simp] theorem State.setMould_lnk (p : Part) (m : Option Mould) : (s.setMould p m).lnk = s.lnk := rfl
@[simp] theorem State.setMould_tsu (p : Part) (m : Option Mould) : (s.setMould p m).tsu = s.tsu := rfl
@[simp] theorem State.setMould_phw (p : Part) (m : Option Mould) : (s.setMould p m).phw = s.phw := rfl
@[simp] theorem State.setMould_cap (p : Part) (m : Option Mould) : (s.setMould p m).cap = s.cap := rfl
@[simp] theorem State.setMould_cry (p : Part) (m : Option Mould) : (s.setMould p m).cry = s.cry := rfl
@[simp] theorem State.setMould_slp (p : Part) (m : Option Mould) : (s.setMould p m).slp = s.slp := rfl
@[simp] theorem State.setMould_err (p : Part) (m : Option Mould) : (s.setMould p m).err = s.err := rfl
@[simp] theorem State.setMould_boot (p : Part) (m : Option Mould) : (s.setMould p m).boot = s.boot := rfl
@[simp] theorem State.setMould_pins (p : Part) (m : Option Mould) : (s.setMould p m).pins = s.pins := rfl

@[simp] theorem State.setSlot_pending (p : Part) (k : Nat) (v : Slot) : (s.setSlot p k v).pending = s.pending := rfl
@[simp] theorem State.setSlot_free (p : Part) (k : Nat) (v : Slot) : (s.setSlot p k v).free = s.free := rfl
@[simp] theorem State.setSlot_upNs (p : Part) (k : Nat) (v : Slot) : (s.setSlot p k v).upNs = s.upNs := rfl
@[simp] theorem State.setSlot_out (p : Part) (k : Nat) (v : Slot) : (s.setSlot p k v).out = s.out := rfl
@[simp] theorem State.setSlot_logger (p : Part) (k : Nat) (v : Slot) : (s.setSlot p k v).logger = s.logger := rfl
@[simp] theorem State.setSlot_reg (p : Part) (k : Nat) (v : Slot) : (s.setSlot p k v).reg = s.reg := rfl
@[simp] theorem State.setSlot_tab (p : Part) (k : Nat) (v : Slot) : (s.setSlot p k v).tab = s.tab := rfl
@[simp] theorem State.setSlot_live (p : Part) (k : Nat) (v : Slot) : (s.setSlot p k v).live = s.live := rfl
@[simp] theorem State.setSlot_fwd (p : Part) (k : Nat) (v : Slot) : (s.setSlot p k v).fwd = s.fwd := rfl
@[simp] theorem State.setSlot_lnk (p : Part) (k : Nat) (v : Slot) : (s.setSlot p k v).lnk = s.lnk := rfl
@[simp] theorem State.setSlot_tsu (p : Part) (k : Nat) (v : Slot) : (s.setSlot p k v).tsu = s.tsu := rfl
@[simp] theorem State.setSlot_phw (p : Part) (k : Nat) (v : Slot) : (s.setSlot p k v).phw = s.phw := rfl
@[simp] theorem State.setSlot_cap (p : Part) (k : Nat) (v : Slot) : (s.setSlot p k v).cap = s.cap := rfl
@[simp] theorem State.setSlot_cry (p : Part) (k : Nat) (v : Slot) : (s.setSlot p k v).cry = s.cry := rfl
@[simp] theorem State.setSlot_slp (p : Part) (k : Nat) (v : Slot) : (s.setSlot p k v).slp = s.slp := rfl
@[simp] theorem State.setSlot_err (p : Part) (k : Nat) (v : Slot) : (s.setSlot p k v).err = s.err := rfl
@[simp] theorem State.setSlot_boot (p : Part) (k : Nat) (v : Slot) : (s.setSlot p k v).boot = s.boot := rfl
@[simp] theorem State.setSlot_pins (p : Part) (k : Nat) (v : Slot) : (s.setSlot p k v).pins = s.pins := rfl

@[simp] theorem State.setLink_pending (h : HostPort) (up : Bool) : (s.setLink h up).pending = s.pending := rfl
@[simp] theorem State.setLink_free (h : HostPort) (up : Bool) : (s.setLink h up).free = s.free := rfl
@[simp] theorem State.setLink_upNs (h : HostPort) (up : Bool) : (s.setLink h up).upNs = s.upNs := rfl
@[simp] theorem State.setLink_out (h : HostPort) (up : Bool) : (s.setLink h up).out = s.out := rfl
@[simp] theorem State.setLink_logger (h : HostPort) (up : Bool) : (s.setLink h up).logger = s.logger := rfl
@[simp] theorem State.setLink_reg (h : HostPort) (up : Bool) : (s.setLink h up).reg = s.reg := rfl
@[simp] theorem State.setLink_tab (h : HostPort) (up : Bool) : (s.setLink h up).tab = s.tab := rfl
@[simp] theorem State.setLink_live (h : HostPort) (up : Bool) : (s.setLink h up).live = s.live := rfl
@[simp] theorem State.setLink_fwd (h : HostPort) (up : Bool) : (s.setLink h up).fwd = s.fwd := rfl
@[simp] theorem State.setLink_lnk (h : HostPort) (up : Bool) : (s.setLink h up).lnk = s.lnk := rfl
@[simp] theorem State.setLink_tsu (h : HostPort) (up : Bool) : (s.setLink h up).tsu = s.tsu := rfl
@[simp] theorem State.setLink_phw (h : HostPort) (up : Bool) : (s.setLink h up).phw = s.phw := rfl
@[simp] theorem State.setLink_cap (h : HostPort) (up : Bool) : (s.setLink h up).cap = s.cap := rfl
@[simp] theorem State.setLink_cry (h : HostPort) (up : Bool) : (s.setLink h up).cry = s.cry := rfl
@[simp] theorem State.setLink_slp (h : HostPort) (up : Bool) : (s.setLink h up).slp = s.slp := rfl
@[simp] theorem State.setLink_err (h : HostPort) (up : Bool) : (s.setLink h up).err = s.err := rfl
@[simp] theorem State.setLink_boot (h : HostPort) (up : Bool) : (s.setLink h up).boot = s.boot := rfl
@[simp] theorem State.setLink_pins (h : HostPort) (up : Bool) : (s.setLink h up).pins = s.pins := rfl

@[simp] theorem State.setEg_pending (c : Nat) (e : EgPort) : (s.setEg c e).pending = s.pending := rfl
@[simp] theorem State.setEg_free (c : Nat) (e : EgPort) : (s.setEg c e).free = s.free := rfl
@[simp] theorem State.setEg_upNs (c : Nat) (e : EgPort) : (s.setEg c e).upNs = s.upNs := rfl
@[simp] theorem State.setEg_out (c : Nat) (e : EgPort) : (s.setEg c e).out = s.out := rfl
@[simp] theorem State.setEg_logger (c : Nat) (e : EgPort) : (s.setEg c e).logger = s.logger := rfl
@[simp] theorem State.setEg_reg (c : Nat) (e : EgPort) : (s.setEg c e).reg = s.reg := rfl
@[simp] theorem State.setEg_tab (c : Nat) (e : EgPort) : (s.setEg c e).tab = s.tab := rfl
@[simp] theorem State.setEg_live (c : Nat) (e : EgPort) : (s.setEg c e).live = s.live := rfl
@[simp] theorem State.setEg_cmd (c : Nat) (e : EgPort) : (s.setEg c e).cmd = s.cmd := rfl
@[simp] theorem State.setEg_lnk (c : Nat) (e : EgPort) : (s.setEg c e).lnk = s.lnk := rfl
@[simp] theorem State.setEg_tsu (c : Nat) (e : EgPort) : (s.setEg c e).tsu = s.tsu := rfl
@[simp] theorem State.setEg_phw (c : Nat) (e : EgPort) : (s.setEg c e).phw = s.phw := rfl
@[simp] theorem State.setEg_cap (c : Nat) (e : EgPort) : (s.setEg c e).cap = s.cap := rfl
@[simp] theorem State.setEg_cry (c : Nat) (e : EgPort) : (s.setEg c e).cry = s.cry := rfl
@[simp] theorem State.setEg_slp (c : Nat) (e : EgPort) : (s.setEg c e).slp = s.slp := rfl
@[simp] theorem State.setEg_err (c : Nat) (e : EgPort) : (s.setEg c e).err = s.err := rfl
@[simp] theorem State.setEg_boot (c : Nat) (e : EgPort) : (s.setEg c e).boot = s.boot := rfl
@[simp] theorem State.setEg_pins (c : Nat) (e : EgPort) : (s.setEg c e).pins = s.pins := rfl

@[simp] theorem State.setQueue_pending (c q : Nat) (l : List Copy) : (s.setQueue c q l).pending = s.pending := (s.setEg_pending c _)
@[simp] theorem State.setQueue_free (c q : Nat) (l : List Copy) : (s.setQueue c q l).free = s.free := (s.setEg_free c _)
@[simp] theorem State.setQueue_upNs (c q : Nat) (l : List Copy) : (s.setQueue c q l).upNs = s.upNs := (s.setEg_upNs c _)
@[simp] theorem State.setQueue_out (c q : Nat) (l : List Copy) : (s.setQueue c q l).out = s.out := (s.setEg_out c _)
@[simp] theorem State.setQueue_logger (c q : Nat) (l : List Copy) : (s.setQueue c q l).logger = s.logger := (s.setEg_logger c _)
@[simp] theorem State.setQueue_reg (c q : Nat) (l : List Copy) : (s.setQueue c q l).reg = s.reg := (s.setEg_reg c _)
@[simp] theorem State.setQueue_tab (c q : Nat) (l : List Copy) : (s.setQueue c q l).tab = s.tab := (s.setEg_tab c _)
@[simp] theorem State.setQueue_live (c q : Nat) (l : List Copy) : (s.setQueue c q l).live = s.live := (s.setEg_live c _)
@[simp] theorem State.setQueue_cmd (c q : Nat) (l : List Copy) : (s.setQueue c q l).cmd = s.cmd := (s.setEg_cmd c _)
@[simp] theorem State.setQueue_lnk (c q : Nat) (l : List Copy) : (s.setQueue c q l).lnk = s.lnk := (s.setEg_lnk c _)
@[simp] theorem State.setQueue_tsu (c q : Nat) (l : List Copy) : (s.setQueue c q l).tsu = s.tsu := (s.setEg_tsu c _)
@[simp] theorem State.setQueue_phw (c q : Nat) (l : List Copy) : (s.setQueue c q l).phw = s.phw := (s.setEg_phw c _)
@[simp] theorem State.setQueue_cap (c q : Nat) (l : List Copy) : (s.setQueue c q l).cap = s.cap := (s.setEg_cap c _)
@[simp] theorem State.setQueue_cry (c q : Nat) (l : List Copy) : (s.setQueue c q l).cry = s.cry := (s.setEg_cry c _)
@[simp] theorem State.setQueue_slp (c q : Nat) (l : List Copy) : (s.setQueue c q l).slp = s.slp := (s.setEg_slp c _)
@[simp] theorem State.setQueue_err (c q : Nat) (l : List Copy) : (s.setQueue c q l).err = s.err := (s.setEg_err c _)
@[simp] theorem State.setQueue_boot (c q : Nat) (l : List Copy) : (s.setQueue c q l).boot = s.boot := (s.setEg_boot c _)
@[simp] theorem State.setQueue_pins (c q : Nat) (l : List Copy) : (s.setQueue c q l).pins = s.pins := (s.setEg_pins c _)

@[simp] theorem State.setFrame_pending (f : Frame) : (s.setFrame f).pending = s.pending := rfl
@[simp] theorem State.setFrame_free (f : Frame) : (s.setFrame f).free = s.free := rfl
@[simp] theorem State.setFrame_upNs (f : Frame) : (s.setFrame f).upNs = s.upNs := rfl
@[simp] theorem State.setFrame_out (f : Frame) : (s.setFrame f).out = s.out := rfl
@[simp] theorem State.setFrame_logger (f : Frame) : (s.setFrame f).logger = s.logger := rfl
@[simp] theorem State.setFrame_reg (f : Frame) : (s.setFrame f).reg = s.reg := rfl
@[simp] theorem State.setFrame_tab (f : Frame) : (s.setFrame f).tab = s.tab := rfl
@[simp] theorem State.setFrame_live (f : Frame) : (s.setFrame f).live = s.live := rfl
@[simp] theorem State.setFrame_cmd (f : Frame) : (s.setFrame f).cmd = s.cmd := rfl
@[simp] theorem State.setFrame_lnk (f : Frame) : (s.setFrame f).lnk = s.lnk := rfl
@[simp] theorem State.setFrame_tsu (f : Frame) : (s.setFrame f).tsu = s.tsu := rfl
@[simp] theorem State.setFrame_phw (f : Frame) : (s.setFrame f).phw = s.phw := rfl
@[simp] theorem State.setFrame_cap (f : Frame) : (s.setFrame f).cap = s.cap := rfl
@[simp] theorem State.setFrame_cry (f : Frame) : (s.setFrame f).cry = s.cry := rfl
@[simp] theorem State.setFrame_slp (f : Frame) : (s.setFrame f).slp = s.slp := rfl
@[simp] theorem State.setFrame_err (f : Frame) : (s.setFrame f).err = s.err := rfl
@[simp] theorem State.setFrame_boot (f : Frame) : (s.setFrame f).boot = s.boot := rfl
@[simp] theorem State.setFrame_pins (f : Frame) : (s.setFrame f).pins = s.pins := rfl

@[simp] theorem State.setBounds_pending (c : Nat) (l : List Boundpt) : (s.setBounds c l).pending = s.pending := rfl
@[simp] theorem State.setBounds_free (c : Nat) (l : List Boundpt) : (s.setBounds c l).free = s.free := rfl
@[simp] theorem State.setBounds_upNs (c : Nat) (l : List Boundpt) : (s.setBounds c l).upNs = s.upNs := rfl
@[simp] theorem State.setBounds_out (c : Nat) (l : List Boundpt) : (s.setBounds c l).out = s.out := rfl
@[simp] theorem State.setBounds_logger (c : Nat) (l : List Boundpt) : (s.setBounds c l).logger = s.logger := rfl
@[simp] theorem State.setBounds_reg (c : Nat) (l : List Boundpt) : (s.setBounds c l).reg = s.reg := rfl
@[simp] theorem State.setBounds_tab (c : Nat) (l : List Boundpt) : (s.setBounds c l).tab = s.tab := rfl
@[simp] theorem State.setBounds_live (c : Nat) (l : List Boundpt) : (s.setBounds c l).live = s.live := rfl
@[simp] theorem State.setBounds_cmd (c : Nat) (l : List Boundpt) : (s.setBounds c l).cmd = s.cmd := rfl
@[simp] theorem State.setBounds_lnk (c : Nat) (l : List Boundpt) : (s.setBounds c l).lnk = s.lnk := rfl
@[simp] theorem State.setBounds_tsu (c : Nat) (l : List Boundpt) : (s.setBounds c l).tsu = s.tsu := rfl
@[simp] theorem State.setBounds_phw (c : Nat) (l : List Boundpt) : (s.setBounds c l).phw = s.phw := rfl
@[simp] theorem State.setBounds_cap (c : Nat) (l : List Boundpt) : (s.setBounds c l).cap = s.cap := rfl
@[simp] theorem State.setBounds_cry (c : Nat) (l : List Boundpt) : (s.setBounds c l).cry = s.cry := rfl
@[simp] theorem State.setBounds_slp (c : Nat) (l : List Boundpt) : (s.setBounds c l).slp = s.slp := rfl
@[simp] theorem State.setBounds_err (c : Nat) (l : List Boundpt) : (s.setBounds c l).err = s.err := rfl
@[simp] theorem State.setBounds_boot (c : Nat) (l : List Boundpt) : (s.setBounds c l).boot = s.boot := rfl
@[simp] theorem State.setBounds_pins (c : Nat) (l : List Boundpt) : (s.setBounds c l).pins = s.pins := rfl

@[simp] theorem State.setArb_pending (i : ArbId) (v : Arb) : (s.setArb i v).pending = s.pending := rfl
@[simp] theorem State.setArb_free (i : ArbId) (v : Arb) : (s.setArb i v).free = s.free := rfl
@[simp] theorem State.setArb_upNs (i : ArbId) (v : Arb) : (s.setArb i v).upNs = s.upNs := rfl
@[simp] theorem State.setArb_out (i : ArbId) (v : Arb) : (s.setArb i v).out = s.out := rfl
@[simp] theorem State.setArb_logger (i : ArbId) (v : Arb) : (s.setArb i v).logger = s.logger := rfl
@[simp] theorem State.setArb_reg (i : ArbId) (v : Arb) : (s.setArb i v).reg = s.reg := rfl
@[simp] theorem State.setArb_tab (i : ArbId) (v : Arb) : (s.setArb i v).tab = s.tab := rfl
@[simp] theorem State.setArb_live (i : ArbId) (v : Arb) : (s.setArb i v).live = s.live := rfl
@[simp] theorem State.setArb_cmd (i : ArbId) (v : Arb) : (s.setArb i v).cmd = s.cmd := rfl
@[simp] theorem State.setArb_lnk (i : ArbId) (v : Arb) : (s.setArb i v).lnk = s.lnk := rfl
@[simp] theorem State.setArb_tsu (i : ArbId) (v : Arb) : (s.setArb i v).tsu = s.tsu := rfl
@[simp] theorem State.setArb_phw (i : ArbId) (v : Arb) : (s.setArb i v).phw = s.phw := rfl
@[simp] theorem State.setArb_cap (i : ArbId) (v : Arb) : (s.setArb i v).cap = s.cap := rfl
@[simp] theorem State.setArb_cry (i : ArbId) (v : Arb) : (s.setArb i v).cry = s.cry := rfl
@[simp] theorem State.setArb_slp (i : ArbId) (v : Arb) : (s.setArb i v).slp = s.slp := rfl
@[simp] theorem State.setArb_err (i : ArbId) (v : Arb) : (s.setArb i v).err = s.err := rfl
@[simp] theorem State.setArb_boot (i : ArbId) (v : Arb) : (s.setArb i v).boot = s.boot := rfl
@[simp] theorem State.setArb_pins (i : ArbId) (v : Arb) : (s.setArb i v).pins = s.pins := rfl

@[simp] theorem State.setStream_pending (i : Nat) (r : Stream) : (s.setStream i r).pending = s.pending := rfl
@[simp] theorem State.setStream_free (i : Nat) (r : Stream) : (s.setStream i r).free = s.free := rfl
@[simp] theorem State.setStream_upNs (i : Nat) (r : Stream) : (s.setStream i r).upNs = s.upNs := rfl
@[simp] theorem State.setStream_out (i : Nat) (r : Stream) : (s.setStream i r).out = s.out := rfl
@[simp] theorem State.setStream_logger (i : Nat) (r : Stream) : (s.setStream i r).logger = s.logger := rfl
@[simp] theorem State.setStream_reg (i : Nat) (r : Stream) : (s.setStream i r).reg = s.reg := rfl
@[simp] theorem State.setStream_tab (i : Nat) (r : Stream) : (s.setStream i r).tab = s.tab := rfl
@[simp] theorem State.setStream_cmd (i : Nat) (r : Stream) : (s.setStream i r).cmd = s.cmd := rfl
@[simp] theorem State.setStream_fwd (i : Nat) (r : Stream) : (s.setStream i r).fwd = s.fwd := rfl
@[simp] theorem State.setStream_lnk (i : Nat) (r : Stream) : (s.setStream i r).lnk = s.lnk := rfl
@[simp] theorem State.setStream_tsu (i : Nat) (r : Stream) : (s.setStream i r).tsu = s.tsu := rfl
@[simp] theorem State.setStream_phw (i : Nat) (r : Stream) : (s.setStream i r).phw = s.phw := rfl
@[simp] theorem State.setStream_cap (i : Nat) (r : Stream) : (s.setStream i r).cap = s.cap := rfl
@[simp] theorem State.setStream_cry (i : Nat) (r : Stream) : (s.setStream i r).cry = s.cry := rfl
@[simp] theorem State.setStream_slp (i : Nat) (r : Stream) : (s.setStream i r).slp = s.slp := rfl
@[simp] theorem State.setStream_err (i : Nat) (r : Stream) : (s.setStream i r).err = s.err := rfl
@[simp] theorem State.setStream_boot (i : Nat) (r : Stream) : (s.setStream i r).boot = s.boot := rfl
@[simp] theorem State.setStream_pins (i : Nat) (r : Stream) : (s.setStream i r).pins = s.pins := rfl

@[simp] theorem State.setSa_pending (i : Nat) (v : W64) : (s.setSa i v).pending = s.pending := rfl
@[simp] theorem State.setSa_free (i : Nat) (v : W64) : (s.setSa i v).free = s.free := rfl
@[simp] theorem State.setSa_upNs (i : Nat) (v : W64) : (s.setSa i v).upNs = s.upNs := rfl
@[simp] theorem State.setSa_out (i : Nat) (v : W64) : (s.setSa i v).out = s.out := rfl
@[simp] theorem State.setSa_logger (i : Nat) (v : W64) : (s.setSa i v).logger = s.logger := rfl
@[simp] theorem State.setSa_reg (i : Nat) (v : W64) : (s.setSa i v).reg = s.reg := rfl
@[simp] theorem State.setSa_tab (i : Nat) (v : W64) : (s.setSa i v).tab = s.tab := rfl
@[simp] theorem State.setSa_cmd (i : Nat) (v : W64) : (s.setSa i v).cmd = s.cmd := rfl
@[simp] theorem State.setSa_fwd (i : Nat) (v : W64) : (s.setSa i v).fwd = s.fwd := rfl
@[simp] theorem State.setSa_lnk (i : Nat) (v : W64) : (s.setSa i v).lnk = s.lnk := rfl
@[simp] theorem State.setSa_tsu (i : Nat) (v : W64) : (s.setSa i v).tsu = s.tsu := rfl
@[simp] theorem State.setSa_phw (i : Nat) (v : W64) : (s.setSa i v).phw = s.phw := rfl
@[simp] theorem State.setSa_cap (i : Nat) (v : W64) : (s.setSa i v).cap = s.cap := rfl
@[simp] theorem State.setSa_cry (i : Nat) (v : W64) : (s.setSa i v).cry = s.cry := rfl
@[simp] theorem State.setSa_slp (i : Nat) (v : W64) : (s.setSa i v).slp = s.slp := rfl
@[simp] theorem State.setSa_err (i : Nat) (v : W64) : (s.setSa i v).err = s.err := rfl
@[simp] theorem State.setSa_boot (i : Nat) (v : W64) : (s.setSa i v).boot = s.boot := rfl
@[simp] theorem State.setSa_pins (i : Nat) (v : W64) : (s.setSa i v).pins = s.pins := rfl

@[simp] theorem State.setTt_pending (n : Nat) (t : Turntable) : (s.setTt n t).pending = s.pending := rfl
@[simp] theorem State.setTt_free (n : Nat) (t : Turntable) : (s.setTt n t).free = s.free := rfl
@[simp] theorem State.setTt_upNs (n : Nat) (t : Turntable) : (s.setTt n t).upNs = s.upNs := rfl
@[simp] theorem State.setTt_out (n : Nat) (t : Turntable) : (s.setTt n t).out = s.out := rfl
@[simp] theorem State.setTt_logger (n : Nat) (t : Turntable) : (s.setTt n t).logger = s.logger := rfl
@[simp] theorem State.setTt_reg (n : Nat) (t : Turntable) : (s.setTt n t).reg = s.reg := rfl
@[simp] theorem State.setTt_tab (n : Nat) (t : Turntable) : (s.setTt n t).tab = s.tab := rfl
@[simp] theorem State.setTt_live (n : Nat) (t : Turntable) : (s.setTt n t).live = s.live := rfl
@[simp] theorem State.setTt_cmd (n : Nat) (t : Turntable) : (s.setTt n t).cmd = s.cmd := rfl
@[simp] theorem State.setTt_fwd (n : Nat) (t : Turntable) : (s.setTt n t).fwd = s.fwd := rfl
@[simp] theorem State.setTt_lnk (n : Nat) (t : Turntable) : (s.setTt n t).lnk = s.lnk := rfl
@[simp] theorem State.setTt_tsu (n : Nat) (t : Turntable) : (s.setTt n t).tsu = s.tsu := rfl
@[simp] theorem State.setTt_cap (n : Nat) (t : Turntable) : (s.setTt n t).cap = s.cap := rfl
@[simp] theorem State.setTt_cry (n : Nat) (t : Turntable) : (s.setTt n t).cry = s.cry := rfl
@[simp] theorem State.setTt_slp (n : Nat) (t : Turntable) : (s.setTt n t).slp = s.slp := rfl
@[simp] theorem State.setTt_err (n : Nat) (t : Turntable) : (s.setTt n t).err = s.err := rfl
@[simp] theorem State.setTt_boot (n : Nat) (t : Turntable) : (s.setTt n t).boot = s.boot := rfl
@[simp] theorem State.setTt_pins (n : Nat) (t : Turntable) : (s.setTt n t).pins = s.pins := rfl

@[simp] theorem State.setTrg_pending (m : Nat) (t : Trigger) : (s.setTrg m t).pending = s.pending := rfl
@[simp] theorem State.setTrg_free (m : Nat) (t : Trigger) : (s.setTrg m t).free = s.free := rfl
@[simp] theorem State.setTrg_upNs (m : Nat) (t : Trigger) : (s.setTrg m t).upNs = s.upNs := rfl
@[simp] theorem State.setTrg_out (m : Nat) (t : Trigger) : (s.setTrg m t).out = s.out := rfl
@[simp] theorem State.setTrg_logger (m : Nat) (t : Trigger) : (s.setTrg m t).logger = s.logger := rfl
@[simp] theorem State.setTrg_reg (m : Nat) (t : Trigger) : (s.setTrg m t).reg = s.reg := rfl
@[simp] theorem State.setTrg_tab (m : Nat) (t : Trigger) : (s.setTrg m t).tab = s.tab := rfl
@[simp] theorem State.setTrg_live (m : Nat) (t : Trigger) : (s.setTrg m t).live = s.live := rfl
@[simp] theorem State.setTrg_cmd (m : Nat) (t : Trigger) : (s.setTrg m t).cmd = s.cmd := rfl
@[simp] theorem State.setTrg_fwd (m : Nat) (t : Trigger) : (s.setTrg m t).fwd = s.fwd := rfl
@[simp] theorem State.setTrg_lnk (m : Nat) (t : Trigger) : (s.setTrg m t).lnk = s.lnk := rfl
@[simp] theorem State.setTrg_tsu (m : Nat) (t : Trigger) : (s.setTrg m t).tsu = s.tsu := rfl
@[simp] theorem State.setTrg_cap (m : Nat) (t : Trigger) : (s.setTrg m t).cap = s.cap := rfl
@[simp] theorem State.setTrg_cry (m : Nat) (t : Trigger) : (s.setTrg m t).cry = s.cry := rfl
@[simp] theorem State.setTrg_slp (m : Nat) (t : Trigger) : (s.setTrg m t).slp = s.slp := rfl
@[simp] theorem State.setTrg_err (m : Nat) (t : Trigger) : (s.setTrg m t).err = s.err := rfl
@[simp] theorem State.setTrg_boot (m : Nat) (t : Trigger) : (s.setTrg m t).boot = s.boot := rfl
@[simp] theorem State.setTrg_pins (m : Nat) (t : Trigger) : (s.setTrg m t).pins = s.pins := rfl

@[simp] theorem State.setCapq_pending (q : Nat) (c : CapQ) : (s.setCapq q c).pending = s.pending := rfl
@[simp] theorem State.setCapq_free (q : Nat) (c : CapQ) : (s.setCapq q c).free = s.free := rfl
@[simp] theorem State.setCapq_upNs (q : Nat) (c : CapQ) : (s.setCapq q c).upNs = s.upNs := rfl
@[simp] theorem State.setCapq_out (q : Nat) (c : CapQ) : (s.setCapq q c).out = s.out := rfl
@[simp] theorem State.setCapq_logger (q : Nat) (c : CapQ) : (s.setCapq q c).logger = s.logger := rfl
@[simp] theorem State.setCapq_reg (q : Nat) (c : CapQ) : (s.setCapq q c).reg = s.reg := rfl
@[simp] theorem State.setCapq_tab (q : Nat) (c : CapQ) : (s.setCapq q c).tab = s.tab := rfl
@[simp] theorem State.setCapq_live (q : Nat) (c : CapQ) : (s.setCapq q c).live = s.live := rfl
@[simp] theorem State.setCapq_cmd (q : Nat) (c : CapQ) : (s.setCapq q c).cmd = s.cmd := rfl
@[simp] theorem State.setCapq_fwd (q : Nat) (c : CapQ) : (s.setCapq q c).fwd = s.fwd := rfl
@[simp] theorem State.setCapq_lnk (q : Nat) (c : CapQ) : (s.setCapq q c).lnk = s.lnk := rfl
@[simp] theorem State.setCapq_tsu (q : Nat) (c : CapQ) : (s.setCapq q c).tsu = s.tsu := rfl
@[simp] theorem State.setCapq_phw (q : Nat) (c : CapQ) : (s.setCapq q c).phw = s.phw := rfl
@[simp] theorem State.setCapq_cry (q : Nat) (c : CapQ) : (s.setCapq q c).cry = s.cry := rfl
@[simp] theorem State.setCapq_slp (q : Nat) (c : CapQ) : (s.setCapq q c).slp = s.slp := rfl
@[simp] theorem State.setCapq_err (q : Nat) (c : CapQ) : (s.setCapq q c).err = s.err := rfl
@[simp] theorem State.setCapq_boot (q : Nat) (c : CapQ) : (s.setCapq q c).boot = s.boot := rfl
@[simp] theorem State.setCapq_pins (q : Nat) (c : CapQ) : (s.setCapq q c).pins = s.pins := rfl

@[simp] theorem State.setLane_pending (n : Nat) (l : Lane) : (s.setLane n l).pending = s.pending := rfl
@[simp] theorem State.setLane_free (n : Nat) (l : Lane) : (s.setLane n l).free = s.free := rfl
@[simp] theorem State.setLane_upNs (n : Nat) (l : Lane) : (s.setLane n l).upNs = s.upNs := rfl
@[simp] theorem State.setLane_out (n : Nat) (l : Lane) : (s.setLane n l).out = s.out := rfl
@[simp] theorem State.setLane_logger (n : Nat) (l : Lane) : (s.setLane n l).logger = s.logger := rfl
@[simp] theorem State.setLane_reg (n : Nat) (l : Lane) : (s.setLane n l).reg = s.reg := rfl
@[simp] theorem State.setLane_tab (n : Nat) (l : Lane) : (s.setLane n l).tab = s.tab := rfl
@[simp] theorem State.setLane_live (n : Nat) (l : Lane) : (s.setLane n l).live = s.live := rfl
@[simp] theorem State.setLane_cmd (n : Nat) (l : Lane) : (s.setLane n l).cmd = s.cmd := rfl
@[simp] theorem State.setLane_fwd (n : Nat) (l : Lane) : (s.setLane n l).fwd = s.fwd := rfl
@[simp] theorem State.setLane_tsu (n : Nat) (l : Lane) : (s.setLane n l).tsu = s.tsu := rfl
@[simp] theorem State.setLane_phw (n : Nat) (l : Lane) : (s.setLane n l).phw = s.phw := rfl
@[simp] theorem State.setLane_cap (n : Nat) (l : Lane) : (s.setLane n l).cap = s.cap := rfl
@[simp] theorem State.setLane_cry (n : Nat) (l : Lane) : (s.setLane n l).cry = s.cry := rfl
@[simp] theorem State.setLane_slp (n : Nat) (l : Lane) : (s.setLane n l).slp = s.slp := rfl
@[simp] theorem State.setLane_err (n : Nat) (l : Lane) : (s.setLane n l).err = s.err := rfl
@[simp] theorem State.setLane_boot (n : Nat) (l : Lane) : (s.setLane n l).boot = s.boot := rfl
@[simp] theorem State.setLane_pins (n : Nat) (l : Lane) : (s.setLane n l).pins = s.pins := rfl

@[simp] theorem State.setLin_pending (n : Nat) (l : LinPort) : (s.setLin n l).pending = s.pending := rfl
@[simp] theorem State.setLin_free (n : Nat) (l : LinPort) : (s.setLin n l).free = s.free := rfl
@[simp] theorem State.setLin_upNs (n : Nat) (l : LinPort) : (s.setLin n l).upNs = s.upNs := rfl
@[simp] theorem State.setLin_out (n : Nat) (l : LinPort) : (s.setLin n l).out = s.out := rfl
@[simp] theorem State.setLin_logger (n : Nat) (l : LinPort) : (s.setLin n l).logger = s.logger := rfl
@[simp] theorem State.setLin_reg (n : Nat) (l : LinPort) : (s.setLin n l).reg = s.reg := rfl
@[simp] theorem State.setLin_tab (n : Nat) (l : LinPort) : (s.setLin n l).tab = s.tab := rfl
@[simp] theorem State.setLin_live (n : Nat) (l : LinPort) : (s.setLin n l).live = s.live := rfl
@[simp] theorem State.setLin_cmd (n : Nat) (l : LinPort) : (s.setLin n l).cmd = s.cmd := rfl
@[simp] theorem State.setLin_fwd (n : Nat) (l : LinPort) : (s.setLin n l).fwd = s.fwd := rfl
@[simp] theorem State.setLin_tsu (n : Nat) (l : LinPort) : (s.setLin n l).tsu = s.tsu := rfl
@[simp] theorem State.setLin_phw (n : Nat) (l : LinPort) : (s.setLin n l).phw = s.phw := rfl
@[simp] theorem State.setLin_cap (n : Nat) (l : LinPort) : (s.setLin n l).cap = s.cap := rfl
@[simp] theorem State.setLin_cry (n : Nat) (l : LinPort) : (s.setLin n l).cry = s.cry := rfl
@[simp] theorem State.setLin_slp (n : Nat) (l : LinPort) : (s.setLin n l).slp = s.slp := rfl
@[simp] theorem State.setLin_err (n : Nat) (l : LinPort) : (s.setLin n l).err = s.err := rfl
@[simp] theorem State.setLin_boot (n : Nat) (l : LinPort) : (s.setLin n l).boot = s.boot := rfl
@[simp] theorem State.setLin_pins (n : Nat) (l : LinPort) : (s.setLin n l).pins = s.pins := rfl

@[simp] theorem State.setRx_pending (c : Nat) (l : List RxFrame) : (s.setRx c l).pending = s.pending := rfl
@[simp] theorem State.setRx_free (c : Nat) (l : List RxFrame) : (s.setRx c l).free = s.free := rfl
@[simp] theorem State.setRx_upNs (c : Nat) (l : List RxFrame) : (s.setRx c l).upNs = s.upNs := rfl
@[simp] theorem State.setRx_out (c : Nat) (l : List RxFrame) : (s.setRx c l).out = s.out := rfl
@[simp] theorem State.setRx_logger (c : Nat) (l : List RxFrame) : (s.setRx c l).logger = s.logger := rfl
@[simp] theorem State.setRx_reg (c : Nat) (l : List RxFrame) : (s.setRx c l).reg = s.reg := rfl
@[simp] theorem State.setRx_tab (c : Nat) (l : List RxFrame) : (s.setRx c l).tab = s.tab := rfl
@[simp] theorem State.setRx_live (c : Nat) (l : List RxFrame) : (s.setRx c l).live = s.live := rfl
@[simp] theorem State.setRx_cmd (c : Nat) (l : List RxFrame) : (s.setRx c l).cmd = s.cmd := rfl
@[simp] theorem State.setRx_fwd (c : Nat) (l : List RxFrame) : (s.setRx c l).fwd = s.fwd := rfl
@[simp] theorem State.setRx_tsu (c : Nat) (l : List RxFrame) : (s.setRx c l).tsu = s.tsu := rfl
@[simp] theorem State.setRx_phw (c : Nat) (l : List RxFrame) : (s.setRx c l).phw = s.phw := rfl
@[simp] theorem State.setRx_cap (c : Nat) (l : List RxFrame) : (s.setRx c l).cap = s.cap := rfl
@[simp] theorem State.setRx_cry (c : Nat) (l : List RxFrame) : (s.setRx c l).cry = s.cry := rfl
@[simp] theorem State.setRx_slp (c : Nat) (l : List RxFrame) : (s.setRx c l).slp = s.slp := rfl
@[simp] theorem State.setRx_err (c : Nat) (l : List RxFrame) : (s.setRx c l).err = s.err := rfl
@[simp] theorem State.setRx_boot (c : Nat) (l : List RxFrame) : (s.setRx c l).boot = s.boot := rfl
@[simp] theorem State.setRx_pins (c : Nat) (l : List RxFrame) : (s.setRx c l).pins = s.pins := rfl

@[simp] theorem State.setMdioQ_pending (m : Nat) (l : List MdioReq) : (s.setMdioQ m l).pending = s.pending := rfl
@[simp] theorem State.setMdioQ_free (m : Nat) (l : List MdioReq) : (s.setMdioQ m l).free = s.free := rfl
@[simp] theorem State.setMdioQ_upNs (m : Nat) (l : List MdioReq) : (s.setMdioQ m l).upNs = s.upNs := rfl
@[simp] theorem State.setMdioQ_out (m : Nat) (l : List MdioReq) : (s.setMdioQ m l).out = s.out := rfl
@[simp] theorem State.setMdioQ_logger (m : Nat) (l : List MdioReq) : (s.setMdioQ m l).logger = s.logger := rfl
@[simp] theorem State.setMdioQ_reg (m : Nat) (l : List MdioReq) : (s.setMdioQ m l).reg = s.reg := rfl
@[simp] theorem State.setMdioQ_tab (m : Nat) (l : List MdioReq) : (s.setMdioQ m l).tab = s.tab := rfl
@[simp] theorem State.setMdioQ_live (m : Nat) (l : List MdioReq) : (s.setMdioQ m l).live = s.live := rfl
@[simp] theorem State.setMdioQ_cmd (m : Nat) (l : List MdioReq) : (s.setMdioQ m l).cmd = s.cmd := rfl
@[simp] theorem State.setMdioQ_fwd (m : Nat) (l : List MdioReq) : (s.setMdioQ m l).fwd = s.fwd := rfl
@[simp] theorem State.setMdioQ_tsu (m : Nat) (l : List MdioReq) : (s.setMdioQ m l).tsu = s.tsu := rfl
@[simp] theorem State.setMdioQ_phw (m : Nat) (l : List MdioReq) : (s.setMdioQ m l).phw = s.phw := rfl
@[simp] theorem State.setMdioQ_cap (m : Nat) (l : List MdioReq) : (s.setMdioQ m l).cap = s.cap := rfl
@[simp] theorem State.setMdioQ_cry (m : Nat) (l : List MdioReq) : (s.setMdioQ m l).cry = s.cry := rfl
@[simp] theorem State.setMdioQ_slp (m : Nat) (l : List MdioReq) : (s.setMdioQ m l).slp = s.slp := rfl
@[simp] theorem State.setMdioQ_err (m : Nat) (l : List MdioReq) : (s.setMdioQ m l).err = s.err := rfl
@[simp] theorem State.setMdioQ_boot (m : Nat) (l : List MdioReq) : (s.setMdioQ m l).boot = s.boot := rfl
@[simp] theorem State.setMdioQ_pins (m : Nat) (l : List MdioReq) : (s.setMdioQ m l).pins = s.pins := rfl

@[simp] theorem State.setEthState_pending (n v : Nat) : (s.setEthState n v).pending = s.pending := (s.setFd_pending _ _ _ _)
@[simp] theorem State.setEthState_free (n v : Nat) : (s.setEthState n v).free = s.free := (s.setFd_free _ _ _ _)
@[simp] theorem State.setEthState_upNs (n v : Nat) : (s.setEthState n v).upNs = s.upNs := (s.setFd_upNs _ _ _ _)
@[simp] theorem State.setEthState_out (n v : Nat) : (s.setEthState n v).out = s.out := (s.setFd_out _ _ _ _)
@[simp] theorem State.setEthState_logger (n v : Nat) : (s.setEthState n v).logger = s.logger := (s.setFd_logger _ _ _ _)
@[simp] theorem State.setEthState_tab (n v : Nat) : (s.setEthState n v).tab = s.tab := (s.setFd_tab _ _ _ _)
@[simp] theorem State.setEthState_live (n v : Nat) : (s.setEthState n v).live = s.live := (s.setFd_live _ _ _ _)
@[simp] theorem State.setEthState_cmd (n v : Nat) : (s.setEthState n v).cmd = s.cmd := (s.setFd_cmd _ _ _ _)
@[simp] theorem State.setEthState_fwd (n v : Nat) : (s.setEthState n v).fwd = s.fwd := (s.setFd_fwd _ _ _ _)
@[simp] theorem State.setEthState_lnk (n v : Nat) : (s.setEthState n v).lnk = s.lnk := (s.setFd_lnk _ _ _ _)
@[simp] theorem State.setEthState_tsu (n v : Nat) : (s.setEthState n v).tsu = s.tsu := (s.setFd_tsu _ _ _ _)
@[simp] theorem State.setEthState_phw (n v : Nat) : (s.setEthState n v).phw = s.phw := (s.setFd_phw _ _ _ _)
@[simp] theorem State.setEthState_cap (n v : Nat) : (s.setEthState n v).cap = s.cap := (s.setFd_cap _ _ _ _)
@[simp] theorem State.setEthState_cry (n v : Nat) : (s.setEthState n v).cry = s.cry := (s.setFd_cry _ _ _ _)
@[simp] theorem State.setEthState_slp (n v : Nat) : (s.setEthState n v).slp = s.slp := (s.setFd_slp _ _ _ _)
@[simp] theorem State.setEthState_err (n v : Nat) : (s.setEthState n v).err = s.err := (s.setFd_err _ _ _ _)
@[simp] theorem State.setEthState_boot (n v : Nat) : (s.setEthState n v).boot = s.boot := (s.setFd_boot _ _ _ _)
@[simp] theorem State.setEthState_pins (n v : Nat) : (s.setEthState n v).pins = s.pins := (s.setFd_pins _ _ _ _)
@[simp] theorem State.setEthState_reg_wide (n v : Nat) : (s.setEthState n v).reg.wide = s.reg.wide := (s.setFd_reg_wide _ _ _ _)
@[simp] theorem State.setEthState_reg_latch (n v : Nat) : (s.setEthState n v).reg.latch = s.reg.latch := (s.setFd_reg_latch _ _ _ _)
@[simp] theorem State.setEthState_reg_pmBuf (n v : Nat) : (s.setEthState n v).reg.pmBuf = s.reg.pmBuf := (s.setFd_reg_pmBuf _ _ _ _)
@[simp] theorem State.setEthState_reg_mailbox (n v : Nat) : (s.setEthState n v).reg.mailbox = s.reg.mailbox := (s.setFd_reg_mailbox _ _ _ _)

@[simp] theorem State.setTtState_pending (n v : Nat) : (s.setTtState n v).pending = s.pending := (s.setFd_pending _ _ _ _)
@[simp] theorem State.setTtState_free (n v : Nat) : (s.setTtState n v).free = s.free := (s.setFd_free _ _ _ _)
@[simp] theorem State.setTtState_upNs (n v : Nat) : (s.setTtState n v).upNs = s.upNs := (s.setFd_upNs _ _ _ _)
@[simp] theorem State.setTtState_out (n v : Nat) : (s.setTtState n v).out = s.out := (s.setFd_out _ _ _ _)
@[simp] theorem State.setTtState_logger (n v : Nat) : (s.setTtState n v).logger = s.logger := (s.setFd_logger _ _ _ _)
@[simp] theorem State.setTtState_tab (n v : Nat) : (s.setTtState n v).tab = s.tab := (s.setFd_tab _ _ _ _)
@[simp] theorem State.setTtState_live (n v : Nat) : (s.setTtState n v).live = s.live := (s.setFd_live _ _ _ _)
@[simp] theorem State.setTtState_cmd (n v : Nat) : (s.setTtState n v).cmd = s.cmd := (s.setFd_cmd _ _ _ _)
@[simp] theorem State.setTtState_fwd (n v : Nat) : (s.setTtState n v).fwd = s.fwd := (s.setFd_fwd _ _ _ _)
@[simp] theorem State.setTtState_lnk (n v : Nat) : (s.setTtState n v).lnk = s.lnk := (s.setFd_lnk _ _ _ _)
@[simp] theorem State.setTtState_tsu (n v : Nat) : (s.setTtState n v).tsu = s.tsu := (s.setFd_tsu _ _ _ _)
@[simp] theorem State.setTtState_phw (n v : Nat) : (s.setTtState n v).phw = s.phw := (s.setFd_phw _ _ _ _)
@[simp] theorem State.setTtState_cap (n v : Nat) : (s.setTtState n v).cap = s.cap := (s.setFd_cap _ _ _ _)
@[simp] theorem State.setTtState_cry (n v : Nat) : (s.setTtState n v).cry = s.cry := (s.setFd_cry _ _ _ _)
@[simp] theorem State.setTtState_slp (n v : Nat) : (s.setTtState n v).slp = s.slp := (s.setFd_slp _ _ _ _)
@[simp] theorem State.setTtState_err (n v : Nat) : (s.setTtState n v).err = s.err := (s.setFd_err _ _ _ _)
@[simp] theorem State.setTtState_boot (n v : Nat) : (s.setTtState n v).boot = s.boot := (s.setFd_boot _ _ _ _)
@[simp] theorem State.setTtState_pins (n v : Nat) : (s.setTtState n v).pins = s.pins := (s.setFd_pins _ _ _ _)
@[simp] theorem State.setTtState_reg_wide (n v : Nat) : (s.setTtState n v).reg.wide = s.reg.wide := (s.setFd_reg_wide _ _ _ _)
@[simp] theorem State.setTtState_reg_latch (n v : Nat) : (s.setTtState n v).reg.latch = s.reg.latch := (s.setFd_reg_latch _ _ _ _)
@[simp] theorem State.setTtState_reg_pmBuf (n v : Nat) : (s.setTtState n v).reg.pmBuf = s.reg.pmBuf := (s.setFd_reg_pmBuf _ _ _ _)
@[simp] theorem State.setTtState_reg_mailbox (n v : Nat) : (s.setTtState n v).reg.mailbox = s.reg.mailbox := (s.setFd_reg_mailbox _ _ _ _)

@[simp] theorem State.setPps_pending (n : Nat) (v : Pps) : (s.setPps n v).pending = s.pending := rfl
@[simp] theorem State.setPps_free (n : Nat) (v : Pps) : (s.setPps n v).free = s.free := rfl
@[simp] theorem State.setPps_upNs (n : Nat) (v : Pps) : (s.setPps n v).upNs = s.upNs := rfl
@[simp] theorem State.setPps_out (n : Nat) (v : Pps) : (s.setPps n v).out = s.out := rfl
@[simp] theorem State.setPps_logger (n : Nat) (v : Pps) : (s.setPps n v).logger = s.logger := rfl
@[simp] theorem State.setPps_reg (n : Nat) (v : Pps) : (s.setPps n v).reg = s.reg := rfl
@[simp] theorem State.setPps_tab (n : Nat) (v : Pps) : (s.setPps n v).tab = s.tab := rfl
@[simp] theorem State.setPps_live (n : Nat) (v : Pps) : (s.setPps n v).live = s.live := rfl
@[simp] theorem State.setPps_cmd (n : Nat) (v : Pps) : (s.setPps n v).cmd = s.cmd := rfl
@[simp] theorem State.setPps_fwd (n : Nat) (v : Pps) : (s.setPps n v).fwd = s.fwd := rfl
@[simp] theorem State.setPps_lnk (n : Nat) (v : Pps) : (s.setPps n v).lnk = s.lnk := rfl
@[simp] theorem State.setPps_phw (n : Nat) (v : Pps) : (s.setPps n v).phw = s.phw := rfl
@[simp] theorem State.setPps_cap (n : Nat) (v : Pps) : (s.setPps n v).cap = s.cap := rfl
@[simp] theorem State.setPps_cry (n : Nat) (v : Pps) : (s.setPps n v).cry = s.cry := rfl
@[simp] theorem State.setPps_slp (n : Nat) (v : Pps) : (s.setPps n v).slp = s.slp := rfl
@[simp] theorem State.setPps_err (n : Nat) (v : Pps) : (s.setPps n v).err = s.err := rfl
@[simp] theorem State.setPps_boot (n : Nat) (v : Pps) : (s.setPps n v).boot = s.boot := rfl
@[simp] theorem State.setPps_pins (n : Nat) (v : Pps) : (s.setPps n v).pins = s.pins := rfl

@[simp] theorem State.setOrder_pending (c : Nat) (l : List Nat) : (s.setOrder c l).pending = s.pending := rfl
@[simp] theorem State.setOrder_free (c : Nat) (l : List Nat) : (s.setOrder c l).free = s.free := rfl
@[simp] theorem State.setOrder_upNs (c : Nat) (l : List Nat) : (s.setOrder c l).upNs = s.upNs := rfl
@[simp] theorem State.setOrder_out (c : Nat) (l : List Nat) : (s.setOrder c l).out = s.out := rfl
@[simp] theorem State.setOrder_logger (c : Nat) (l : List Nat) : (s.setOrder c l).logger = s.logger := rfl
@[simp] theorem State.setOrder_reg (c : Nat) (l : List Nat) : (s.setOrder c l).reg = s.reg := rfl
@[simp] theorem State.setOrder_tab (c : Nat) (l : List Nat) : (s.setOrder c l).tab = s.tab := rfl
@[simp] theorem State.setOrder_live (c : Nat) (l : List Nat) : (s.setOrder c l).live = s.live := rfl
@[simp] theorem State.setOrder_cmd (c : Nat) (l : List Nat) : (s.setOrder c l).cmd = s.cmd := rfl
@[simp] theorem State.setOrder_lnk (c : Nat) (l : List Nat) : (s.setOrder c l).lnk = s.lnk := rfl
@[simp] theorem State.setOrder_tsu (c : Nat) (l : List Nat) : (s.setOrder c l).tsu = s.tsu := rfl
@[simp] theorem State.setOrder_phw (c : Nat) (l : List Nat) : (s.setOrder c l).phw = s.phw := rfl
@[simp] theorem State.setOrder_cap (c : Nat) (l : List Nat) : (s.setOrder c l).cap = s.cap := rfl
@[simp] theorem State.setOrder_cry (c : Nat) (l : List Nat) : (s.setOrder c l).cry = s.cry := rfl
@[simp] theorem State.setOrder_slp (c : Nat) (l : List Nat) : (s.setOrder c l).slp = s.slp := rfl
@[simp] theorem State.setOrder_err (c : Nat) (l : List Nat) : (s.setOrder c l).err = s.err := rfl
@[simp] theorem State.setOrder_boot (c : Nat) (l : List Nat) : (s.setOrder c l).boot = s.boot := rfl
@[simp] theorem State.setOrder_pins (c : Nat) (l : List Nat) : (s.setOrder c l).pins = s.pins := rfl

@[simp] theorem State.setE2eDrops_pending (i k : Nat) : (s.setE2eDrops i k).pending = s.pending := rfl
@[simp] theorem State.setE2eDrops_free (i k : Nat) : (s.setE2eDrops i k).free = s.free := rfl
@[simp] theorem State.setE2eDrops_upNs (i k : Nat) : (s.setE2eDrops i k).upNs = s.upNs := rfl
@[simp] theorem State.setE2eDrops_out (i k : Nat) : (s.setE2eDrops i k).out = s.out := rfl
@[simp] theorem State.setE2eDrops_logger (i k : Nat) : (s.setE2eDrops i k).logger = s.logger := rfl
@[simp] theorem State.setE2eDrops_reg (i k : Nat) : (s.setE2eDrops i k).reg = s.reg := rfl
@[simp] theorem State.setE2eDrops_tab (i k : Nat) : (s.setE2eDrops i k).tab = s.tab := rfl
@[simp] theorem State.setE2eDrops_live (i k : Nat) : (s.setE2eDrops i k).live = s.live := rfl
@[simp] theorem State.setE2eDrops_cmd (i k : Nat) : (s.setE2eDrops i k).cmd = s.cmd := rfl
@[simp] theorem State.setE2eDrops_lnk (i k : Nat) : (s.setE2eDrops i k).lnk = s.lnk := rfl
@[simp] theorem State.setE2eDrops_tsu (i k : Nat) : (s.setE2eDrops i k).tsu = s.tsu := rfl
@[simp] theorem State.setE2eDrops_phw (i k : Nat) : (s.setE2eDrops i k).phw = s.phw := rfl
@[simp] theorem State.setE2eDrops_cap (i k : Nat) : (s.setE2eDrops i k).cap = s.cap := rfl
@[simp] theorem State.setE2eDrops_cry (i k : Nat) : (s.setE2eDrops i k).cry = s.cry := rfl
@[simp] theorem State.setE2eDrops_slp (i k : Nat) : (s.setE2eDrops i k).slp = s.slp := rfl
@[simp] theorem State.setE2eDrops_err (i k : Nat) : (s.setE2eDrops i k).err = s.err := rfl
@[simp] theorem State.setE2eDrops_boot (i k : Nat) : (s.setE2eDrops i k).boot = s.boot := rfl
@[simp] theorem State.setE2eDrops_pins (i k : Nat) : (s.setE2eDrops i k).pins = s.pins := rfl

@[simp] theorem State.setEprof_pending (i : Nat) (e : BitVec 128) : (s.setEprof i e).pending = s.pending := rfl
@[simp] theorem State.setEprof_free (i : Nat) (e : BitVec 128) : (s.setEprof i e).free = s.free := rfl
@[simp] theorem State.setEprof_upNs (i : Nat) (e : BitVec 128) : (s.setEprof i e).upNs = s.upNs := rfl
@[simp] theorem State.setEprof_out (i : Nat) (e : BitVec 128) : (s.setEprof i e).out = s.out := rfl
@[simp] theorem State.setEprof_logger (i : Nat) (e : BitVec 128) : (s.setEprof i e).logger = s.logger := rfl
@[simp] theorem State.setEprof_reg (i : Nat) (e : BitVec 128) : (s.setEprof i e).reg = s.reg := rfl
@[simp] theorem State.setEprof_live (i : Nat) (e : BitVec 128) : (s.setEprof i e).live = s.live := rfl
@[simp] theorem State.setEprof_cmd (i : Nat) (e : BitVec 128) : (s.setEprof i e).cmd = s.cmd := rfl
@[simp] theorem State.setEprof_fwd (i : Nat) (e : BitVec 128) : (s.setEprof i e).fwd = s.fwd := rfl
@[simp] theorem State.setEprof_lnk (i : Nat) (e : BitVec 128) : (s.setEprof i e).lnk = s.lnk := rfl
@[simp] theorem State.setEprof_tsu (i : Nat) (e : BitVec 128) : (s.setEprof i e).tsu = s.tsu := rfl
@[simp] theorem State.setEprof_phw (i : Nat) (e : BitVec 128) : (s.setEprof i e).phw = s.phw := rfl
@[simp] theorem State.setEprof_cap (i : Nat) (e : BitVec 128) : (s.setEprof i e).cap = s.cap := rfl
@[simp] theorem State.setEprof_cry (i : Nat) (e : BitVec 128) : (s.setEprof i e).cry = s.cry := rfl
@[simp] theorem State.setEprof_slp (i : Nat) (e : BitVec 128) : (s.setEprof i e).slp = s.slp := rfl
@[simp] theorem State.setEprof_err (i : Nat) (e : BitVec 128) : (s.setEprof i e).err = s.err := rfl
@[simp] theorem State.setEprof_boot (i : Nat) (e : BitVec 128) : (s.setEprof i e).boot = s.boot := rfl
@[simp] theorem State.setEprof_pins (i : Nat) (e : BitVec 128) : (s.setEprof i e).pins = s.pins := rfl

@[simp] theorem State.setGport_pending (n : Nat) (g : GptpPort) : (s.setGport n g).pending = s.pending := rfl
@[simp] theorem State.setGport_free (n : Nat) (g : GptpPort) : (s.setGport n g).free = s.free := rfl
@[simp] theorem State.setGport_upNs (n : Nat) (g : GptpPort) : (s.setGport n g).upNs = s.upNs := rfl
@[simp] theorem State.setGport_out (n : Nat) (g : GptpPort) : (s.setGport n g).out = s.out := rfl
@[simp] theorem State.setGport_logger (n : Nat) (g : GptpPort) : (s.setGport n g).logger = s.logger := rfl
@[simp] theorem State.setGport_reg (n : Nat) (g : GptpPort) : (s.setGport n g).reg = s.reg := rfl
@[simp] theorem State.setGport_tab (n : Nat) (g : GptpPort) : (s.setGport n g).tab = s.tab := rfl
@[simp] theorem State.setGport_live (n : Nat) (g : GptpPort) : (s.setGport n g).live = s.live := rfl
@[simp] theorem State.setGport_cmd (n : Nat) (g : GptpPort) : (s.setGport n g).cmd = s.cmd := rfl
@[simp] theorem State.setGport_fwd (n : Nat) (g : GptpPort) : (s.setGport n g).fwd = s.fwd := rfl
@[simp] theorem State.setGport_lnk (n : Nat) (g : GptpPort) : (s.setGport n g).lnk = s.lnk := rfl
@[simp] theorem State.setGport_phw (n : Nat) (g : GptpPort) : (s.setGport n g).phw = s.phw := rfl
@[simp] theorem State.setGport_cap (n : Nat) (g : GptpPort) : (s.setGport n g).cap = s.cap := rfl
@[simp] theorem State.setGport_cry (n : Nat) (g : GptpPort) : (s.setGport n g).cry = s.cry := rfl
@[simp] theorem State.setGport_slp (n : Nat) (g : GptpPort) : (s.setGport n g).slp = s.slp := rfl
@[simp] theorem State.setGport_err (n : Nat) (g : GptpPort) : (s.setGport n g).err = s.err := rfl
@[simp] theorem State.setGport_boot (n : Nat) (g : GptpPort) : (s.setGport n g).boot = s.boot := rfl
@[simp] theorem State.setGport_pins (n : Nat) (g : GptpPort) : (s.setGport n g).pins = s.pins := rfl

@[simp] theorem State.setNode_pending (i : Nat) (e : Node) : (s.setNode i e).pending = s.pending := rfl
@[simp] theorem State.setNode_free (i : Nat) (e : Node) : (s.setNode i e).free = s.free := rfl
@[simp] theorem State.setNode_upNs (i : Nat) (e : Node) : (s.setNode i e).upNs = s.upNs := rfl
@[simp] theorem State.setNode_out (i : Nat) (e : Node) : (s.setNode i e).out = s.out := rfl
@[simp] theorem State.setNode_logger (i : Nat) (e : Node) : (s.setNode i e).logger = s.logger := rfl
@[simp] theorem State.setNode_reg (i : Nat) (e : Node) : (s.setNode i e).reg = s.reg := rfl
@[simp] theorem State.setNode_cmd (i : Nat) (e : Node) : (s.setNode i e).cmd = s.cmd := rfl
@[simp] theorem State.setNode_fwd (i : Nat) (e : Node) : (s.setNode i e).fwd = s.fwd := rfl
@[simp] theorem State.setNode_lnk (i : Nat) (e : Node) : (s.setNode i e).lnk = s.lnk := rfl
@[simp] theorem State.setNode_tsu (i : Nat) (e : Node) : (s.setNode i e).tsu = s.tsu := rfl
@[simp] theorem State.setNode_phw (i : Nat) (e : Node) : (s.setNode i e).phw = s.phw := rfl
@[simp] theorem State.setNode_cap (i : Nat) (e : Node) : (s.setNode i e).cap = s.cap := rfl
@[simp] theorem State.setNode_cry (i : Nat) (e : Node) : (s.setNode i e).cry = s.cry := rfl
@[simp] theorem State.setNode_slp (i : Nat) (e : Node) : (s.setNode i e).slp = s.slp := rfl
@[simp] theorem State.setNode_err (i : Nat) (e : Node) : (s.setNode i e).err = s.err := rfl
@[simp] theorem State.setNode_boot (i : Nat) (e : Node) : (s.setNode i e).boot = s.boot := rfl
@[simp] theorem State.setNode_pins (i : Nat) (e : Node) : (s.setNode i e).pins = s.pins := rfl

@[simp] theorem State.setLevel_pending (n l f : Nat) : (s.setLevel n l f).pending = s.pending := rfl
@[simp] theorem State.setLevel_free (n l f : Nat) : (s.setLevel n l f).free = s.free := rfl
@[simp] theorem State.setLevel_upNs (n l f : Nat) : (s.setLevel n l f).upNs = s.upNs := rfl
@[simp] theorem State.setLevel_out (n l f : Nat) : (s.setLevel n l f).out = s.out := rfl
@[simp] theorem State.setLevel_logger (n l f : Nat) : (s.setLevel n l f).logger = s.logger := rfl
@[simp] theorem State.setLevel_reg (n l f : Nat) : (s.setLevel n l f).reg = s.reg := rfl
@[simp] theorem State.setLevel_tab (n l f : Nat) : (s.setLevel n l f).tab = s.tab := rfl
@[simp] theorem State.setLevel_live (n l f : Nat) : (s.setLevel n l f).live = s.live := rfl
@[simp] theorem State.setLevel_cmd (n l f : Nat) : (s.setLevel n l f).cmd = s.cmd := rfl
@[simp] theorem State.setLevel_fwd (n l f : Nat) : (s.setLevel n l f).fwd = s.fwd := rfl
@[simp] theorem State.setLevel_lnk (n l f : Nat) : (s.setLevel n l f).lnk = s.lnk := rfl
@[simp] theorem State.setLevel_tsu (n l f : Nat) : (s.setLevel n l f).tsu = s.tsu := rfl
@[simp] theorem State.setLevel_phw (n l f : Nat) : (s.setLevel n l f).phw = s.phw := rfl
@[simp] theorem State.setLevel_cap (n l f : Nat) : (s.setLevel n l f).cap = s.cap := rfl
@[simp] theorem State.setLevel_cry (n l f : Nat) : (s.setLevel n l f).cry = s.cry := rfl
@[simp] theorem State.setLevel_slp (n l f : Nat) : (s.setLevel n l f).slp = s.slp := rfl
@[simp] theorem State.setLevel_err (n l f : Nat) : (s.setLevel n l f).err = s.err := rfl
@[simp] theorem State.setLevel_pins (n l f : Nat) : (s.setLevel n l f).pins = s.pins := rfl

@[simp] theorem State.setSlotData_pending (p : Part) (k : Nat) (l : List Byte) : (s.setSlotData p k l).pending = s.pending := rfl
@[simp] theorem State.setSlotData_free (p : Part) (k : Nat) (l : List Byte) : (s.setSlotData p k l).free = s.free := rfl
@[simp] theorem State.setSlotData_upNs (p : Part) (k : Nat) (l : List Byte) : (s.setSlotData p k l).upNs = s.upNs := rfl
@[simp] theorem State.setSlotData_out (p : Part) (k : Nat) (l : List Byte) : (s.setSlotData p k l).out = s.out := rfl
@[simp] theorem State.setSlotData_logger (p : Part) (k : Nat) (l : List Byte) : (s.setSlotData p k l).logger = s.logger := rfl
@[simp] theorem State.setSlotData_tab (p : Part) (k : Nat) (l : List Byte) : (s.setSlotData p k l).tab = s.tab := rfl
@[simp] theorem State.setSlotData_live (p : Part) (k : Nat) (l : List Byte) : (s.setSlotData p k l).live = s.live := rfl
@[simp] theorem State.setSlotData_cmd (p : Part) (k : Nat) (l : List Byte) : (s.setSlotData p k l).cmd = s.cmd := rfl
@[simp] theorem State.setSlotData_fwd (p : Part) (k : Nat) (l : List Byte) : (s.setSlotData p k l).fwd = s.fwd := rfl
@[simp] theorem State.setSlotData_lnk (p : Part) (k : Nat) (l : List Byte) : (s.setSlotData p k l).lnk = s.lnk := rfl
@[simp] theorem State.setSlotData_tsu (p : Part) (k : Nat) (l : List Byte) : (s.setSlotData p k l).tsu = s.tsu := rfl
@[simp] theorem State.setSlotData_phw (p : Part) (k : Nat) (l : List Byte) : (s.setSlotData p k l).phw = s.phw := rfl
@[simp] theorem State.setSlotData_cap (p : Part) (k : Nat) (l : List Byte) : (s.setSlotData p k l).cap = s.cap := rfl
@[simp] theorem State.setSlotData_cry (p : Part) (k : Nat) (l : List Byte) : (s.setSlotData p k l).cry = s.cry := rfl
@[simp] theorem State.setSlotData_slp (p : Part) (k : Nat) (l : List Byte) : (s.setSlotData p k l).slp = s.slp := rfl
@[simp] theorem State.setSlotData_err (p : Part) (k : Nat) (l : List Byte) : (s.setSlotData p k l).err = s.err := rfl
@[simp] theorem State.setSlotData_boot (p : Part) (k : Nat) (l : List Byte) : (s.setSlotData p k l).boot = s.boot := rfl
@[simp] theorem State.setSlotData_pins (p : Part) (k : Nat) (l : List Byte) : (s.setSlotData p k l).pins = s.pins := rfl

/-! ### Registers (R366) -/

/-- A register reads back what was written. -/
@[simp] theorem State.key_setKey_same (k : Nat) (v : W32) : (s.setKey k v).key k = v := kvGet_set_same _ _ k v

/-- A write of one register leaves every other register as it was. -/
theorem State.key_setKey_other {k j : Nat} (v : W32) (h : j ≠ k) : (s.setKey k v).key j = s.key j := by
  have e : kvGet (regReset s.logger (j % 2 ^ 26)) (kvSet (regReset s.logger (k % 2 ^ 26)) s.reg.regs k v) j =
      kvGet (regReset s.logger (j % 2 ^ 26)) s.reg.regs j := by
    unfold kvSet
    split
    · exact kvGet_erase_other _ _ h
    · rw [kvGet_insert_other _ _ v h, kvGet_erase_other _ _ h]
  exact e

@[simp] theorem State.rg_setRg_same (o : Nat) (v : W32) : (s.setRg o v).rg o = v := s.key_setKey_same o v
theorem State.rg_setRg_other {o j : Nat} (v : W32) (h : j ≠ o) : (s.setRg o v).rg j = s.rg j := s.key_setKey_other v h
@[simp] theorem State.rgp_setRgp_same (p : Part) (o : Nat) (v : W32) : (s.setRgp p o v).rgp p o = v := s.key_setKey_same _ v
@[simp] theorem State.rg_modRg_same (o : Nat) (f : W32 → W32) : (s.modRg o f).rg o = f (s.rg o) := s.key_setKey_same o _
theorem State.rg_modRg_other {o j : Nat} (f : W32 → W32) (h : j ≠ o) : (s.modRg o f).rg j = s.rg j := s.key_setKey_other _ h
@[simp] theorem State.rgp_modRgp_same (p : Part) (o : Nat) (f : W32 → W32) : (s.modRgp p o f).rgp p o = f (s.rgp p o) :=
  s.key_setKey_same _ _
@[simp] theorem State.rg_count_same (o k : Nat) : (s.count o k).rg o = satInc (s.rg o) k := s.key_setKey_same o _
theorem State.rg_count_other {o j : Nat} (k : Nat) (h : j ≠ o) : (s.count o k).rg j = s.rg j := s.key_setKey_other _ h

/-- A bit of a register reads as it was set. -/
theorem State.bt_setBt_same (o : Nat) {i : Nat} (b : Bool) (h : i < 32) : (s.setBt o i b).bt o i = b := by
  show bit ((s.modRg o _).rg o) i = b
  rw [State.rg_modRg_same]
  exact bit_setBit_same _ b h

/-- A field of a register reads as it was set. -/
theorem State.fd_setFd_same (o : Nat) {hi lo : Nat} (v : Nat) (h : lo ≤ hi) (hn : hi < 32) :
    (s.setFd o hi lo v).fd o hi lo = v % 2 ^ (hi + 1 - lo) := by
  show fld ((s.modRg o _).rg o) hi lo = _
  rw [State.rg_modRg_same]
  exact fld_setFld_same _ v h hn

/-- A 64-bit value reads back what was written. -/
@[simp] theorem State.wide_setWide_same (o : Nat) (v : W64) : (s.setWide o v).wide o = v := kvGet_set_same _ _ o v

/-! ### Keyed parts of the state: each reads back what was written, and a write leaves every other key as it was -/

@[simp] theorem State.egOf_setEg_same (c : Nat) (v : EgPort) : (s.setEg c v).egOf c = v := kvGet_set_same _ _ c v
theorem State.egOf_setEg_other {c j : Nat} (v : EgPort) (h : j ≠ c) : (s.setEg c v).egOf j = s.egOf j := kvGet_set_other _ _ v h
@[simp] theorem State.rxOf_setRx_same (c : Nat) (v : List RxFrame) : (s.setRx c v).rxOf c = v := kvGet_set_same _ _ c v
theorem State.rxOf_setRx_other {c j : Nat} (v : List RxFrame) (h : j ≠ c) : (s.setRx c v).rxOf j = s.rxOf j := kvGet_set_other _ _ v h
@[simp] theorem State.capq_setCapq_same (q : Nat) (v : CapQ) : (s.setCapq q v).capq q = v := kvGet_set_same _ _ q v
theorem State.capq_setCapq_other {q j : Nat} (v : CapQ) (h : j ≠ q) : (s.setCapq q v).capq j = s.capq j := kvGet_set_other _ _ v h
@[simp] theorem State.lane_setLane_same (n : Nat) (v : Lane) : (s.setLane n v).lane n = v := kvGet_set_same _ _ n v
theorem State.lane_setLane_other {n j : Nat} (v : Lane) (h : j ≠ n) : (s.setLane n v).lane j = s.lane j := kvGet_set_other _ _ v h
@[simp] theorem State.lin_setLin_same (n : Nat) (v : LinPort) : (s.setLin n v).lin n = v := kvGet_set_same _ _ n v
theorem State.lin_setLin_other {n j : Nat} (v : LinPort) (h : j ≠ n) : (s.setLin n v).lin j = s.lin j := kvGet_set_other _ _ v h
@[simp] theorem State.tt_setTt_same (n : Nat) (v : Turntable) : (s.setTt n v).tt n = v := kvGet_set_same _ _ n v
theorem State.tt_setTt_other {n j : Nat} (v : Turntable) (h : j ≠ n) : (s.setTt n v).tt j = s.tt j := kvGet_set_other _ _ v h
@[simp] theorem State.trg_setTrg_same (m : Nat) (v : Trigger) : (s.setTrg m v).trg m = v := kvGet_set_same _ _ m v
theorem State.trg_setTrg_other {m j : Nat} (v : Trigger) (h : j ≠ m) : (s.setTrg m v).trg j = s.trg j := kvGet_set_other _ _ v h
@[simp] theorem State.dom_setDom_same (x : Nat) (v : Domain) : (s.setDom x v).dom x = v := kvGet_set_same _ _ x v
theorem State.dom_setDom_other {x j : Nat} (v : Domain) (h : j ≠ x) : (s.setDom x v).dom j = s.dom j := kvGet_set_other _ _ v h
@[simp] theorem State.pps_setPps_same (n : Nat) (v : Pps) : (s.setPps n v).pps n = v := kvGet_set_same _ _ n v
theorem State.pps_setPps_other {n j : Nat} (v : Pps) (h : j ≠ n) : (s.setPps n v).pps j = s.pps j := kvGet_set_other _ _ v h
@[simp] theorem State.gport_setGport_same (n : Nat) (v : GptpPort) : (s.setGport n v).gport n = v := kvGet_set_same _ _ n v
theorem State.gport_setGport_other {n j : Nat} (v : GptpPort) (h : j ≠ n) : (s.setGport n v).gport j = s.gport j := kvGet_set_other _ _ v h
@[simp] theorem State.stream_setStream_same (i : Nat) (v : Stream) : (s.setStream i v).stream i = v := kvGet_set_same _ _ i v
theorem State.stream_setStream_other {i j : Nat} (v : Stream) (h : j ≠ i) : (s.setStream i v).stream j = s.stream j := kvGet_set_other _ _ v h
@[simp] theorem State.boundsOf_setBounds_same (c : Nat) (v : List Boundpt) : (s.setBounds c v).boundsOf c = v := kvGet_set_same _ _ c v
theorem State.boundsOf_setBounds_other {c j : Nat} (v : List Boundpt) (h : j ≠ c) : (s.setBounds c v).boundsOf j = s.boundsOf j := kvGet_set_other _ _ v h
@[simp] theorem State.orderOf_setOrder_same (c : Nat) (v : List Nat) : (s.setOrder c v).orderOf c = v := kvGet_set_same _ _ c v
theorem State.orderOf_setOrder_other {c j : Nat} (v : List Nat) (h : j ≠ c) : (s.setOrder c v).orderOf j = s.orderOf j := kvGet_set_other _ _ v h
@[simp] theorem State.mdioQ_setMdioQ_same (m : Nat) (v : List MdioReq) : (s.setMdioQ m v).mdioQ m = v := kvGet_set_same _ _ m v
theorem State.mdioQ_setMdioQ_other {m j : Nat} (v : List MdioReq) (h : j ≠ m) : (s.setMdioQ m v).mdioQ j = s.mdioQ j := kvGet_set_other _ _ v h
@[simp] theorem State.slot_setSlot_same (p : Part) (k : Nat) (v : Slot) : (s.setSlot p k v).slot p k = v := kvGet_set_same _ _ _ v

/-! ### The path and the mould of a partition -/

@[simp] theorem State.path_setPath_same (p : Part) (c : CmdPath) : (s.setPath p c).path p = c := kvGet_set_same _ _ p.val c
@[simp] theorem State.mould_setMould_same (p : Part) (m : Option Mould) : (s.setMould p m).mould p = m := kvGet_set_same _ _ p.val m

end Sys2Proof.Machine
end

