-- ==== Sys2Proof/Laws/Path.lean ====
section
/-! SUPPORT. The laws of the command path: what a command does once its form is checked, what a target check and a staging
answer, and what runs while the block works. -/

namespace Sys2Proof.Machine

variable {s : State} {p : Part} {d : CmdDesc}

theorem clocked_works (f : State → State) (h : s.works) : clocked f s = f s := if_neg (by simp [show s.stopped = false from h])

theorem clocked_stopped (f : State → State) (h : s.stopped = true) : clocked f s = s := if_pos h

theorem onSignalBox_serves (f : State → State) (h : s.serves) : onSignalBox f s = f s := if_neg (by simp [h.1, h.2])

/-- The form check passes a sound descriptor of the command's kind, size, reserved fields, issuer and output. -/
theorem Form.check_none {f : Form} (h : Sound p d) (hs : f.kind = .staging → d.mouldFlag = true)
    (hi : f.kind = .immediate → d.mouldFlag = false) (hz : f.size d.len = true) (hc : f.clean = true)
    (hp : f.pmOnly = true → p = pm) (ho : f.output = true → d.indirect = true ∧ d.outPtr ≠ 0) : f.check p d = none := by
  have h1 : ¬ (fld d.tag 15 12 ≠ 0 ∨ tagCount p ≤ d.ctag.toNat) := by
    rintro (k | k)
    · exact k h.top
    · exact absurd h.tag (Nat.not_lt.2 k)
  have h2 : ¬ (d.indirect ∧ d.rsv ≠ 0) := fun k => k.2 (h.reserved k.1)
  have h3 : ¬ (¬ d.indirect ∧ 24 < d.len) := fun k => absurd (h.inline (by simpa using k.1)) (Nat.not_le.2 k.2)
  have h4 : ¬ ((f.kind = .staging ∧ ¬ d.mouldFlag) ∨ (f.kind = .immediate ∧ d.mouldFlag)) := by
    rintro (k | k)
    · exact k.2 (hs k.1)
    · exact absurd k.2 (by simp [hi k.1])
  have h5 : ¬ (f.pmOnly ∧ p ≠ pm) := fun k => k.2 (hp k.1)
  have h6 : ¬ (f.output ∧ (¬ d.indirect ∨ d.outPtr = 0)) := by
    rintro ⟨k, l | l⟩
    · exact l (ho k).1
    · exact (ho k).2 l
  have h7 : ¬ (p = pm ∧ ¬ d.pmBuffersOk) := fun k => k.2 (h.buffers k.1)
  unfold Form.check
  rw [if_neg (fun k => k h.flags), if_neg h1, if_neg h2, if_neg h3, if_neg h4, if_neg (fun k => k hz), if_neg (fun k => k hc),
    if_neg h5, if_neg h6, if_neg h7]

/-- A command that may run goes on when its form is right. -/
theorem onForm_runs {f : Form} (h : s.runs p d) (hc : f.check p d = none) (go : State → State) : onForm f p d go s = go s := by
  rw [onForm, onSignalBox_serves _ h.1, if_pos h.2, hc]

/-- A command that may run and whose form is wrong completes with the form's status and changes nothing else. -/
theorem onForm_refused {f : Form} {st : Byte} (h : s.runs p d) (hc : f.check p d = some st) (go : State → State) :
    onForm f p d go s = s.complete p (replyOf d st 0 []) := by
  rw [onForm, onSignalBox_serves _ h.1, if_pos h.2, hc]
  rfl

/-- A command that may not run yet, its entry not started, changes nothing. -/
theorem onForm_waits {f : Form} (h : s.mayRun p d = false) (go : State → State) : onForm f p d go s = s := by
  unfold onForm onSignalBox
  split
  · rfl
  · simp [h]

/-- A command whose form is right runs its body and completes with its answer. -/
theorem runCommand_runs {f : Form} (h : s.runs p d) (hc : f.check p d = none) (body : State → Ans) :
    runCommand f p d body s = finish p d (body s) := onForm_runs h hc _

/-- A command whose form is wrong completes with the form's status and changes nothing else. -/
theorem runCommand_refused {f : Form} {st : Byte} (h : s.runs p d) (hc : f.check p d = some st) (body : State → Ans) :
    runCommand f p d body s = s.complete p (replyOf d st 0 []) := onForm_refused h hc _

/-- A command that waits already changes nothing. -/
theorem runWaiting_again {f : Form} {w : State → Bool} (h : s.runs p d) (hc : f.check p d = none) (hw : w s = true)
    (body : State → Except Ans State) : runWaiting w f p d body s = s := by
  rw [runWaiting, onForm_runs h hc, if_pos hw]

/-- A command whose checks pass waits with the effect of its body. -/
theorem runWaiting_waits {f : Form} {w : State → Bool} {body : State → Except Ans State} {t : State} (h : s.runs p d)
    (hc : f.check p d = none) (hw : w s = false) (hb : body s = .ok t) : runWaiting w f p d body s = t := by
  rw [runWaiting, onForm_runs h hc, if_neg (by simp [hw]), hb]

/-- A command whose checks fail completes with what they answer. -/
theorem runWaiting_fails {f : Form} {w : State → Bool} {body : State → Except Ans State} {a : Ans} (h : s.runs p d)
    (hc : f.check p d = none) (hw : w s = false) (hb : body s = .error a) : runWaiting w f p d body s = finish p d a := by
  rw [runWaiting, onForm_runs h hc, if_neg (by simp [hw]), hb]

/-- An answer without a violation completes the command. -/
theorem finish_plain {a : Ans} (h : a.viol = false) : finish p d a = a.s.complete p (replyOf d a.status a.result a.out) := by
  unfold finish
  rw [h]
  rfl

/-- A body whose target the issuer holds runs. -/
theorem onTarget_held {k : Kind} {i : Nat} (h : s.holds p k i = true) (body : State → Ans) : onTarget p d k i body s = body s := by
  unfold onTarget targetCheck
  rw [if_pos h]

/-- A body whose target the issuer does not hold does not run. -/
theorem onTarget_not_held {k : Kind} {i : Nat} (h : s.holds p k i = false) (body : State → Ans) :
    (onTarget p d k i body s).s = s ∧ (onTarget p d k i body s).status = St.noRight := by
  unfold onTarget targetCheck
  rw [if_neg (by simp [h])]
  exact ⟨rfl, rfl⟩

/-- An index that exists and is held runs the body. -/
theorem onIndex_held {k : Kind} {i : Nat} (hi : i < k.size) (h : s.holds p k i = true) (body : State → Ans) :
    onIndex p d k i body s = body s := by
  unfold onIndex
  rw [if_neg (Nat.not_le.2 hi), onTarget_held h]

/-- Output that fits its buffer is the answer. -/
theorem withOutput_fits {t : State} {r : Nat} {out : List Byte} (h : out.length ≤ d.outLen.toNat) :
    withOutput d s t r out = { s := t, result := r, out := out } := if_neg (Nat.not_lt.2 h)

/-- An item joins an open mould that has room for it. -/
theorem stageItem_joins {m : Mould} {x : Item} (h : s.stageable p m x) :
    finish p d (stageItem s p d.ctag x) = s.staged p d m x := by
  unfold stageItem
  rw [h.1]
  have h2 : ¬ (¬ hasSlot m.items x ∧ s.mouldFull m) := by
    rintro ⟨k, l⟩
    rcases h.2.2 with e | e
    · exact k e
    · simp [e] at l
  show finish p d (if m.sealed then fail s St.conflict else if ¬ hasSlot m.items x ∧ s.mouldFull m then fail s St.tableFull else _) = _
  rw [if_neg (by simp [h.2.1]), if_neg h2, finish_plain rfl]
  rfl

/-- The form check passes a sound descriptor of an immediate command with its number of parameter bytes. -/
theorem Imm.check_none {f : Form} {n : Nat} (h : Imm p d n) (hk : f.kind = .immediate) (hz : f.size n = true) (hc : f.clean = true)
    (hp : f.pmOnly = true → p = pm) (ho : f.output = true → d.indirect = true ∧ d.outPtr ≠ 0) : f.check p d = none :=
  Form.check_none h.1 (by rw [hk]; intro; contradiction) (fun _ => h.2.1) (h.2.2 ▸ hz) hc hp ho

/-- A read that the master may make is served. -/
theorem onRead_may {off : Nat} {f : State → State} (h : s.mayRead p off) : onRead p off f s = f s := by
  obtain ⟨⟨h1, h2, h3⟩, h4⟩ := h
  unfold onRead onAccess
  by_cases hp : p = pm
  · rw [if_pos hp, if_pos (h1 hp)]
    simp [h3, h4]
  · obtain ⟨a, b, c⟩ := h2 hp
    rw [if_neg hp, if_neg (by simp [a, b]), if_neg (by simp [c])]
    simp [h3, h4]

/-- A write that the master may make takes effect. -/
theorem onWrite_may {off : Nat} {f : State → State} (h : s.mayWrite p off) : onWrite p off f s = f s := by
  obtain ⟨⟨h1, h2, h3⟩, h4, h5⟩ := h
  unfold onWrite onAccess
  by_cases hp : p = pm
  · rw [if_pos hp, if_pos (h1 hp)]
    simp [h3, h4, h5]
  · obtain ⟨a, b, c⟩ := h2 hp
    rw [if_neg hp, if_neg (by simp [a, b]), if_neg (by simp [c])]
    simp [h3, h4, h5]

@[simp] theorem path_setPath (c : CmdPath) : (s.setPath p c).path p = c := by
  unfold State.path State.setPath; simp [kvGet_set_same]

/-- The end of a step of the signal box changes only whether it holds the box. -/
theorem endStep_eq (t : BitVec 12) : s.endStep p t = { s with cmd.box := (s.endStep p t).cmd.box } := rfl

@[simp] theorem endStep_path (t : BitVec 12) (q : Part) : (s.endStep p t).path q = s.path q := rfl
@[simp] theorem endStep_mould (t : BitVec 12) (q : Part) : (s.endStep p t).mould q = s.mould q := rfl

/-- A completion whose tag no reset host drops: its entry goes, its reply is the newest of those waiting for release, and nothing else
changes but the step of the signal box that ends. -/
theorem complete_eq {r : Reply} (h : (s.path p).dropTags = []) :
    s.complete p r = (s.endStep p r.tag).setPath p { s.path p with
      fetched := (s.path p).fetched.filter (fun f => f.desc.tag.setWidth 12 != r.tag), done := (s.path p).done ++ [r] } := by
  unfold State.complete
  simp [endStep_path, h]

theorem complete_done {r : Reply} (h : (s.path p).dropTags = []) :
    ((s.complete p r).path p).done = (s.path p).done ++ [r] := by
  rw [complete_eq h, path_setPath]

/-- The end of a pour's step leaves everything but the step and the entries that the pours have built. -/
theorem endPourStep_eq : s.endPourStep = { s with cmd.box := s.endPourStep.cmd.box, cmd.pours := s.endPourStep.cmd.pours } := by
  unfold State.endPourStep
  split
  · split
    · rfl
    · rfl
  · rfl

@[simp] theorem endPourStep_path (q : Part) : s.endPourStep.path q = s.path q := by rw [endPourStep_eq]; rfl
@[simp] theorem endPourStep_tab : s.endPourStep.tab = s.tab := by rw [endPourStep_eq]
@[simp] theorem endPourStep_reg : s.endPourStep.reg = s.reg := by rw [endPourStep_eq]

/-- The end of a pour: its reply, and nothing in force changes. -/
theorem endPour_done (x : Pour) (st : Byte) (r : Nat) (h : (s.path x.part).dropTags = []) :
    ∃ y ∈ ((s.endPour x st r).path x.part).done, y.tag = x.tag ∧ y.status = st ∧ y.result = BitVec.ofNat 64 r ∧
      y.mould = (if st == St.ok then 1 else 2) := by
  unfold State.endPour
  rw [complete_eq (by exact h), path_setPath]
  exact ⟨_, List.mem_append_right _ (List.mem_singleton_self _), rfl, rfl, rfl, rfl⟩

theorem endPour_rest (x : Pour) (st : Byte) (r : Nat) (h : (s.path x.part).dropTags = []) :
    (s.endPour x st r).tab = s.tab ∧ (s.endPour x st r).reg = s.reg ∧
      (s.endPour x st r).cmd.pours = s.cmd.pours.filter (fun y => !(y.part == x.part && y.tag == x.tag)) := by
  unfold State.endPour
  rw [complete_eq (by exact h)]
  exact ⟨rfl, rfl, rfl⟩

end Sys2Proof.Machine
end

