-- ==== Sys2Proof/Laws/PerInstr.lean ====
section
/-! SUPPORT. A statement about every command as syntax, one lemma per constructor: a well-formed command of the rings spells the
opcode of its row, and carries no more parameter bytes than its descriptor names. -/

namespace Sys2Proof.Laws.Spelled

/-- What a well-formed command of the rings carries (R273, R275, R279). -/
def Statement (i : Instr) : Prop :=
  i.wf = true → ∀ d code, i.ring = some (d, code) → d.opcode.toNat = code ∧ d.params.length ≤ d.plen.toNat

theorem spells {d : CmdDesc} {code : Nat} (h : (d.spells code && d.inlineClean) = true) :
    d.opcode.toNat = code ∧ d.params.length ≤ d.plen.toNat := by
  have h1 := (Bool.and_eq_true_iff.1 h).1
  have h2 := Bool.and_eq_true_iff.1 h1
  refine ⟨of_decide_eq_true h2.1, ?_⟩
  have h3 := of_decide_eq_true h2.2
  rw [h3]
  split
  · exact Nat.le_refl _
  · exact Nat.min_le_left _ _

theorem routeAdd (p : Part) (d : CmdDesc) : Statement (.routeAdd p d) := by
  intro h e code k
  cases k
  exact spells h

theorem routeDel (p : Part) (d : CmdDesc) : Statement (.routeDel p d) := by
  intro h e code k
  cases k
  exact spells h

theorem routeRead (p : Part) (d : CmdDesc) : Statement (.routeRead p d) := by
  intro h e code k
  cases k
  exact spells h

theorem tcamWrite (p : Part) (d : CmdDesc) : Statement (.tcamWrite p d) := by
  intro h e code k
  cases k
  exact spells h

theorem tcamRead (p : Part) (d : CmdDesc) : Statement (.tcamRead p d) := by
  intro h e code k
  cases k
  exact spells h

theorem dsetWrite (p : Part) (d : CmdDesc) : Statement (.dsetWrite p d) := by
  intro h e code k
  cases k
  exact spells h

theorem dsetRead (p : Part) (d : CmdDesc) : Statement (.dsetRead p d) := by
  intro h e code k
  cases k
  exact spells h

theorem vlanWrite (p : Part) (d : CmdDesc) : Statement (.vlanWrite p d) := by
  intro h e code k
  cases k
  exact spells h

theorem vlanRead (p : Part) (d : CmdDesc) : Statement (.vlanRead p d) := by
  intro h e code k
  cases k
  exact spells h

theorem profWrite (p : Part) (d : CmdDesc) : Statement (.profWrite p d) := by
  intro h e code k
  cases k
  exact spells h

theorem profRead (p : Part) (d : CmdDesc) : Statement (.profRead p d) := by
  intro h e code k
  cases k
  exact spells h

theorem streamPin (p : Part) (d : CmdDesc) : Statement (.streamPin p d) := by
  intro h e code k
  cases k
  exact spells h

theorem streamUnpin (p : Part) (d : CmdDesc) : Statement (.streamUnpin p d) := by
  intro h e code k
  cases k
  exact spells h

theorem streamRead (p : Part) (d : CmdDesc) : Statement (.streamRead p d) := by
  intro h e code k
  cases k
  exact spells h

theorem streamClear (p : Part) (d : CmdDesc) : Statement (.streamClear p d) := by
  intro h e code k
  cases k
  exact spells h

theorem gateWrite (p : Part) (d : CmdDesc) : Statement (.gateWrite p d) := by
  intro h e code k
  cases k
  exact spells h

theorem gateRead (p : Part) (d : CmdDesc) : Statement (.gateRead p d) := by
  intro h e code k
  cases k
  exact spells h

theorem timeSet (p : Part) (d : CmdDesc) : Statement (.timeSet p d) := by
  intro h e code k
  cases k
  exact spells h

theorem timeRead (p : Part) (d : CmdDesc) : Statement (.timeRead p d) := by
  intro h e code k
  cases k
  exact spells h

theorem ttPhaseAt (p : Part) (d : CmdDesc) : Statement (.ttPhaseAt p d) := by
  intro h e code k
  cases k
  exact spells h

theorem ttNextCross (p : Part) (d : CmdDesc) : Statement (.ttNextCross p d) := by
  intro h e code k
  cases k
  exact spells h

theorem keyWrite (p : Part) (d : CmdDesc) : Statement (.keyWrite p d) := by
  intro h e code k
  cases k
  exact spells h

theorem keyErase (p : Part) (d : CmdDesc) : Statement (.keyErase p d) := by
  intro h e code k
  cases k
  exact spells h

theorem keyRead (p : Part) (d : CmdDesc) : Statement (.keyRead p d) := by
  intro h e code k
  cases k
  exact spells h

theorem rawCipher (p : Part) (d : CmdDesc) : Statement (.rawCipher p d) := by
  intro h e code k
  cases k
  exact spells h

theorem rawCmac (p : Part) (d : CmdDesc) : Statement (.rawCmac p d) := by
  intro h e code k
  cases k
  exact spells h

theorem pkVerify (p : Part) (d : CmdDesc) : Statement (.pkVerify p d) := by
  intro h e code k
  cases k
  exact spells h

theorem pkEcdh (p : Part) (d : CmdDesc) : Statement (.pkEcdh p d) := by
  intro h e code k
  cases k
  exact spells h

theorem pkKeygen (p : Part) (d : CmdDesc) : Statement (.pkKeygen p d) := by
  intro h e code k
  cases k
  exact spells h

theorem pkEngineDone : Statement (.pkEngineDone) := fun _ _ _ k => nomatch k

theorem cryRandom (p : Part) (d : CmdDesc) : Statement (.cryRandom p d) := by
  intro h e code k
  cases k
  exact spells h

theorem capDiscard (p : Part) (d : CmdDesc) : Statement (.capDiscard p d) := by
  intro h e code k
  cases k
  exact spells h

theorem sleep (p : Part) (d : CmdDesc) : Statement (.sleep p d) := by
  intro h e code k
  cases k
  exact spells h

theorem resume (p : Part) (d : CmdDesc) : Statement (.resume p d) := by
  intro h e code k
  cases k
  exact spells h

theorem wakeRead (p : Part) (d : CmdDesc) : Statement (.wakeRead p d) := by
  intro h e code k
  cases k
  exact spells h

theorem nop (p : Part) (d : CmdDesc) : Statement (.nop p d) := by
  intro h e code k
  cases k
  exact spells h

theorem diagSnapshot (p : Part) (d : CmdDesc) : Statement (.diagSnapshot p d) := by
  intro h e code k
  cases k
  exact spells h

theorem errRead (p : Part) (d : CmdDesc) : Statement (.errRead p d) := by
  intro h e code k
  cases k
  exact spells h

theorem selfTest (p : Part) (d : CmdDesc) : Statement (.selfTest p d) := by
  intro h e code k
  cases k
  exact spells h

theorem mouldOpen (p : Part) (d : CmdDesc) : Statement (.mouldOpen p d) := by
  intro h e code k
  cases k
  exact spells h

theorem mouldDiscard (p : Part) (d : CmdDesc) : Statement (.mouldDiscard p d) := by
  intro h e code k
  cases k
  exact spells h

theorem pour (p : Part) (d : CmdDesc) : Statement (.pour p d) := by
  intro h e code k
  cases k
  exact spells h

theorem pourReady : Statement (.pourReady) := fun _ _ _ k => nomatch k

theorem pourBoundary : Statement (.pourBoundary) := fun _ _ _ k => nomatch k

theorem pourTimeout : Statement (.pourTimeout) := fun _ _ _ k => nomatch k

theorem mouldStat (p : Part) (d : CmdDesc) : Statement (.mouldStat p d) := by
  intro h e code k
  cases k
  exact spells h

theorem nodeWrite (p : Part) (d : CmdDesc) : Statement (.nodeWrite p d) := by
  intro h e code k
  cases k
  exact spells h

theorem nodeErase (p : Part) (d : CmdDesc) : Statement (.nodeErase p d) := by
  intro h e code k
  cases k
  exact spells h

theorem nodeRead (p : Part) (d : CmdDesc) : Statement (.nodeRead p d) := by
  intro h e code k
  cases k
  exact spells h

theorem nodeRelease (p : Part) (d : CmdDesc) : Statement (.nodeRelease p d) := by
  intro h e code k
  cases k
  exact spells h

theorem nodeHold (p : Part) (d : CmdDesc) : Statement (.nodeHold p d) := by
  intro h e code k
  cases k
  exact spells h

theorem partGrant (p : Part) (d : CmdDesc) : Statement (.partGrant p d) := by
  intro h e code k
  cases k
  exact spells h

theorem partRead (p : Part) (d : CmdDesc) : Statement (.partRead p d) := by
  intro h e code k
  cases k
  exact spells h

theorem partThaw (p : Part) (d : CmdDesc) : Statement (.partThaw p d) := by
  intro h e code k
  cases k
  exact spells h

theorem partFreeze (p : Part) (d : CmdDesc) : Statement (.partFreeze p d) := by
  intro h e code k
  cases k
  exact spells h

theorem windowWrite (p : Part) (d : CmdDesc) : Statement (.windowWrite p d) := by
  intro h e code k
  cases k
  exact spells h

theorem remoteAccess (p : Part) (d : CmdDesc) : Statement (.remoteAccess p d) := by
  intro h e code k
  cases k
  exact spells h

theorem doorbell (h : HostPort) (v : W32) : Statement (.doorbell h v) := fun _ _ _ k => nomatch k

theorem commandFetch (p : Part) (raw : List Byte) (buf : List Byte) : Statement (.commandFetch p raw buf) := fun _ _ _ k => nomatch k

theorem dispatchGrant : Statement (.dispatchGrant) := fun _ _ _ k => nomatch k

theorem replyRelease (p : Part) (tag : BitVec 12) : Statement (.replyRelease p tag) := fun _ _ _ k => nomatch k

theorem cqReplyWrite (p : Part) : Statement (.cqReplyWrite p) := fun _ _ _ k => nomatch k

theorem cqHeadWrite (h : HostPort) (v : W32) : Statement (.cqHeadWrite h v) := fun _ _ _ k => nomatch k

theorem cmdCtlWrite (h : HostPort) (v : W32) : Statement (.cmdCtlWrite h v) := fun _ _ _ k => nomatch k

theorem rwpWrite (p : Part) (addr : W32) (v : W64) (eight : Bool) : Statement (.rwpWrite p addr v eight) := fun _ _ _ k => nomatch k

theorem registerWrite (p : Part) (addr : W32) (v : W64) (eight : Bool) : Statement (.registerWrite p addr v eight) := fun _ _ _ k => nomatch k

theorem rocRead (p : Part) (addr : W32) : Statement (.rocRead p addr) := fun _ _ _ k => nomatch k

theorem counterLoRead (p : Part) (addr : W32) (eight : Bool) : Statement (.counterLoRead p addr eight) := fun _ _ _ k => nomatch k

theorem lockedRequest (h : HostPort) (addr : W32) : Statement (.lockedRequest h addr) := fun _ _ _ k => nomatch k

theorem mailboxAccess (p : Part) (addr : W32) (len : Nat) (data : Option (List Byte)) : Statement (.mailboxAccess p addr len data) := fun _ _ _ k => nomatch k

theorem brgSemTake (p : Part) (n : Fin 64) : Statement (.brgSemTake p n) := fun _ _ _ k => nomatch k

theorem brgSemRelease (p : Part) (hi : Bool) (v : W32) : Statement (.brgSemRelease p hi v) := fun _ _ _ k => nomatch k

theorem brgSlotReq (p : Part) (k : Fin 8) (v : W32) : Statement (.brgSlotReq p k v) := fun _ _ _ k => nomatch k

theorem brgSlotRelease (p : Part) (k : Fin 8) (v : W32) : Statement (.brgSlotRelease p k v) := fun _ _ _ k => nomatch k

theorem bridgeFarTimeout (p : Part) (window : Fin 32) (tag : Byte) : Statement (.bridgeFarTimeout p window tag) := fun _ _ _ k => nomatch k

theorem delayedReadExpire (p : Part) (k : Fin 8) : Statement (.delayedReadExpire p k) := fun _ _ _ k => nomatch k

theorem tsuLatch (p : Part) (v : W32) : Statement (.tsuLatch p v) := fun _ _ _ k => nomatch k

theorem ttPhaseRead (p : Part) (n : Fin 16) : Statement (.ttPhaseRead p n) := fun _ _ _ k => nomatch k

theorem chkLoad (p : Part) (k : Fin 8) (v : W32) : Statement (.chkLoad p k v) := fun _ _ _ k => nomatch k

theorem chkDataWrite (p : Part) (k : Fin 8) (r : ChkData) (v : W64) : Statement (.chkDataWrite p k r v) := fun _ _ _ k => nomatch k

theorem chkCfgWrite (p : Part) (k : Fin 8) (v : W32) : Statement (.chkCfgWrite p k v) := fun _ _ _ k => nomatch k

theorem capPeekRead (p : Part) (q : Fin 64) (idx : PeekAt) (ecc : Ecc) : Statement (.capPeekRead p q idx ecc) := fun _ _ _ k => nomatch k

theorem capPop (p : Part) (q : Fin 64) (w : PopWrite) : Statement (.capPop p q w) := fun _ _ _ k => nomatch k

theorem capAck (p : Part) (q : Fin 64) (v : W32) : Statement (.capAck p q v) := fun _ _ _ k => nomatch k

theorem capHrdWrite (p : Part) (q : Fin 64) (v : W32) : Statement (.capHrdWrite p q v) := fun _ _ _ k => nomatch k

theorem mdioAccessStart (p : Part) (m : Fin 4) (v : W32) : Statement (.mdioAccessStart p m v) := fun _ _ _ k => nomatch k

theorem mdioAccessDone (m : Fin 4) (rdata : BitVec 16) (noTurn : Bool) : Statement (.mdioAccessDone m rdata noTurn) := fun _ _ _ k => nomatch k

theorem mdioLinkPoll (n : EPort) (ms : Nat) : Statement (.mdioLinkPoll n ms) := fun _ _ _ k => nomatch k

theorem bootRearm (p : Part) (v : W32) : Statement (.bootRearm p v) := fun _ _ _ k => nomatch k

theorem bootReset (p : Part) (v : W32) : Statement (.bootReset p v) := fun _ _ _ k => nomatch k

theorem spiRead (addr : W32) (n : Nat) (crcOk : Bool) : Statement (.spiRead addr n crcOk) := fun _ _ _ k => nomatch k

theorem spiWrite (addr : W32) (words : List W32) (crcOk : Bool) : Statement (.spiWrite addr words crcOk) := fun _ _ _ k => nomatch k

theorem spiPush (raw : List Byte) (crcOk : Bool) : Statement (.spiPush raw crcOk) := fun _ _ _ k => nomatch k

theorem spiPop (crcOk : Bool) : Statement (.spiPop crcOk) := fun _ _ _ k => nomatch k

theorem spiStatus (crcOk : Bool) : Statement (.spiStatus crcOk) := fun _ _ _ k => nomatch k

theorem functionLevelReset (h : HostPort) : Statement (.functionLevelReset h) := fun _ _ _ k => nomatch k

theorem hostLinkDown (h : HostPort) : Statement (.hostLinkDown h) := fun _ _ _ k => nomatch k

theorem hostLinkUp (h : HostPort) (width : Nat) : Statement (.hostLinkUp h width) := fun _ _ _ k => nomatch k

theorem hostLinkTimeout (h : HostPort) : Statement (.hostLinkTimeout h) := fun _ _ _ k => nomatch k

theorem frameBoundary (c : PortCode) : Statement (.frameBoundary c) := fun _ _ _ k => nomatch k

theorem frameIntake (c : PortCode) (bytes : List Byte) : Statement (.frameIntake c bytes) := fun _ _ _ k => nomatch k

theorem frameEnd (c : PortCode) (e : RxEnd) : Statement (.frameEnd c e) := fun _ _ _ k => nomatch k

theorem busFrameHandover (c : PortCode) (hslot : BitVec 128) (bytes : List Byte) : Statement (.busFrameHandover c hslot bytes) := fun _ _ _ k => nomatch k

theorem arbiterWindowStart (a : ArbId) : Statement (.arbiterWindowStart a) := fun _ _ _ k => nomatch k

theorem egressGrant (c : PortCode) : Statement (.egressGrant c) := fun _ _ _ k => nomatch k

theorem egressTxComplete (c : PortCode) (e : TxEnd) : Statement (.egressTxComplete c e) := fun _ _ _ k => nomatch k

theorem preemptResume (n : EPort) : Statement (.preemptResume n) := fun _ _ _ k => nomatch k

theorem committedLaunch (n : EPort) : Statement (.committedLaunch n) := fun _ _ _ k => nomatch k

theorem shaperWaitExpire (c : PortCode) (q : Fin 8) : Statement (.shaperWaitExpire c q) := fun _ _ _ k => nomatch k

theorem tunnelGrant : Statement (.tunnelGrant) := fun _ _ _ k => nomatch k

theorem aggHoldExpire (prof : Fin 1024) : Statement (.aggHoldExpire prof) := fun _ _ _ k => nomatch k

theorem cryptoGrant : Statement (.cryptoGrant) := fun _ _ _ k => nomatch k

theorem streamAgeExpire (i : Fin 4096) : Statement (.streamAgeExpire i) := fun _ _ _ k => nomatch k

theorem frerResetExpire (i : Fin 4096) : Statement (.frerResetExpire i) := fun _ _ _ k => nomatch k

theorem nodeHoldExpire (i : Fin 262144) : Statement (.nodeHoldExpire i) := fun _ _ _ k => nomatch k

theorem lockedSequenceTimeout (a : ArbId) : Statement (.lockedSequenceTimeout a) := fun _ _ _ k => nomatch k

theorem ethSignalDetect (n : EPort) : Statement (.ethSignalDetect n) := fun _ _ _ k => nomatch k

theorem ethTrainingDone (n : EPort) (speedOk : Bool) : Statement (.ethTrainingDone n speedOk) := fun _ _ _ k => nomatch k

theorem ethTrainingTimeout (n : EPort) : Statement (.ethTrainingTimeout n) := fun _ _ _ k => nomatch k

theorem ethLinkLost (n : EPort) (cause : LossCause) : Statement (.ethLinkLost n cause) := fun _ _ _ k => nomatch k

theorem laneRetuneDone (n : EPort) (lost : Bool) : Statement (.laneRetuneDone n lost) := fun _ _ _ k => nomatch k

theorem mmVerifyTimer (n : EPort) : Statement (.mmVerifyTimer n) := fun _ _ _ k => nomatch k

theorem t1sUpTimer (n : Fin 8) : Statement (.t1sUpTimer n) := fun _ _ _ k => nomatch k

theorem t1sBeaconReceived (n : Fin 8) : Statement (.t1sBeaconReceived n) := fun _ _ _ k => nomatch k

theorem t1sBeaconLoss (n : Fin 8) : Statement (.t1sBeaconLoss n) := fun _ _ _ k => nomatch k

theorem canBusOff (n : Fin 48) : Statement (.canBusOff n) := fun _ _ _ k => nomatch k

theorem canBusOffRecovered (n : Fin 48) : Statement (.canBusOffRecovered n) := fun _ _ _ k => nomatch k

theorem linScheduleSlot (n : Fin 24) : Statement (.linScheduleSlot n) := fun _ _ _ k => nomatch k

theorem linHeaderReceived (n : Fin 24) (pid : Byte) (rate : Nat) : Statement (.linHeaderReceived n pid rate) := fun _ _ _ k => nomatch k

theorem linResponseTimeout (n : Fin 24) : Statement (.linResponseTimeout n) := fun _ _ _ k => nomatch k

theorem frSlot (f : Fin 2) (chB : Bool) (cycle : BitVec 6) (slot : SlotAt) : Statement (.frSlot f chB cycle slot) := fun _ _ _ k => nomatch k

theorem frPocChange (f : Fin 2) (poc : Fin 6) : Statement (.frPocChange f poc) := fun _ _ _ k => nomatch k

theorem busCtrlFault (c : PortCode) : Statement (.busCtrlFault c) := fun _ _ _ k => nomatch k

theorem syncReceiptTimeout (x : Fin 2) : Statement (.syncReceiptTimeout x) := fun _ _ _ k => nomatch k

theorem gptpTxTimer (n : EPort) (x : Fin 2) (kind : GptpTx) : Statement (.gptpTxTimer n x kind) := fun _ _ _ k => nomatch k

theorem selectorEvaluation : Statement (.selectorEvaluation) := fun _ _ _ k => nomatch k

theorem deltaSlewDone : Statement (.deltaSlewDone) := fun _ _ _ k => nomatch k

theorem tclkPllUnlock (x : Fin 2) : Statement (.tclkPllUnlock x) := fun _ _ _ k => nomatch k

theorem tclkPllRelock (x : Fin 2) : Statement (.tclkPllRelock x) := fun _ _ _ k => nomatch k

theorem tsuServoParityError (x : Fin 2) : Statement (.tsuServoParityError x) := fun _ _ _ k => nomatch k

theorem ppsEdge (n : Fin 4) : Statement (.ppsEdge n) := fun _ _ _ k => nomatch k

theorem zdaSend : Statement (.zdaSend) := fun _ _ _ k => nomatch k

theorem leapApply : Statement (.leapApply) := fun _ _ _ k => nomatch k

theorem ttCountedEdge (n : Fin 16) (aLeads : Bool) (both : Bool) (glitches : Nat) : Statement (.ttCountedEdge n aLeads both glitches) := fun _ _ _ k => nomatch k

theorem ttIndexEdge (n : Fin 16) (glitches : Nat) : Statement (.ttIndexEdge n glitches) := fun _ _ _ k => nomatch k

theorem ttStallTimeout (n : Fin 16) : Statement (.ttStallTimeout n) := fun _ _ _ k => nomatch k

theorem triggerActiveEdge (m : Fin 32) : Statement (.triggerActiveEdge m) := fun _ _ _ k => nomatch k

theorem timeTrigger (m : Fin 32) : Statement (.timeTrigger m) := fun _ _ _ k => nomatch k

theorem triggerInactiveEdge (m : Fin 32) : Statement (.triggerInactiveEdge m) := fun _ _ _ k => nomatch k

theorem timetableEntryStart (n : EPort) : Statement (.timetableEntryStart n) := fun _ _ _ k => nomatch k

theorem timetablePhaseCrossing (n : EPort) : Statement (.timetablePhaseCrossing n) := fun _ _ _ k => nomatch k

theorem timetablePendingStart (n : EPort) : Statement (.timetablePendingStart n) := fun _ _ _ k => nomatch k

theorem thermalSample (t : Vector (BitVec 12) 6) : Statement (.thermalSample t) := fun _ _ _ k => nomatch k

theorem ladleLaneTake (lane : Fin 8) : Statement (.ladleLaneTake lane) := fun _ _ _ k => nomatch k

theorem captureMemGrant (c : Fin 4) : Statement (.captureMemGrant c) := fun _ _ _ k => nomatch k

theorem captureDmaBatch (q : Fin 64) (eccs : List Ecc) : Statement (.captureDmaBatch q eccs) := fun _ _ _ k => nomatch k

theorem sidingLossClose (q : Fin 64) : Statement (.sidingLossClose q) := fun _ _ _ k => nomatch k

theorem errorLogWrite (block : Fin 14) : Statement (.errorLogWrite block) := fun _ _ _ k => nomatch k

theorem datapathUnitFault (u : DpUnit) (retestPass : Bool) : Statement (.datapathUnitFault u retestPass) := fun _ _ _ k => nomatch k

theorem sliceControlFault (k : Fin 8) (w : SliceWork) : Statement (.sliceControlFault k w) := fun _ _ _ k => nomatch k

theorem selfTestStep (failSlice failParser failBank failSegment : Bool) : Statement (.selfTestStep failSlice failParser failBank failSegment) := fun _ _ _ k => nomatch k

theorem retryWindowClose (u : RetryUnit) : Statement (.retryWindowClose u) := fun _ _ _ k => nomatch k

theorem lpddrChannelFault (c : Fin 4) : Statement (.lpddrChannelFault c) := fun _ _ _ k => nomatch k

theorem lpddrRetrainDone (c : Fin 4) (ok : Bool) : Statement (.lpddrRetrainDone c ok) := fun _ _ _ k => nomatch k

theorem signalBoxFailover : Statement (.signalBoxFailover) := fun _ _ _ k => nomatch k

theorem pairSelfTestDone (pass : Bool) : Statement (.pairSelfTestDone pass) := fun _ _ _ k => nomatch k

theorem entropyHealthFail (apt : Bool) : Statement (.entropyHealthFail apt) := fun _ _ _ k => nomatch k

theorem entropyStartupDone : Statement (.entropyStartupDone) := fun _ _ _ k => nomatch k

theorem drbgReseed : Statement (.drbgReseed) := fun _ _ _ k => nomatch k

theorem maskReseed (k : Fin 8) : Statement (.maskReseed k) := fun _ _ _ k => nomatch k

theorem keyZeroize (slot : Fin 2048) : Statement (.keyZeroize slot) := fun _ _ _ k => nomatch k

theorem sleepDrainEnd : Statement (.sleepDrainEnd) := fun _ _ _ k => nomatch k

theorem tc10Poll (n : EPort) (read expired : Bool) : Statement (.tc10Poll n read expired) := fun _ _ _ k => nomatch k

theorem sleepHoldEnd : Statement (.sleepHoldEnd) := fun _ _ _ k => nomatch k

theorem canWakeFrame (n : Fin 16) (f : WakeFrame) (sofTick : W64) : Statement (.canWakeFrame n f sofTick) := fun _ _ _ k => nomatch k

theorem canWakePattern (n : Fin 16) : Statement (.canWakePattern n) := fun _ _ _ k => nomatch k

theorem wakeInEvent (n : Fin 8) (active : Bool) : Statement (.wakeInEvent n active) := fun _ _ _ k => nomatch k

theorem t1sActivity (n : Fin 8) : Statement (.t1sActivity n) := fun _ _ _ k => nomatch k

theorem wakeTimerExpire : Statement (.wakeTimerExpire) := fun _ _ _ k => nomatch k

theorem wakingStepDone : Statement (.wakingStepDone) := fun _ _ _ k => nomatch k

theorem wakeAbuse (src : Fin 24) : Statement (.wakeAbuse src) := fun _ _ _ k => nomatch k

theorem powerOnReset : Statement (.powerOnReset) := fun _ _ _ k => nomatch k

theorem supplyMonitorReset : Statement (.supplyMonitorReset) := fun _ _ _ k => nomatch k

theorem resetNAsserted : Statement (.resetNAsserted) := fun _ _ _ k => nomatch k

theorem bootStepEnd (e : BootEnd) : Statement (.bootStepEnd e) := fun _ _ _ k => nomatch k

theorem ledgerRestart : Statement (.ledgerRestart) := fun _ _ _ k => nomatch k

theorem registerRead (p : Part) (addr : W32) (eight : Bool) : Statement (.registerRead p addr eight) := fun _ _ _ k => nomatch k

theorem busReceiveError (c : PortCode) (e : BusError) : Statement (.busReceiveError c e) := fun _ _ _ k => nomatch k

theorem porstNAsserted : Statement (.porstNAsserted) := fun _ _ _ k => nomatch k

theorem vddaonValid : Statement (.vddaonValid) := fun _ _ _ k => nomatch k

theorem sidingBurstDone (q : Fin 64) (fill : Bool) (ecc : Ecc) : Statement (.sidingBurstDone q fill ecc) := fun _ _ _ k => nomatch k

theorem idleClockGating (u : GateUnit) (gated : Bool) : Statement (.idleClockGating u gated) := fun _ _ _ k => nomatch k

theorem wakeAssertionEnd (src : Fin 24) : Statement (.wakeAssertionEnd src) := fun _ _ _ k => nomatch k

theorem ledgerEraseDone : Statement (.ledgerEraseDone) := fun _ _ _ k => nomatch k

end Sys2Proof.Laws.Spelled
end

