-- ==== Sys2Proof/Tests/Slice0.lean ====
section
/-! SUPPORT. Small tests of the model: the checks of well-formedness, values written out from the rules of spec/, and for every
statement that has hypotheses a state and operands that meet them, clause by clause. -/

namespace Sys2Proof.Tests

set_option linter.unusedSimpArgs false
set_option Elab.async false

open Sys2Proof Sys2Proof.Machine

/-! ### States and descriptors -/

/-- The block after its start: outputs driven, and the start done. -/
def up : State := { State.reset with pins.hiZ := false }.setBt R.bootStatus 4 true

/-- The block with an open, empty mould of PM. -/
def upM : State := up.setMould pm (some {})

/-- The block with a sealed mould of PM. -/
def upS : State := up.setMould pm (some { sealed := true })

/-- A descriptor: opcode, flags, tag, parameters and length of an output buffer, both buffers in the PM buffer. -/
def cmd (op flags tag : Nat) (params : List Byte) (out : Nat := 0) : CmdDesc :=
  { opcode := BitVec.ofNat 16 op, flags := BitVec.ofNat 8 flags, tag := BitVec.ofNat 16 tag
    plen := BitVec.ofNat 16 params.length, inPtr := if flags.testBit 3 then 0x1A_0000 else 0
    outPtr := if 0 < out then 0x1B_0000 else 0, outLen := BitVec.ofNat 32 out, rsv := 0, params := params }

/-- A number of zero bytes. -/
def zeros (n : Nat) : List Byte := List.replicate n 0

theorem sound_iff (p : Part) (d : CmdDesc) : Sound p d ↔ fld d.flags 7 4 = 0 ∧ fld d.tag 15 12 = 0 ∧ d.ctag.toNat < tagCount p ∧
    (d.indirect = true → d.rsv = 0) ∧ (d.indirect = false → d.len ≤ 24) ∧ (p = pm → d.pmBuffersOk = true) :=
  ⟨fun ⟨a, b, c, e, f, g⟩ => ⟨a, b, c, e, f, g⟩, fun ⟨a, b, c, e, f, g⟩ => ⟨a, b, c, e, f, g⟩⟩

/-! ### Witnesses: hypotheses of the statements that a state and operands meet -/

theorem witness_StepOfAnEmptyQueueIsATick : State.reset.pending = [] ∧ up.pending = [] := by decide

theorem witness_EveryStepKeepsTheMemoriesCanonical : State.reset.reg.memWf ∧ ∃ t, step up = .next t :=
  ⟨by unfold RegUnit.memWf; decide, _, rfl⟩

theorem witness_OnlyAPourOrAStartChangesTheConfiguration :
    (Instr.nop pm (cmd 0x0801 0 0 [])).reconfigures = false ∧ ∃ t, exec (.nop pm (cmd 0x0801 0 0 [])) up = .next t :=
  ⟨by decide, _, rfl⟩

theorem witness_CommandsLeaveTheQueueTheFuseAndWhatWasSent : ∃ t, exec (.nop pm (cmd 0x0801 0 0 [])) up = .next t := ⟨_, rfl⟩

theorem witness_EveryStepTakesOneCommand :
    ∃ t, ({ up with pending := [.pourReady] } : State).pending = .pourReady :: [] ∧
      step { up with pending := [.pourReady] } = .next t := ⟨_, rfl, rfl⟩

theorem witness_StagingCommandsJoinTheMould : upM.mould pm = some {} ∧ upM.mouldFull {} = false ∧
    (let d := cmd 0x0101 10 63 (zeros 32)
     upM.runs pm d ∧ (routeForm .staging 32 false d).check pm d = none ∧ ownerKeyed (d.image 128 0) = true) ∧
    (let d := cmd 0x0101 10 63 ([6, 0x6F] ++ zeros 30)
     upM.runs pm d ∧ (routeForm .staging 32 false d).check pm d = none ∧ upM.holds pm .port (imgByte (d.image 128 0) 1).toNat = true ∧
       upM.retired (imgByte (d.image 128 0) 1).toNat = false) ∧
    (let d := cmd 0x0102 2 0 (zeros 16)
     upM.runs pm d ∧ (routeForm .staging 16 false d).check pm d = none ∧ ownerKeyed (d.image 128 0) = true) ∧
    (let d := cmd 0x0104 10 0 ([255, 0, 7] ++ zeros 47)
     upM.runs pm d ∧ (tcamWriteForm d).check pm d = none ∧ d.le 0 2 < Kind.tcam.size ∧ upM.holds pm .tcam (d.le 0 2) = true) ∧
    (let d := cmd 0x0106 2 0 ([0xFF, 3] ++ zeros 16)
     upM.runs pm d ∧ (dsetWriteForm d).check pm d = none ∧ d.le 0 2 < Kind.dset.size ∧ upM.holds pm .dset (d.le 0 2) = true) ∧
    (let d := cmd 0x0108 2 0 ([0xFF, 0x0F] ++ zeros 6)
     upM.runs pm d ∧ vlanForm.check pm d = none ∧ d.le 0 2 < 4096) ∧
    (let d := cmd 0x010A 10 0 ([0, 0, 255, 0] ++ zeros 32)
     upM.runs pm d ∧ (profWriteForm d).check pm d = none ∧ profIndexOk (d.b 0) (d.le 2 2) = true ∧ upM.holds pm (profKind (d.b 0)) (d.le 2 2) = true) ∧
    (let d := cmd 0x010C 2 0 (zeros 17)
     upM.runs pm d ∧ (pinForm 17 d).check pm d = none ∧ ownerKeyed (d.image 128 0) = true) ∧
    (let d := cmd 0x010D 2 0 (zeros 16)
     upM.runs pm d ∧ (pinForm 16 d).check pm d = none ∧ ownerKeyed (d.image 128 0) = true) ∧
    (let d := cmd 0x0201 10 0 ([15] ++ zeros 35)
     upM.runs pm d ∧ (gateWriteForm d).check pm d = none ∧ isE (d.b 0) = true ∧ upM.holds pm .port (d.b 0) = true ∧ upM.retired (d.b 0) = false) ∧
    (let d := cmd 0x0501 10 0 ([0xFF, 0x07] ++ zeros 134)
     upM.runs pm d ∧ (keyWriteForm d).check pm d = none ∧ d.b 4 ≤ 1 ∧ d.le 0 2 < Kind.key.size ∧ upM.holds pm .key (d.le 0 2) = true ∧
       upM.retired (ksPort (d.image 1024 8)) = false) ∧
    (let d := cmd 0x0502 2 0 [0xFF, 0x07]
     upM.runs pm d ∧ keyEraseForm.check pm d = none ∧ d.le 0 2 < Kind.key.size ∧ upM.holds pm .key (d.le 0 2) = true) ∧
    (let d := cmd 0x0A01 10 0 (zeros 40)
     upM.runs pm d ∧ (nodeWriteForm d).check pm d = none ∧ upM.holds pm .port (d.b 8) = true ∧ upM.retired (d.b 8) = false) ∧
    (let d := cmd 0x0A02 2 0 (zeros 8)
     upM.runs pm d ∧ nodeEraseForm.check pm d = none ∧ upM.holds pm .port (d.b 0) = true) ∧
    (let d := cmd 0x0B01 10 0 (zeros 216)
     upM.runs pm d ∧ (grantForm d).check pm d = none) ∧
    (let d := cmd 0x0B05 2 0 ([31] ++ zeros 19)
     upM.runs pm d ∧ (windowForm d).check pm d = none ∧ d.b 0 < 32 ∧ upM.holds pm .port (d.b 4) = true) := by
  simp only [State.runs, State.serves]; and_intros <;> decide +kernel

/-- A node of the CAN port C0 in way 0 of its key, held with cause 4 and a hold time of 1 where `h`. -/
def nodeState (h : Bool) : State :=
  let e : BitVec 256 := setImg (setImg 0 0 8 0x20) 23 1 (if h then 9 else 0)
  { up with tab.nodes := [(10476, some (setImg e 24 2 (if h then 1 else 0)))] }

theorem witness_TableReadsAnswerWhatStands :
    (let d := cmd 0x0103 10 0 (zeros 16) 32
     let s := up.setMould pm (some { items := [{ item := .route 0x400, tag := 0, by_ := pm }] })
     s.runs pm d ∧ (routeForm .read 16 true d).check pm d = none ∧ ownerKeyed (d.image 128 0) = true ∧
       seenRoute s pm d (cmdKey pm d) = some 0x400 ∧ 32 ≤ d.outLen.toNat) ∧
    (let d := cmd 0x0105 8 0 [0xFF, 0] 48
     up.runs pm d ∧ (readForm 2 true).check pm d = none ∧ d.le 0 2 < Kind.tcam.size ∧ up.holds pm .tcam (d.le 0 2) = true ∧ 48 ≤ d.outLen.toNat) ∧
    (let d := cmd 0x0107 8 0 [0xFF, 3] 16
     up.runs pm d ∧ (readForm 2 true).check pm d = none ∧ d.le 0 2 < Kind.dset.size ∧ up.holds pm .dset (d.le 0 2) = true ∧ 16 ≤ d.outLen.toNat) ∧
    (let d := cmd 0x0109 0 0 [0xFF, 0x0F]
     up.runs pm d ∧ (readForm 2 false).check pm d = none ∧ d.le 0 2 < 4096) ∧
    (let d := cmd 0x010B 8 0 [2, 0, 255, 0] 16
     up.runs pm d ∧ (profReadForm d).check pm d = none ∧ profIndexOk (d.b 0) (d.le 2 2) = true ∧
       up.holds pm (profKind (d.b 0)) (d.le 2 2) = true ∧ (seenProf up pm d (d.b 0) (d.le 2 2)).length ≤ d.outLen.toNat) ∧
    (let d := cmd 0x010E 8 0 [0xFF, 0x0F] 64
     up.runs pm d ∧ (readForm 2 true).check pm d = none ∧ d.le 0 2 < 4096 ∧ (streamBytes up (up.stream (d.le 0 2))).length ≤ d.outLen.toNat) ∧
    (let d := cmd 0x0202 8 0 [15, 1] 64
     up.runs pm d ∧ (readForm 2 true).check pm d = none ∧ isE (d.b 0) = true ∧ d.b 1 ≤ 1 ∧ up.holds pm .port (d.b 0) = true ∧
       (gateBytes (seenGate up pm d (d.b 0) (d.b 1))).length ≤ d.outLen.toNat) ∧
    (let d := cmd 0x0503 8 0 [0xFF, 0x07] 136
     up.runs pm d ∧ (readForm 2 true).check pm d = none ∧ d.le 0 2 < Kind.key.size ∧ up.holds pm .key (d.le 0 2) = true ∧ 136 ≤ d.outLen.toNat) ∧
    (let d := cmd 0x0A03 8 0 ([0x20] ++ zeros 7) 32
     (nodeState true).runs pm d ∧ (readForm 8 true).check pm d = none ∧ (nodeState true).holds pm .port (d.b 0) = true ∧
       d.mouldFlag = false ∧ ((nodeState true).node (cmdNkey d)).map (·.1) = some 10476 ∧ 32 ≤ d.outLen.toNat) ∧
    (let d := cmd 0x0B02 8 0 [3] 256
     up.runs pm d ∧ (readForm 1 true).check pm d = none ∧ d.b 0 ≤ 3 ∧
       (imgBytes (seenGrant up pm d (Fin.ofNat 5 (d.b 0))) ++ up.usage (Fin.ofNat 5 (d.b 0))).length ≤ d.outLen.toNat) := by
  simp only [State.runs, State.serves, State.works, State.takes, State.mayRead, State.mayWrite, Imm, sound_iff]; and_intros <;> decide +kernel

theorem witness_MouldCommandsAnswer : (let d := cmd 0x0901 0 63 []
     up.runs pm d ∧ upM.runs pm d ∧ upS.runs pm d ∧ Imm pm d 0) ∧ up.mould pm = none ∧
    upM.mould pm = some {} ∧ ({} : Mould).sealed = false ∧ (upS.mould pm).map (·.sealed) = some true := by
  simp only [State.runs, State.serves, State.works, State.takes, State.mayRead, State.mayWrite, Imm, sound_iff]; and_intros <;> decide +kernel

theorem witness_SealedMouldsAnswerConflict :
    (upS.mould pm).map (·.sealed) = some true ∧ upS.runs pm (cmd 0x0901 0 0 []) ∧ Imm pm (cmd 0x0901 0 0 []) 0 ∧ upS.cmd.pours = [] ∧
    (let d := cmd 0x0903 0 0 ([1] ++ zeros 15)
     upS.runs pm d ∧ Imm pm d 16 ∧ d.le 2 2 = 0 ∧ d.b 0 ≤ 1) ∧
    (let d := cmd 0x0903 0 0 ([2, 15, 0, 0, 0xFF, 0xFF, 0xFF] ++ zeros 9)
     upS.runs pm d ∧ Imm pm d 16 ∧ d.le 2 2 = 0 ∧ d.b 0 = 2 ∧ d.b 1 < 16 ∧ d.le 4 4 < 2 ^ 24) := by
  simp only [State.runs, State.serves, State.works, State.takes, State.mayRead, State.mayWrite, Imm, sound_iff]; and_intros <;> decide +kernel

theorem witness_PourSealsTheMouldAndQueues : up.mould pm = none ∧ (upM.mould pm).map (·.sealed) = some false ∧ upM.cmd.pours = [] ∧
    up.cmd.pours = [] ∧
    (let d := cmd 0x0903 0 63 ([1] ++ zeros 7 ++ List.replicate 8 255)
     upM.runs pm d ∧ up.runs pm d ∧ Imm pm d 16 ∧ d.le 2 2 = 0 ∧ d.b 0 ≤ 1) ∧
    (let d := cmd 0x0903 0 0 ([2, 15, 0, 0, 0xFF, 0xFF, 0xFF] ++ zeros 9)
     upM.runs pm d ∧ Imm pm d 16 ∧ d.le 2 2 = 0 ∧ d.b 0 = 2 ∧ d.b 1 < 16 ∧ d.le 4 4 < 2 ^ 24) ∧
    (∀ l ∈ [[2, 16, 0, 0, 0, 0, 0], [2, 15, 0, 0, 0, 0, 0, 1], [3]], let d := cmd 0x0903 0 0 (l ++ zeros (16 - l.length))
     upM.runs pm d ∧ Imm pm d 16 ∧ d.le 2 2 = 0 ∧ ¬ (d.b 0 ≤ 1 ∨ (d.b 0 = 2 ∧ d.b 1 < 16 ∧ d.le 4 4 < 2 ^ 24))) ∧
    (let d := cmd 0x0903 0 2 (zeros 16)
     let s : State := { upM with cmd.pours := [{ part := pm, tag := 2, irq := false, bound := .immediate }] }
     s.runs pm d ∧ Imm pm d 16 ∧ d.le 2 2 = 0 ∧ ∃ x ∈ s.cmd.pours, x.part = pm ∧ x.tag = d.ctag) := by
  simp only [State.runs, State.serves, Imm, sound_iff, List.forall_mem_cons, List.forall_mem_nil]; and_intros <;> decide +kernel

/-- A sealed mould of PM with items, and its pour at the head of the queue. -/
def pourState (items : List Item) (bound : Boundary) (ready : Bool) (built : Nat := 0) : State :=
  let s := up.setMould pm (some { items := items.map (fun x => { item := x, tag := 1, by_ := pm }), sealed := true })
  { s with cmd.pours := [{ part := pm, tag := 2, irq := false, bound := bound, ready := ready, built := built }] }

/-- What a pour that is not ready would fail with. -/
def failsWith (s : State) : Option (Option Byte) :=
  s.cmd.pours.head?.map (fun x => let (b, u) := s.shadow x s.free; (firstFailure s s b u (s.pourItems x)).map (·.status))

theorem witness_PourReadinessAndTimeout :
    (∀ k : Fin 2, let s := pourState [.dset 1023 1] .immediate false k
     s.serves ∧ s.endPourStep = s ∧ s.cmd.pours.map (·.ready) = [false] ∧ (s.path pm).dropTags = [] ∧ failsWith s = some none ∧
       s.tooFar .immediate = false ∧ (s.cmd.pours.map (fun x => decide (x.built < (s.pourItems x).length)) = [k == 0])) ∧
    (let s : State := { pourState [.dset 1023 1] .immediate false with cmd.box := some { part := pm, tag := 2, words := 1, pour := true } }
     s.serves ∧ s.endPourStep.cmd.pours.map (·.built) = [1] ∧ failsWith s.endPourStep = some none) ∧
    (let s := pourState [.keyErase 5] .immediate false
     s.serves ∧ failsWith s = some none) ∧
    (let s := pourState [.routeDel 0x80 false] .immediate false
     s.serves ∧ failsWith s = some (some St.notFound)) ∧
    (let s := pourState [.dset 1023 1] (.time (BitVec.allOnes 64)) false
     s.serves ∧ failsWith s = some none ∧ s.tooFar (.time (BitVec.allOnes 64)) = true) ∧
    (let s := pourState [.dset 1023 1] (.phase 15 0) true
     s.works ∧ s.serves ∧ s.cmd.pours.map (·.ready) = [true] ∧ s.cmd.pours.map (·.bound) = [.phase 15 0] ∧
       s.endPourStep.cmd.pours.map (·.ready) = [true]) ∧ up.serves ∧ up.endPourStep.cmd.pours = [] := by
  simp only [State.runs, State.serves, State.works, State.takes, State.mayRead, State.mayWrite, Imm, sound_iff]; and_intros <;> decide +kernel

/-- The block with turntable 15 in TRACKING. -/
def upT : State := up.setFd (R.ttStatus 15) 1 0 ttTracking

theorem witness_TimeReadsAnswerPresentedTime :
    up.runs pm (cmd 0x0302 0 0 []) ∧ Imm pm (cmd 0x0302 0 0 []) 0 ∧ up.mayWrite pm 0x20_0020 ∧ up.mayRead pm (R.ttPhase 15) ∧
    (let d := cmd 0x0401 0 0 ([15] ++ zeros 7 ++ [0x40, 0x42, 0x0F, 0, 0, 0, 0, 0])
     up.runs pm d ∧ Imm pm d 16 ∧ d.le 1 7 = 0 ∧ d.b 0 < 16 ∧ up.holds pm .tt (d.b 0) = true ∧ d.le 8 8 ≤ up.pNs + 1000000 ∧ up.pNs ≤ d.le 8 8 + 1000000) ∧
    (let d := cmd 0x0401 0 0 ([15] ++ zeros 7 ++ [0x41, 0x42, 0x0F, 0, 0, 0, 0, 0])
     up.runs pm d ∧ Imm pm d 16 ∧ d.le 1 7 = 0 ∧ d.b 0 < 16 ∧ up.holds pm .tt (d.b 0) = true ∧ up.pNs + 1000000 < d.le 8 8 ∧
       (let s : State := { up with tsu.dom := [(0, { ns := 2000002 })] }
        s.runs pm d ∧ s.holds pm .tt (d.b 0) = true ∧ d.le 8 8 + 1000000 < s.pNs)) ∧ bit (1 : W32) 0 = true ∧ bit (2 : W32) 0 = false ∧
    (let d := cmd 0x0402 0 0 [15, 1, 0, 0, 0xFF, 0xFF, 0xFF, 0]
     up.runs pm d ∧ Imm pm d 8 ∧ d.le 2 2 = 0 ∧ d.b 0 < 16 ∧ d.b 1 ≤ 1 ∧ d.le 4 4 < 2 ^ 24 ∧ up.holds pm .tt (d.b 0) = true ∧
       up.ttState (d.b 0) ≠ ttTracking ∧ upT.runs pm d ∧ upT.ttState (d.b 0) = ttTracking ∧
       upT.nextCross (d.b 0) (d.b 1 == 1) (d.le 4 4) = none ∧
       (({ upT with phw.tts := [(15, { loops := [{ v := -1 }] })] } : State).nextCross (d.b 0) (d.b 1 == 1) (d.le 4 4)).isSome = true) := by
  simp only [State.runs, State.serves, State.works, State.takes, State.mayRead, State.mayWrite, Imm, sound_iff]; and_intros <;> decide +kernel

theorem witness_TimeSetStepsTheDomain :
    (let d := cmd 0x0301 0 0 [1, 1, 0, 0, 0, 0, 0, 0, 0, 0, 0, 0, 0, 0]
     Imm 0 d 14 ∧ Imm pm d 14 ∧ d.b 0 ≤ 1 ∧ d.b 1 ≤ 1 ∧ d.le 10 4 = 0 ∧ up.runs 0 d ∧ up.runs pm d ∧ (up.path pm).dropTags = [] ∧
       (let s := up.setFd (R.domStatus 1) 2 0 domLocked
        s.runs pm d ∧ s.domState 1 = domLocked ∧ s.domSrc 1 ≠ 3) ∧ up.domState 1 ≠ domLocked) ∧
    (let d := cmd 0x0301 0 0 [0, 0, 0xB2, 0x07, 1, 1, 0, 0, 0, 0, 0, 0, 0, 0]
     up.runs pm d ∧ Imm pm d 14 ∧ d.b 9 = 0 ∧ up.possible { year := d.le 2 2, month := d.b 4, day := d.b 5 } (d.b 6) (d.b 7) (d.b 8) = true) ∧
    (let d := cmd 0x0301 0 0 [0, 0, 0xB2, 0x07, 2, 29, 0, 0, 0, 0, 0, 0, 0, 0]
     up.runs pm d ∧ Imm pm d 14 ∧ d.b 9 = 0 ∧ up.possible { year := d.le 2 2, month := d.b 4, day := d.b 5 } (d.b 6) (d.b 7) (d.b 8) = false) := by
  simp only [State.runs, State.serves, State.works, State.takes, State.mayRead, State.mayWrite, Imm, sound_iff]; and_intros <;> decide +kernel

theorem witness_TwoDigitYearsAreWindowed : (up.setFd R.pivot 6 0 0).fd R.pivot 6 0 = 0 ∧ (up.setFd R.pivot 6 0 30).fd R.pivot 6 0 = 30 ∧
    (up.setFd R.pivot 6 0 30).windowYear 29 = 2129 ∧ (up.setFd R.pivot 6 0 30).windowYear 30 = 2030 := by
  decide +kernel

theorem witness_NodeCommandsHoldAndReleaseTalkers :
    (let d := cmd 0x0A05 0 0 ([0x20] ++ zeros 9)
     let r := cmd 0x0A04 0 0 ([0x20] ++ zeros 7)
     up.runs pm d ∧ up.runs pm r ∧ (up.path pm).dropTags = [] ∧ up.holds pm .port (d.b 0) = true ∧ up.retired (d.b 0) = false ∧ Imm pm d 10 ∧ Imm pm r 8 ∧
       up.node (cmdNkey d) = none ∧ up.node (cmdNkey r) = none ∧ (nodeState true).runs pm d ∧ (nodeState true).runs pm r ∧ (nodeState false).runs pm r ∧ (nodeState false).runs pm d ∧
       ((nodeState true).node (cmdNkey r)).map (fun x => (x.1, ndHeld x.2)) = some (10476, true) ∧
       ((nodeState false).node (cmdNkey r)).map (fun x => (x.1, ndHeld x.2)) = some (10476, false) ∧
       ((nodeState false).node (cmdNkey d)).map (·.1) = some 10476) ∧
    (nodeState true).works ∧ (nodeState false).works ∧ up.works ∧ ((nodeState true).nodeAt 10476).map (fun e => (ndHeld e, imgLe e 24 2)) = some (true, 1) ∧
    ((nodeState false).nodeAt 10476).map (fun e => (ndHeld e, imgLe e 24 2)) = some (false, 0) ∧ up.nodeAt 262143 = none := by
  simp only [State.runs, State.serves, State.works, State.takes, State.mayRead, State.mayWrite, Imm, sound_iff]; and_intros <;> decide +kernel

/-- A slot of type `t` at index 2047, for P-384 where `w`. -/
def keyState (t : Nat) (w : Bool) : State :=
  { up with tab.keys := [(2047, setImg 0 0 3 (t + if w then 2 ^ 18 else 0))] }

theorem witness_RawCipherFollowsItsMode : ksType ((keyState 5 false).keySlot 2047) = 5 ∧ ksType (up.keySlot 2047) ≠ 5 ∧
    (∀ mode : Fin 4, ∀ dir : Fin 2, let d := cmd 0x0504 8 0 ([0xFF, 7, BitVec.ofNat 8 mode, BitVec.ofNat 8 dir] ++ zeros 36) 64
     (keyState 5 false).runs pm d ∧ up.runs pm d ∧ (keyState 5 false).inCrypto pm d.ctag = false ∧ up.inCrypto pm d.ctag = false ∧
       Sound pm d ∧ d.mouldFlag = false ∧ 24 ≤ d.len ∧ d.indirect = true ∧ d.outPtr ≠ 0 ∧ d.le 0 2 < Kind.key.size ∧
       up.holds pm .key (d.le 0 2) = true ∧ (keyState 5 false).holds pm .key (d.le 0 2) = true ∧ d.b 3 ≤ 1 ∧ d.b 2 = mode ∧
       d.le 20 4 = 0 ∧ (natsOf (d.params.drop 24)).length = 16 ∧ 16 ≤ d.outLen.toNat) ∧
    (∀ mode : Fin 4, ∀ n : Fin 2, let d := cmd 0x0504 8 0 ([0xFF, 7, BitVec.ofNat 8 mode, 0] ++ zeros (20 + 17 * n.val)) 64
     (keyState 5 false).runs pm d ∧ Sound pm d ∧ d.mouldFlag = false ∧ 24 ≤ d.len ∧ d.indirect = true ∧ d.outPtr ≠ 0 ∧ d.b 3 ≤ 1 ∧
       d.b 2 = mode ∧ d.le 20 4 = 0 ∧ (natsOf (d.params.drop 24)).length = 17 * n.val ∧ 17 + 16 ≤ d.outLen.toNat) ∧
    (let d := cmd 0x0504 8 7 ([0xFF, 7] ++ zeros 38) 64
     let s : State := { up with cry.work := [rawWork pm d 0 [] 16] }
     s.runs pm d ∧ Sound pm d ∧ d.mouldFlag = false ∧ 24 ≤ d.len ∧ d.indirect = true ∧ d.outPtr ≠ 0 ∧ s.inCrypto pm d.ctag = true) := by
  simp only [State.runs, State.serves, sound_iff]; and_intros <;> decide +kernel

theorem witness_RawCmacGeneratesAndVerifies : (keyState 5 false).holds pm .key 2047 = true ∧ ksType ((keyState 5 false).keySlot 2047) = 5 ∧
    2047 < Kind.key.size ∧
    (∀ t ∈ [4, 16, 3, 17], ∀ v : Fin 2, let d := cmd 0x0505 8 0 ([0xFF, 7, BitVec.ofNat 8 v, BitVec.ofNat 8 t] ++ zeros 16) (if v = 0 then 64 else 0)
     (keyState 5 false).runs pm d ∧ (keyState 5 false).inCrypto pm d.ctag = false ∧ Sound pm d ∧ d.mouldFlag = false ∧ d.indirect = true ∧
       20 ≤ d.len ∧ d.le 0 2 = 2047 ∧ (d.b 2 = 0 → d.outPtr ≠ 0) ∧ d.b 2 = v ∧ d.b 3 = t ∧ d.len ≤ 65556 ∧ (d.b 2 = 0 → 16 ≤ d.outLen.toNat)) ∧
    (∀ n ∈ [(1 : Byte), 0], let d := cmd 0x0509 8 0 [n, if n = 0 then 0x10 else 0, 0, 0] 4096
     up.runs pm d ∧ Sound pm d ∧ d.mouldFlag = false ∧ d.indirect = true ∧ d.len = 4 ∧ d.outPtr ≠ 0 ∧
       d.le 0 4 = (if n = 0 then 4096 else 1) ∧ d.le 0 4 ≤ d.outLen.toNat ∧ up.entropyGone = false ∧
       (up.setBt R.entStatus 4 true).entropyGone = true ∧ (up.setBt R.entStatus 4 true).runs pm d) := by
  simp only [State.runs, State.serves, sound_iff, List.forall_mem_cons, List.forall_mem_nil]; and_intros <;> decide +kernel

theorem witness_PublicKeyCommandsQueueForTheEngine :
    (let k := (keyState 6 false).keySlot 2047; ksType k = 6 ∧ ksP384 k = false) ∧
    (let k := (keyState 6 true).keySlot 2047; ksType k = 6 ∧ ksP384 k = true) ∧ ksType (up.keySlot 2047) ≠ 6 ∧
    (∀ c : Fin 2, let s := keyState 6 (c == 1)
       let d := cmd 0x0506 8 0 ([BitVec.ofNat 8 c, 0, 0, 0] ++ zeros (if c = 1 then 256 else 192))
       s.runs pm d ∧ s.inCrypto pm d.ctag = false ∧ Sound pm d ∧ d.mouldFlag = false ∧ d.b 0 ≤ 1 ∧ d.len = (if d.b 0 = 1 then 260 else 196) ∧
         d.le 1 3 = 0) ∧
    (∀ c : Fin 2, let s := keyState 6 (c == 1)
       let d := cmd 0x0507 8 0 ([BitVec.ofNat 8 c, 0, 0xFF, 7] ++ zeros (if c = 1 then 96 else 64)) 64
       s.runs pm d ∧ up.runs pm d ∧ s.inCrypto pm d.ctag = false ∧ up.inCrypto pm d.ctag = false ∧ Sound pm d ∧ d.mouldFlag = false ∧
         d.b 0 ≤ 1 ∧ d.b 1 = 0 ∧ d.indirect = true ∧ d.outPtr ≠ 0 ∧ d.le 2 2 < 2048 ∧ up.holds pm .key (d.le 2 2) = true ∧
         s.holds pm .key (d.le 2 2) = true ∧ d.len = (if d.b 0 = 1 then 100 else 68) ∧ (curveOf (d.b 0 == 1)).bytes ≤ d.outLen.toNat) ∧
    (∀ c : Fin 2, let s := keyState 6 (c == 1)
       let d := cmd 0x0508 8 0 [BitVec.ofNat 8 c, 0, 0xFF, 7] 96
       s.runs pm d ∧ up.runs pm d ∧ s.inCrypto pm d.ctag = false ∧ Sound pm d ∧ d.mouldFlag = false ∧ d.b 0 ≤ 1 ∧ d.b 1 = 0 ∧
         d.indirect = true ∧ d.outPtr ≠ 0 ∧ d.le 2 2 < 2048 ∧ s.holds pm .key (d.le 2 2) = true ∧ d.len = 4 ∧
         2 * (curveOf (d.b 0 == 1)).bytes ≤ d.outLen.toNat ∧ (s.setBt R.entStatus 4 true).runs pm d) ∧
    (keyState 6 false).entropyGone = false ∧ ((keyState 6 false).setBt R.entStatus 4 true).entropyGone = true := by
  simp only [State.runs, State.serves, sound_iff]; and_intros <;> decide +kernel

theorem witness_PublicKeyEngineAnswersInOrder : up.works ∧ up.cry.pkQ = [] ∧
    (let o : PkOp := { part := pm, tag := 1, irq := false, status := 0, result := 1, outAt := 0, out := [], micros := 180 }
     let k : PkOp := { o with store := some (2047, 5) }
     let s : State := { up with cry.pkQ := [o] }
     let t : State := { up with cry.pkQ := [k] }
     let u : State := { up.setBt R.entStatus 4 true with cry.pkQ := [k] }
     s.works ∧ s.cry.pkQ = [o] ∧ (s.path o.part).dropTags = [] ∧ o.store = none ∧ t.works ∧ t.cry.pkQ = [k] ∧ k.store = some (2047, 5) ∧
       t.entropyGone = false ∧ u.works ∧ u.entropyGone = true) := by
  simp only [State.works]; and_intros <;> decide +kernel

/-- P0 with rings of 16 entries at address 0, and a DMA window of 2^20 bytes there. -/
def host : State :=
  let s := ((up.setRgp 0 R.sqSize 4).setRgp 0 R.cqSize 4).setRgp 0 R.cmdCtl 1
  { s with tab.grants := [(0, setImg 0 96 8 0x10_0000)] }

/-- P0 frozen. -/
def hostF : State := host.setRgp 0 R.secStatus 1

/-- A port of a host. -/
def h0 : HostPort := 0

theorem witness_DoorbellSetsTheTail : h0.part = 0 ∧ host.linked 0 = true ∧ host.unreachable = false ∧ host.bootDone = true ∧
    hostF.frozen 0 = true ∧ host.frozen 0 = false ∧ host.pwr = pwRun ∧ host.bt (copyKey 0 R.cmdCtl) 0 = true ∧
    fld (0xFFFF_F00F : W32) 11 0 < host.sqSize 0 ∧ host.sqSize 0 ≤ fld (16 : W32) 11 0 ∧ up.bt (copyKey 0 R.cmdCtl) 0 = false ∧
    up.frozen 0 = false ∧ up.pwr = pwRun := by
  and_intros <;> decide +kernel

/-- P0 with one entry to fetch, and its tag busy where `b`. -/
def fetching (b : Bool) : State :=
  (host.setRgp 0 R.sqTail 1).setPath 0 { (host.path 0) with busy := if b then [0] else [] }

theorem witness_FetchTakesTheDescriptorInOrder : (fetching false).serves ∧ (fetching true).serves ∧ (fetching false).fetches 0 = true ∧
    (fetching true).fetches 0 = true ∧ ((fetching false).grant 0).covers ((fetching false).sqAddr 0) 32 = true ∧ (fetching false).sqSize 0 ≤ 4096 ∧
    ((fetching false).nextDesc 0 (zeros 32) []).ctag ∉ ((fetching false).path 0).busy ∧
    ((fetching true).nextDesc 0 (zeros 32) []).ctag ∈ ((fetching true).path 0).busy ∧
    (let s := up.setPath pm { up.path pm with sq := [zeros 32] }
     s.serves ∧ s.fetches pm = true ∧ (s.path pm).sq = [zeros 32] ∧ s.sqSize pm ≤ 4096) ∧
    (let e := parseDesc ([1, 8, 8] ++ zeros 29) []
     e.indirect = true ∧ (parseDesc (zeros 32) []).indirect = false) := by
  simp only [State.serves]; and_intros <;> decide +kernel

/-- P0 with one fetched command that has not started. -/
def fetchedOne (op : Nat) : State := host.setPath 0 { host.path 0 with fetched := [{ desc := cmd op 0 7 [] }], busy := [7] }

theorem witness_DispatcherStartsACommand : up.serves ∧ (∀ p : Part, up.endPourStep.waits p = false) ∧
    (let s : State := { up with cmd.box := some { part := 0, tag := 7, words := 2 } }
     s.serves ∧ s.endPourStep.cmd.box ≠ none) ∧
    (∀ op, op = 0x0801 ∨ op = 0x0C01 ∨ op = 0x0502 → let s := fetchedOne op
      s.serves ∧ s.endPourStep = s ∧ s.cmd.box = none ∧ s.pourWords = none ∧ (s.startable 0).map (·.desc) = some (cmd op 0 7 []) ∧
      s.pick .dispatcher ((List.range 5).filter (fun i => s.waits (Fin.ofNat 5 i))) = some 0) ∧
    opcodeDefined (cmd 0x0801 0 7 []) = true ∧ opcodeDefined (cmd 0x0C01 0 7 []) = false ∧ (stagingOf (cmd 0x0502 0 7 [])).isSome = true ∧
    (stagingOf (cmd 0x0801 0 7 [])).isSome = false ∧ (fetchedOne 0x0801).badBuffer 0 (cmd 0x0801 0 7 []) = none ∧
    (fetchedOne 0x0502).badBuffer 0 (cmd 0x0502 0 7 []) = none ∧
    (let d := { cmd 0x0801 8 7 [] 16 with outPtr := 0x1B_0000 }
     let s := host.setPath 0 { host.path 0 with fetched := [{ desc := d }], busy := [7] }
     s.serves ∧ s.endPourStep = s ∧ s.cmd.box = none ∧ s.pourWords = none ∧ (s.startable 0).map (·.desc) = some d ∧
       s.pick .dispatcher ((List.range 5).filter (fun i => s.waits (Fin.ofNat 5 i))) = some 0 ∧ opcodeDefined d = true ∧
       s.badBuffer 0 d = some 0x1B_0000) ∧
    (let s := (pourState [.dset 1023 1] .immediate false).setPath pm { up.path pm with fetched := [{ desc := cmd 0x0903 0 2 (zeros 16), started := true }] }
     s.serves ∧ s.endPourStep = s ∧ s.cmd.box = none ∧ s.pourWords.map (fun x => (x.1.part, x.2)) = some (pm, 2) ∧
       s.pick .dispatcher ((List.range 5).filter (fun i => s.waits (Fin.ofNat 5 i))) = some 4) := by
  simp only [State.serves, forall_eq_or_imp, forall_eq]; and_intros <;> decide +kernel

/-- A reply without output. -/
def reply0 (tag : BitVec 12) (mould : Nat) : Reply := { tag := tag, status := 0, result := 0, irq := true, mould := mould }

theorem witness_RepliesAreReleasedAndWritten : host.serves ∧ (0 : Part) ≠ pm ∧ host.blocked 0 = false ∧ host.cqSize 0 ≤ 4096 ∧
    (host.path 0).done = [] ∧
    (∀ m : Fin 3, let s := (host.setPath 0 { host.path 0 with done := [reply0 1023 m] }).setMould 0 (some { sealed := true })
     s.serves ∧ (s.path 0).done.find? (fun x => x.tag == 1023) = some (reply0 1023 m) ∧ (s.path 0).ready.length < s.cqRoom 0 ∧
       s.blocked 0 = false ∧ (s.mould 0).isSome = true) ∧
    (let s := host.setRgp 0 R.cqTail 15
     s.serves ∧ s.cqRoom 0 = 0) ∧
    (let s := (host.setPath 0 { host.path 0 with ready := [reply0 5 0] }).setRgp 0 R.cqTail 14
     s.serves ∧ (s.path 0).ready = [reply0 5 0] ∧ s.cqRoom 0 ≠ 0 ∧ (s.grant 0).covers (s.cqAddr 0) 16 = true) := by
  simp only [State.serves]; and_intros <;> decide +kernel

theorem witness_RingRegistersAreGuarded : host.mayWrite 0 R.cqHead ∧ host.mayWrite 0 R.cmdCtl ∧ host.bt (copyKey 0 R.cmdCtl) 0 = true ∧
    (let s := host.setRgp 0 R.cqTail 3
     s.mayWrite 0 R.cqHead ∧ (3 + 16 - s.cqHead 0) % 16 ≤ (s.cqTail 0 + 16 - s.cqHead 0) % 16 ∧
       ¬ (4 + 16 - s.cqHead 0) % 16 ≤ (s.cqTail 0 + 16 - s.cqHead 0) % 16) ∧
    up.mayWrite 0 R.cqHead ∧ up.mayWrite 0 R.cmdCtl ∧ up.bt (copyKey 0 R.cmdCtl) 0 = false ∧ bit (1 : W32) 0 = true ∧ bit (0 : W32) 0 = false := by
  simp only [State.mayWrite, State.takes]; and_intros <;> decide +kernel

/-- P0's link is down. -/
def down : State := { host with cmd.linkUp := [(0, false)] }

theorem witness_HostLinksComeAndGo : host.works ∧ down.works ∧ host.linked 0 = true ∧ down.linked 0 = false ∧ host.cmd.remoteWait = [] ∧
    down.cmd.remoteWait = [] ∧ host.ringsCovered 0 ∧ down.ringsCovered 0 ∧ (∀ k, (host.slot 0 k).cmd = none) ∧ (∀ k, (down.slot 0 k).cmd = none) ∧ host.bootDone = true ∧ host.dozing = false := by
  unfold State.works State.ringsCovered
  refine ⟨?_, ?_, ?_, ?_, ?_, ?_, ?_, ?_, fun k => rfl, fun k => rfl, ?_, ?_⟩ <;> decide +kernel

theorem witness_ViolationsFreezeTheHost : (0 : Part) ≠ pm ∧ host.frozen 0 = false ∧ host.takes 0 ∧
    host.readReach 0 0 0x1A_0000 = .violation ∧ (0x1A_0000 : W32).toNat % 4 = 0 ∧ mailboxShape 0x1A_0000 4 = false ∧ registerShape 0x1A_0000 4 = true ∧
    host.writeReach 0 0 0x90_0008 = .violation ∧ host.readReach 0 0 0x90_0008 = .violation ∧ (0x90_0008 : W32).toNat % 4 = 0 ∧
    mailboxShape 0x90_0008 4 = false ∧ registerShape 0x90_0008 4 = true ∧
    (let d := cmd 0x0601 0 1023 [63]
     host.runs 0 d ∧ Imm 0 d 1 ∧ d.b 0 < 64 ∧ host.holds 0 .capq (d.b 0) = false ∧ host.fetchedOf 0 d.ctag = none ∧
     (let g : BitVec 1728 := setImg 0 48 8 (2 ^ 63)
      let f : Fetched := { desc := d, started := true, olds := [g] }
      let s := host.setPath 0 { host.path 0 with fetched := [f], busy := [1023] }
      s.frozen 0 = false ∧ s.runs 0 d ∧ s.holds 0 .capq (d.b 0) = false ∧ s.fetchedOf 0 d.ctag = some f ∧ g ∈ f.olds ∧
        Grant.holds g .capq (d.b 0) = true)) ∧
    (let s := { fetching false with tab.grants := [(0, setImg 0 96 8 0x1F)] }
     s.frozen 0 = false ∧ s.serves ∧ s.fetches 0 = true ∧ (s.grant 0).covers (s.sqAddr 0) 32 = false) ∧ hostF.frozen 0 = true := by
  simp only [State.runs, State.takes, State.serves, Imm, sound_iff]; and_intros <;> decide +kernel

theorem witness_PartitionsAreFrozenAndThawed :
    (∀ n : Fin 5, let d := cmd 0x0B04 0 0 [BitVec.ofNat 8 n]
     host.runs 0 d ∧ host.runs pm d ∧ hostF.runs pm d ∧ Imm 0 d 1 ∧ Imm pm d 1 ∧ d.b 0 = n) ∧
    (host.path pm).dropTags = [] ∧ (hostF.path pm).dropTags = [] ∧ host.frozen 0 = false ∧ hostF.frozen 0 = true ∧ hostF.ringsCovered 0 ∧
    (let s := hostF.setPath 0 { hostF.path 0 with ready := [reply0 6 0], done := [reply0 5 0] }
     s.runs pm (cmd 0x0B04 0 0 [0]) ∧ s.frozen 0 = true ∧ s.ringsCovered 0 ∧ (s.path pm).dropTags = [] ∧ s.linked 0 = true ∧
     s.cqTail 0 < s.cqSize 0 ∧ s.cqHead 0 < s.cqSize 0 ∧ s.cqSize 0 ≤ 4096 ∧
     (s.grant 0).covers ((s.rgp 0 R.cqBaseLo).toNat + (s.rgp 0 R.cqBaseHi).toNat * 2 ^ 32) (16 * s.cqSize 0) = true ∧
     (∀ r ∈ (s.path 0).ready ++ (s.path 0).done, r.out = []) ∧
     ((s.path 0).ready.map (·.tag) ++ (s.path 0).done.map (·.tag)).length ≤ s.cqRoom 0) ∧
    (let s : State := { hostF with cmd.linkUp := [(0, false)] }
     s.runs pm (cmd 0x0B04 0 0 [0]) ∧ s.frozen 0 = true ∧ s.ringsCovered 0 ∧ s.linked 0 = false) := by
  simp only [State.runs, State.serves, State.ringsCovered, Imm, sound_iff]; and_intros <;> decide +kernel

theorem witness_LogAndCaptureCommands :
    (∀ i : Fin 2, let d := cmd 0x0803 8 0 [0xFF * BitVec.ofNat 8 i, 0x0F * BitVec.ofNat 8 i, if i = 0 then 1 else 128, 0] 4096
     up.runs pm d ∧ Sound pm d ∧ d.mouldFlag = false ∧ d.len = 4 ∧ d.indirect = true ∧ d.outPtr ≠ 0 ∧ d.le 0 2 < 4096 ∧ 1 ≤ d.le 2 2 ∧
       d.le 2 2 ≤ 128 ∧ ((List.range (d.le 2 2)).flatMap (fun k => up.entryBytes pm ((d.le 0 2 + k) % 4096))).length ≤ d.outLen.toNat) ∧
    (∀ m : Fin 2, let d := cmd 0x0802 8 0 [0, 0] 4
     let s := up.setBt R.chkMode 0 (m == 1)
     s.runs pm d ∧ Sound pm d ∧ d.mouldFlag = false ∧ d.len = 2 ∧ d.indirect = true ∧ d.outPtr ≠ 0 ∧ d.le 0 2 < 2 ^ 14 ∧
       s.bt R.chkMode 0 = (m == 1) ∧
       4 * (((List.range 14).filter (fun b => (d.le 0 2).testBit b)).flatMap (fun b => s.chkEnter.blockRegs pm b)).length ≤ d.outLen.toNat) ∧
    (let d := cmd 0x0804 0 0 [0, 0]
     up.runs pm d ∧ up.runs 0 d ∧ Sound pm d ∧ Sound 0 d ∧ d.len = 2 ∧ d.mouldFlag = false ∧ d.b 0 ≠ 2) ∧
    (∀ n ∈ [(1 : Byte), 2], let d := cmd 0x0804 0 0 [2, n]
     up.runs pm d ∧ Sound pm d ∧ d.len = 2 ∧ d.mouldFlag = false ∧ d.b 0 = 2 ∧ up.logger = false ∧ d.b 1 = n.toNat) ∧
    (let d := cmd 0x0601 0 0 [63]
     let c : CapQ := { head := [{ data := 0, tag := 0 }], begun := 1, writing := [{ data := 0, tag := 0x80 }] }
     let s := up.setCapq 63 c
     let f : Frame := { id := 3, complete := true, acct := acctCapture }
     let t := { up.setCapq 63 { c with writes := some 3 } with fwd.frames := [f] }
     s.runs pm d ∧ t.runs pm d ∧ Sound pm d ∧ d.len = 1 ∧ d.mouldFlag = false ∧ d.b 0 < 64 ∧ s.holds pm .capq (d.b 0) = true ∧
       (s.capq 63).writes = none ∧ 0 < (s.capq 63).begun ∧ (t.capq 63).writes = some f.id ∧ t.frame f.id = some f ∧ f.acct = acctCapture ∧
       t.holds pm .capq (d.b 0) = true) := by
  simp only [State.runs, State.serves, sound_iff, List.forall_mem_cons, List.forall_mem_nil]; and_intros <;> decide +kernel

/-- The wake-up pin WAKE_IN0 may wake, and asserts where `a`. -/
def waking (a : Bool) : State := (up.setBt R.wakEnLo 16 true).setBt R.wakAssert 16 a

theorem witness_SleepCommandsAnswer :
    (let d := cmd 0x0701 0 0 [2, 0, 0x10, 0x27, 0, 0, 0, 0]
     Imm 0 d 8 ∧ Imm pm d 8 ∧ d.b 1 = 0 ∧ d.le 6 2 = 0 ∧ up.runs 0 d ∧ up.slp.cmd = none ∧ (d.b 0 = 1 ∨ d.b 0 = 2) ∧ d.le 2 2 = 10000 ∧
     d.le 4 2 ≤ 10000 ∧
     (let s := (up.setRg R.wakEnHi 0).setRg R.wakEnLo 0
      s.runs pm d ∧ s.slp.cmd = none ∧ ∀ i, i < 38 → s.wakeEnabled i = false) ∧
     (let s := (waking false).setMould pm (some { sealed := true })
      s.runs pm d ∧ s.slp.cmd = none ∧ s.wakeEnabled 16 = true ∧ s.sealed_ pm = true) ∧
     (∀ a : Bool, let s := waking a
      s.runs pm d ∧ s.slp.cmd = none ∧ s.wakeEnabled 16 = true ∧ s.pwr = pwRun ∧ s.cmd.pours = [] ∧
        (∀ p : Part, (s.path p).fetched = [] ∧ s.sealed_ p = false) ∧
        (a = true → s.asserts 16 = true ∧ s.wakeMasked 16 = false) ∧
        (a = false → ∀ i, i < 24 → ¬ (s.asserts i = true ∧ s.wakeEnabled i = true ∧ s.wakeMasked i = false)))) ∧
    (let d := cmd 0x0702 0 5 []
     let f : Fetched := { desc := d, started := true, latched := true }
     let s := up.setPath pm { up.path pm with fetched := [f] }
     let t := s.setRg R.wakCauseHi (2 ^ (wakeSource pm - 32))
     let u : State := { t.setRg R.wakCauseLo 1 with slp.tick := [(0, 3), (wakeSource pm, 5)] }
     Imm pm d 0 ∧ up.runs pm d ∧ up.fetchedOf pm d.ctag = none ∧
       s.runs pm d ∧ s.fetchedOf pm d.ctag = some f ∧ f.latched = true ∧ s.latched (wakeSource pm) = false ∧
       t.runs pm d ∧ t.fetchedOf pm d.ctag = some f ∧ t.latched (wakeSource pm) = true ∧
       (∀ i, i < 38 → i ≠ wakeSource pm → t.latched i = false) ∧
       u.runs pm d ∧ u.fetchedOf pm d.ctag = some f ∧ u.latched (wakeSource pm) = true ∧ u.latched 0 = true ∧
       ¬ (kvGet 0 u.slp.tick (wakeSource pm)).toNat < (kvGet 0 u.slp.tick 0).toNat) ∧
    (let d := cmd 0x0703 8 0 [] 336
     up.runs pm d ∧ Sound pm d ∧ d.len = 0 ∧ Takes d 336) := by
  simp only [State.runs, State.serves, Imm, sound_iff, Takes]; and_intros <;> decide +kernel

theorem witness_SpiTransactionsAnswer : up.spiReady = true ∧ up.bootDone = true ∧ up.haltOpen = false ∧ up.pins.hiZ = false ∧
    up.pins.shutdown = false ∧ up.pwr = pwRun ∧ (up.path pm).sq.length + (up.path pm).latchedPush.length < 63 ∧ (up.path pm).cq = [] ∧
    (let s := up.setPath pm { up.path pm with cq := [(reply0 63 0, true)] }
     s.spiReady = true ∧ s.haltOpen = false ∧ (s.path pm).cq = [(reply0 63 0, true)]) ∧ (zeros 32).length = 32 ∧
    (let s := up.setPath pm { up.path pm with sq := List.replicate 63 (zeros 32) }
     s.spiReady = true ∧ s.bootDone = true ∧ s.haltOpen = false ∧ s.pins.hiZ = false ∧ s.pins.shutdown = false ∧ s.pwr = pwRun ∧
       63 ≤ (s.path pm).sq.length + (s.path pm).latchedPush.length) := by
  and_intros <;> decide +kernel

theorem witness_RegisterReadsReturnTheRegister : (0 : Part) ≠ pm ∧ up.takes 0 ∧ registerShape 0 4 = true ∧
    up.readReach 0 0 0 = .ok ∧ up.readReach 0 0 0x00FF_FFFC = .absent ∧ registerShape 0x00FF_FFFC 4 = true ∧
    ((regInfo up.logger (R.ethCnt 15 0)).map RegInfo.half).getD .plain = .lo ∧
    ((regInfo up.logger (R.ethCnt 15 0 + 4)).map RegInfo.half).getD .plain = .hi ∧
    ((regInfo up.logger 0).map RegInfo.half).getD .plain = .plain ∧ (0 / 0x10_0000) ∉ [0x1, 0x3, 0x5, 0x8, 0xA, 0xB] ∧
    up.takes pm ∧ target pm 0x1FF_FFFC = some (0, 0x1FF_FFFC) ∧ inPmWord 0x1FF_FFFC = false ∧ inSlotData 0x1FF_FFFC = false ∧
    host.takes 0 ∧ host.readReach 0 0 0x1A_0000 = .violation ∧ registerShape 0 8 = true := by
  simp only [State.takes]; and_intros <;> decide +kernel

theorem witness_RegisterWritesKeepTheirAccess : (0 : Part) ≠ pm ∧ up.takes 0 ∧ up.takes pm ∧ registerShape 0 4 = true ∧ registerShape 0 8 = true ∧
    target 0 R.fwdDefault = some (0, R.fwdDefault) ∧
    up.writeReach 0 0 0 = .noEffect ∧ up.writeReach 0 0 0x00FF_FFFC = .absent ∧ up.writeReach 0 0 0x90_0008 = .violation ∧
    up.writeReach 0 0 R.tsuStatus = .logged 0x0206 ∧ up.frozen 0 = false ∧ hostF.writeReach 0 0 R.fwdDefault = .ok ∧
    hostF.writeReach 0 0 R.tsuStatus = .logged 0x0206 ∧ hostF.takes 0 ∧ hostF.frozen 0 = true ∧
    (let off := R.mdioReg 3
     target pm (4 * 2 ^ 26 + off) = some (pm, off) ∧ inPmWord off = false ∧ inSlotData off = false ∧ up.writeReach pm pm off = .ok ∧
       up.frozen pm = false ∧ actsOnWrite off = false ∧ ((regInfo up.logger off).getD {}).rwp = 0) ∧
    up.writeReach 0 0 R.fwdDefault = .ok ∧ actsOnWrite R.fwdDefault = false ∧ ((regInfo up.logger R.fwdDefault).getD {}).rwp ≠ 0 ∧
    up.mould 0 = none ∧
    (let s := up.setMould 0 (some {})
     s.takes 0 ∧ s.mould 0 = some {} ∧ s.mouldFull {} = false ∧ s.writeReach 0 0 R.fwdDefault = .ok ∧ s.frozen 0 = false) ∧
    (let s := up.setMould 0 (some { sealed := true })
     s.takes 0 ∧ s.mould 0 = some { sealed := true } ∧ s.writeReach 0 0 R.fwdDefault = .ok ∧ s.frozen 0 = false) := by
  simp only [State.takes]; and_intros <;> decide +kernel

theorem witness_WritesWithoutAMouldAreDiscarded : up.mould 0 = none ∧ R.fwdDefault < 2 ^ 26 ∧ ((regInfo up.logger R.fwdDefault).getD {}).rwp ≠ 0 ∧
    up.writeReach 0 0 R.fwdDefault = .ok ∧ up.frozen 0 = false ∧ actsOnWrite R.fwdDefault = false ∧
    (kvGet [] up.err.fifos 1).length < 16 ∧ up.takes 0 ∧ registerShape R.fwdDefault 4 = true ∧
    up.mould pm = none ∧ up.writeReach pm 0 R.fwdDefault = .ok ∧ up.frozen pm = false ∧ inPmWord R.fwdDefault = false ∧
    inSlotData R.fwdDefault = false := by
  simp only [State.takes]; and_intros <;> decide +kernel

theorem witness_SemaphoresAreTakenAndReleased : up.mayRead 0 (R.sem 63) ∧ up.rgp 0 (R.sem 63) = 1 ∧
    (let s := up.setRgp 0 (R.sem 63) 0
     s.mayRead 0 (R.sem 63) ∧ s.rgp 0 (R.sem 63) = 0 ∧ s.mayWrite 0 R.semRelHi ∧ s.mayWrite 0 R.semRelLo) ∧
    up.linked h0.part = true ∧ up.unreachable = false := by
  simp only [State.mayRead, State.mayWrite, State.takes]; and_intros <;> decide +kernel

theorem witness_MailboxAccessesReachTheSlotData : (0 : Part) ≠ pm ∧ up.takes 0 ∧ hostF.takes 0 ∧ up.frozen 0 = false ∧ hostF.frozen 0 = true ∧
    0x18_0400 ≤ (0x18_0400 : W32).toNat ∧ (0x18_0400 : W32).toNat % 64 + 64 ≤ 64 ∧
    (0x18_05FF : W32).toNat < 0x18_0600 ∧ (0x18_05FF : W32).toNat % 64 + 1 ≤ 64 ∧ (up.slot 0 7).state ≠ slError ∧
    (let s := up.setSlot 0 7 { state := slError }
     s.takes 0 ∧ (s.slot 0 7).state = slError) ∧
    registerShape 0x18_03FE 4 = false ∧ mailboxShape 0x18_03FE 4 = false ∧ registerShape 0x18_0600 1 = false ∧ mailboxShape 0x18_0600 1 = false ∧
    registerShape 0x18_0600 4 = true := by
  simp only [State.takes]; and_intros <;> decide +kernel

/-- An enabled window 31 of P0 on the CAN port C0 (classical frames), C0 UP, slot 7 in a state. -/
def bridge (st : BitVec 2) (c : Option (BitVec 12 × Bool) := none) : State :=
  let s := (((up.setRg (R.canStatus 0) 0).setRg R.admMap 0).setSlot 0 7 { state := st, window := 31, tag := 5, cmd := c })
  { s with tab.windows := [(31, setImg (setImg 0 0 1 0x20) 2 1 8)], tab.grants := [(0, setImg 0 56 16 (2 ^ 0x20))]
           cmd.openReqs := [{ part := 0, window := 31, tag := 5, slot := some 7, write := false }] }

theorem witness_BridgeSlotsRunTheirStates : (bridge slFree).cmd.remoteWait = [] ∧ ((bridge slFree).slot 0 7).cmd = none ∧
    (bridge slFree).mayWrite 0 (0x18_0204 + 0x10 * 7) ∧ (bridge slPending).mayWrite 0 (0x18_0208 + 0x10 * 7) ∧
    ((bridge slFree).slot 0 7).state = slFree ∧ ((bridge slPending).slot 0 7).state ≠ slFree ∧ (bridge slPending).mayWrite 0 (0x18_0204 + 0x10 * 7) ∧
    fld (31 : W32) 4 0 = 31 ∧ wnEnable ((bridge slFree).window 0 31) = true ∧ wnEnable ((bridge slFree).window 0 30) = false ∧
    wnLimit ((bridge slFree).window 0 31) = 4 ∧ fld (31 + 4 * 2 ^ 6 : W32) 11 6 + 1 = 5 ∧ fld (31 + 3 * 2 ^ 6 : W32) 11 6 + 1 = 4 ∧
    (bridge slFree).portState (wnPort ((bridge slFree).window 0 31)) = pUp ∧ bit (1 : W32) 0 = true ∧ (bridge slFree).works ∧
    (let e := (bridge slFree).window 0 31
     (bridge slFree).admits acctLocal ((bridge slFree).admOf (wnTc e)) = true ∧ ((bridge slFree).egOf 0x20).queue (wnTc e) = [] ∧ wnPort e = 0x20 ∧
     (bridge slFree).admOf (wnTc e) = 0 ∧ (bridge slFree).fwd.frames = []) ∧
    ((bridge slReady).slot 0 7).state = slReady ∧ ((bridge slError).slot 0 7).state = slError ∧ (bridge slReady).works ∧ (bridge slError).works ∧
    (bridge slPending).works ∧ ((bridge slPending).slot 0 7).state = slPending ∧
    (∀ c : Bool, let s := bridge slPending (if c then some (9, true) else none)
     s.works ∧ s.cmd.remoteWait = [] ∧ (s.slot 0 7).cmd = (if c then some (9, true) else none) ∧ s.mayWrite 0 (0x18_0208 + 0x10 * 7) ∧
       (s.path 0).dropTags = [] ∧ (s.slot 0 7).state ≠ slFree ∧
       (s.cmd.openReqs.find? (fun r => r.part == 0 && r.window == 31 && r.tag == 5)).map (·.slot) = some (some 7)) := by
  simp only [State.mayWrite, State.takes, State.works]; and_intros <;> decide +kernel

theorem witness_RemoteAccessUsesASlot :
    (∀ w : Fin 2, let d := cmd 0x0B06 0 9 ([31, BitVec.ofNat 8 w, 1 + 3 * BitVec.ofNat 8 w] ++ zeros 13)
     let s := bridge slFree
     s.runs 0 d ∧ Imm 0 d 16 ∧ d.b 3 = 0 ∧ d.le 6 2 = 0 ∧ s.inRemote 0 d.ctag = false ∧ d.b 0 < 32 ∧ d.b 1 ≤ 1 ∧ 1 ≤ d.b 2 ∧ d.b 2 ≤ 8 ∧
       d.b 2 ≤ wnLimit (s.window 0 (d.b 0)) ∧ wnEnable (s.window 0 (d.b 0)) = true ∧ s.holds 0 .port (wnPort (s.window 0 (d.b 0))) = true ∧
       s.retired (wnPort (s.window 0 (d.b 0))) = false ∧ s.freeSlots 0 ≠ [] ∧ s.portState (wnPort (s.window 0 (d.b 0))) = pUp) ∧
    (let d := cmd 0x0B06 0 9 ([31, 0, 4] ++ zeros 13)
     let s : State := { bridge slFree with cmd.slots := (List.range 8).map (fun k => (k, { state := slPending })) }
     let r := (bridge slFree).setBt R.retCanLo 0 true
     s.runs 0 d ∧ s.inRemote 0 d.ctag = false ∧ s.freeSlots 0 = [] ∧ wnEnable (s.window 0 31) = true ∧
       s.holds 0 .port (wnPort (s.window 0 31)) = true ∧ s.retired (wnPort (s.window 0 31)) = false ∧
       r.runs 0 d ∧ r.inRemote 0 d.ctag = false ∧ wnEnable (r.window 0 31) = true ∧ r.holds 0 .port (wnPort (r.window 0 31)) = true ∧
       r.retired (wnPort (r.window 0 31)) = true ∧ (bridge slPending (some (9, false))).runs 0 d ∧
       (bridge slPending (some (9, false))).inRemote 0 d.ctag = true) ∧
    (∀ l ∈ [[(32 : Byte), 0, 8], [31, 2, 8], [31, 0, 9], [31, 0, 0]], let d := cmd 0x0B06 0 9 (l ++ zeros 13)
     (bridge slFree).runs 0 d ∧ Imm 0 d 16 ∧ d.b 3 = 0 ∧ d.le 6 2 = 0 ∧ ¬ (d.b 0 < 32 ∧ d.b 1 ≤ 1 ∧ 1 ≤ d.b 2 ∧ d.b 2 ≤ 8)) ∧
    (∀ n ∈ [(30 : Byte), 31], let d := cmd 0x0B06 0 9 ([n, 0, 5] ++ zeros 13)
     (bridge slFree).runs 0 d ∧ Imm 0 d 16 ∧ d.b 3 = 0 ∧ d.le 6 2 = 0 ∧ d.b 0 < 32 ∧ d.b 1 ≤ 1 ∧ d.b 2 ≤ 8 ∧
       wnEnable ((bridge slFree).window 0 (d.b 0)) = (n == 31) ∧ wnLimit ((bridge slFree).window 0 31) < d.b 2 ∧
       ((bridge slFree).path 0).dropTags = []) := by
  simp only [State.runs, State.serves, Imm, sound_iff, List.forall_mem_cons, List.forall_mem_nil]; and_intros <;> decide +kernel

theorem witness_CrcChannelsFoldTheirBytes : up.mayWrite pm 0x90_0004 ∧ up.mayWrite pm (0x90_0004 + 0x40 * 7) ∧
    (∀ r ∈ [ChkData.lo, .hi, .lo8, .b], up.mayWrite pm ((chkDataOff r).1 + 0x40 * 7)) ∧ up.mayWrite pm (R.chkCfg 7) ∧
    fld (64 : W32) 6 0 = 64 ∧ fld (65 : W32) 6 0 = 65 ∧ fld (1 : W32) 6 0 = 1 ∧ fld (0 : W32) 6 0 = 0 ∧ bit (1 : W32) 0 = true ∧ bit (2 : W32) 0 = false := by
  simp only [State.mayWrite, State.takes, List.forall_mem_cons, List.forall_mem_nil]; and_intros <;> decide +kernel

/-- Turntable 15 in TRACKING and moving up, one revolution past position 0. -/
def turning : List (Nat × Turntable) := [(15, { loops := [{ phi := 2 ^ 32, v := 1 }] })]

theorem witness_PourBoundaryBringsItsItemsIntoForce :
    (∀ b ∈ [Boundary.immediate, .time 0, .phase 15 0], let s : State := { pourState [.dset 1023 1, .tcam 255 1, .pprof 255 1] b true with
       reg.regs := ((upT.setRg (R.ttCpr 15) 1).reg).regs, phw.tts := turning
       cmd.pours := [{ part := pm, tag := 2, irq := false, bound := b, ready := true, mark := some 0 }] }
     s.works ∧ s.cmd.pours.map (·.ready) = [true] ∧ s.cmd.pours.map (·.bound) = [b] ∧ s.cmd.pours.map (·.mark) = [some 0] ∧
       s.movesUp 15 = true ∧ crossCount (s.cpr 15) 0 0 < crossCount (s.cpr 15) (s.phi 15 s.pNs) 0 ∧ s.live.keyStaged = [] ∧
       s.fwd.openPdu = [] ∧ s.cmd.remoteWait = [] ∧ (s.path pm).dropTags = [] ∧ 0 ≤ s.pNs ∧
       (s.cmd.pours.map (fun x => (s.pourItems x).map (·.item.slot))) =
         [[(Item.dset 1023 1).slot, (Item.tcam 255 1).slot, (Item.pprof 255 1).slot]]) ∧
    (Item.dset 1023 1).slot ≠ (Item.tcam 255 1).slot ∧ (Item.dset 1023 1).slot ≠ (Item.pprof 255 1).slot ∧
    (Item.tcam 255 1).slot ≠ (Item.pprof 255 1).slot := by
  simp only [State.works, List.forall_mem_cons, List.forall_mem_nil]; and_intros <;> decide +kernel

/-- A capture word that ends its record. -/
def endWord : CapWord := { data := 0, tag := 0x80 }

/-- A frame of 64 bytes that is whole. -/
def aFrame (ingress : PortCode) : Frame :=
  { id := 3, desc := { ingress := ingress, length := 64 }, bytes := zeros 64, complete := true }

theorem siding_iff (s : State) (q : Nat) : s.sidingSound q ↔ s.channels ≠ [] ∧
    (s.sidingBase q + s.sidingSize q) * 2 ^ 22 ≤ s.channels.length * 2 ^ 34 ∧ (∀ x ∈ (s.capq q).places, x < s.sidingSize q * 57344) ∧
    (s.capq q).places.Nodup ∧ (s.capq q).wr < max 1 (s.sidingSize q * 57344) ∧ (∀ x ∈ (s.capq q).check, x.2.length = 9) :=
  ⟨fun ⟨a, b, c, e, f, g⟩ => ⟨a, b, c, e, f, g⟩, fun ⟨a, b, c, e, f, g⟩ => ⟨a, b, c, e, f, g⟩⟩

/-- Queue 63 of PM, drained by reads, with a word in each of its parts, or empty; its siding is the first 4 MiB of four channels. -/
def capQueue (full close : Bool) : State :=
  let c : CapQ := { head := [endWord], siding := [{ place := 0, last := true }], spilling := [(1, endWord)], tail := [endWord], close := close
                    wr := 2, check := [(0, zeros 9)] }
  (((up.setRg R.capMem 0xF).setRg (R.capSiding 63) 0x1_0000).setCapq 63 (if full then c else {})).setBt (R.capCfg 63) 1 true

theorem witness_CaptureQueuesKeepTheirOrder :
    (∀ b : Bool, let s := capQueue true b
     s.works ∧ s.sidingSound 63 ∧ ((s.capWords 63) ++ (s.capq 63).writing).length < 64 + s.sidingWords 63 ∧ (s.capq 63).close = b ∧
       (s.capq 63).head.length < 32 ∧ s.mayWrite pm (0x80_0040 + 0x100 * 63) ∧ s.capDrain 63 = true ∧ (s.capq 63).head = [endWord]) ∧
    bit (1 : W32) 0 = true ∧ (Ecc.clean ≠ .tag ∧ Ecc.corrected ≠ .tag ∧ Ecc.data ≠ .tag) ∧
    (let c : CapCopy := { frame := 3, seq := 0, stampHi := 0, deferred := false, egress := 0, desc := { length := 64 } }
     let s := { (capQueue false false).setCapq 63 { copies := [c] } with fwd.frames := [aFrame 0] }
     s.works ∧ s.sidingSound 63 ∧ kvGet none s.cap.ladleBusy 7 = none ∧ s.bt R.retDp 27 = false ∧
       rotateFrom (kvGet 63 s.cap.ladleLast 7) ((List.range 64).filter (fun j => s.ladleReady j)) = some 63 ∧
       (s.capq 63).copies = [c] ∧ s.frame 3 = some (aFrame 0) ∧ (s.capq 63).writing = [] ∧
       (s.capWords 63).length + (s.recordWords 63 c (aFrame 0)).length ≤ 64 + s.sidingWords 63) := by
  simp only [State.works, State.mayWrite, State.takes, siding_iff]; and_intros <;> decide +kernel

/-- Queue 63 of P0 with both rings of 2^4 words at address 0, running. -/
def ring : State :=
  let s := ((host.setRg (R.capCfg 63) 1).setRg (R.capRingSz 63) 4).setCapq 63 { head := [endWord] }
  { s with tab.grants := [(0, setImg (setImg 0 48 8 (2 ^ 63)) 96 8 0x10_0000)] }

theorem witness_CaptureQueuesAreReadAndDrained :
    (∀ b : Bool, let s := capQueue b false
     s.mayRead pm (peekOff 63 0) ∧ s.mayRead pm (peekOff 63 14) ∧ s.mayRead pm (peekOff 63 16) ∧ s.capDrain 63 = true ∧
       s.mayWrite pm (0x80_0040 + 0x100 * 63) ∧ (s.capq 63).head = (if b then [endWord] else []) ∧ ((s.capq 63).occ = 0 ↔ b = false) ∧
       (s.capq 63).close = false ∧ (s.capHolder 63 ≠ pm ∨ s.capDrain 63 = true)) ∧
    bit (1 : W32) 0 = true ∧ bit (2 : W32) 0 = false ∧
    up.capDrain 63 = false ∧ up.mayWrite pm (0x80_0040 + 0x100 * 63) ∧ up.mayWrite pm (0x80_001C + 0x100 * 63) ∧ up.mayWrite pm (R.capHrd 63) ∧
    (let s := ring.setRg (R.capHwr 63) 3
     s.mayWrite 0 (R.capHrd 63) ∧ s.capHolder 63 ≠ pm ∧ (s.rg (R.capHwr 63) - 3).toNat ≤ (s.rg (R.capHwr 63) - s.rg (R.capHrd 63)).toNat ∧
       (s.rg (R.capHwr 63) - s.rg (R.capHrd 63)).toNat < (s.rg (R.capHwr 63) - 4).toNat) ∧
    ring.works ∧ ring.dmaRuns 63 = true ∧ ring.wakingBefore 5 = false ∧ (ring.capq 63).head = [endWord] ∧
    (ring.rg (R.capHwr 63) - ring.rg (R.capHrd 63)).toNat < ring.ringWords 63 ∧
    (ring.grant (ring.capHolder 63)).covers (ring.dataBase 63) 64 = true ∧ (ring.grant (ring.capHolder 63)).covers (ring.tagBase 63) 1 = true ∧
    (([] : List Ecc).headD .clean = .clean) := by
  simp only [State.works, State.mayRead, State.mayWrite, State.takes]; and_intros <;> decide +kernel

theorem witness_FaultyUnitsLeaveService : up.works ∧ up.bt R.retDp 3 = false ∧ up.fwd.frames = [] ∧ (∀ e ∈ up.fwd.eg, e.2.commit.bind Commit.slice ≠ some 7) ∧ kvGet none up.cap.ladleBusy 7 = none ∧
    up.bt R.retDp 27 = false ∧ up.bt R.sliceStatus 15 = false ∧ kvGet 0 up.err.spares 7 < 2 ∧ up.faults (.slice 7) = 0 ∧ up.running = true ∧
    (∀ o ∈ [R.ethCnt 15 0, R.ethCnt 15 0 + 4, R.eccCorr], counterReg o = true) ∧
    (let o : PkOp := { part := pm, tag := 1, irq := false, status := 0, result := 0, outAt := 0, out := [], micros := 0 }
     let s : State := { up with cry.work := [{ req := 34, total := 4, bursts := 1, use := .raw o }] }
     s.works ∧ s.bt R.sliceStatus 15 = false ∧ s.faults (.slice 7) = 0) ∧
    (let s := up.countFault (.slice 7)
     s.works ∧ 1 ≤ s.faults (.slice 7) ∧ s.bt R.sliceStatus 15 = false) ∧
    (let s := up.setBt R.sliceStatus 15 true
     s.works ∧ s.bt R.sliceStatus 15 = true) ∧
    (let s := up.setRg R.capMem 0xF
     s.works ∧ s.bt R.capMem 3 = true ∧ s.bt R.capMem 7 = false ∧ kvGet false s.cap.retrain 3 = false) ∧
    (let s : State := { up.setRg R.capMem 0xF with cap.retrain := [(3, true)] }
     s.works ∧ kvGet false s.cap.retrain 3 = true ∧ s.bt R.capMem 7 = false) ∧ up.bt R.capMem 3 = false := by
  simp only [State.works, List.forall_mem_cons, List.forall_mem_nil]; and_intros <;> decide +kernel

theorem witness_ErrorLogTakesReportsInOrder : up.works ∧ kvGet [] up.err.fifos 13 = [] ∧
    (∀ sev : Fin 5, let r : LogEntry := { code := 0x0D02, block := 13, sev := BitVec.ofNat 8 sev }
     let s : State := { up with err.fifos := [(13, [r])], err.log := [(4095, { r with repeat_ := 0xFFFE })] }
     s.works ∧ kvGet [] s.err.fifos 13 = [r] ∧ (s.newestEntry.map (fun x => x.2.same r && decide (x.2.repeat_.toNat + r.repeat_.toNat ≤ 0xFFFF))) = some true) ∧
    (let r : LogEntry := { code := 0x0D02, block := 13 }
     let s : State := { up with err.fifos := [(13, [r])] }
     s.works ∧ kvGet [] s.err.fifos 13 = [r] ∧ s.newestEntry = none) ∧ bit (4 : Byte) 2 = true := by
  simp only [State.works]; and_intros <;> decide +kernel

/-- Work of four bursts, or of one, for the slices. -/
def sliceWork (u : CryptoUse) (b : Nat) : State :=
  { up with cry.work := [{ req := 33, total := 4, bursts := b, use := u }], fwd.frames := [{ id := 3, complete := true }] }

theorem witness_SignalBoxFailsOver : up.works ∧ up.err.sbDead = false ∧ up.bt R.errStatus 2 = false ∧
    (let s := up.setBt R.errStatus 2 true
     s.works ∧ s.err.sbDead = false ∧ s.err.sbFailed = false ∧ s.bt R.errStatus 2 = true) ∧
    (let s : State := { up with err.sbDead := true }
     s.works ∧ s.err.sbDead = true) ∧ up.pick .crypto up.cryptoReady = none ∧
    (∀ u ∈ [CryptoUse.verify 3, .protect 0x0F 3, .raw { part := pm, tag := 1, irq := false, status := 0, result := 0, outAt := 0, out := []
                                                        micros := 0 }],
     (sliceWork u 4).works ∧ (sliceWork u 4).pick .crypto (sliceWork u 4).cryptoReady = some 33 ∧
     (sliceWork u 1).works ∧ (sliceWork u 1).pick .crypto (sliceWork u 1).cryptoReady = some 33 ∧
     (sliceWork u 1).frame 3 = some { id := 3, complete := true }) := by
  simp only [State.works, List.forall_mem_cons, List.forall_mem_nil]; and_intros <;> decide +kernel

theorem witness_EntropyAndKeysAreKept : up.works ∧ up.entropyGone = false ∧ up.faults .entropy = 0 ∧
    (let s := up.setBt R.entStatus 4 true
     s.works ∧ s.entropyGone = true) ∧
    (let s := (up.countFault .entropy).countFault .entropy
     s.works ∧ s.entropyGone = false ∧ 2 ≤ s.faults .entropy) ∧
    (let s : State := up.setBt R.entStatus 0 true
     s.works ∧ s.entropyGone = false ∧ s.cry.entStops = false ∧ s.bt R.entStatus 0 = true) := by
  simp only [State.works]; and_intros <;> decide +kernel

theorem witness_ThermalSamplesMoveTheBand : nextBand 380 0 = 1 ∧ nextBand 367 1 = 0 ∧ nextBand 368 1 = 1 ∧ nextBand 488 0 = 4 ∧
    up.asleep = false ∧ up.wakingBefore 2 = false ∧ up.pins.shutdown = false ∧ up.pins.hiZ = false ∧ State.reset.pins.hiZ = true ∧
    (up.setFd R.pwrState 2 0 pwStandby).asleep = true ∧
    (let s : State := { up.setFd R.pwrState 2 0 pwWaking with slp.stage := 1, slp.recDepth := 1 }
     s.wakingBefore 2 = true) ∧ up.works ∧
    520 ≤ signedOf 12 520 ∧ gateBit (.bank 15) = none ∧ gateBit (.ethLane 15) = some 31 ∧ up.mayGate (.ethLane 15) = true ∧
    (up.setFd (R.ethStatus 15) 2 0 pUp).mayGate (.ethLane 15) = false ∧ (up.setFd (R.ethStatus 15) 2 0 pUp).works := by
  simp only [State.works]; and_intros <;> decide +kernel

/-- Ethernet port E15 in a state, with a mode. -/
def eth (st : Nat) : State := (up.setFd (R.ethMode 15) 3 0 1).setFd (R.ethStatus 15) 2 0 st

theorem witness_EthernetLinksFollowTheirStates : (eth pUp).works ∧ (eth pUp).retired 15 = false ∧ (eth pUp).portsStopped = false ∧
    (eth pUp).cmd.remoteWait = [] ∧ (eth pUp).ethState 15 = pUp ∧ (eth pUp).idlePort 15 ∧ (eth pUp).faults (.lane 15) < 3 ∧
    (eth pDown).works ∧ (eth pDown).retired 15 = false ∧ (eth pDown).portsStopped = false ∧ (eth pDown).ethModeNo 15 ≠ 0 ∧
    (eth pDown).ethState 15 ≠ pTraining ∧ (eth pDown).ethState 15 ≠ pUp ∧ (eth pDown).ethState 15 ≠ pDisabled ∧
    up.works ∧ up.retired 15 = false ∧ up.portsStopped = false ∧ up.ethState 15 = pDisabled ∧
    (∀ b : Bool, let s := ((eth pTraining).setBt (R.ethMode 15) 6 b).setBt (R.gteCfg 15) 16 b
     s.works ∧ s.retired 15 = false ∧ s.portsStopped = false ∧ s.ethState 15 = pTraining ∧ s.ethInband 15 = b ∧ s.phyPoll 15 = false ∧
       s.bt (R.gteCfg 15) 16 = b ∧ s.faults (.lane 15) < 3) ∧
    (let s := ((eth pTraining).setBt (R.ethMode 15) 13 true).setBt (R.ethStatus 15) 6 true
     s.works ∧ s.retired 15 = false ∧ s.portsStopped = false ∧ s.ethState 15 = pTraining ∧ s.phyPoll 15 = true ∧ s.bt (R.ethStatus 15) 6 = true) ∧
    ((eth pUp).lane 15).retune = false := by
  simp only [State.works, State.mayWrite, State.takes, State.idlePort]; and_intros <;> decide +kernel

theorem witness_EthernetLinksFollowTheirStates_buses :
    (∀ b : Bool, let s : State := { eth pDown with lnk.lanes := [(15, { retune := true, change := b })] }
     s.works ∧ s.retired 15 = false ∧ s.portsStopped = false ∧ (s.lane 15).retune = true ∧ (s.lane 15).change = b ∧ s.ethState 15 ≠ pUp) ∧
    (∀ k : Fin 3, let s := (eth pUp).setEg 15 { mmTries := k.val + 1 }
     s.works ∧ s.retired 15 = false ∧ s.portsStopped = false ∧ s.portUp 15 = true ∧ s.bt (R.gteCfg 15) 16 = false ∧ (s.egOf 15).mmReplied = false ∧
       1 ≤ (s.egOf 15).mmTries ∧ (s.egOf 15).mmTries ≤ 3) ∧
    (let s := (eth pUp).setBt (R.ethMode 15) 13 true
     let x : MdioReq := { who := .poll, port := 15, dev := 1, reg := 1, read := true, data := 0 }
     let t : State := { s with lnk.mdio := [(3, [x])] }
     s.works ∧ s.retired 15 = false ∧ s.portsStopped = false ∧ s.phyPoll 15 = true ∧ s.ethModeNo 15 ≠ 0 ∧ s.fd (R.mdioCfg 3) 23 16 ≤ 1 ∧ s.mdioQ (15 / 4) = [] ∧
       t.works ∧ t.phyPoll 15 = true ∧ t.mdioQ (15 / 4) = [x] ∧ t.ethModeNo 15 ≠ 0 ∧ bit (4 : BitVec 16) 2 = true ∧
       (let u := t.setFd (R.ethStatus 15) 2 0 pDown
        u.works ∧ u.phyPoll 15 = true ∧ u.mdioQ (15 / 4) = [x] ∧ u.ethState 15 ≠ pUp)) ∧
    up.works ∧ up.retired 15 = false ∧ up.portsStopped = false ∧ up.phyPoll 15 = false ∧ 0 < up.fd (R.mdioCfg 3) 23 16 ∧
    up.mayWrite pm (R.mdioAcc 3) ∧ bit (0x8001_0000 : W32) 31 = true ∧ bit (up.rgp pm (R.mdioAcc 3)) 31 = false ∧
    up.holds pm .port (4 * 3 + fld (up.rgp pm (R.mdioReg 3)) 22 21) = true ∧ up.mdioQ 3 = [] ∧
    (∀ r : Bool, let x : MdioReq := { who := .part pm, port := 15, dev := 1, reg := 2, read := r, data := 0 }
     let s : State := { up with lnk.mdio := [(3, [x, x])] }
     s.works ∧ s.mdioQ 3 = x :: [x] ∧ x.who = .part pm ∧ x.read = r ∧ s.retired 15 = false ∧ s.portsStopped = false ∧
       s.mayWrite pm (R.mdioAcc 3) ∧ bit (s.rgp pm (R.mdioAcc 3)) 31 = false ∧
       s.holds pm .port (4 * 3 + fld (s.rgp pm (R.mdioReg 3)) 22 21) = true) := by
  simp only [State.works, State.mayWrite, State.takes, State.idlePort]; and_intros <;> decide +kernel

theorem witness_BusPortsFollowTheirStates : up.works ∧ up.portsStopped = false ∧ up.cmd.remoteWait = [] ∧
    (∀ f : Bool, let s := ((up.setFd (R.t1sStatus 7) 2 0 pDown).setBt (R.t1sCfg 7) 0 true).setRg (R.t1sPlca 7) (if f then 0x1F_0001 else 0)
     s.works ∧ s.t1sState 7 = pDown ∧ s.bt (R.t1sCfg 7) 0 = true ∧ s.t1sFollower 7 = f) ∧
    (let s := (up.setFd (R.t1sStatus 7) 2 0 pUp).setRg (R.t1sPlca 7) 0x1F_0001
     s.works ∧ s.t1sState 7 = pUp ∧ s.t1sFollower 7 = true ∧ s.idlePort (0x10 + 7)) ∧ up.t1sState 7 ≠ pUp ∧
    (let s := up.setRg (R.canStatus 47) 0
     s.works ∧ s.portUp (0x20 + 47) = true ∧ s.idlePort (0x20 + 47)) ∧ up.portUp (0x20 + 47) = false ∧
    (∀ b : Bool, let s := (up.setRg (R.canStatus 47) 0x2_0000).setBt (R.canCfg 47) 5 b
     s.works ∧ s.canState 47 = 2 ∧ s.retired (0x20 + 47) = false ∧ s.bt (R.canCfg 47) 5 = b) ∧
    (let s := up.setFd (R.linCfg 23) 1 0 1
     s.works ∧ s.fd (R.linCfg 23) 1 0 = 1 ∧ s.portUp (0x50 + 23) = true ∧ (s.egOf (0x50 + 23)).tx = none ∧ (s.lin 23).inserted = [] ∧
       s.linEnabled 23 0 = false) ∧
    (let s := (up.setFd (R.linCfg 23) 1 0 1).setBt (R.linSlot 23 0) 16 true
     s.works ∧ s.linEnabled 23 0 = true ∧ s.linReady (0x50 + 23) (BitVec.ofNat 8 (linPid (s.fd (R.linSlot 23 0) 5 0))) = []) ∧
    (let s : State := { up.setFd (R.linCfg 23) 1 0 1 with lnk.lin := [(23, { inserted := [(0x80, true)] })] }
     s.works ∧ s.portUp (0x50 + 23) = true ∧ (s.lin 23).inserted = [(0x80, true)] ∧ s.linReady (0x50 + 23) 0x80 = []) ∧
    (let s := (up.setFd (R.linCfg 23) 1 0 2).setFd (R.linCfg 23) 30 16 19200
     s.works ∧ s.fd (R.linCfg 23) 1 0 = 2 ∧ s.portUp (0x50 + 23) = true ∧ (s.egOf (0x50 + 23)).tx = none ∧ s.fd (R.linCfg 23) 30 16 = 19200 ∧
       s.linReady (0x50 + 23) 0x80 = [] ∧ 15 * 19200 < 100 * (max 22081 19200 - min 22081 19200) ∧
       100 * (max 22080 19200 - min 22080 19200) ≤ 15 * 19200) ∧
    (let s : State := { up with lnk.lin := [(23, { header := some 0x80 })] }
     s.works ∧ (s.lin 23).header ≠ none ∧ (up.lin 23).header = none) ∧
    (∀ p : Fin 2, let s := ((up.setRg (R.frCfg 1) 0x39).setFd (R.frStatus 1) 2 0 (3 + p.val)).setFd (R.frNode 1) 10 0 2047
     s.works ∧ s.portUp 0x6B = true ∧ (s.fd (R.frStatus 1) 2 0 = 3 ↔ p = 0) ∧ s.fd (R.frCfg 1) 1 0 = 1 ∧ s.bt (R.frCfg 1) 5 = true ∧
       (s.egOf 0x6B).tx = none ∧ s.frBuffersOf 0x6B 2047 = [] ∧ s.bt (R.frCfg 1) 3 = true ∧ s.fd (R.frNode 1) 10 0 = 2047 ∧
       s.idlePort 0x6A ∧ s.idlePort 0x6B ∧ s.retired 0x6A = false ∧ s.fd (R.frCfg 1) 1 0 ≠ 0) ∧ up.portUp 0x6B = false ∧ up.frStartup 1 2047 = false ∧
    (let s := ((up.setRg (R.frCfg 1) 0x3D).setFd (R.frStatus 1) 2 0 2).setFd (R.frNode 1) 10 0 2047
     s.works ∧ s.portUp 0x6B = false ∧ s.fd (R.frCfg 1) 1 0 = 1 ∧ s.bt (R.frCfg 1) 5 = true ∧ s.frStartup 1 2047 = true) ∧
    (let s := (((up.setRg (R.frCfg 1) 0x39).setFd (R.frStatus 1) 2 0 3).setFd (R.frStatic 1) 9 0 1023).setRg (R.frMbCfg 1 127) 0x33FF
     let t : State := { s with lnk.frWait := [(3 * 128 + 127, some { frame := 3, port := 0x6B })] }
     t.works ∧ t.portUp 0x6B = true ∧ t.fd (R.frStatus 1) 2 0 = 3 ∧ (t.egOf 0x6B).tx = none ∧ t.fd (R.frNode 1) 10 0 ≠ 1023 ∧
       1023 ≤ t.fd (R.frStatic 1) 9 0 ∧ t.frSlotBuffer 1 1 63 1023 = some 127 ∧
       kvGet none t.lnk.frWait ((0x6B - 0x68) * 128 + 127) = some { frame := 3, port := 0x6B }) ∧
    isBus 0x70 = false ∧ isS 0x70 = false ∧ isC 0x4F = true ∧ up.retired 0x4F = false ∧ up.idlePort 0x4F ∧ up.boundsOf 0x4F = [] ∧ up.faults (.busPort 0x4F) = 0 ∧
    (up.setBt R.retCanHi 15 true).retired 0x4F = true ∧ (up.setBt R.retCanHi 15 true).works := by
  simp only [State.works, State.idlePort]; and_intros <;> decide +kernel

/-- Domain B in a state. -/
def dom (st : Nat) : State := (up.setFd (R.domStatus 1) 2 0 st).setBt (R.domCfg 1) 0 true

theorem witness_TimeDomainsKeepPresentedTime : up.works ∧ up.domState 1 ≠ domLocked ∧ (dom domLocked).works ∧ (dom domLocked).domState 1 = domLocked ∧
    (dom domFault).works ∧ (dom domFault).domState 1 = domFault ∧ ((dom domFault).dom 1).pllLost = false ∧
    (let s := (dom domLocked).setFd R.tsuCtl 1 0 2
     s.works ∧ 2 ≤ s.fd R.tsuCtl 1 0 ∧ s.domState s.tsel ≠ domLocked ∧ s.domState (1 - s.tsel) = domLocked) ∧
    (let s := (((dom domLocked).setFd R.tsuCtl 1 0 2).setFd (R.domStatus 0) 2 0 domLocked).setBt R.tsuCtl 2 false
     s.works ∧ 2 ≤ s.fd R.tsuCtl 1 0 ∧ s.domState s.tsel = domLocked ∧ s.bt R.tsuCtl 2 = false) ∧
    ((dom domLocked).setFd R.tsuCtl 1 0 1).fd R.tsuCtl 1 0 < 2 ∧
    up.portUp 15 = false ∧ (eth pUp).works ∧ (eth pUp).portUp 15 = true ∧ (eth pUp).cmlds 15 = false ∧
    ((eth pUp).domEn 1 && (eth pUp).gptpPortOf 15 1 && (eth pUp).isMaster 1 15) = false ∧
    (let s := (((eth pUp).setRg (R.tsuPort 15) 10).setBt (R.domCfg 1) 0 true).setFd (R.domCfg 1) 3 2 2
     s.works ∧ s.portUp 15 = true ∧ s.cmlds 15 = true ∧ s.domEn 1 = true ∧ s.gptpPortOf 15 1 = true ∧ s.isMaster 1 15 = true) ∧
    up.bt (R.ppsCfg 3) 0 = false ∧
    (let s := up.setBt (R.ppsCfg 3) 0 true
     s.works ∧ s.bt (R.ppsCfg 3) 0 = true ∧ (s.pps 3).edge = none ∧ (s.pps 3).nextLabel = none) ∧
    (let e : PpsEdge := { at_ := 0 }
     let s : State := { up.setBt (R.ppsCfg 3) 0 true with tsu.pps := [(3, { edge := some e })], tsu.dom := [(0, { ns := 998999996 })] }
     s.works ∧ s.bt (R.ppsCfg 3) 0 = true ∧ (s.pps 3).edge = some e ∧ e.at_.toNat + 4 ≤ s.pNs ∧ s.pNs + 4 ≤ e.at_.toNat + 999000000 ∧
       s.pNs + 8 < 2 ^ 64) := by
  simp only [State.works]; and_intros <;> decide +kernel

/-- The sentence port N3 is selected for ZDA and UP, at a time after 1970. -/
def zda : State := { (up.setRg R.senout 7).setRg (R.senCfg 3) 1 with tsu.dom := [(0, { ns := 100000000000 })] }

theorem witness_TimeDomainsKeepPresentedTime_zda : up.works ∧ up.bt R.senout 0 = false ∧ zda.works ∧ zda.bt R.senout 0 = true ∧ 0 ≤ zda.utcSec ∧
    zda.fd R.senout 2 1 = 3 ∧ zda.portUp (0x6C + 3) = true ∧ (zda.egOf (0x6C + 3)).tx = none ∧ zda.admits acctLocal (zda.admOf 7) = true ∧
    zda.fwd.frames = [] ∧
    (let s := zda.setEg 0x6F { tx := some { copy := { frame := 3, port := 0x6F }, start := 0 } }
     s.works ∧ s.bt R.senout 0 = true ∧ 0 ≤ s.utcSec ∧ s.fd R.senout 2 1 = 3 ∧ s.portUp (0x6C + 3) = true ∧ (s.egOf (0x6C + 3)).tx ≠ none) ∧
    (let s : State := { zda with tsu.dom := [(0, {})] }
     s.setRg R.utc 37 |>.works) ∧ ({ zda.setRg R.utc 37 with tsu.dom := [(0, {})] } : State).utcSec < 0 := by
  simp only [State.works]; and_intros <;> decide +kernel

theorem witness_TimeDomainsKeepPresentedTime_leaps : up.works ∧ up.leaps = [] ∧
    (∀ k : Fin 2, let s := (up.setRg R.utc 0).setRg R.utcNext (BitVec.ofNat 32 ((k.val + 1) * 2 ^ 24))
     let l : Leap := { insert := k == 0, day := 0, late := false }
     s.works ∧ s.leaps = [l] ∧ s.utcSec < (0 + 1) * 86400 - 1 ∧
       (∀ n ∈ [86398, 86399, 86400, 86401], let u : State := { s with tsu.dom := [(0, { ns := BitVec.ofNat 64 (n * 1000000000) })] }
        u.works ∧ u.utcSec = n ∧ (u.leaps.find? (fun l => l.late || decide ((l.day + 1) * 86400 + (if l.insert then 1 else -1) ≤ u.utcSec))).isSome =
          decide (86400 + (if k = 0 then 1 else -1) ≤ (n : Int))) ∧
       (let v : State := { s with tsu.leapLate := true }
        v.works ∧ v.leaps = [{ l with late := true }])) ∧
    (let s : State := { up.setRg R.utc 0x100 with tsu.dom := [(0, { ns := 86401000000000, leap61 := true })] }
     s.works ∧ s.announcedLeap = some { insert := true, day := 0, late := false } ∧ s.leaps = [{ insert := true, day := 0, late := false }] ∧
       s.utcSec = 86401) := by
  simp only [State.works, List.forall_mem_cons, List.forall_mem_nil]; and_intros <;> decide +kernel

/-- Turntable 15 in a state, with 2 counted edges to acquire, in a mode. -/
def table (st mode : Nat) : State :=
  (((up.setFd (R.ttStatus 15) 1 0 st).setFd (R.ttCfg 15) 2 1 mode).setBt (R.ttCfg 15) 0 true).setFd (R.ttCfg 15) 23 16 2

theorem witness_PhaseHardwareFollowsItsInputs : up.works ∧ up.ttState 15 = ttOff ∧ up.bt (R.ttCfg 15) 0 = false ∧
    (∀ b : Bool, let s : State := { table ttOff 0 with phw.tts := if b then [(15, { idxPend := some 0 })] else [] }
     s.works ∧ s.ttState 15 = ttOff ∧ s.bt (R.ttCfg 15) 0 = true ∧ 2 ≤ s.fd (R.ttCfg 15) 23 16 ∧ ((s.tt 15).idxPend = none ↔ b = false)) ∧
    (∀ m : Fin 3, let s : State := { table ttTracking m with phw.tts := [(15, { first := false, lastEdge := some 0 })] }
     s.works ∧ s.ttState 15 ≠ ttOff ∧ (s.tt 15).first = false ∧ (s.tt 15).idxPend = none ∧ s.ttMode 15 = m ∧ s.ttState 15 = ttTracking ∧
       s.ttState 15 ≠ ttAcquire ∧ 2 ≤ s.fd (R.ttCfg 15) 23 16 ∧ (s.tt 15).lastEdge = some 0) ∧
    (∀ m : Fin 3, let s : State := { table ttAcquire m with phw.tts := [(15, { first := false })] }
     s.works ∧ s.ttState 15 ≠ ttOff ∧ s.ttState 15 ≠ ttTracking ∧ (s.tt 15).first = false ∧ (s.tt 15).idxPend = none ∧ s.ttMode 15 = m ∧
       s.ttState 15 = ttAcquire) ∧
    (table ttTracking 0).works ∧ (table ttTracking 0).idxOn 15 = false ∧ (table ttTracking 2).works ∧ (table ttTracking 2).idxOn 15 = true := by
  simp only [State.works]; and_intros <;> decide +kernel

/-- Trigger 31 on turntable 15, which is `turning` through fraction 0, in a direction, the pulse active where `a`. -/
def trigger (dir : Nat) (a : Bool) : State :=
  { ((((upT.setRg (R.ttCpr 15) 1).setFd (R.trgCfg 31) 5 2 15).setBt (R.trgCfg 31) 0 true).setFd (R.trgCfg 31) 7 6 dir).setBt (R.trgStat 31) 0 a with
    phw.tts := turning }

theorem witness_PhaseHardwareFollowsItsInputs_triggers :
    (∀ a : Bool, ∀ dir : Fin 3, let s := trigger dir a
     let rev := nearestRev (s.turns 15 (s.phi 15 (s.pNs + s.fd (R.trgCfg 31) 29 20))) (s.fd (R.trgTgt 31) 23 0)
     s.works ∧ s.fd (R.trgCfg 31) 5 2 = 15 ∧ s.bt (R.trgCfg 31) 0 = true ∧ s.bt (R.trgCfg 31) 1 = false ∧ s.ttState 15 = ttTracking ∧
       s.fd (R.trgCfg 31) 7 6 = dir ∧ decide (s.velocity 15 < 0) = false ∧ (rev, false) ∉ (s.trg 31).seen ∧ rev = 1 ∧
       s.bt (R.trgStat 31) 0 = a ∧
       (rev % 2 ^ (s.fd (R.trgCfg 31) 11 9)).toNat = s.fd (R.trgCfg 31) 18 12 % 2 ^ s.fd (R.trgCfg 31) 11 9 ∧
       (let u := (s.setFd (R.trgCfg 31) 11 9 1).setFd (R.trgCfg 31) 18 12 0
        (rev % 2 ^ (u.fd (R.trgCfg 31) 11 9)).toNat ≠ u.fd (R.trgCfg 31) 18 12 % 2 ^ u.fd (R.trgCfg 31) 11 9)) ∧
    (∀ b : Bool, let s := ((up.setRg (R.trgCfg 31) 3).setBt (R.trgStat 31) 0 b).setRg (R.trgPeriod 31) 1000
     let t : State := { s with phw.trgs := [(31, { seen := [(0, false)] })] }
     s.works ∧ s.bt (R.trgCfg 31) 0 = true ∧ s.bt (R.trgCfg 31) 1 = true ∧ s.bt (R.trgStat 31) 0 = b ∧ (s.rg (R.trgPeriod 31)).toNat = 1000 ∧
       (s.rg (R.trgBaseLo 31)).toNat = 0 ∧ (s.rg (R.trgBaseHi 31)).toNat = 0 ∧ s.fd (R.trgCfg 31) 29 20 = 0 ∧ s.pNs = 0 ∧
       ((0 : Int), false) ∉ (s.trg 31).seen ∧ t.works ∧ ((0 : Int), false) ∈ (t.trg 31).seen ∧
       (let u : State := { s with tsu.dom := [(0, { ns := 500 })] }
        u.works ∧ u.pNs = 500)) ∧ (∀ k : Nat, ¬ (0 + k * 1000 ≤ 500 + 0 + 3 ∧ 500 + 0 ≤ 0 + k * 1000 + 3)) ∧ up.bt (R.trgCfg 31) 0 = false := by
  simp only [State.works, List.forall_mem_cons, List.forall_mem_nil]; and_intros; · decide +kernel
  · decide +kernel
  · intro k; omega
  · decide +kernel

/-- A port E15 at 25 Gbit/s with a timetable from source `src`, in force or pending, of one entry that holds; 400 bytes of a preemptable
frame of 1,500 bytes are sent where `tx`. -/
def gated (src : Nat) (moving tx : Bool) : State :=
  let g : Timetable := { header := BitVec.ofNat 256 (1 + 2 * src + 8 * 15 + 2 ^ 16 + 2 ^ 62), entries := [0x0000_0001_0000_01FF] }
  let x : Tx := { copy := { frame := 3, port := 0x0F, len := 1500, express := false }, start := 1149440 }
  { ((((((up.setFd (R.ethMode 15) 3 0 1).setFd (R.ethStatus 15) 2 0 pUp).setBt (R.gteStatus 15) 10 true).setBt (R.gteStatus 15) 12 true).setBt
      (R.gteStatus 15) 13 true).setFd (R.ttStatus 15) 1 0 ttTracking).setRg (R.ttCpr 15) 1 with
    tab.gates := [(15, g)], live.gatePend := [(15, g)], phw.tts := if moving then turning else [], tsu.dom := [(0, { ns := 1280 })]
    fwd.eg := if tx then [(15, { tx := some x })] else [] }

theorem witness_PhaseHardwareFollowsItsInputs_gates :
    (∀ src : Fin 4, ∀ m : Bool, let s := gated src m m
     s.works ∧ s.bt (R.gteStatus 15) 10 = true ∧ s.bt (R.gteStatus 15) 12 = true ∧ ttbSrc (s.gateOf 15) = src ∧ ttbTt (s.gateOf 15) = 15 ∧
       ttbSrc (s.gatePending 15) = src ∧ ttbTt (s.gatePending 15) = 15 ∧ s.movesUp 15 = m ∧ s.startCrossed 15 0 ∉ s.seenStarts 15 ∧
       s.fd (R.gteStatus 15) 9 0 = 0 ∧ runCount (s.gateOf 15) = 1 ∧ ((s.egOf 15).tx = none ↔ m = false) ∧
       entOp ((s.gateOf 15).entries.getD 0 0) = 1 ∧ s.bt (R.gteStatus 15) 13 = true ∧
       (∀ y ∈ (s.egOf 15).tx.toList, s.preemptable 15 y = true ∧ s.legalPoint 15 y ≠ none)) ∧
    (let s := gated 3 true false
     let t : State := { s with phw.gateSeen := [(15, [s.startCrossed 15 0])] }
     t.works ∧ t.bt (R.gteStatus 15) 10 = true ∧ ttbSrc (t.gateOf 15) = 3 ∧ t.startCrossed 15 0 ∈ t.seenStarts 15) ∧
    up.works ∧ up.bt (R.gteStatus 15) 10 = false ∧ up.bt (R.gteStatus 15) 12 = false := by
  simp only [State.works]; and_intros <;> decide +kernel

/-- Ports that received a start of frame, all UP: E15, T1S 7, C47, L23, F1B and N3. -/
def rxState : State :=
  let s := (((eth pUp).setFd (R.t1sStatus 7) 2 0 pUp).setRg (R.canStatus 47) 0).setFd (R.linCfg 23) 1 0 1
  let t := s.setFd (R.frStatus 1) 2 0 3
  { t with fwd.bounds := [(0x0F, [{}]), (0x17, [{}]), (0x4F, [{}]), (0x67, [{}]), (0x6B, [{}]), (0x6F, [{}])] }

theorem witness_FramesEnterThroughTheirPorts : up.works ∧ rxState.works ∧ mediaCode 0x70 = false ∧ mediaCode 0x6F = true ∧ up.receives 0x0F = false ∧
    up.portUp 0x0F = false ∧
    (∀ c ∈ [0x0F, 0x17, 0x4F, 0x67, 0x6B, 0x6F], mediaCode c = true ∧ rxState.receives c = true ∧ rxState.boundsOf c = [{}]) ∧
    rxState.intakeOn = true ∧ up.intakeOn = true ∧ (up.setFd R.pwrState 2 0 pwWaking).intakeOn = false ∧
    isES 0x18 = false ∧ isES 0x17 = true ∧ isE 0x17 = false ∧ isE 0x0F = true ∧ beAt ((zeros 12 ++ [0x88, 0x08]) ++ zeros 46) 12 2 = 0x8808 ∧
    beAt (zeros 60) 12 2 ≠ 0x8808 ∧ (zeros 60).length ≤ maxFrame ∧ rxState.portUp 0x0F = true ∧ rxState.portUp 0x17 = true ∧
    rxState.admits (acctOf 0x0F) (fld (rxState.intakeClass 0x0F (parseEth (rxState.verifyRx 0x0F (zeros 60)).2)) 4 3) = true ∧
    rxState.admits (acctOf 0x17) (fld (rxState.intakeClass 0x17 (parseEth (zeros 60))) 4 3) = true ∧
    rxState.frame rxState.fwd.nextFrame = none ∧
    (let s : State := { rxState with fwd.acctG := [(15, 2 ^ 20)], fwd.acctS := [(15, 2 ^ 20)] }
     s.works ∧ s.portUp 0x0F = true ∧ s.boundsOf 0x0F = [{}] ∧
       s.admits (acctOf 0x0F) (fld (s.intakeClass 0x0F (parseEth (s.verifyRx 0x0F (zeros 60)).2)) 4 3) = false) ∧
    up.rxOf 0x0F = [] ∧ up.boundsOf 0x4F = [] ∧ isBus 0x4F = true ∧ isC 0x4F = true ∧ isL 0x67 = true ∧ isF 0x6B = true ∧ isN 0x6F = true ∧
    isBus 0x17 = false ∧ isBus 0x0F = false ∧ isS 0x0F = false ∧ isS 0x17 = true := by
  simp only [State.works, List.forall_mem_cons, List.forall_mem_nil]; and_intros <;> decide +kernel

theorem witness_FramesEnterThroughTheirPorts_ends :
    (∀ b : Bool, ∀ len ∈ [63, 64], let x : RxFrame := { frame := if b then some 3 else none, len := len }
     let s : State := { rxState.setRx 0x0F [x] with fwd.frames := [{ aFrame 0x0F with complete := false }] }
     s.works ∧ s.rxOf 0x0F = [] ++ [x] ∧ decide (x.len < 64 ∨ s.ethMaxLen 0x0F < x.len) = decide (len = 63) ∧ (s.frame 3).isSome = true ∧
       (∀ m : EPort, (s.lane m).retune = false)) ∧
    (let x : RxFrame := { frame := some 3, len := 64 }
     let s : State := { rxState.setRx 0x17 [x] with fwd.frames := [{ aFrame 0x17 with complete := false }] }
     s.works ∧ s.rxOf 0x17 = [] ++ [x] ∧ (s.frame 3).isSome = true ∧ (∀ m : EPort, (s.lane m).retune = false)) ∧
    (∀ k : Fin 3, let s := rxState.setEg 0x0F { mmTries := k.val + 1 }
     s.works ∧ s.portUp 0x0F = true ∧ 1 ≤ (s.egOf 0x0F).mmTries ∧ (s.egOf 0x0F).mmTries ≤ 3) ∧
    (rxState.setFd (R.ethMode 15) 5 4 1).works ∧ (rxState.setFd (R.ethMode 15) 5 4 1).ethFec 15 = 1 ∧ rxState.ethFec 15 = 0 ∧
    mediumLen 0x4F 0 0 = true ∧ mediumLen 0x4F 0 1 = false ∧ mediumLen 0x67 0 8 = true ∧ mediumLen 0x67 0 9 = false ∧
    mediumLen 0x6B 0 64 = true ∧ mediumLen 0x6B 0 65 = false ∧ mediumLen 0x6F 0 82 = true ∧ mediumLen 0x6F 0 83 = false ∧
    (∀ c ∈ [(0x4F, 0), (0x67, 8), (0x6B, 64), (0x6F, 82)], let l := zeros c.2
     l.length ≤ maxFrame ∧ rxState.frame rxState.fwd.nextFrame = none ∧ isBus c.1 = true ∧
       rxState.admits (acctOf c.1) (fld (rxState.intakeClass c.1 (parseEth l)) 4 3) = true) := by
  simp only [State.works, List.forall_mem_cons, List.forall_mem_nil]; and_intros <;> decide +kernel

/-- A copy of the whole frame 3 for a port. -/
def aCopy (c : PortCode) : Copy := { frame := 3, port := c }

/-- A port UP, with the copy of frame 3 at the head of queue 7. -/
def queued (c : PortCode) : State :=
  { rxState.setFd (R.canCfg 47) 1 0 1 with fwd.frames := [aFrame 0], fwd.eg := [(c.toNat, { queues := [(7, [aCopy c])] })] }

/-- A port UP that sends the copy of frame 3. -/
def sending (c : PortCode) : State :=
  { rxState with fwd.frames := [aFrame 0], fwd.eg := [(c.toNat, { tx := some { copy := aCopy c, start := 0 } })] }

/-- E15 with MACsec, and a usable transmit SA in slot 5 where `sa`; the copy of frame 3 heads queue 7, asking for a one-step stamp where `l`. -/
def protecting (sa l : Bool) : State :=
  let s := (queued 0x0F).setBt (R.cryPort 15) 2 true
  { s.setEg 0x0F { queues := [(7, [{ aCopy 0x0F with locked := l }])] } with
    tab.keys := if sa then [(5, setImg (setImg 0 0 4 (2 + 2 ^ 30)) 4 1 15)] else [], live.saState := [(5, 1)] }

/-- E15 sends 400 bytes of a preemptable frame of `len` bytes, and an express copy heads queue 7. -/
def beside (len : Nat) : State :=
  let x : Tx := { copy := { frame := 3, port := 0x0F, len := len, express := false }, start := 1149440 }
  let s := ((queued 0x0F).setBt (R.gteStatus 15) 13 true).setEg 0x0F { queues := [(7, [aCopy 0x0F])], tx := some x }
  { s with tsu.dom := [(0, { ns := 1280 })] }

theorem witness_EgressPortsSendOneCopyAtATime : up.works ∧ up.cmd.remoteWait = [] ∧ mediaCode 0x70 = false ∧ up.ethOpen 0x0F = false ∧
    up.canTake 0x4F = false ∧
    (let s := sending 0x0F
     s.works ∧ s.ethOpen 0x0F = true ∧ s.contest 0x0F = none) ∧
    (let s := rxState.setEg 0x0F {}
     s.works ∧ s.ethOpen 0x0F = true ∧ s.contest 0x0F = some false ∧ s.pick (.eth 15) (s.ethReady 0x0F false (s.lineFree 0x0F)) = none) ∧
    (let s := queued 0x0F
     s.works ∧ s.ethOpen 0x0F = true ∧ s.contest 0x0F = some false ∧ (s.egOf 0x0F).tx = none ∧ (s.egOf 0x0F).commit = none ∧
       (s.egOf 0x0F).next = none ∧ s.protectsFrame 0x0F (aFrame 0) = false ∧
       s.pick (.eth 15) (s.ethReady 0x0F false (s.lineFree 0x0F)) = some 0 ∧
       (s.egOf 0x0F).queue (7 - 0) = aCopy 0x0F :: [] ∧ s.frame 3 = some (aFrame 0) ∧ (aCopy 0x0F).locked = false ∧
       (let t := s.setEg 0x0F { queues := [(7, [aCopy 0x0F])], commit := some { copy := aCopy 0x0F, tc := 5 } }
        t.works ∧ t.ethOpen 0x0F = true ∧ t.contest 0x0F = some false ∧ (t.egOf 0x0F).commit.isSome = true)) ∧
    (∀ sa l : Bool, let s := protecting sa l
     s.works ∧ s.ethOpen 0x0F = true ∧ s.contest 0x0F = some false ∧ (s.egOf 0x0F).tx = none ∧ (s.egOf 0x0F).commit = none ∧
       (s.egOf 0x0F).next = none ∧ s.protectsFrame 0x0F (aFrame 0) = true ∧ (s.takePn 0x0F).1.isSome = sa ∧
       s.pick (.eth 15) (s.ethReady 0x0F false (s.lineFree 0x0F)) = some 0 ∧ ((s.egOf 0x0F).queue (7 - 0)).map (·.locked) = [l] ∧
       s.qualifies 0x0F (s.oneStepLen 0x0F (aFrame 0) (aCopy 0x0F)) true = true) ∧
    (∀ k : Bool, let s := beside (if k then 1500 else 450)
     s.works ∧ s.ethOpen 0x0F = true ∧ s.contest 0x0F = some true ∧ (s.egOf 0x0F).commit = none ∧ (s.egOf 0x0F).next = none ∧
       s.pick (.eth 15) (s.ethReady 0x0F true (s.lineFree 0x0F)) = some 0 ∧ s.protectsFrame 0x0F (aFrame 0) = false ∧
       ((s.egOf 0x0F).tx.map (fun y => s.legalPoint 0x0F y)) = some (if k then some 448 else none)) := by
  simp only [State.works]; and_intros <;> decide +kernel

theorem witness_EgressPortsSendOneCopyAtATime_other :
    (∀ c ∈ ([0x17, 0x4F, 0x6B, 0x6F] : List PortCode), let s := queued c
     s.works ∧ s.canTake c.toNat = true ∧ s.pick (.other c) ((List.range 8).filter (fun i => s.otherReady c.toNat (7 - i))) = some 0 ∧
       (s.egOf c.toNat).queue (7 - 0) = aCopy c :: [] ∧ s.frame 3 = some (aFrame 0) ∧ isE c.toNat = false ∧ mediaCode c.toNat = true ∧
       (isC c.toNat = true → canType (aFrame 0).hslot ≤ s.fd (R.canCfg (c.toNat - 0x20)) 3 2 ∧ (aFrame 0).fromQx = false)) ∧
    (let s : State := { queued 0x4F with fwd.frames := [aFrame 0x70] }
     s.works ∧ s.canTake 0x4F = true ∧ s.pick (.other 0x4F) ((List.range 8).filter (fun i => s.otherReady 0x4F (7 - i))) = some 0 ∧
       (s.frame 3).map Frame.fromQx = some true ∧ (s.protectBus 0x4F 0 (zeros 64)).1.toOption.isSome = true) ∧
    (let s : State := { queued 0x4F with fwd.frames := [{ aFrame 0 with hslot := setImg 0 4 1 1 }] }
     s.works ∧ s.canTake 0x4F = true ∧ s.pick (.other 0x4F) ((List.range 8).filter (fun i => s.otherReady 0x4F (7 - i))) = some 0 ∧
       s.fd (R.canCfg 47) 3 2 < canType (setImg 0 4 1 1)) ∧
    (let s := queued 0x6B
     let t := (s.setFd (R.frStatic 1) 25 20 32).setRg (R.frMbCfg 1 127) 0x3000
     s.frBuffer 0x6B 0 0 = none ∧ t.works ∧ t.canTake 0x6B = true ∧ t.frBuffer 0x6B 0 0 = some 127 ∧ t.frFits 0x6B 127 0 64 = true ∧
       t.pick (.other 0x6B) ((List.range 8).filter (fun i => t.otherReady 0x6B (7 - i))) = some 0) ∧
    (up.egOf 0x0F).tx = none ∧
    (∀ c ∈ ([0x0F, 0x17, 0x4F, 0x67, 0x6B, 0x6F] : List PortCode), let s := sending c
     s.works ∧ mediaCode c.toNat = true ∧ (s.egOf c.toNat).tx = some { copy := aCopy c, start := 0 } ∧ s.frame 3 = some (aFrame 0) ∧
       (aFrame 0).complete = true ∧ s.protecting c 3 = false ∧ (s.lane c.toNat).retune = false ∧ s.cmd.remoteWait = [] ∧ s.tsu.zdaWait = none) ∧
    (let s : State := { sending 0x0F with cry.work := [{ req := 31, total := 1, bursts := 1, use := .protect 0x0F 3 }] }
     s.works ∧ (s.egOf 0x0F).tx = some { copy := aCopy 0x0F, start := 0 } ∧ s.frame 3 = some (aFrame 0) ∧ s.protecting 0x0F 3 = true) ∧
    (∀ b : Bool, let s := (sending 0x4F).setBt (R.canCfg 47) 6 b
     s.works ∧ isC (0x4F : PortCode).toNat = true ∧ s.bt (R.canCfg 47) 6 = b ∧ (aCopy 0x4F).port = 0x4F) ∧
    (let x : Tx := { copy := aCopy 0x0F, start := 0, sent := 64, frags := 1 }
     let s := rxState.setEg 0x0F { preempted := some x }
     let t := rxState.setEg 0x0F { preempted := some x, tx := some { copy := aCopy 0x0F, start := 0 } }
     s.works ∧ (s.egOf 0x0F).preempted = some x ∧ (s.egOf 0x0F).tx = none ∧ (s.egOf 0x0F).next = none ∧ (s.egOf 0x0F).commit = none ∧
       s.holdNow 0x0F = false ∧ s.portUp 0x0F = true ∧ s.ethReady 0x0F true (s.lineFree 0x0F) = [] ∧ t.works ∧
       (t.egOf 0x0F).preempted = some x ∧ (t.egOf 0x0F).tx ≠ none) ∧
    (∀ b : Bool, let m : Commit := { copy := aCopy 0x0F, tc := 5, launched := b }
     let s : State := { rxState.setEg 0x0F { commit := some m } with fwd.frames := [aFrame 0] }
     s.works ∧ (s.egOf 0x0F).commit = some m ∧ (s.egOf 0x0F).tx = none ∧ s.frame 3 = some (aFrame 0) ∧
       isE (aFrame 0).desc.ingress.toNat = true) ∧
    (∀ e : Bool, let h : Copy := { aCopy 0x0F with adm := 3, shaped := some true }
     let s : State := { (rxState.setRg (R.admPol 0) (if e then 0x400 else 0)).setEg 0x0F
       { queues := [(0, [h])], shapers := [(3, { used := true, level := 0 })] } with fwd.frames := [aFrame 0] }
     s.works ∧ (s.egOf 0x0F).queue 0 = [h] ∧ h.shaped = some true ∧ s.shaperLevel 0x0F 3 ≤ 0 ∧ h.locked = false ∧ s.polExc h.adm = e ∧
       s.frame 3 = some (aFrame 0)) := by
  simp only [State.works, List.forall_mem_cons, List.forall_mem_nil]; and_intros <;> decide +kernel

theorem witness_ArbitersEnginesAndStreamsGoOn : up.works ∧ (∀ c, c < 0x70 → up.tunHead c = none) ∧
    (∀ k : Fin 2, let x : TunCopy := { frame := 3, wrap := true, port := 0x6F }
     let f : Frame := { aFrame 0x4F with banks := List.replicate (k.val + 1) 0 }
     let s : State := { up with fwd.frames := [f], fwd.tunQ := [x] }
     s.works ∧ s.pick .tunnel ((List.range 0x70).filter (fun c => (s.tunHead c).isSome)) = some 0x6F ∧ s.tunHead 0x6F = some (x, f) ∧
       (x.taken + 1 < f.banks.length ↔ k = 1)) ∧
    up.fwd.openPdu.find? (fun x => x.1 == 1023) = none ∧
    (let s : State := { up with fwd.openPdu := [(1023, {})] }
     s.works ∧ (s.fwd.openPdu.find? (fun x => x.1 == 1023)).isSome = true) ∧
    (up.egOf 15).commit = none ∧
    (∀ k : Option (Fin 8), let m : Commit := { copy := aCopy 0x0F, tc := 5, slice := k.map Fin.val }
     let s := up.setEg 15 { commit := some m }
     s.works ∧ (s.egOf 15).commit = some m ∧ m.launched = false ∧ s.lockedSlices.length = (if k.isSome then 1 else 0)) ∧
    (let m : Commit := { copy := aCopy 0x0F, tc := 5, launched := true }
     let s := up.setEg 15 { commit := some m, tx := some { copy := { aCopy 0x0F with locked := true }, start := 0 } }
     s.works ∧ (s.egOf 15).commit = some m ∧ ((s.egOf 15).tx.map (·.copy.locked)) = some true ∧ (s.lane 15).retune = false) ∧
    up.lockedSlices = [] ∧ up.lockOwner = none ∧
    (let s : State := { host with cmd.box := some { part := 0, tag := 7, words := 2 } }
     s.works ∧ s.lockOwner = some 0 ∧ (0 : Part) ≠ pm ∧ s.frozen 0 = false) ∧
    (∀ b : Bool, let d := cmd 0x010F 0 0 [if b then 0 else 0xFF, if b then 0x10 else 0x0F]
     up.runs pm d ∧ Imm pm d 2 ∧ d.le 0 2 = if b then 4096 else 4095) ∧
    (let s : State := { up.setFd R.streamCfg 15 0 1 with live.streams := [(4095, { used := true })] }
     let t : State := { s with cmd.pours := [{ part := pm, tag := 2, irq := false, bound := .immediate, ready := true, pins := [4095] }] }
     s.works ∧ (s.stream 4095).used = true ∧ (s.stream 4095).pinned = false ∧ s.fd R.streamCfg 15 0 ≠ 0 ∧ 4095 ∉ s.keptRecords ∧
       t.works ∧ 4095 ∈ t.keptRecords) ∧ (up.stream 4095).used = false := by
  simp only [State.runs, State.works, State.serves, Imm, sound_iff]; and_intros <;> decide +kernel

/-- The block in a power state, at a step of its sequence. -/
def power (st stage : Nat) : State := { up.setFd R.pwrState 2 0 st with slp.stage := stage, slp.cmd := some (9, false) }

theorem witness_SleepAndWakeKeepTheirOrder : up.works ∧ up.pwr = pwRun ∧ (power pwEntry 3).works ∧ (power pwEntry 3).pwr = pwEntry ∧
    (power pwEntry 3).slp.stage = 3 ∧ (power pwEntry 3).slp.cmd = some (9, false) ∧ ((power pwEntry 3).path pm).dropTags = [] ∧
    (∀ n : EPort, (power pwEntry 3).bt (R.tc10Cfg n) 0 = false) ∧ up.tc10Waits 15 = false ∧
    (let s := (power pwEntry 3).setBt (R.tc10Cfg 15) 0 true
     s.works ∧ s.pwr = pwEntry ∧ s.slp.stage = 3 ∧ s.slp.cmd = some (9, false) ∧ (s.path pm).dropTags = [] ∧ s.bt (R.tc10Cfg 15) 0 = true) ∧
    (∀ k ∈ [14, 15, 16], let x : MdioReq := { who := .tc10Read, port := 15, dev := 0, reg := 1, read := true, data := 0 }
     let s : State := { (power pwEntry 4).setFd R.tc10Reg 28 21 0x10 with slp.tc10 := [(15, k)], lnk.mdio := [(3, [x])] }
     s.works ∧ s.tc10Waits 15 = true ∧ s.mdioQ 3 = [x] ∧ x.who = .tc10Read ∧ x.port = (15 : EPort).val ∧ s.pwr = pwEntry ∧ s.slp.stage = 4 ∧
       s.slp.tc10 = [(15, k)] ∧ s.tc10Reads 15 = k ∧ s.slp.cmd = some (9, false) ∧ (s.path pm).dropTags = [] ∧
       bit (0 : BitVec 16) (s.fd R.tc10Reg 24 21) = false ∧ bit (0 : BitVec 16) (s.fd R.tc10Reg 28 25) = false ∧
       bit (1 : BitVec 16) (s.fd R.tc10Reg 24 21) = true ∧ bit (2 : BitVec 16) (s.fd R.tc10Reg 28 25) = true) ∧
    (power pwEntry 6).works ∧ (power pwEntry 6).pwr = pwEntry ∧ (power pwEntry 6).slp.stage = 6 ∧ (power pwEntry 6).slp.mask = 0 ∧
    (power pwEntry 6).slp.depth ≠ 2 ∧
    (let s : State := { power pwEntry 6 with slp.mask := 1 }
     s.works ∧ s.pwr = pwEntry ∧ s.slp.stage = 6 ∧ s.slp.mask ≠ 0 ∧ s.slp.depth ≠ 2) := by
  simp only [State.works, List.forall_mem_cons, List.forall_mem_nil]; and_intros <;> decide +kernel

theorem witness_SleepAndWakeKeepTheirOrder_wakes :
    (∀ src ∈ [0, 15, 16, 23, 24, 31, 37], ∀ st ∈ [pwStandby, pwDeep],
      let s := (((power st 0).setRg R.wakEnLo 0xFFFF_FFFF).setRg R.wakEnHi 0x3F).setFd R.pwrTimer 23 0 1
      s.pins.hiZ = false ∧ s.pins.shutdown = false ∧ s.wakes src = true ∧ s.latched src = false ∧ s.pwr = st ∧ s.fd R.pwrTimer 23 0 ≠ 0) ∧
    (∀ n ∈ [0, 15], let s := (((power pwStandby 0).setRg R.wakEnLo 0xFFFF_FFFF).setRg R.wakEnHi 0x3F).setRg (R.cwCfg n) 3
     let f : WakeFrame := { ok := true, fd := false, rtr := false, ide := false, ident := 0, dlc := 0, data := [] }
     s.pins.hiZ = false ∧ s.pins.shutdown = false ∧ s.wakes n = true ∧ s.latched n = false ∧ s.pwr = pwStandby ∧ f.ok = true ∧ f.fd = false ∧
       s.bt (R.cwCfg n) 0 = true ∧ s.bt (R.cwCfg n) 1 = true ∧ s.bt (R.cwStat n) 6 = false ∧ s.retired (0x20 + n) = false ∧
       s.wakeMatch n f = true ∧ ({ f with ok := false } : WakeFrame).ok = false) ∧
    (∀ k : Fin 6, let s : State := { power pwWaking (k.val + 1) with slp.recDepth := 1 }
     s.pwr = pwWaking ∧ s.slp.recDepth = 1 ∧ s.unreachable = false ∧ s.slp.stage = k.val + 1) ∧
    (let s : State := { ((power pwWaking 2).setBt (R.domCfg 1) 0 true).setFd (R.domStatus 1) 2 0 domLocked with slp.recDepth := 1 }
     s.pwr = pwWaking ∧ s.slp.recDepth = 1 ∧ s.unreachable = false ∧ s.slp.stage = 2 ∧ s.domEn 1 = true ∧ s.domState 1 = domLocked) ∧
    (let s : State := { (power pwWaking 5).setFd (R.canCfg 47) 1 0 1 with slp.recDepth := 1 }
     s.pwr = pwWaking ∧ s.slp.recDepth = 1 ∧ s.unreachable = false ∧ s.slp.stage = 5 ∧ s.fd (R.canCfg 47) 1 0 ≠ 0) ∧
    up.works ∧ up.asserting = true ∧ (waking true).asserts 16 = true ∧ (waking true).asserting = true ∧ (waking true).works ∧
    up.asserts 16 = false ∧ (power pwWaking 3).works ∧ (power pwWaking 3).asserting = false ∧
    up.bt (R.winCfg 0) 0 = false ∧ (up.setBt (R.winCfg 0) 0 true).works ∧ (up.setBt (R.winCfg 0) 0 true).bt (R.winCfg 0) 0 = true := by
  simp only [State.works, List.forall_mem_cons, List.forall_mem_nil]; and_intros <;> decide +kernel

/-- The start at step `n`. -/
def starting (n : Nat) : State := { ({ State.reset with pins.hiZ := false }.setFd R.bootStatus 3 0 n) with pins.bootFault := true }

/-- The end of a step: a result, and an image. -/
def stepEnd (r : StepRes) (image : List Byte) : BootEnd := { res := r, units := 0, gib := ⟨#[8, 8, 0, 0], rfl⟩, values := [], dp := 0, image := image }

/-- An image that is authentic cannot be written out here: the hash of its key is a fuse (Config.keyHash). That steps 4 and 10 with such an
image go on is witnessed from the image's records on. -/
theorem witness_ResetsAndStartsFollowTheLedger : State.reset.pins.hiZ = true ∧ up.pins.hiZ = false ∧ up.pins.shutdown = false ∧ up.pwr ≠ pwDeep ∧
    (up.setFd R.pwrState 2 0 pwDeep).pwr = pwDeep ∧ up.hardHalt = false ∧
    (let s : State := { starting 3 with pins.halted := true }
     s.hardHalt = true) ∧
    up.mayWrite pm 0xC0_0014 ∧ fld (0xFFFF_5AFE : W32) 15 0 = 0x5AFE ∧ fld (0x5AFF : W32) 15 0 ≠ 0x5AFE ∧
    (let s : State := { starting 3 with boot.restart := true }
     s.boot.restart = true ∧ s.pins.hiZ = false ∧ s.pins.shutdown = false) ∧
    up.boot.restart = false ∧ up.mayWrite pm 0xC0_0010 ∧
    (let s : State := { up with boot.opened := true, boot.sectA := [0] }
     s.mayWrite pm 0xC0_0010 ∧ s.boot.opened = true ∧ s.boot.sector = [] ++ [0]) ∧ up.stepping = false ∧
    up.works ∧ up.boot.erasing = false ∧
    (let s : State := { up with boot.erasing := true }
     s.works ∧ s.boot.erasing = true) := by
  simp only [State.works, State.mayWrite, State.takes]; and_intros <;> decide +kernel

theorem witness_ResetsAndStartsFollowTheLedger_steps :
    (∀ n : Fin 10, let s := starting (n.val + 1)
      s.stepping = true ∧ s.bootStep = n.val + 1 ∧ s.levelOf (n.val + 1) = 0 ∧ s.levelOf (n.val + 2) = 0 ∧ s.boot.sectA = [] ∧ s.boot.sectB = [] ∧
      s.endsSo (n.val + 1) (stepEnd .pass []) = true) ∧
    (starting 10).endsSo 10 (stepEnd .degraded []) = false ∧ (starting 7).endsSo 7 { stepEnd .pass [] with units := BitVec.allOnes 24 } = false ∧
    (let s : State := { starting 5 with boot.level := [(5, 1)] }
     s.stepping = true ∧ s.bootStep = 5 ∧ s.endsSo 5 (stepEnd .degraded []) = true ∧ s.levelOf 6 = 0) ∧
    imageBody false [] = .error bootMalformed ∧ routeRecords false [] = .error bootMalformed ∧ (starting 4).bootStep = 4 ∧
    [].all (recFormed (starting 10).logger) = true ∧
    ((pourImage (starting 10) []).toOption.map State.pwr) = some pwRun ∧ pwRun ≠ pwWaking ∧
    (pourImage (starting 10) [.stage pm 0x0102 (0 :: zeros 15)]).toOption.isNone = true ∧
    [ImageRec.stage pm 0x0102 (zeros 16)].all (recFormed (starting 10).logger) = true := by
  and_intros <;> decide +kernel

/-! ### Well-formedness: one ill-formed term for each check -/

/-- The descriptor of a NOP spells NOP, and no other row (R273, R279). -/
theorem test_wf_opcode : (Instr.nop 0 (cmd 0x0801 0 0 [])).wf = true ∧ (Instr.nop 0 (cmd 0x0802 0 0 [])).wf = false ∧
    (Instr.pour 0 (cmd 0x0801 0 0 [])).wf = false := by decide

/-- plen names as many bytes as the descriptor carries (R273, R275). -/
theorem test_wf_params : (Instr.keyErase 0 (cmd 0x0502 2 0 [1, 0])).wf = true ∧
    (Instr.keyErase 0 { cmd 0x0502 2 0 [1, 0] with plen := 3 }).wf = false ∧
    (Instr.keyErase 0 { cmd 0x0502 10 0 [1, 0] with plen := 1 }).wf = false := by decide

/-- The inline form has no pointers (R273). -/
theorem test_wf_inline : (Instr.nop 0 { cmd 0x0801 0 0 [] with outPtr := 1 }).wf = false ∧
    (Instr.nop 0 { cmd 0x0801 0 0 [] with rsv := 1 }).wf = false := by decide

/-- Register accesses are of 4 bytes aligned to 4, or 8 aligned to 8. -/
theorem test_wf_address : (Instr.registerRead 0 4 false).wf = true ∧ (Instr.registerRead 0 2 false).wf = false ∧
    (Instr.registerRead 0 4 true).wf = false ∧ (Instr.registerWrite 0 4 0 true).wf = false ∧ (Instr.rwpWrite 0 6 0 false).wf = false ∧
    (Instr.rocRead 0 1).wf = false ∧ (Instr.counterLoRead 0 4 true).wf = false := by decide

/-- Descriptors are 32 bytes, SPI transfers 1 to 16 words, a link width a byte. -/
theorem test_wf_lengths : (Instr.commandFetch 0 (zeros 31) []).wf = false ∧ (Instr.commandFetch 0 (zeros 32) []).wf = true ∧
    (Instr.spiRead 0 0 true).wf = false ∧ (Instr.spiRead 0 17 true).wf = false ∧ (Instr.spiRead 0 16 true).wf = true ∧
    (Instr.spiWrite 0 [] true).wf = false ∧ (Instr.spiPush (zeros 33) true).wf = false ∧ (Instr.hostLinkUp 0 256).wf = false := by decide

/-- A register access is no mailbox access, and a mailbox write carries as many bytes as it names. -/
theorem test_wf_mailbox : (Instr.mailboxAccess 0 0x18_0400 4 none).wf = true ∧ (Instr.mailboxAccess 0 0x18_0600 4 none).wf = false ∧
    (Instr.mailboxAccess 0 0x18_0400 0 none).wf = false ∧ (Instr.mailboxAccess 0 0x18_0400 2 (some [1])).wf = false := by decide

/-- Frames and media events name a port of their medium (R18). -/
theorem test_wf_ports : (Instr.frameBoundary 0x70).wf = false ∧ (Instr.frameIntake 0x20 [0]).wf = false ∧ (Instr.frameIntake 0 []).wf = false ∧
    (Instr.frameIntake 0x17 [0]).wf = true ∧ (Instr.frameEnd 0x20 .good).wf = false ∧ (Instr.busFrameHandover 0 0 []).wf = false ∧
    (Instr.busReceiveError 0 .crc).wf = false ∧ (Instr.egressGrant 0x70).wf = false ∧ (Instr.egressTxComplete 0x18 .done).wf = false ∧
    (Instr.shaperWaitExpire 0x20 0).wf = false ∧ (Instr.busCtrlFault 0x0F).wf = false := by decide

/-- Arbiters, watched units and slice work name ports that have them. -/
theorem test_wf_units : (Instr.arbiterWindowStart (.other 0x0F)).wf = false ∧ (Instr.lockedSequenceTimeout (.other 0x70)).wf = false ∧
    (Instr.retryWindowClose (.busPort 0)).wf = false ∧ (Instr.sliceControlFault 0 (.verify 0x70)).wf = false := by decide

/-- A wake frame has at most 8 bytes and, without ide, an 11-bit identifier; a region of stored values holds at most 4,092 bytes. -/
theorem test_wf_wake_image :
    (let f : WakeFrame := { ok := true, fd := false, rtr := false, ide := false, ident := 0x7FF, dlc := 8, data := zeros 8 }
     (Instr.canWakeFrame 0 f 0).wf = true ∧ (Instr.canWakeFrame 0 { f with data := zeros 9 } 0).wf = false ∧
       (Instr.canWakeFrame 0 { f with ident := 0x800 } 0).wf = false) ∧ (Instr.bootStepEnd { stepEnd .pass [] with values := zeros 4092 }).wf = true ∧
    (Instr.bootStepEnd { stepEnd .pass [] with values := zeros 4093 }).wf = false := by
  decide +kernel

/-! ### Values that the rules of spec/ write out -/

/-- No word spells a command: no row of the table has bits. -/
theorem test_decode_none : decodeTableWord 32 0 = none ∧ (up.withFetchWord 32 0).pending = [] := by decide

/-- The example of R124 to R127: CRC-32C over 123456789, suspended after 1234, is 0xE306_9283. -/
theorem test_crc_suspended :
    Nat.xor (reflect 32 (crcFold 32 0x1EDC_6F41 true (crcFold 32 0x1EDC_6F41 true 0xFFFF_FFFF [0x31, 0x32, 0x33, 0x34])
      [0x35, 0x36, 0x37, 0x38, 0x39])) 0xFFFF_FFFF = 0xE306_9283 := by decide +kernel

/-- The example of R233: with tfv = 1, W = 16 and F = 0x0000_0001_23FE, r = 0x03 is accepted and F becomes 0x0000_0001_2403; then
r = 0xF0 is 237 beyond and is dropped under REPLAY. -/
theorem test_freshness :
    (let e : Node := setImg (setImg (setImg 0 0 8 0x20) 8 6 0x1_23FE) 19 1 16
     let s : State := { up with tab.nodes := [(10476, some e)] }
     s.freshIn e 8 3 = some 0x1_2403 ∧ ((s.setFresh e 0x1_2403).nodeAt 10476).map ndFresh = some 0x1_2403) ∧
    (let e : Node := setImg (setImg (setImg 0 0 8 0x20) 8 6 0x1_2403) 19 1 16
     let s : State := { up with tab.nodes := [(10476, some e)] }
     reconstruct 0x1_2403 8 0xF0 = 0x1_2403 + 237 ∧ s.freshIn e 8 0xF0 = none) := by decide +kernel

/-- The example of R191 to R193: at 1,735,166,791.878 s with TAI−UTC = 37 the calendar reads 0x059C_07E8 and 0x06DD_6B76. -/
theorem test_calendar :
    let s : State := { up.setFd R.utc 7 0 37 with tsu.dom := [(0, { ns := 1735166791878000000 })] }
    s.calDateNow = 0x059C_07E8 ∧ s.calTimeNow = 0x06DD_6B76 := by decide +kernel

/-- An RMC date 290200 is possible under pivot 0 and names an impossible day under pivot 30; 2400-02-29 is possible. -/
theorem test_rmc_date :
    up.possible { year := up.windowYear 0, month := 2, day := 29 } 0 0 0 = true ∧
    (let s := up.setFd R.pivot 6 0 30
     s.possible { year := s.windowYear 0, month := 2, day := 29 } 0 0 0 = false) ∧
    up.possible { year := 2400, month := 2, day := 29 } 0 0 0 = true := by decide +kernel

/-- The example of the capture record: 100 bytes give three words with tags 0x00, 0x00 and 0x64, and header bytes 48 to 63 as
written there; with snap = 1 two words, the last with tag 0x40. -/
theorem test_capture_record :
    (let c : CapCopy := { frame := 3, seq := 0x1234, stampHi := 404000001, deferred := false, egress := 0
                          desc := { stamp := 0x000F_4240, ingress := 3, length := 100 } }
     let f : Frame := { aFrame 3 with bytes := zeros 100 }
     ((up.recordWords 5 c f).map (·.tag)) = [0x00, 0x00, 0x64] ∧
     ((up.recordWords 5 c f).head?.map (fun w => slice (imgBytes w.data) 48 16)) =
       some [0x03, 0x00, 0x64, 0x00, 0x00, 0xFF, 0x00, 0x00, 0x34, 0x12, 0x00, 0x00, 0x01, 0x8D, 0x14, 0x18] ∧
     (((up.setFd (R.capCfg 5) 15 8 1).recordWords 5 c f).map (·.tag)) = [0x00, 0x40]) := by decide +kernel

/-- The example of preemption: 400 bytes into a 1,500-byte frame at 25 Gbit/s, the next legal boundary is after 448 bytes. -/
theorem test_preemption_point :
    let s : State := { up.setFd (R.ethMode 0) 3 0 1 with tsu.dom := [(0, { ns := 1280 })] }
    let x : Tx := { copy := { frame := 3, port := 0, len := 1500 }, start := 1149440 }
    s.rate 0 = 25000 ∧ s.sentNow 0 x = 400 ∧ s.legalPoint 0 x = some 448 := by decide +kernel

/-- The example of R58: a 500 kbit/s rate with prescaler 2 and 160 quanta is legal. -/
theorem test_can_timing : canTimingBad (1 + 159 * 2 ^ 8 + 31 * 2 ^ 24) 0 = false ∧ canTimingBad 0 0 = true := by decide +kernel

/-- The example of R367: the low half reads 0xFFFF_FFFE and the reader's latch takes the high half; after three more frames the
high half still reads 0x0000_0001. -/
theorem test_counter_pair :
    let s := up.setWide (R.ethCnt 2 0) 0x1_FFFF_FFFE
    let t := (s.readWord pm pm (R.ethCnt 2 0)).2
    (s.readWord pm pm (R.ethCnt 2 0)).1 = 0xFFFF_FFFE ∧
      ((t.setWide (R.ethCnt 2 0) 0x2_0000_0001).readWord pm pm (R.ethCnt 2 0 + 4)).1 = 1 := by decide +kernel

/-- The offset of ETH_RX_FRAMES of E2 is the one that the example gives. -/
theorem test_counter_offset : R.ethCnt 2 0 = 0x0060_0900 := by decide

end Sys2Proof.Tests
end

section
/-! SUPPORT. Register accesses of any master (R9 to R13, R128, R282, R293, R294, R299, R367): what a taken access does, what a word's read
and write do by what becomes of the access, and what a report and a staged write do. -/

namespace Sys2Proof.Machine

variable {s : State} {p c : Part} {a n off : Nat}

/-! ### Accesses that are taken (R128, R297, R298) -/

/-- An access that is taken is served. -/
theorem onAccess_takes (h : s.takes p) (f : State → State) : onAccess p a f s = f s := by
  obtain ⟨hready, hlink, -⟩ := h
  unfold onAccess
  by_cases hp : p = pm
  · rw [if_pos hp, if_pos (hready hp)]
  · obtain ⟨hl, hu, hb⟩ := hlink hp
    rw [if_neg hp, if_neg (by simp [hl, hu]), if_neg (by simp [hb])]

theorem mailboxShape_of_registerShape (h : registerShape a n = true) : mailboxShape a n = false := by
  obtain ⟨-, hout⟩ := of_decide_eq_true h
  exact decide_eq_false fun ⟨hlo, hhi, _⟩ => hout ⟨hlo, hhi⟩

/-- PM's access, or a host's register access, is no mailbox access of a host. -/
theorem not_mailbox_of_register (h : p = pm ∨ registerShape a n = true) : ¬ (p ≠ pm ∧ mailboxShape a n = true) := by
  rintro ⟨hp, hm⟩
  simp [mailboxShape_of_registerShape (h.resolve_left hp)] at hm

/-- PM's access, or a host's register access, is not one that R128 does not accept. -/
theorem not_unsupported_of_register (h : p = pm ∨ registerShape a n = true) : ¬ (p ≠ pm ∧ ¬ registerShape a n = true) :=
  fun ⟨hp, hs⟩ => hs (h.resolve_left hp)

variable {addr : W32}

/-- A taken register read answers one word, or the word and then the next one, the lower address in the low half. -/
theorem readRow_taken (eight : Bool) (ht : s.takes p)
    (hs : p = pm ∨ registerShape addr.toNat (if eight then 8 else 4) = true) :
    readRow p addr eight s =
      (let one := s.readAt p addr.toNat
       let two := one.2.readAt p (addr.toNat + 4)
       if eight then two.2.emit (.read p addr (two.1 ++ one.1)) else one.2.emit (.read p addr (one.1.setWidth 64))) := by
  unfold readRow
  rw [onAccess_takes ht]
  simp only [ht.2.2, Bool.false_eq_true, if_false, if_neg (not_mailbox_of_register hs), if_neg (not_unsupported_of_register hs),
    answer, BitVec.ofNat_toNat, BitVec.setWidth_eq]

/-- A taken register write writes one word, or the word and then the next one. -/
theorem writeRow_taken (eight : Bool) (v : W64) (ht : s.takes p)
    (hs : p = pm ∨ registerShape addr.toNat (if eight then 8 else 4) = true) :
    writeRow p addr v eight s =
      (let one := s.writeAt p addr.toNat (v.setWidth 32)
       if eight then one.writeAt p (addr.toNat + 4) ((v >>> 32).setWidth 32) else one) := by
  unfold writeRow
  rw [onAccess_takes ht]
  simp only [ht.2.2, Bool.false_eq_true, if_false, if_neg (not_mailbox_of_register hs), if_neg (not_unsupported_of_register hs)]

/-! ### The copy and offset that an address names (R299) -/

theorem target_host (h : p ≠ pm) (a : Nat) : target p a = some (p, a) := if_pos h

theorem target_pm (c : Part) (h : off < 2 ^ 26) : target pm (c.val * 2 ^ 26 + off) = some (c, off) := by
  have hc : Fin.ofNat 5 ((c.val * 2 ^ 26 + off) / 2 ^ 26) = c := by
    apply Fin.ext
    show (c.val * 2 ^ 26 + off) / 2 ^ 26 % 5 = c.val
    omega
  have ho : (c.val * 2 ^ 26 + off) % 2 ^ 26 = off := by omega
  unfold target
  rw [if_neg (by simp), if_neg (by omega), hc, ho]

theorem copyKey_injective {q : Part} (h : copyKey q off = copyKey p off) : q = p := by
  unfold copyKey at h
  exact Fin.ext (by omega)

/-! ### A word's read, by what becomes of the access (R293) -/

/-- The word is a register word: PM's access lies neither in the PM buffer nor in the slot data buffers. -/
def inRegisters (p : Part) (off : Nat) : Prop := p = pm → inPmWord off = false ∧ inSlotData off = false

theorem inRegisters.not_pmBuf (h : inRegisters p off) : ¬ (p = pm ∧ inPmWord off = true) :=
  fun ⟨hp, hw⟩ => by simp [(h hp).1] at hw

theorem inRegisters.not_slot (h : inRegisters p off) : ¬ (p = pm ∧ inSlotData off = true ∧ off % 4 = 0) :=
  fun ⟨hp, hw, _⟩ => by simp [(h hp).2] at hw

section
variable (ht : target p a = some (c, off)) (hr : inRegisters p off)
include ht hr

theorem readAt_absent (h : s.readReach p c off = .absent) : s.readAt p a = (0, s.report 0x0D02 kInfo p.val 0xFF off) := by
  simp only [State.readAt, ht, if_neg hr.not_pmBuf, if_neg hr.not_slot, h]

theorem readAt_violation (h : s.readReach p c off = .violation) : s.readAt p a = (0, s.violate p 1 off) := by
  simp only [State.readAt, ht, if_neg hr.not_pmBuf, if_neg hr.not_slot, h]

theorem readAt_ok (h : s.readReach p c off = .ok) : s.readAt p a = s.readWord p c off := by
  simp only [State.readAt, ht, if_neg hr.not_pmBuf, if_neg hr.not_slot, h]

end

/-! ### The value of a register word, and its read's effect (R10, R12, R367, R368) -/

@[simp] theorem State.latchOf_setLatch_same (s : State) (p : Part) (off : Nat) (v : W32) :
    (s.setLatch p off v).latchOf p off = v := kvGet_set_same _ _ _ v

theorem State.latchOf_setLatch_other (s : State) {q : Part} (v : W32) (h : q ≠ p) :
    (s.setLatch p off v).latchOf q off = s.latchOf q off :=
  kvGet_set_other _ _ v fun k => h (copyKey_injective k)

theorem readWord_lo (h : ((regInfo s.logger off).map RegInfo.half).getD .plain = .lo) :
    s.readWord p c off = ((s.pairValue off).setWidth 32, s.setLatch p off ((s.pairValue off >>> 32).setWidth 32)) := by
  simp only [State.readWord, State.regValue, h]

theorem readWord_hi (h : ((regInfo s.logger off).map RegInfo.half).getD .plain = .hi) :
    s.readWord p c off = (s.latchOf p (off - 4), s) := by
  simp only [State.readWord, h]

/-- A read of a plain register that is no semaphore, no PHW_TTn_PHASE, no PEEK register and not PWR_TEMP_MAX has no effect. -/
theorem readWord_plain (h : ((regInfo s.logger off).map RegInfo.half).getD .plain = .plain)
    (hsem : ¬ (0x18_0000 ≤ off ∧ off < 0x18_0100))
    (hphase : ¬ (0x30_0000 ≤ off ∧ off < 0x30_1000 ∧ off % 0x100 = 0x18))
    (hpeek : ¬ (0x80_0000 ≤ off ∧ off < 0x80_4000 ∧ (off % 0x100 = 0x3C ∨ 0x80 ≤ off % 0x100)))
    (htemp : off ≠ R.tempMax) : s.readWord p c off = (s.regValue p c off, s) := by
  simp only [State.readWord, h]
  split
  case h_1 hb => rw [if_neg (by omega)]
  case h_2 hb => rw [if_neg (by omega)]
  case h_3 hb => rw [if_neg (by omega), if_neg (by omega)]
  case h_4 hb => rw [if_neg htemp]
  case h_5 => rfl

/-- Outside the blocks with computed registers, a plain register reads as the register file holds it. -/
theorem regValue_stored (h : ((regInfo s.logger off).map RegInfo.half).getD .plain = .plain)
    (hb : off / 0x10_0000 ∉ [0x1, 0x3, 0x5, 0x8, 0xA, 0xB]) : s.regValue p c off = s.stored c off := by
  simp only [State.regValue, h]
  split
  case h_7 => rfl
  all_goals
    rename_i hk
    exact absurd (by simp [hk]) hb

theorem half_tempMax (logger : Bool) : ((regInfo logger R.tempMax).map RegInfo.half).getD .plain = .plain := rfl

theorem readWord_tempMax (s : State) (p c : Part) :
    s.readWord p c R.tempMax = (s.regValue p c R.tempMax, { s.setRg R.tempMax 0 with pins.tempSeen := false }) := by
  simp only [State.readWord, half_tempMax]
  rfl

/-! ### A word's write, by what becomes of the access (R293, R294) -/

section
variable (ht : target p a = some (c, off)) (hr : inRegisters p off) (w : W32)
include ht hr

theorem writeAt_absent (h : s.writeReach p c off = .absent) : s.writeAt p a w = s.report 0x0D02 kInfo p.val 0xFF off := by
  simp only [State.writeAt, ht, if_neg hr.not_pmBuf, if_neg hr.not_slot, h]

theorem writeAt_violation (h : s.writeReach p c off = .violation) : s.writeAt p a w = s.violate p 1 off := by
  simp only [State.writeAt, ht, if_neg hr.not_pmBuf, if_neg hr.not_slot, h]

theorem writeAt_noEffect (h : s.writeReach p c off = .noEffect) (hring : ¬ (p = pm ∧ c = pm ∧ ringRegs.contains off = true)) :
    s.writeAt p a w = s := by
  simp only [State.writeAt, ht, if_neg hr.not_pmBuf, if_neg hr.not_slot, h, if_neg hring]

theorem writeAt_logged {code : Nat} (h : s.writeReach p c off = .logged code) (hf : s.frozen p = false) :
    s.writeAt p a w = s.report code kInfo p.val 0xFF off := by
  simp [State.writeAt, ht, hr.not_pmBuf, hr.not_slot, h, hf]

theorem writeAt_frozen (h : s.writeReach p c off = .ok ∨ ∃ code, s.writeReach p c off = .logged code) (hf : s.frozen p = true) :
    s.writeAt p a w = s := by
  rcases h with h | ⟨code, h⟩ <;> simp [State.writeAt, ht, hr.not_pmBuf, hr.not_slot, h, hf]

theorem writeAt_ok (h : s.writeReach p c off = .ok) (hf : s.frozen p = false) : s.writeAt p a w = s.writeWord p c off w := by
  simp [State.writeAt, ht, hr.not_pmBuf, hr.not_slot, h, hf]

end

/-! ### Writes of registers without an action of their own (R10, R13, R280, R282, R283) -/

/-- The offsets of `actsOnWrite`, one by one. -/
theorem actsOnWrite_false (h : actsOnWrite off = false) :
    ringRegs.contains off = false ∧ ¬ (0x18_0000 ≤ off ∧ off < 0x20_0000) ∧ off ≠ 0x20_0020 ∧
      ¬ (0x60_F000 ≤ off ∧ off < 0x60_F100 ∧ off % 0x40 = 8) ∧
      ¬ (0x80_0000 ≤ off ∧ off < 0x80_4000 ∧ (off % 0x100 = 0x1C ∨ off % 0x100 = 0x38 ∨ off % 0x100 = 0x40)) ∧
      ¬ (0x90_0000 ≤ off ∧ off < 0xA0_0000 ∧ [0x00, 0x04, 0x20, 0x24, 0x30, 0x34, 0x38].contains (off % 0x40) = true) ∧
      off ≠ R.wakMask ∧ ¬ (0xB0_0000 ≤ off ∧ off < 0xD0_0000) := by
  simp only [actsOnWrite, Bool.or_eq_false_iff, decide_eq_false_iff_not, beq_eq_false_iff_ne] at h
  obtain ⟨⟨⟨⟨⟨⟨⟨hring, hbrg⟩, htsu⟩, hmdio⟩, hcap⟩, hchk⟩, hmask⟩, herr⟩ := h
  exact ⟨hring, hbrg, htsu, hmdio, hcap, hchk, hmask, herr⟩

theorem writeCap_plain (w : W32)
    (h : ¬ (0x80_0000 ≤ off ∧ off < 0x80_4000 ∧ (off % 0x100 = 0x1C ∨ off % 0x100 = 0x38 ∨ off % 0x100 = 0x40)))
    (hb : off / 0x10_0000 = 8) : s.writeCap p c off w = s.plainWrite p c off w := by
  unfold State.writeCap
  by_cases hq : 0x80_4000 ≤ off
  · exact if_pos hq
  · simp only [if_neg hq]
    split
    case h_4 => rfl
    all_goals omega

theorem writeChk_plain (w : W32)
    (h : [0x00, 0x04, 0x20, 0x24, 0x30, 0x34, 0x38].contains (off % 0x40) = false) :
    s.writeChk p c off w = s.plainWrite p c off w := by
  unfold State.writeChk
  dsimp only
  split
  case h_8 => rfl
  all_goals
    rename_i hk
    simp [hk] at h

/-- A write of a register whose writes have no action of their own. -/
theorem writeWord_plain (w : W32) (h : actsOnWrite off = false) : s.writeWord p c off w = s.plainWrite p c off w := by
  obtain ⟨hring, hbrg, htsu, hmdio, hcap, hchk, hmask, herr⟩ := actsOnWrite_false h
  unfold State.writeWord
  split
  case h_1 hb =>
    unfold State.writeCmd
    dsimp only
    rw [if_pos (by omega), if_pos (Bool.eq_false_iff.1 hring)]
  case h_2 hb => rw [if_neg htsu]
  case h_3 hb => rw [if_neg hmdio]
  case h_4 hb => exact writeCap_plain w hcap hb
  case h_5 hb => exact writeChk_plain w (by simpa using fun hm => hchk ⟨by omega, by omega, hm⟩)
  case h_6 hb => rw [if_neg hmask]
  case h_7 hb => omega
  case h_8 hb => omega
  case h_9 => rfl

/-- The bits of a register without RWP fields after a write (R10): an RW bit takes the value's bit, a 1 clears an RW1C bit, every
other bit stays. -/
theorem getLsbD_plainValue (w old rw w1c : W32) (i : Nat) (hi : i < 32) :
    (((old &&& ~~~rw) ||| (w &&& rw)) &&& ~~~(w &&& w1c)).getLsbD i =
      if rw.getLsbD i then w.getLsbD i && !(w1c.getLsbD i && w.getLsbD i)
      else old.getLsbD i && !(w1c.getLsbD i && w.getLsbD i) := by
  simp only [BitVec.getLsbD_and, BitVec.getLsbD_or, BitVec.getLsbD_not, hi, decide_true, Bool.true_and]
  cases rw.getLsbD i <;> simp [Bool.and_comm]

/-- A register without RWP fields, after a write. -/
theorem plainWrite_rw (w : W32) (h : ((regInfo s.logger off).getD {}).rwp = 0) :
    s.plainWrite p c off w =
      let r := (regInfo s.logger off).getD {}
      let k := regKey s.logger c off
      s.setKey k (((s.key k &&& ~~~r.rw) ||| (w &&& r.rw)) &&& ~~~(w &&& r.w1c)) := if_neg (not_not_intro h)

theorem plainWrite_rwp (w : W32) (h : ((regInfo s.logger off).getD {}).rwp ≠ 0) :
    s.plainWrite p c off w = s.stageWrite p c off w := if_pos h

/-- What the staging of an item answers where an open mould has room for it, whatever tag it is staged under. -/
theorem stageItem_stageable {m : Mould} {x : Item} (tag : BitVec 12) (h : s.stageable p m x) :
    stageItem s p tag x = { s := s.setMould p (some { m with items := addItem m.items { item := x, tag := tag, by_ := p } }) } := by
  obtain ⟨hm, hopen, hroom⟩ := h
  have hfits : ¬ (¬ hasSlot m.items x = true ∧ s.mouldFull m = true) := by
    rintro ⟨hnew, hfull⟩
    exact hroom.elim hnew (fun k => by simp [k] at hfull)
  simp only [stageItem, hm, hopen, Bool.false_eq_true, if_false, if_neg hfits]

theorem stageItem_closed {x : Item} (tag : BitVec 12) (h : s.mould p = none) : stageItem s p tag x = fail s St.badParam := by
  simp only [stageItem, h]

theorem stageItem_sealed {m : Mould} {x : Item} (tag : BitVec 12) (h : s.mould p = some m) (hs : m.sealed = true) :
    stageItem s p tag x = fail s St.conflict := by
  simp only [stageItem, h, if_pos hs]

section
variable (w : W32)

theorem stageWrite_stageable {m : Mould}
    (h : s.stageable p m (.reg (regKey s.logger c off) (w &&& ((regInfo s.logger off).getD {}).rwp))) :
    s.stageWrite p c off w =
      let x : Item := .reg (regKey s.logger c off) (w &&& ((regInfo s.logger off).getD {}).rwp)
      s.setMould p (some { m with items := addItem m.items { item := x, tag := 0xFFF, by_ := p } }) := by
  simp only [State.stageWrite, State.stageReg, stageItem_stageable 0xFFF h, if_true]

/-- A write that no mould takes is discarded, and reported by whether the writer has a mould. -/
theorem stageWrite_fail {st : Byte} (hst : st ≠ St.ok)
    (h : stageItem s p 0xFFF (.reg (regKey s.logger c off) (w &&& ((regInfo s.logger off).getD {}).rwp)) = fail s st) :
    s.stageWrite p c off w = s.report (if (s.mould p).isNone then 0x0103 else 0x0104) kInfo p.val 0xFF off := by
  simp only [State.stageWrite, State.stageReg, h, fail, if_neg hst]

theorem stageWrite_closed (h : s.mould p = none) : s.stageWrite p c off w = s.report 0x0103 kInfo p.val 0xFF off := by
  rw [stageWrite_fail w (by decide) (stageItem_closed 0xFFF h), h]
  rfl

theorem stageWrite_sealed {m : Mould} (h : s.mould p = some m) (hs : m.sealed = true) :
    s.stageWrite p c off w = s.report 0x0104 kInfo p.val 0xFF off := by
  rw [stageWrite_fail w (by decide) (stageItem_sealed 0xFFF h hs), h]
  rfl

end

/-! ### Reports into a queue with room (R341, R342) -/

theorem LogEntry.same_iff (e r : LogEntry) : e.same r = true ↔
    e.block = r.block ∧ e.code = r.code ∧ e.part = r.part ∧ e.unit = r.unit ∧ e.detail = r.detail := by
  simp [LogEntry.same, and_assoc]

theorem LogEntry.same_refl (r : LogEntry) : r.same r = true := (r.same_iff r).2 ⟨rfl, rfl, rfl, rfl, rfl⟩

/-- A report into a queue with room changes that queue alone, which then holds it or an entry identical to it. -/
theorem State.fifoPut_room (s : State) (r : LogEntry) (h : (kvGet [] s.err.fifos r.block.toNat).length < 16) :
    ∃ l, s.fifoPut r = (false, { s with err.fifos := kvSet [] s.err.fifos r.block.toNat l }) ∧ ∃ e ∈ l, e.same r = true := by
  unfold State.fifoPut
  simp only [if_pos h]
  split
  case h_1 e _ =>
    split
    case isTrue hm =>
      exact ⟨_, rfl, e.merge r.last, by simp, (Bool.and_eq_true_iff.1 hm).1⟩
    case isFalse => exact ⟨_, rfl, r, by simp, r.same_refl⟩
  case h_2 => exact ⟨_, rfl, r, by simp, r.same_refl⟩

/-- An event that its block's queue has room for changes that queue alone, which then holds an entry of the event. -/
theorem State.report_room (s : State) (code kind part unit detail : Nat) (fault : Bool)
    (h : (kvGet [] s.err.fifos (code / 256 % 256)).length < 16) :
    ∃ l, s.report code kind part unit detail fault = { s with err.fifos := kvSet [] s.err.fifos (code / 256 % 256) l } ∧
      ∃ e ∈ l, e.code = BitVec.ofNat 16 code ∧ e.part = BitVec.ofNat 8 part ∧ e.unit = BitVec.ofNat 8 unit ∧
        e.detail = BitVec.ofNat 64 detail := by
  let r : LogEntry :=
    { time := s.extP, block := BitVec.ofNat 8 (code / 256), sev := sevOf kind fault, code := BitVec.ofNat 16 code,
      part := BitVec.ofNat 8 part, unit := BitVec.ofNat 8 unit, repeat_ := 1, last := s.extP.setWidth 32,
      detail := BitVec.ofNat 64 detail }
  obtain ⟨l, hput, e, he, hsame⟩ := s.fifoPut_room r h
  obtain ⟨-, hcode, hpart, hunit, hdetail⟩ := (e.same_iff r).1 hsame
  refine ⟨l, ?_, e, he, hcode, hpart, hunit, hdetail⟩
  show s.queueReport r = _
  unfold State.queueReport
  rw [hput]
  rfl

end Sys2Proof.Machine

/-! The statements on commands in general and on register accesses (00_scope.md). -/

namespace Sys2Proof

open Sys2Proof.Machine

/-- Settles O6: what every effect keeps (`Follows`) has the queue, the fuse and what was sent among its parts. -/
theorem commandsLeaveTheQueueTheFuseAndWhatWasSent : Obligations.CommandsLeaveTheQueueTheFuseAndWhatWasSent := by
  intro c s t h
  have hkept : Follows (!c.reconfigures) s t := (exec_follows c s).out t h
  exact ⟨hkept.queue, hkept.fuse, hkept.sent⟩

/-- Settles O35: a taken read is one or two word reads, and a word's read follows what becomes of the access, then the register's
half (R367) and its block. -/
theorem registerReadsReturnTheRegister : Obligations.RegisterReadsReturnTheRegister := by
  intro p addr s htakes
  refine ⟨⟨fun hs => ?_, fun hs => ?_⟩, fun a hp => target_host hp a, fun c off ho => target_pm c ho,
    fun a c off ht hr => ⟨readAt_absent ht hr, readAt_violation ht hr, readAt_ok ht hr⟩,
    fun c off hlo => ?_, fun c off => readWord_hi, fun c off hplain hsem hphase hpeek htemp => ?_, fun c => ?_⟩
  · have hrow := congrArg (β := Res) .next (readRow_taken false htakes hs)
    exact ⟨hrow, hrow, hrow⟩
  · have hrow := congrArg (β := Res) .next (readRow_taken true htakes hs)
    exact ⟨hrow, hrow⟩
  · rw [readWord_lo hlo]
    exact ⟨rfl, s.latchOf_setLatch_same p off _, fun q hq => s.latchOf_setLatch_other _ hq⟩
  · exact ⟨readWord_plain hplain hsem hphase hpeek htemp, regValue_stored hplain⟩
  · rw [readWord_tempMax]
    exact ⟨rfl, s.rg_setRg_same R.tempMax 0⟩

/-- Settles O36: a taken write is one or two word writes, and a word's write follows what becomes of the access; a register whose
writes have no action of their own changes by its access code, or has its value staged. -/
theorem registerWritesKeepTheirAccess : Obligations.RegisterWritesKeepTheirAccess := by
  intro p addr v s htakes
  refine ⟨fun hs => ?_, fun hs => ?_, fun a c off w ht hr => ⟨writeAt_absent ht hr w, writeAt_violation ht hr w,
    writeAt_noEffect ht hr w, fun _ => writeAt_logged ht hr w, fun hf hreach => writeAt_frozen ht hr w hreach hf,
    fun hok hf hact => ?_⟩⟩
  · have hrow := congrArg (β := Res) .next (writeRow_taken false v htakes hs)
    exact ⟨hrow, hrow⟩
  · have hrow := congrArg (β := Res) .next (writeRow_taken true v htakes hs)
    exact ⟨hrow, hrow⟩
  · rw [writeAt_ok ht hr w hok hf, writeWord_plain w hact]
    refine ⟨fun hrw => ?_, fun hrwp => ?_⟩
    · rw [plainWrite_rw w hrw]
      dsimp only
      rw [s.key_setKey_same]
      exact ⟨rfl, fun i hi => getLsbD_plainValue w _ _ _ i hi⟩
    · rw [plainWrite_rwp w hrwp]
      exact ⟨fun m => stageWrite_stageable w, stageWrite_closed w, fun m => stageWrite_sealed w⟩

/-- Settles O37: the write is a report of event 0x0103, which the queue of block 0x01 has room for. -/
theorem writesWithoutAMouldAreDiscarded : Obligations.WritesWithoutAMouldAreDiscarded := by
  intro m copy off v s hmould hoff hrwp hreach hf hact hroom
  have hword : ∀ a, target m a = some (copy, off) → inRegisters m off → s.writeAt m a v = s.report 0x0103 kInfo m.val 0xFF off := by
    intro a ht hr
    rw [writeAt_ok ht hr v hreach hf, writeWord_plain v hact, plainWrite_rwp v hrwp, stageWrite_closed v hmould]
  refine ⟨s.report 0x0103 kInfo m.val 0xFF off, ?_, ?_, ?_⟩
  · rintro rfl hbuf hslot
    exact hword _ (target_pm copy hoff) fun _ => ⟨hbuf, hslot⟩
  · rintro hm rfl htakes hshape
    have haddr : (BitVec.ofNat 32 off).toNat = off := by simp; omega
    have hrow : writeRow copy (BitVec.ofNat 32 off) (v.setWidth 64) false s = s.writeAt copy off v := by
      rw [writeRow_taken false _ htakes (Or.inr (by rwa [haddr])), haddr]
      simp
    exact congrArg (β := Res) .next (hrow.trans (hword off (target_host hm off) fun k => absurd k hm))
  · obtain ⟨l, hreport, e, he, hcode, hpart, -, hdetail⟩ := s.report_room 0x0103 kInfo m.val 0xFF off false hroom
    rw [hreport]
    refine ⟨rfl, rfl, rfl, fun _ => rfl, e, ?_, hcode, ?_, ?_⟩
    · simpa using he
    · rw [hpart]; simp; omega
    · rw [hdetail]; simp; omega

end Sys2Proof
end

section
/-! SUPPORT. What the shared operations of the datapath leave unchanged: a report to the error log, a freeze (R294), the settling of a
frame whose copies end (R16, R99), and the ends of copies at their egress ports. -/

namespace Sys2Proof.Machine

variable {s t u : State}

/-! ### Reports (R341, R342) -/

/-- What a report may change: the error unit, and the two registers that tell of a discarded report. -/
structure Reported (s t : State) : Prop where
  shape : ∃ e r, t = { s with err := e, reg.regs := r }
  keys : ∀ k, k ≠ R.errDiscard → k ≠ R.errStatus → t.key k = s.key k

theorem Reported.trans (h : Reported s t) (k : Reported t u) : Reported s u := by
  obtain ⟨⟨e, r, rfl⟩, hkeys⟩ := h
  obtain ⟨⟨e', r', rfl⟩, kkeys⟩ := k
  exact ⟨⟨e', r', rfl⟩, fun j h1 h2 => (kkeys j h1 h2).trans (hkeys j h1 h2)⟩

theorem State.fifoPut_reported (s : State) (r : LogEntry) : Reported s (s.fifoPut r).2 := by
  have hput : ∀ l, Reported s { s with err.fifos := l } := fun l => ⟨⟨_, s.reg.regs, rfl⟩, fun _ _ _ => rfl⟩
  have hdiscard : ∀ g, Reported s (({ s.count R.errDiscard with err.fifoGap := g } : State).setBt R.errStatus 1 true) := fun g =>
    ⟨⟨_, _, rfl⟩, fun k h1 h2 => (State.key_setKey_other _ _ h2).trans (State.key_setKey_other s _ h1)⟩
  unfold State.fifoPut
  dsimp only
  split
  · split
    · exact hput _
    · split
      · exact hput _
      · exact hdiscard _
  · split
    · exact hput _
    · exact hdiscard _

theorem State.queueReport_reported (s : State) (r : LogEntry) : Reported s (s.queueReport r) := by
  have hput := s.fifoPut_reported r
  unfold State.queueReport
  split
  · next heq => rwa [heq] at hput
  · next heq =>
    rw [heq] at hput
    split
    · exact hput
    · exact hput.trans (State.fifoPut_reported _ _)

theorem State.report_reported (s : State) (code kind part unit detail : Nat) (fault : Bool) :
    Reported s (s.report code kind part unit detail fault) := s.queueReport_reported _

/-! ### A freeze (R294) -/

/-- The moulds after a freeze of a partition: its unsealed one is discarded (R294). -/
def State.mouldsFrozen (s : State) (p : Part) : List (Nat × Option Mould) :=
  if (s.mould p).any (fun m => !m.sealed) then kvSet none s.cmd.moulds p.val none else s.cmd.moulds

theorem State.mouldsFrozen_same (s : State) (p : Part) {m : Mould} (h : s.mould p = some m) :
    kvGet none (s.mouldsFrozen p) p.val = if m.sealed then some m else none := by
  unfold State.mouldsFrozen
  cases hs : m.sealed
  · simp [h, hs]
  · simp only [h, Option.any_some, hs, Bool.not_true, Bool.false_eq_true, if_false, if_true]
    exact h

theorem State.mouldsFrozen_other (s : State) {p q : Part} (h : q ≠ p) : kvGet none (s.mouldsFrozen p) q.val = s.mould q := by
  unfold State.mouldsFrozen
  split
  · exact kvGet_set_other _ _ _ (Fin.val_ne_of_ne h)
  · rfl

/-- Step 4 of a freeze: an unsealed mould is discarded. -/
theorem discardMould_eq (s : State) (p : Part) :
    (match s.mould p with
      | some m => if m.sealed then s else s.setMould p none
      | none => s) = { s with cmd.moulds := s.mouldsFrozen p } := by
  unfold State.mouldsFrozen
  rcases hm : s.mould p with _ | m
  · rfl
  · cases hs : m.sealed <;> simp [hs, State.setMould]

/-- The status word of a partition after a freeze: frozen, the cause, one freeze more. -/
def frozenStatus (w : W32) (cause : Nat) : W32 :=
  setFld (setFld (setBit w 0 true) 3 1 cause) 31 16 (min 0xFFFF (fld w 31 16 + 1))

theorem frozenStatus_frozen (w : W32) (cause : Nat) : bit (frozenStatus w cause) 0 = true := by
  unfold frozenStatus bit
  rw [getLsbD_setFld _ _ (by omega), getLsbD_setFld _ _ (by omega)]
  simpa [bit] using bit_setBit_same w true (i := 0) (by omega)

theorem frozenStatus_cause (w : W32) {cause : Nat} (h : cause < 8) : fld (frozenStatus w cause) 3 1 = cause := by
  unfold frozenStatus
  rw [fld_setFld_other _ _ (by omega) (by omega), fld_setFld_same _ _ (by omega) (by omega)]
  omega

theorem frozenStatus_count (w : W32) (cause : Nat) : fld (frozenStatus w cause) 31 16 = min 0xFFFF (fld w 31 16 + 1) := by
  unfold frozenStatus
  rw [fld_setFld_same _ _ (by omega) (by omega)]
  omega

/-- The first steps of a freeze (R294): the registers, and the FROZEN replies. -/
def State.freezePath (s : State) (p : Part) (cause what : Nat) : State :=
  ((s.modRgp p R.secStatus (frozenStatus · cause)).setRgp p R.secViol (BitVec.ofNat 32 what)).setPath p { s.path p with
    fetched := (s.path p).fetched.filter (·.started)
    done := (s.path p).done ++ ((s.path p).fetched.filter (fun f => !f.started)).map frozenReply
    waitTag := none }

/-- The state in which a freeze makes its report. -/
def State.frozenQuietly (s : State) (p : Part) (cause what : Nat) : State :=
  { ({ s.freezePath p cause what with cmd.moulds := (s.freezePath p cause what).mouldsFrozen p } : State).setBt R.secPmEvent p.val true
    with cmd.spiEvent := true }

@[simp] theorem State.freezePath_mould (s : State) (p : Part) (cause what : Nat) (q : Part) :
    (s.freezePath p cause what).mould q = s.mould q := by
  simp [State.freezePath, State.mould, State.setPath]

theorem State.freeze_eq (s : State) (p : Part) (cause what : Nat) :
    s.freeze p cause what =
      (s.frozenQuietly p cause what).report 0x0D01 kViolation p.val 0xFF (what % 2 ^ 32 + cause * 2 ^ 32) := by
  unfold State.freeze
  extract_lets s1 s2 c s3 s4 s5
  have hc : c = s.path p := by simp [c, s2, s1, State.path]
  have h3 : s3 = s.freezePath p cause what := by simp only [s3, hc]; rfl
  have h4 : s4 = { s3 with cmd.moulds := s3.mouldsFrozen p } := discardMould_eq s3 p
  show State.report { s4.setBt R.secPmEvent p.val true with cmd.spiEvent := true } _ _ _ _ _ = _
  rw [h4, h3]
  rfl

theorem State.freeze_reported (s : State) (p : Part) (cause what : Nat) :
    Reported (s.frozenQuietly p cause what) (s.freeze p cause what) := by
  rw [State.freeze_eq]
  exact State.report_reported _ _ _ _ _ _ _

/-- The command unit takes no part in what a register reads as. -/
@[simp] theorem State.key_cmd (s : State) (c : CmdUnit) (k : Nat) : ({ s with cmd := c } : State).key k = s.key k := rfl

@[simp] theorem State.key_setPath (s : State) (p : Part) (c : CmdPath) (k : Nat) : (s.setPath p c).key k = s.key k := rfl

/-- What a freeze leaves in a register that neither PM's notice nor a report writes. -/
theorem State.freeze_key (s : State) (p : Part) (cause what : Nat) {k : Nat} (h1 : k ≠ R.errDiscard) (h2 : k ≠ R.errStatus)
    (h3 : k ≠ R.secPmEvent) : (s.freeze p cause what).key k =
      ((s.modRgp p R.secStatus (frozenStatus · cause)).setRgp p R.secViol (BitVec.ofNat 32 what)).key k := by
  rw [(s.freeze_reported p cause what).keys k h1 h2, State.frozenQuietly, State.key_cmd]
  refine (State.key_setKey_other _ _ h3).trans ?_
  rw [State.key_cmd, State.freezePath, State.key_setPath]

/-- A register outside those that a freeze writes is as before. -/
theorem State.freeze_key_other (s : State) (p : Part) (cause what : Nat) {k : Nat} (h1 : k ≠ R.errDiscard) (h2 : k ≠ R.errStatus)
    (h3 : k ≠ R.secPmEvent) (h4 : k ≠ copyKey p R.secViol) (h5 : k ≠ copyKey p R.secStatus) :
    (s.freeze p cause what).key k = s.key k :=
  (s.freeze_key p cause what h1 h2 h3).trans ((State.key_setKey_other _ _ h4).trans (State.key_setKey_other _ _ h5))

theorem State.freeze_secStatus (s : State) (p : Part) (cause what : Nat) :
    (s.freeze p cause what).rgp p R.secStatus = frozenStatus (s.rgp p R.secStatus) cause := by
  refine (s.freeze_key p cause what ?_ ?_ ?_).trans ((State.key_setKey_other _ _ ?_).trans (s.rgp_modRgp_same p R.secStatus _))
  all_goals simp only [copyKey, R.secStatus, R.secViol, R.secPmEvent, R.errDiscard, R.errStatus]; omega

theorem State.freeze_secViol (s : State) (p : Part) (cause what : Nat) :
    (s.freeze p cause what).rgp p R.secViol = BitVec.ofNat 32 what := by
  refine (s.freeze_key p cause what ?_ ?_ ?_).trans (State.rgp_setRgp_same _ p R.secViol _)
  all_goals simp only [copyKey, R.secViol, R.secPmEvent, R.errDiscard, R.errStatus]; omega

theorem State.freeze_secPmEvent (s : State) (p : Part) (cause what : Nat) :
    (s.freeze p cause what).bt R.secPmEvent p.val = true := by
  show bit ((s.freeze p cause what).key R.secPmEvent) p.val = true
  rw [(s.freeze_reported p cause what).keys _ (by decide) (by decide), State.frozenQuietly, State.key_cmd]
  exact State.bt_setBt_same _ _ true (by omega)

theorem State.freeze_frozen_other (s : State) {p q : Part} (cause what : Nat) (h : q ≠ p) :
    (s.freeze p cause what).frozen q = s.frozen q := by
  have hq : q.val ≠ p.val := Fin.val_ne_of_ne h
  refine congrArg (bit · 0) (s.freeze_key_other p cause what (k := copyKey q R.secStatus) ?_ ?_ ?_ ?_ ?_)
  all_goals simp only [copyKey, R.secStatus, R.secViol, R.secPmEvent, R.errDiscard, R.errStatus]; omega

/-- A freeze does what R294 says. -/
theorem State.freeze_froze (s : State) (p : Part) {cause : Nat} (what : Nat) (h : cause < 8) :
    Froze s (s.freeze p cause what) p cause what := by
  have hstatus := s.freeze_secStatus p cause what
  have hviol := s.freeze_secViol p cause what
  have htold := s.freeze_secPmEvent p cause what
  have hfrozen := fun q (hq : q ≠ p) => s.freeze_frozen_other cause what hq
  obtain ⟨⟨e, r, heq⟩, -⟩ := s.freeze_reported p cause what
  have hcmd : (s.freeze p cause what).cmd = (s.frozenQuietly p cause what).cmd := by rw [heq]
  have hpath : ∀ q, (s.freeze p cause what).path q = (s.freezePath p cause what).path q := fun q => by
    simp [State.path, hcmd, State.frozenQuietly]
  have hmould : ∀ q : Part, (s.freeze p cause what).mould q = kvGet none ((s.freezePath p cause what).mouldsFrozen p) q.val := fun q => by
    simp [State.mould, hcmd, State.frozenQuietly]
  exact {
    frozen := (congrArg (bit · 0) hstatus).trans (frozenStatus_frozen _ _)
    cause := (congrArg (fld · 3 1) hstatus).trans (frozenStatus_cause _ h)
    count := (congrArg (fld · 31 16) hstatus).trans (frozenStatus_count _ _)
    viol := hviol
    started := by rw [hpath, State.freezePath, State.path_setPath_same]
    replies := by
      rw [hpath, State.freezePath, State.path_setPath_same]
      rfl
    mould := fun m hm => by rw [hmould, State.mouldsFrozen_same _ _ (by rwa [State.freezePath_mould])]
    told := ⟨htold, by simp [hcmd, State.frozenQuietly]⟩
    config := by simp [heq, State.frozenQuietly, State.freezePath]
    others := fun q hq => ⟨by
        rw [hpath, State.freezePath]
        simp [State.path, State.setPath, kvGet_set_other, Fin.val_ne_of_ne hq],
      by rw [hmould, State.mouldsFrozen_other _ hq, State.freezePath_mould], hfrozen q hq⟩ }

/-- A violation of a host that is not frozen freezes it. -/
theorem State.violate_freezes {p : Part} (hp : p ≠ pm) (hf : s.frozen p = false) (cause what : Nat) :
    s.violate p cause what = s.freeze p cause what := by
  unfold State.violate
  rw [if_neg hp, if_neg (by simp [hf])]

end Sys2Proof.Machine
end

section
/-! SUPPORT. What the ends of copies leave unchanged. A frame that settles returns its cells or moves to the capture reserve, where copies
may be evicted (R16, R99); a copy that meets the admission policy, its port's queue or its end changes no tunnel state, no arbiter and no
counter but those of drop reasons (R89, R102, R157 to R163). -/

namespace Sys2Proof.Machine

variable {s t u : State}

/-! ### The settling of a frame (R16, R99) -/

/-- The forwarding unit without what the packet buffer holds: frames and accounts. -/
def FwdUnit.sansBuffer (f : FwdUnit) : FwdUnit := { f with frames := [], acctG := [], acctS := [], tunCells := 0, capCells := 0 }

/-- What the settling of a frame leaves unchanged: the forwarding unit outside the packet buffer, the port controllers, the registers below
those of the capture queues, and every 64-bit value but the counter of evicted copies. -/
structure Settled (s t : State) : Prop where
  fwd : t.fwd.sansBuffer = s.fwd.sansBuffer
  lnk : t.lnk = s.lnk
  keys : ∀ k, k < 0x80_0000 → t.key k = s.key k
  wide : ∀ o, o ≠ R.dropCnt 0x17 → t.wide o = s.wide o

theorem Settled.refl (s : State) : Settled s s := ⟨rfl, rfl, fun _ _ => rfl, fun _ _ => rfl⟩

theorem Settled.trans (h : Settled s t) (k : Settled t u) : Settled s u :=
  ⟨k.fwd.trans h.fwd, k.lnk.trans h.lnk, fun j hj => (k.keys j hj).trans (h.keys j hj), fun o ho => (k.wide o ho).trans (h.wide o ho)⟩

theorem State.setFrame_settled (s : State) (f : Frame) : Settled s (s.setFrame f) := ⟨rfl, rfl, fun _ _ => rfl, fun _ _ => rfl⟩

theorem State.modFrame_settled (s : State) (id : Nat) (f : Frame → Frame) : Settled s (s.modFrame id f) := by
  unfold State.modFrame
  split
  · exact s.setFrame_settled _
  · exact .refl s

theorem State.charge_settled (s : State) (a g sh n : Nat) (add : Bool) : Settled s (s.charge a g sh n add) := by
  unfold State.charge
  dsimp only
  split
  · exact ⟨rfl, rfl, fun _ _ => rfl, fun _ _ => rfl⟩
  · split <;> exact ⟨rfl, rfl, fun _ _ => rfl, fun _ _ => rfl⟩

theorem State.uncharge_settled (s : State) (f : Frame) : Settled s (s.uncharge f) := s.charge_settled _ _ _ _ _

theorem State.removeFrame_settled (s : State) (id : Nat) : Settled s (s.removeFrame id) := ⟨rfl, rfl, fun _ _ => rfl, fun _ _ => rfl⟩

theorem State.freeFrame_settled (s : State) (f : Frame) : Settled s (s.freeFrame f) :=
  (s.uncharge_settled f).trans (State.removeFrame_settled _ _)

theorem State.dropCells_settled (s : State) (f : Frame) : Settled s (s.dropCells f) := by
  unfold State.dropCells
  split
  · exact s.freeFrame_settled f
  · exact .refl s

theorem State.setCapq_settled (s : State) (q : Nat) (c : CapQ) : Settled s (s.setCapq q c) := ⟨rfl, rfl, fun _ _ => rfl, fun _ _ => rfl⟩

/-- A write of a register of the capture queues. -/
theorem State.modRg_settled (s : State) {o : Nat} (f : W32 → W32) (h : 0x80_0000 ≤ o) : Settled s (s.modRg o f) :=
  ⟨by rw [State.modRg_fwd], by rw [State.modRg_lnk], fun k hk => State.key_setKey_other s _ (by omega),
    fun o _ => by rw [State.wide, State.modRg_reg_wide]; rfl⟩

theorem State.capLost_settled (s : State) (q n : Nat) : Settled s (s.capLost q n) := by
  unfold State.capLost
  split
  · exact .refl s
  · exact ((s.modRg_settled _ (by simp only [R.capLost]; omega)).trans
      (State.modRg_settled _ _ (by simp only [R.capStatus]; omega))).trans (State.setCapq_settled _ _ _)

/-- A 64-bit counter leaves every other 64-bit value as it was. -/
theorem State.wide_countWide_other (s : State) {o j : Nat} (n : Nat) (h : j ≠ o) : (s.countWide o n).wide j = s.wide j := by
  have e : kvGet (wideReset j) (kvSet (wideReset o) s.reg.wide o (s.wide o + BitVec.ofNat 64 n)) j = kvGet (wideReset j) s.reg.wide j := by
    unfold kvSet
    split
    · exact kvGet_erase_other _ _ h
    · rw [kvGet_insert_other _ _ _ h, kvGet_erase_other _ _ h]
  exact e

@[simp] theorem State.wide_countWide_same (s : State) (o n : Nat) : (s.countWide o n).wide o = s.wide o + BitVec.ofNat 64 n :=
  s.wide_setWide_same o _

theorem State.evict_settled (s : State) (v : Victim) : Settled s (s.evict v) := by
  have hcount : ∀ t : State, Settled t (t.countDrop 0x17) := fun t =>
    ⟨rfl, rfl, fun _ _ => rfl, fun _ h => t.wide_countWide_other 1 h⟩
  exact ((s.setCapq_settled _ _).trans (hcount _)).trans (State.capLost_settled _ _ _)

/-- The move of a frame to the capture reserve, with the evictions that make room for it. -/
theorem moveToCapture_settled (fuel id : Nat) (s : State) : Settled s (moveToCapture fuel id s) := by
  induction fuel generalizing s with
  | zero =>
    unfold moveToCapture
    rcases s.frame id with _ | f <;> exact .refl s
  | succ k ih =>
    unfold moveToCapture
    rcases s.frame id with _ | f
    · exact .refl s
    · dsimp only
      split
      · exact s.dropCells_settled f
      split
      · exact ((s.uncharge_settled f).trans (State.charge_settled _ _ _ _ _ _)).trans (State.setFrame_settled _ _)
      split
      · exact .refl s
      · next v _ =>
        refine ((s.evict_settled v).trans ?_).trans (ih _)
        split
        · split
          · exact State.dropCells_settled _ _
          · exact .refl _
        · exact .refl _

theorem State.settleFrame_settled (s : State) (id : Nat) : Settled s (s.settleFrame id) := by
  unfold State.settleFrame
  split
  · exact .refl s
  · split
    · exact .refl s
    · split
      · split
        · exact .refl s
        · exact moveToCapture_settled _ _ s
      · exact s.dropCells_settled _

theorem State.finishBranch_settled (s : State) (id : Nat) : Settled s (s.finishBranch id) :=
  (s.modFrame_settled id _).trans (State.settleFrame_settled _ id)

/-! ### What touches neither the forwarding unit nor a 64-bit value -/

/-- The forwarding unit and the 64-bit values are as before. -/
structure Beside (s t : State) : Prop where
  fwd : t.fwd = s.fwd
  wide : t.reg.wide = s.reg.wide

theorem Beside.refl (s : State) : Beside s s := ⟨rfl, rfl⟩

theorem Beside.trans (h : Beside s t) (k : Beside t u) : Beside s u := ⟨k.fwd.trans h.fwd, k.wide.trans h.wide⟩

theorem Reported.beside (h : Reported s t) : Beside s t := by
  obtain ⟨⟨e, r, rfl⟩, -⟩ := h
  exact ⟨rfl, rfl⟩

theorem State.setPath_beside (s : State) (p : Part) (c : CmdPath) : Beside s (s.setPath p c) := ⟨rfl, rfl⟩

theorem State.endSeal_beside (s : State) (p : Part) (k : Nat) : Beside s (s.endSeal p k) := by
  unfold State.endSeal
  split <;> exact ⟨rfl, rfl⟩

theorem State.complete_beside (s : State) (p : Part) (r : Reply) : Beside s (s.complete p r) := by
  have hstep : Beside s (s.endStep p r.tag) := ⟨rfl, rfl⟩
  unfold State.complete
  dsimp only
  split
  · exact (hstep.trans (State.setPath_beside _ _ _)).trans (State.endSeal_beside _ _ _)
  · exact hstep.trans (State.setPath_beside _ _ _)

/-- The end of a bridge transaction's slot. -/
theorem State.endSlot_beside (s : State) (p : Part) (k far : Nat) (data : List Byte) : Beside s (s.endSlot p k far data) := by
  rcases hc : (s.slot p k).cmd with _ | ⟨tag, irq⟩
  · simp only [State.endSlot, hc]
    split <;> exact ⟨rfl, rfl⟩
  · simp only [State.endSlot, hc]
    have hfree : Beside s (s.freeSlot p k) := ⟨rfl, rfl⟩
    exact hfree.trans (State.complete_beside _ _ _)

theorem State.modRgp_beside (s : State) (p : Part) (o : Nat) (f : W32 → W32) : Beside s (s.modRgp p o f) :=
  ⟨s.modRgp_fwd p o f, s.modRgp_reg_wide p o f⟩

theorem State.count_beside (s : State) (o n : Nat) : Beside s (s.count o n) := ⟨s.modRg_fwd o _, s.modRg_reg_wide o _⟩

theorem State.farError_beside (s : State) (r : OpenReq) (far : Nat) : Beside s (s.farError r far) := by
  have hclose : Beside s (s.closeReq r) := ⟨rfl, rfl⟩
  have hreport := (hclose.trans (State.modRgp_beside _ r.part R.farErr (fun w => satInc w 1))).trans
    (State.report_reported _ 0x0112 kTransient r.part.val 0xFF (far + r.window * 2 ^ 8 + r.tag.toNat * 2 ^ 16) false).beside
  unfold State.farError
  dsimp only
  split
  · exact hreport.trans (State.endSlot_beside _ _ _ _ _)
  · exact hreport

theorem State.unsendable_beside (s : State) (id : Nat) : Beside s (s.unsendable id) := by
  unfold State.unsendable
  split
  · exact s.farError_beside _ _
  · exact .refl s

theorem State.noProtect_beside (s : State) (c : PortCode) (id : Nat) : Beside s (s.noProtect c id) := by
  unfold State.noProtect
  split
  · exact ⟨rfl, rfl⟩
  · exact .refl s

theorem State.setCapq_beside (s : State) (q : Nat) (c : CapQ) : Beside s (s.setCapq q c) := ⟨rfl, rfl⟩

theorem State.capLost_beside (s : State) (q n : Nat) : Beside s (s.capLost q n) := by
  unfold State.capLost
  split
  · exact .refl s
  · exact ⟨by simp, by simp⟩

theorem State.makeCapture_beside (s : State) (q : Nat) (f : Frame) (d : FrameDesc) (deferred : Bool) (c : PortCode) :
    Beside s (s.makeCapture q f d deferred c) := by
  unfold State.makeCapture
  dsimp only
  split
  · exact (s.setCapq_beside q _).trans (State.capLost_beside _ _ _)
  · exact ⟨by simp, by simp⟩

/-! ### Copies at their egress ports (R89, R102, R157 to R163) -/

/-- The forwarding unit without what the packet buffer and the egress ports hold. -/
def FwdUnit.sansEgress (f : FwdUnit) : FwdUnit := { f.sansBuffer with eg := [] }

/-- What the way of a copy leaves unchanged: the forwarding unit outside packet buffer and egress, and the counters of the tunnelling
engine. -/
structure EgressKept (s t : State) : Prop where
  fwd : t.fwd.sansEgress = s.fwd.sansEgress
  tun : ∀ j, t.wide (R.tunCnt j) = s.wide (R.tunCnt j)

theorem EgressKept.refl (s : State) : EgressKept s s := ⟨rfl, fun _ => rfl⟩

theorem EgressKept.trans (h : EgressKept s t) (k : EgressKept t u) : EgressKept s u :=
  ⟨k.fwd.trans h.fwd, fun j => (k.tun j).trans (h.tun j)⟩

theorem Beside.egressKept (h : Beside s t) : EgressKept s t :=
  ⟨by rw [h.fwd], fun j => by unfold State.wide; rw [h.wide]⟩

/-- The drop counters of codes below 0x200 stand before the counters of the tunnelling engine. -/
theorem tunCnt_ne_dropCnt (j : Nat) {code : Nat} (h : code < 0x200) : R.tunCnt j ≠ R.dropCnt code := by
  simp only [R.tunCnt, R.dropCnt]
  omega

theorem Settled.egressKept (h : Settled s t) : EgressKept s t :=
  ⟨congrArg (fun f : FwdUnit => { f with eg := [] }) h.fwd, fun j => h.wide _ (tunCnt_ne_dropCnt j (by decide))⟩

theorem State.countDrop_egressKept (s : State) {code : Nat} (h : code < 0x200) : EgressKept s (s.countDrop code) :=
  ⟨rfl, fun j => State.wide_countWide_other s 1 (tunCnt_ne_dropCnt j h)⟩

theorem State.setEg_egressKept (s : State) (c : Nat) (e : EgPort) : EgressKept s (s.setEg c e) := ⟨rfl, fun _ => rfl⟩

theorem State.setQueue_egressKept (s : State) (c q : Nat) (l : List Copy) : EgressKept s (s.setQueue c q l) := s.setEg_egressKept c _

theorem State.settleFrame_egressKept (s : State) (id : Nat) : EgressKept s (s.settleFrame id) := (s.settleFrame_settled id).egressKept

/-- A copy that ends under a reason. -/
theorem State.endCopy_egressKept (s : State) {code : Nat} (c : Copy) (h : code < 0x200) : EgressKept s (s.endCopy code c) := by
  have hbus : EgressKept s (if code = 0x1A ∧ isC c.port.toNat then s.count (R.canCnt (c.port.toNat - 0x20) 5) else s) := by
    split
    · exact (s.count_beside _ 1).egressKept
    · exact .refl s
  have hfar : ∀ t : State, EgressKept t (if code = 0x15 ∨ code = 0x18 ∨ code = 0x1A then t.unsendable c.frame else t) := fun t => by
    split
    · exact (t.unsendable_beside _).egressKept
    · exact .refl t
  exact (((hbus.trans (State.countDrop_egressKept _ h)).trans (hfar _)).trans (State.noProtect_beside _ _ _).egressKept).trans
    (State.settleFrame_egressKept _ _)

theorem State.refuseCopy_egressKept (s : State) (c : Copy) : EgressKept s (s.refuseCopy c) :=
  (s.countDrop_egressKept (by decide)).trans (State.settleFrame_egressKept _ _)

theorem State.deferCopy_egressKept (s : State) (c : Copy) : EgressKept s (s.deferCopy c) := by
  unfold State.deferCopy
  dsimp only
  split
  · exact .refl s
  · split
    · exact ((s.countDrop_egressKept (by decide)).trans (State.makeCapture_beside _ _ _ _ _ _).egressKept).trans
        (State.settleFrame_egressKept _ _)
    · exact s.refuseCopy_egressKept c

/-- The judgement of a queue's heads, by the copies that it ends. -/
theorem settleHead_egressKept (c q k : Nat) (s : State) : EgressKept s (settleHead c q k s) := by
  induction k generalizing s with
  | zero => exact .refl s
  | succ k ih =>
    unfold settleHead
    split
    next => exact .refl s
    next h r _ =>
      have hset : ∀ l, EgressKept s (s.setQueue c q l) := s.setQueue_egressKept c q
      have hdefer := ((hset r).trans (State.deferCopy_egressKept _ h)).trans (ih _)
      have hrefuse := ((hset r).trans (State.refuseCopy_egressKept _ h)).trans (ih _)
      split
      · exact .refl s
      extract_lets act t
      split
      · exact hdefer
      split
      · exact hrefuse
      split
      · split
        · split
          · exact hdefer
          · exact hrefuse
        · exact hset _
      · exact hset _

theorem State.pushCopy_egressKept (s : State) (c : Copy) : EgressKept s (s.pushCopy c) :=
  (s.setQueue_egressKept _ _ _).trans (settleHead_egressKept _ _ _ _)

theorem State.goneCopy_egressKept (s : State) (c : Copy) : EgressKept s (s.goneCopy c) := by
  unfold State.goneCopy
  dsimp only
  split
  · exact s.pushCopy_egressKept _
  · exact s.endCopy_egressKept c (by decide)

theorem State.enqueue_egressKept (s : State) (c : Copy) : EgressKept s (s.enqueue c) := by
  unfold State.enqueue
  dsimp only
  split
  · exact s.pushCopy_egressKept c
  · split
    · exact s.endCopy_egressKept c (by decide)
    · exact s.goneCopy_egressKept c

/-- A copy that meets the admission policy, and then its port. -/
theorem State.admitCopy_egressKept (s : State) (c : Copy) : EgressKept s (s.admitCopy c) := by
  unfold State.admitCopy
  split
  · exact s.deferCopy_egressKept c
  · exact s.refuseCopy_egressKept c
  · exact s.enqueue_egressKept c

theorem State.sendPlanned_egressKept (s : State) {x : Copy × Nat} (h : x.2 < 0x200) : EgressKept s (s.sendPlanned x) := by
  unfold State.sendPlanned
  split
  · exact s.admitCopy_egressKept x.1
  · exact s.countDrop_egressKept h

/-- A plan of copies whose reasons are drop reasons. -/
theorem sendPlan_egressKept (l : List (Copy × Nat)) (h : ∀ x ∈ l, x.2 < 0x200) (s : State) :
    EgressKept s (l.foldl State.sendPlanned s) := by
  induction l generalizing s with
  | nil => exact .refl s
  | cons x l ih =>
    exact (s.sendPlanned_egressKept (h x (by simp))).trans (ih (fun y hy => h y (by simp [hy])) _)

theorem State.pruneReason_lt (s : State) (c : Nat) (f : Frame) (x : Copy) (eth judge : Bool) (fam : Nat) :
    s.pruneReason c f x eth judge fam < 0x200 := by
  unfold State.pruneReason
  split
  · decide
  · split
    · decide
    · split
      · split <;> decide
      · decide

theorem State.copyOn_reason {f : Frame} {p : Parsed} {eth judge : Bool} {fam c : Nat} {x : Copy × Nat}
    (h : s.copyOn f p eth judge fam c = some x) : x.2 < 0x200 := by
  unfold State.copyOn at h
  split at h
  · contradiction
  · cases h
    exact s.pruneReason_lt _ _ _ _ _ _

end Sys2Proof.Machine
end

section
/-! SUPPORT. Arbiters at a window start and the tunnelling engine's grants: what a refill gives each counter (R137), and that the service
of a copy leaves the engine's queue and every arbiter as they were (R36, R111, R113, R114). -/

namespace Sys2Proof.Machine

variable {s t u : State}

/-! ### Arbiters (R36, R137) -/

theorem refill_range_succ (w : Nat → Nat) (credit : List (Nat × Nat)) (n : Nat) :
    refill ((List.range (n + 1)).map (fun i => (i, w i))) credit =
      (let c := refill ((List.range n).map (fun i => (i, w i))) credit
       kvSet 0 c n (min (kvGet 0 c n + w n) 0xFFFF)) := by
  simp [refill, List.range_succ]

/-- Every requester's counter grows by its weight, up to 0xFFFF, and no other counter changes. -/
theorem kvGet_refill_range (w : Nat → Nat) (credit : List (Nat × Nat)) (n i : Nat) :
    kvGet 0 (refill ((List.range n).map (fun i => (i, w i))) credit) i =
      if i < n then min (kvGet 0 credit i + w i) 0xFFFF else kvGet 0 credit i := by
  induction n with
  | zero => rfl
  | succ n ih =>
    rw [refill_range_succ]
    by_cases h : i = n
    · subst h
      simp [ih]
    · rw [kvGet_set_other _ _ _ h, ih]
      have hlt : i < n + 1 ↔ i < n := by omega
      simp only [hlt]

/-- No requester wins among none. -/
theorem State.pick_nil (s : State) (a : ArbId) : s.pick a [] = none := by
  unfold State.pick Arb.pick
  split <;> rfl

@[simp] theorem State.arb_setArb_same (s : State) (a : ArbId) (b : Arb) : (s.setArb a b).arb a = b := kvGet_set_same _ _ _ b

/-! ### The engine's own state while it serves a copy (R111, R113, R114) -/

/-- What the service of a copy leaves unchanged: the engine's queue and every arbiter. -/
structure TunnelKept (s t : State) : Prop where
  tunQ : t.fwd.tunQ = s.fwd.tunQ
  arbs : t.fwd.arbs = s.fwd.arbs

theorem TunnelKept.refl (s : State) : TunnelKept s s := ⟨rfl, rfl⟩

theorem TunnelKept.trans (h : TunnelKept s t) (k : TunnelKept t u) : TunnelKept s u :=
  ⟨k.tunQ.trans h.tunQ, k.arbs.trans h.arbs⟩

theorem EgressKept.tunnelKept (h : EgressKept s t) : TunnelKept s t :=
  ⟨(congrArg FwdUnit.tunQ h.fwd :), (congrArg FwdUnit.arbs h.fwd :)⟩

theorem State.countWide_tunnelKept (s : State) (o n : Nat) : TunnelKept s (s.countWide o n) := ⟨rfl, rfl⟩

theorem State.countDrop_tunnelKept (s : State) (code : Nat) : TunnelKept s (s.countDrop code) := ⟨rfl, rfl⟩

theorem State.settleFrame_tunnelKept (s : State) (id : Nat) : TunnelKept s (s.settleFrame id) :=
  (s.settleFrame_egressKept id).tunnelKept

theorem State.dropCopy_tunnelKept (s : State) (code id : Nat) : TunnelKept s (s.dropCopy code id) :=
  (s.countDrop_tunnelKept code).trans (State.settleFrame_tunnelKept _ id)

/-! ### The frames that the engine builds (R98, R105) -/

/-- The bytes of a PDU, with the number that its trailer takes (R121). -/
theorem State.pduBytes_beside (s : State) (tp : Tprof) (seq : Byte) (stampX : W64) (eprof : Nat) (msgs : List Byte) :
    Beside s (s.pduBytes tp seq stampX eprof msgs).2 := by
  unfold State.pduBytes
  split
  · exact .refl s
  · exact ⟨rfl, rfl⟩

/-- A frame that the engine builds takes the next number and enters the packet buffer, and changes nothing else but free values. -/
theorem State.engineFrame_fwd (s : State) (d : FrameDesc) (stampX : W64) (hslot : BitVec 128) (bytes : List Byte) (vid : Nat)
    (owner : Part) (epoch : W64) :
    (s.engineFrame d stampX hslot bytes vid owner epoch).2.fwd.sansBuffer =
      ({ s.fwd with nextFrame := s.fwd.nextFrame + 1 } : FwdUnit).sansBuffer := by
  unfold State.engineFrame State.admitFrame
  exact (State.charge_settled _ _ _ _ _ true).fwd

theorem State.engineFrame_wide (s : State) (d : FrameDesc) (stampX : W64) (hslot : BitVec 128) (bytes : List Byte) (vid : Nat)
    (owner : Part) (epoch : W64) {o : Nat} (h : o ≠ R.dropCnt 0x17) :
    (s.engineFrame d stampX hslot bytes vid owner epoch).2.wide o = s.wide o := by
  unfold State.engineFrame State.admitFrame
  exact (State.charge_settled _ _ _ _ _ true).wide o h

theorem State.engineFrame_tunnelKept (s : State) (d : FrameDesc) (stampX : W64) (hslot : BitVec 128) (bytes : List Byte) (vid : Nat)
    (owner : Part) (epoch : W64) : TunnelKept s (s.engineFrame d stampX hslot bytes vid owner epoch).2 :=
  have h := s.engineFrame_fwd d stampX hslot bytes vid owner epoch
  ⟨(congrArg FwdUnit.tunQ h :), (congrArg FwdUnit.arbs h :)⟩

/-! ### An AVTPDU that closes (R113) -/

/-- What the close of a profile's AVTPDU does: it leaves the open ones, takes the next sequence number, is one frame more, and counts as
one AVTPDU sent. -/
structure Closed (s t : State) (prof : Nat) : Prop where
  openPdu : t.fwd.openPdu = kvErase s.fwd.openPdu prof
  seq : kvGet 0 t.fwd.avtpTx prof = kvGet 0 s.fwd.avtpTx prof + 1
  sent : t.wide (R.tunCnt 1) = s.wide (R.tunCnt 1) + 1
  frame : t.fwd.nextFrame = s.fwd.nextFrame + 1
  kept : TunnelKept s t

theorem State.closePdu_none (s : State) {prof : Nat} (h : s.fwd.openPdu.find? (fun x => x.1 == prof) = none) :
    s.closePdu prof = s := by
  unfold State.closePdu
  rw [h]

/-- The state without a profile's open AVTPDU, whose sequence number is taken. -/
def State.withoutPdu (s : State) (prof : Nat) : State :=
  { s with fwd.openPdu := kvErase s.fwd.openPdu prof, fwd.avtpTx := kvSet 0 s.fwd.avtpTx prof (kvGet 0 s.fwd.avtpTx prof + 1) }

/-- The copies of the frame that an AVTPDU became. -/
def State.pduPlan (s : State) (o : OpenPdu) (f : Frame) : List (Copy × Nat) :=
  (dsetPorts o.dset).filterMap (s.copyOn { f with dset := o.dset } (parseEth f.bytes) true false 0)

/-- The close of an open AVTPDU, step by step: the state without it, its bytes, its frame, its counter, the copies. -/
theorem State.closePdu_some (s : State) {prof k : Nat} {o : OpenPdu}
    (h : s.fwd.openPdu.find? (fun x => x.1 == prof) = some (k, o)) : s.closePdu prof =
      (let seq := kvGet 0 s.fwd.avtpTx prof
       let s1 := s.withoutPdu prof
       let pdu := s1.pduBytes o.image seq o.stampX o.eprof o.msgs.flatten
       let built := pdu.2.engineFrame o.frameDesc o.stampX 0 (wrapEth o.image ++ pdu.1) (tpVid o.image)
         (Fin.ofNat 5 (tpOwner o.image)) o.epoch
       let s4 := built.2.countWide (R.tunCnt 1)
       ((s4.pduPlan o built.1).foldl State.sendPlanned s4).finishBranch built.1.id) := by
  unfold State.closePdu
  rw [h]
  rfl

theorem State.closePdu_closed (s : State) {prof : Nat} {x : Nat × OpenPdu}
    (h : s.fwd.openPdu.find? (fun x => x.1 == prof) = some x) : Closed s (s.closePdu prof) prof := by
  obtain ⟨k, o⟩ := x
  rw [s.closePdu_some h]
  extract_lets seq s1 pdu built s4
  have hpdu : Beside s1 pdu.2 := s1.pduBytes_beside _ _ _ _ _
  have hframe : built.2.fwd.sansBuffer = ({ s1.fwd with nextFrame := s1.fwd.nextFrame + 1 } : FwdUnit).sansBuffer := by
    rw [← hpdu.fwd]
    exact pdu.2.engineFrame_fwd _ _ _ _ _ _ _
  have hwide : built.2.wide (R.tunCnt 1) = s.wide (R.tunCnt 1) := by
    refine (pdu.2.engineFrame_wide _ _ _ _ _ _ _ (by decide)).trans ?_
    unfold State.wide
    rw [hpdu.wide]
    rfl
  have hplan : ∀ y ∈ s4.pduPlan o built.1, y.2 < 0x200 := fun y hy => by
    obtain ⟨c, -, hc⟩ := List.mem_filterMap.1 hy
    exact State.copyOn_reason hc
  have hsent : EgressKept s4 (((s4.pduPlan o built.1).foldl State.sendPlanned s4).finishBranch built.1.id) :=
    (sendPlan_egressKept _ hplan s4).trans (State.finishBranch_settled _ _).egressKept
  have hfwd := hsent.fwd.trans (congrArg (fun f : FwdUnit => { f with eg := [] }) hframe)
  exact {
    openPdu := (congrArg FwdUnit.openPdu hfwd :)
    seq := (congrArg (fun f : FwdUnit => kvGet 0 f.avtpTx prof) hfwd).trans (kvGet_set_same _ _ _ _)
    sent := by
      rw [hsent.tun 1, show s4.wide (R.tunCnt 1) = built.2.wide (R.tunCnt 1) + 1 from built.2.wide_countWide_same _ 1, hwide]
    frame := (congrArg FwdUnit.nextFrame hfwd :)
    kept := ⟨(congrArg FwdUnit.tunQ hfwd :), (congrArg FwdUnit.arbs hfwd :)⟩ }

theorem State.closePdu_tunnelKept (s : State) (prof : Nat) : TunnelKept s (s.closePdu prof) := by
  rcases h : s.fwd.openPdu.find? (fun x => x.1 == prof) with _ | x
  · rw [s.closePdu_none h]
    exact .refl s
  · exact (s.closePdu_closed h).kept

/-! ### Wrapping and unwrapping (R111, R114, R115) -/

theorem State.appendMessage_tunnelKept (s : State) (prof : Nat) (tp : Tprof) (f : Frame) (m : List Byte) :
    TunnelKept s (s.appendMessage prof tp f m) := by
  unfold State.appendMessage
  extract_lets full s1 o fw s2 s3
  have hroom : TunnelKept s s1 := by
    simp only [s1]
    split
    · exact s.closePdu_tunnelKept prof
    · exact .refl s
  have hjoined : TunnelKept s s3 := hroom.trans ⟨rfl, rfl⟩
  split
  · exact hjoined.trans (s3.closePdu_tunnelKept prof)
  · exact hjoined

theorem State.wrapCopy_tunnelKept (s : State) (f : Frame) : TunnelKept s (s.wrapCopy f) := by
  unfold State.wrapCopy
  dsimp only
  split
  · exact s.dropCopy_tunnelKept _ _
  · split
    · exact s.dropCopy_tunnelKept _ _
    · exact (s.appendMessage_tunnelKept _ _ _ _).trans (State.settleFrame_tunnelKept _ _)

theorem State.deliver_tunnelKept (s : State) (f : Frame) (x : Carried) (c : Nat) : TunnelKept s (s.deliver f x c) := by
  unfold State.deliver
  split
  · exact s.countDrop_tunnelKept _
  · exact (((s.engineFrame_tunnelKept _ _ _ _ _ _ _).trans (State.countWide_tunnelKept _ _ _)).trans
      (State.admitCopy_egressKept _ _).tunnelKept).trans (State.finishBranch_settled _ _).egressKept.tunnelKept

/-- The messages of a PDU, delivered in order. -/
theorem State.unwrapMessages_tunnelKept (tp : Tprof) (f : Frame) (bad : Bool) (l : List Acf) (s : State) :
    TunnelKept s (s.unwrapMessages tp f bad l) := by
  induction l generalizing s with
  | nil =>
    unfold State.unwrapMessages
    split
    · exact s.countDrop_tunnelKept _
    · exact .refl s
  | cons x l ih =>
    unfold State.unwrapMessages
    split
    · exact ih s
    split
    · exact (s.countDrop_tunnelKept _).trans (ih _)
    have hdraw : TunnelKept s (if x.type = 0 then drawNat s else (0, s)).2 := by
      split <;> exact ⟨rfl, rfl⟩
    dsimp only
    split
    · exact hdraw.trans (State.countDrop_tunnelKept _ _)
    · split
      · exact hdraw.trans (State.countDrop_tunnelKept _ _)
      · exact (hdraw.trans (State.deliver_tunnelKept _ _ _ _)).trans (ih _)

theorem State.checkSeq_tunnelKept (s : State) (prof : Nat) (seq : Byte) : TunnelKept s (s.checkSeq prof seq) := by
  unfold State.checkSeq
  extract_lets s1
  have hgap : TunnelKept s s1 := by
    simp only [s1]
    split
    · split
      · exact .refl s
      · exact s.countWide_tunnelKept _ 1
    · exact .refl s
  exact hgap.trans ⟨rfl, rfl⟩

theorem State.unwrapCopy_tunnelKept (s : State) (f : Frame) : TunnelKept s (s.unwrapCopy f) := by
  unfold State.unwrapCopy
  dsimp only
  split
  · exact s.dropCopy_tunnelKept _ _
  · exact (((s.checkSeq_tunnelKept _ _).trans (State.countWide_tunnelKept _ _ 1)).trans
      (State.unwrapMessages_tunnelKept _ _ _ _ _)).trans (State.settleFrame_tunnelKept _ _)

/-! ### A grant of the engine (R37, R38) -/

theorem tunnelGrant_idle (s : State) (h : ∀ c, c < 0x70 → s.tunHead c = none) : tunnelGrant s = s := by
  have hready : (List.range 0x70).filter (fun c => (s.tunHead c).isSome) = [] :=
    List.filter_eq_nil_iff.2 fun c hc => by simp [h c (List.mem_range.1 hc)]
  unfold tunnelGrant
  rw [hready, State.pick_nil]

section
variable {c : Nat} {x : TunCopy} {f : Frame}
  (hpick : s.pick .tunnel ((List.range 0x70).filter (fun c => (s.tunHead c).isSome)) = some c) (hhead : s.tunHead c = some (x, f))
include hpick hhead

/-- A cell that is not the copy's last: it counts as taken, for one credit. -/
theorem tunnelGrant_cell (h : x.taken + 1 < f.banks.length) :
    tunnelGrant s = { s.granted .tunnel c 1 with
      fwd.tunQ := s.fwd.tunQ.map (fun y => if y = x then { y with taken := y.taken + 1 } else y) } := by
  unfold tunnelGrant
  simp only [hpick, hhead, if_pos h]
  rfl

/-- With its last cell a copy leaves the queue and is served; the engine's queue and its arbiter are as the grant left them. -/
theorem tunnelGrant_last (h : ¬ x.taken + 1 < f.banks.length) :
    TunnelKept { s.granted .tunnel c 1 with fwd.tunQ := s.fwd.tunQ.erase x } (tunnelGrant s) := by
  unfold tunnelGrant
  simp only [hpick, hhead, if_neg h]
  split
  · exact State.wrapCopy_tunnelKept _ f
  · exact State.unwrapCopy_tunnelKept _ f

end

end Sys2Proof.Machine
end

section
/-! SUPPORT. Locked sequences that overrun (R40, R183): the end of a committed copy, the oldest lock on the slices, and that such an end
takes no lane out of UP. -/

namespace Sys2Proof.Machine

variable {s t u : State}

/-! ### Events that may end a frame of a lane in step 2 of a rate change (R47, R48) -/

theorem State.ethState_of_portUp {n : EPort} (h : s.portUp n = true) : s.ethState n = pUp := by
  have hstate : s.portState n = pUp := by simpa [State.portUp] using h
  unfold State.portState at hstate
  split at hstate
  · contradiction
  · rwa [if_pos (by simp [isE])] at hstate

/-- An event that leaves every lane's state as it was does nothing more. -/
theorem onLanes_same {f : State → State} (h : ∀ n : EPort, (f s).ethState n = s.ethState n) : onLanes f s = f s := by
  unfold onLanes
  refine List.foldl_fixed' (fun n => ?_) _
  unfold State.afterRetune
  rw [if_neg]
  rintro ⟨hup, -, hdown⟩
  rw [h, State.ethState_of_portUp hup] at hdown
  exact hdown.elim (by decide) (by decide)

/-! ### The end of a committed copy (R183) -/

/-- What the end of port `n`'s committed copy does: nothing is committed any more, and the end is counted twice, as a lost one-step frame and
under LOCK_ABORT; no other register below those of the capture queues changes. -/
structure Abandoned (s t : State) (n : Nat) : Prop where
  commit : (t.egOf n).commit = none
  lost : t.rg R.ostepLost = satInc (s.rg R.ostepLost) 1
  dropped : t.wide (R.dropCnt 0x1B) = s.wide (R.dropCnt 0x1B) + 1
  keys : ∀ k, k < 0x80_0000 → k ≠ R.ostepLost → t.key k = s.key k

/-- A register of an Ethernet lane's state is not among those that the end of a committed copy writes. -/
theorem Abandoned.ethState {n : Nat} (h : Abandoned s t n) (m : EPort) : t.ethState m = s.ethState m := by
  refine congrArg (fld · 2 0) (h.keys (R.ethStatus m) ?_ ?_)
  all_goals simp only [R.ethStatus, R.ostepLost]; omega

theorem State.noProtect_rest (s : State) (c : PortCode) (id : Nat) :
    ∃ w, s.noProtect c id = { s with cry.work := w } := by
  unfold State.noProtect
  split
  · exact ⟨_, rfl⟩
  · exact ⟨s.cry.work, rfl⟩

/-- A copy that ends under LOCK_ABORT is counted, and its frame settles: ports and lanes stay, and the registers below those of the capture
queues. -/
theorem State.endCopy_lockAbort (s : State) (c : Copy) :
    (s.endCopy 0x1B c).fwd.eg = s.fwd.eg ∧ (s.endCopy 0x1B c).lnk = s.lnk ∧
      (∀ k, k < 0x80_0000 → (s.endCopy 0x1B c).key k = s.key k) ∧
      (s.endCopy 0x1B c).wide (R.dropCnt 0x1B) = s.wide (R.dropCnt 0x1B) + 1 := by
  have hend : Settled ((s.countDrop 0x1B).noProtect c.port c.frame) (s.endCopy 0x1B c) := by
    unfold State.endCopy
    exact State.settleFrame_settled _ _
  obtain ⟨w, hw⟩ := (s.countDrop 0x1B).noProtect_rest c.port c.frame
  rw [hw] at hend
  exact ⟨(congrArg FwdUnit.eg hend.fwd :), hend.lnk, hend.keys, (hend.wide _ (by decide)).trans (s.wide_countWide_same _ 1)⟩

/-- The count and the end of a committed copy that its port holds no more. -/
theorem State.endCommitted_abandoned (s : State) (o : Out) (c : Copy) {n : Nat} (h : (s.egOf n).commit = none) :
    Abandoned s (((s.count R.ostepLost).emit o).endCopy 0x1B c) n ∧
      (((s.count R.ostepLost).emit o).endCopy 0x1B c).lnk = s.lnk := by
  obtain ⟨heg, hlnk, hkeys, hwide⟩ := State.endCopy_lockAbort ((s.count R.ostepLost).emit o) c
  refine ⟨⟨?_, (hkeys R.ostepLost (by decide)).trans (s.rg_count_same R.ostepLost 1), ?_,
    fun k hk hne => (hkeys k hk).trans (State.key_setKey_other s _ hne)⟩, hlnk.trans (by simp)⟩
  · unfold State.egOf
    rw [heg, State.emit_fwd, State.count_fwd]
    exact h
  · rw [hwide]
    simp [State.wide]

/-- The start of a transmission changes the port's transmission and frames only. -/
theorem State.startTx_rest (s : State) (n : Nat) (x : Tx) : ∃ e fr, s.startTx n x = { s with fwd.eg := e, fwd.frames := fr } ∧
    (kvGet ({} : EgPort) e n).commit = (s.egOf n).commit := by
  have hcommit : ((s.setEg n { s.egOf n with tx := some x }).egOf n).commit = (s.egOf n).commit := by simp
  unfold State.startTx
  dsimp only
  split
  · split <;> exact ⟨_, _, rfl, hcommit⟩
  · exact ⟨_, _, rfl, hcommit⟩

theorem State.startNext_rest (s : State) (n : Nat) : ∃ e fr, s.startNext n = { s with fwd.eg := e, fwd.frames := fr } ∧
    (kvGet ({} : EgPort) e n).commit = (s.egOf n).commit := by
  unfold State.startNext
  dsimp only
  split
  · obtain ⟨e, fr, heq, hcommit⟩ := State.startTx_rest (s.setEg n { s.egOf n with next := none }) n _
    exact ⟨e, fr, heq, hcommit.trans (by simp)⟩
  · exact ⟨s.fwd.eg, s.fwd.frames, rfl, rfl⟩

theorem State.finishRetune_idle (s : State) {n : Nat} (h : (s.lane n).retune = false) : s.finishRetune n = s :=
  if_neg (by simp [h])

/-- The line of a lane that is not in a rate change goes on with the copy that waited for it. -/
theorem Abandoned.lineGoesOn {n : Nat} (h : Abandoned s t n) (hlane : (t.lane n).retune = false) :
    Abandoned s ((t.startNext n).finishRetune n) n := by
  obtain ⟨e, fr, heq, hcommit⟩ := t.startNext_rest n
  have hidle : (t.startNext n).finishRetune n = t.startNext n := State.finishRetune_idle _ (by rw [heq]; exact hlane)
  rw [hidle, heq]
  exact ⟨hcommit.trans h.commit, h.lost, h.dropped, h.keys⟩

/-- A committed copy that waits ends, as does one in transmission on a lane that is not in a rate change. -/
theorem State.abortCommit_abandoned {n : EPort} {m : Commit} (hm : (s.egOf n).commit = some m)
    (h : m.launched = false ∨ ∃ y, (s.egOf n).tx = some y ∧ y.copy.locked = true ∧ (s.lane n).retune = false) :
    Abandoned s (s.abortCommit n 0x1B) n := by
  have hother : ∀ (e : EgPort) (o : Out) (c : Copy), e.commit = none →
      Abandoned s ((((s.setEg n e).count R.ostepLost).emit o).endCopy 0x1B c) n ∧
        ((((s.setEg n e).count R.ostepLost).emit o).endCopy 0x1B c).lnk = s.lnk := fun e o c he => by
    obtain ⟨⟨hcommit, hlost, hdropped, hkeys⟩, hlnk⟩ := (s.setEg n e).endCommitted_abandoned o c (n := n) (by simpa using he)
    exact ⟨⟨hcommit, hlost, hdropped, hkeys⟩, hlnk⟩
  unfold State.abortCommit
  simp only [hm]
  cases hl : m.launched
  · exact (hother _ _ _ rfl).1
  · obtain ⟨y, hy, hlocked, hretune⟩ := h.resolve_left (by simp [hl])
    have hE : isE n.val = true := by simp [isE]
    simp only [hy, State.txAbort, hlocked, hE, if_true]
    obtain ⟨hend, hlnk⟩ := hother { s.egOf n with tx := none, commit := none, free := s.afterGap n }
      (.frame (BitVec.ofNat 8 n) 0 (y.copy.bytes.getD []) true) y.copy rfl
    exact hend.lineGoesOn (by unfold State.lane; rwa [hlnk])

/-- A hardware path's locked sequence that is abandoned, with its report. -/
theorem State.abandonLock_abandoned {n : EPort} {m : Commit} (hm : (s.egOf n).commit = some m)
    (h : m.launched = false ∨ ∃ y, (s.egOf n).tx = some y ∧ y.copy.locked = true ∧ (s.lane n).retune = false) :
    Abandoned s (s.abandonLock n) n := by
  obtain ⟨hcommit, hlost, hdropped, hkeys⟩ := State.abortCommit_abandoned (s := { s with free := s.free + 1 }) hm h
  have hreport := State.report_reported (({ s with free := s.free + 1 } : State).abortCommit n 0x1B) 0x0501 kTransient 0xFF 0xFF
    (Config.freeNat s.free % 2 ^ 32) false
  have hbeside := hreport.beside
  refine ⟨?_, (hreport.keys R.ostepLost (by decide) (by decide)).trans hlost, ?_, fun k hk hne => ?_⟩
  · exact (congrArg (fun f : FwdUnit => (kvGet ({} : EgPort) f.eg n).commit) hbeside.fwd).trans hcommit
  · exact (congrArg (fun l => kvGet (wideReset (R.dropCnt 0x1B)) l (R.dropCnt 0x1B)) hbeside.wide).trans hdropped
  · refine (hreport.keys k ?_ ?_).trans (hkeys k hk hne)
    all_goals simp only [R.errDiscard, R.errStatus]; omega

/-! ### The oldest lock on the slices (R181) -/

/-- A value that is not the default stands in the table. -/
theorem mem_of_kvGet {α : Type} {d v : α} {m : List (Nat × α)} {k : Nat} (h : kvGet d m k = v) (hv : v ≠ d) : (k, v) ∈ m := by
  induction m with
  | nil => exact absurd h.symm hv
  | cons x r ih =>
    obtain ⟨j, w⟩ := x
    unfold kvGet at h
    split at h
    · next hj => simp [hj, h]
    · exact List.mem_cons_of_mem _ (ih h)

/-- The ports whose committed copies lock a slice, each with its committed instant. -/
def State.locks (s : State) : List (Nat × Nat) :=
  s.fwd.eg.filterMap (fun e => e.2.commit.bind (fun m => if m.slice.isSome then some (e.1, m.tc) else none))

theorem State.oldestLock_eq (s : State) :
    s.oldestLock = (s.locks.find? (fun x => s.locks.all (fun y => decide (x.2 ≤ y.2)))).map (·.1) := rfl

/-- There are as many locks as locked slices. -/
theorem State.length_locks (s : State) : s.locks.length = s.lockedSlices.length := by
  unfold State.locks State.lockedSlices
  rw [List.length_filterMap_eq_countP, List.length_filterMap_eq_countP]
  refine List.countP_congr fun e _ => ?_
  rcases e.2.commit with _ | m
  · rfl
  · rcases hs : m.slice with _ | k <;> simp [hs]

theorem State.oldestLock_none (h : s.lockedSlices = []) : s.oldestLock = none := by
  have hlocks : s.locks = [] := List.length_eq_zero_iff.1 (by rw [s.length_locks, h]; rfl)
  rw [s.oldestLock_eq, hlocks]
  rfl

/-- The only lock is the oldest one. -/
theorem State.oldestLock_only {n : Nat} {m : Commit} (hm : (s.egOf n).commit = some m) (hs : m.slice.isSome = true)
    (h : s.lockedSlices.length = 1) : s.oldestLock = some n := by
  have hport : (n, s.egOf n) ∈ s.fwd.eg := mem_of_kvGet rfl fun e => by
    rw [show s.egOf n = {} from e] at hm
    contradiction
  have hmem : (n, m.tc) ∈ s.locks := List.mem_filterMap.2 ⟨_, hport, by simp [hm, hs]⟩
  obtain ⟨x, hx⟩ := List.length_eq_one_iff.1 (s.length_locks.trans h)
  rw [hx, List.mem_singleton] at hmem
  rw [s.oldestLock_eq, hx, ← hmem]
  simp

/-! ### LOCKED_SEQUENCE_TIMEOUT (R40, R294) -/

theorem exec_lockedSequenceTimeout (h : s.works) (a : ArbId) :
    exec (.lockedSequenceTimeout a) s = .next (onLanes (lockedSequenceTimeout a) s) :=
  congrArg (β := Res) .next (clocked_works _ h)

/-- A sequence that changes nothing when it overruns: none is locked. -/
theorem exec_lockedSequenceTimeout_idle (hw : s.works) {a : ArbId} (h : lockedSequenceTimeout a s = s) :
    exec (.lockedSequenceTimeout a) s = .next s := by
  rw [exec_lockedSequenceTimeout hw, onLanes_same fun n => by rw [h], h]

/-- The locked sequence of an Ethernet port is abandoned; that of the slices is the oldest committed copy's. -/
theorem exec_lockedSequenceTimeout_abandons (hw : s.works) {a : ArbId} {n : EPort} {m : Commit} (hm : (s.egOf n).commit = some m)
    (hl : m.launched = false ∨ ∃ y, (s.egOf n).tx = some y ∧ y.copy.locked = true ∧ (s.lane n).retune = false)
    (h : lockedSequenceTimeout a s = s.abandonLock n) :
    exec (.lockedSequenceTimeout a) s = .next (s.abandonLock n) := by
  rw [exec_lockedSequenceTimeout hw, onLanes_same fun k => by rw [h]; exact (State.abandonLock_abandoned hm hl).ethState k, h]

/-- A freeze changes no register of an Ethernet lane. -/
theorem State.freeze_ethState (s : State) (p : Part) (cause what : Nat) (n : EPort) :
    (s.freeze p cause what).ethState n = s.ethState n := by
  refine congrArg (fld · 2 0) (s.freeze_key_other p cause what (k := R.ethStatus n) ?_ ?_ ?_ ?_ ?_)
  all_goals simp only [R.ethStatus, R.errDiscard, R.errStatus, R.secPmEvent, R.secViol, R.secStatus, copyKey]; omega

/-- The end of the dispatcher's step leaves all but the step and the entries that the pours have built. -/
theorem State.endLock_rest (s : State) : ∃ x, s.endLock = { s with cmd.box := none, cmd.pours := x } := by
  unfold State.endLock
  rw [endPourStep_eq]
  exact ⟨_, rfl⟩

/-- A freeze after the end of the dispatcher's step is one of the state before it. -/
theorem Froze.ofEndLock {p : Part} {cause what : Nat} (h : Froze s.endLock t p cause what) : Froze s t p cause what := by
  obtain ⟨x, hx⟩ := s.endLock_rest
  rw [hx] at h
  exact ⟨h.frozen, h.cause, h.count, h.viol, h.started, h.replies, h.mould, h.told, h.config, h.others⟩

/-- A host whose command's words hold the signal box too long is frozen with cause 4 (R294). -/
theorem exec_lockedSequenceTimeout_freezes (hw : s.works) {p : Part} (h : s.lockOwner = some p) (hp : p ≠ pm)
    (hf : s.frozen p = false) : exec (.lockedSequenceTimeout .dispatcher) s = .next (s.endLock.freeze p 4 0) := by
  obtain ⟨x, hx⟩ := s.endLock_rest
  have hact : lockedSequenceTimeout .dispatcher s = s.endLock.freeze p 4 0 := by
    simp only [lockedSequenceTimeout, h]
    exact State.violate_freezes hp (by rw [hx]; exact hf) 4 0
  rw [exec_lockedSequenceTimeout hw, onLanes_same fun n => ?_, hact]
  rw [hact, State.freeze_ethState, hx]
  rfl

end Sys2Proof.Machine
end

section
/-! SUPPORT. The rows of arbiters, the tunnelling engine and stream records, in a state whose clocks run (R36, R85, R87, R111, R113). -/

namespace Sys2Proof.Machine

variable {s : State}

/-- An event on a running clock has its effect. -/
theorem next_clocked (h : s.works) (f : State → State) : (.next (clocked f s) : Res) = .next (f s) :=
  congrArg (β := Res) .next (clocked_works f h)

/-! ### Arbiters and the tunnelling engine -/

theorem exec_arbiterWindowStart (h : s.works) (a : ArbId) :
    ∃ b : Arb, exec (.arbiterWindowStart a) s = .next (s.setArb a b) ∧ b.fills = 0 ∧ b.c = (s.arb a).c ∧
      b.last = (s.arb a).last ∧ b.grants = (s.arb a).grants ∧
      (∀ i, i < arbCount a → kvGet 0 b.credit i = min (kvGet 0 (s.arb a).credit i + s.arbWeight a i) 0xFFFF) ∧
      (∀ i, arbCount a ≤ i → kvGet 0 b.credit i = kvGet 0 (s.arb a).credit i) :=
  ⟨_, next_clocked h _, rfl, rfl, rfl, rfl, fun i hi => (kvGet_refill_range _ _ _ i).trans (if_pos hi),
    fun i hi => (kvGet_refill_range _ _ _ i).trans (if_neg (Nat.not_lt.2 hi))⟩

theorem exec_tunnelGrant_idle (h : s.works) (hnone : ∀ c, c < 0x70 → s.tunHead c = none) : exec .tunnelGrant s = .next s :=
  (next_clocked h _).trans (congrArg (β := Res) .next (tunnelGrant_idle s hnone))

theorem tunnelGrant_arb {c : Nat} {x : TunCopy} {f : Frame}
    (hpick : s.pick .tunnel ((List.range 0x70).filter (fun c => (s.tunHead c).isSome)) = some c) (hhead : s.tunHead c = some (x, f)) :
    (tunnelGrant s).arb .tunnel = (s.arb .tunnel).grant (s.arbN .tunnel) c 1 := by
  by_cases hcell : x.taken + 1 < f.banks.length
  · rw [tunnelGrant_cell hpick hhead hcell]
    exact s.arb_setArb_same .tunnel _
  · unfold State.arb
    rw [(tunnelGrant_last hpick hhead hcell).arbs]
    exact s.arb_setArb_same .tunnel _

theorem exec_tunnelGrant_serves (h : s.works) {c : Nat} {x : TunCopy} {f : Frame}
    (hpick : s.pick .tunnel ((List.range 0x70).filter (fun c => (s.tunHead c).isSome)) = some c) (hhead : s.tunHead c = some (x, f)) :
    ∃ t : State, exec .tunnelGrant s = .next t ∧ t.arb .tunnel = (s.arb .tunnel).grant (s.arbN .tunnel) c 1 ∧
      t.tab.sameConfig s.tab ∧ t.fwd.tunQ = (if x.taken + 1 < f.banks.length then
        s.fwd.tunQ.map (fun y => if y = x then { y with taken := y.taken + 1 } else y) else s.fwd.tunQ.erase x) ∧
      (x.taken + 1 < f.banks.length → t.fwd.frames = s.fwd.frames ∧ t.fwd.eg = s.fwd.eg ∧ t.reg = s.reg) := by
  have hexec : exec .tunnelGrant s = .next (tunnelGrant s) := next_clocked h _
  refine ⟨_, hexec, tunnelGrant_arb hpick hhead, ((exec_follows .tunnelGrant s).out _ hexec).conf rfl, ?_⟩
  by_cases hcell : x.taken + 1 < f.banks.length
  · rw [if_pos hcell, tunnelGrant_cell hpick hhead hcell]
    exact ⟨rfl, fun _ => ⟨rfl, rfl, rfl⟩⟩
  · rw [if_neg hcell]
    exact ⟨(tunnelGrant_last hpick hhead hcell).tunQ, fun h => absurd h hcell⟩

theorem exec_aggHoldExpire_none (h : s.works) {p : Fin 1024} (hnone : s.fwd.openPdu.find? (fun x => x.1 == p.val) = none) :
    exec (.aggHoldExpire p) s = .next s :=
  (next_clocked h _).trans (congrArg (β := Res) .next (s.closePdu_none hnone))

theorem exec_aggHoldExpire_closes (h : s.works) {p : Fin 1024} {x : Nat × OpenPdu}
    (hopen : s.fwd.openPdu.find? (fun x => x.1 == p.val) = some x) :
    ∃ t : State, exec (.aggHoldExpire p) s = .next t ∧ t.fwd.openPdu = kvErase s.fwd.openPdu p.val ∧
      kvGet 0 t.fwd.avtpTx p.val = kvGet 0 s.fwd.avtpTx p.val + 1 ∧ t.wide (R.tunCnt 1) = s.wide (R.tunCnt 1) + 1 ∧
      t.fwd.nextFrame = s.fwd.nextFrame + 1 ∧ t.tab.sameConfig s.tab := by
  have hexec : exec (.aggHoldExpire p) s = .next (s.closePdu p.val) := next_clocked h _
  have hclosed := s.closePdu_closed hopen
  exact ⟨_, hexec, hclosed.openPdu, hclosed.seq, hclosed.sent, hclosed.frame, ((exec_follows (.aggHoldExpire p) s).out _ hexec).conf rfl⟩

/-! ### Stream records (R85, R87, R279) -/

section
variable {p : Part} {d : CmdDesc} (hruns : s.runs p d) (himm : Imm p d 2)
include hruns himm

/-- STREAM_CLEAR of a sound descriptor completes with its body's answer. -/
theorem exec_streamClear : exec (.streamClear p d) s = .next (finish p d (streamClearBody p d s)) :=
  congrArg (β := Res) .next (runCommand_runs hruns
    (himm.check_none rfl rfl rfl (fun h => absurd h Bool.false_ne_true) (fun h => absurd h Bool.false_ne_true)) _)

theorem exec_streamClear_outside (h : 4096 ≤ d.le 0 2) : exec (.streamClear p d) s = .next (s.answered p d St.badParam 0 []) := by
  rw [exec_streamClear hruns himm, streamClearBody, if_pos h]
  rfl

theorem exec_streamClear_clears (h : d.le 0 2 < 4096) : exec (.streamClear p d) s =
    .next ((s.setStream (d.le 0 2) { s.stream (d.le 0 2) with mafre := false }).answered p d St.ok 0 []) := by
  rw [exec_streamClear hruns himm, streamClearBody, if_neg (Nat.not_le.2 h)]
  rfl

end

theorem exec_streamAgeExpire_frees (h : s.works) {i : Fin 4096} (hused : (s.stream i).used = true)
    (hpin : (s.stream i).pinned = false) (hage : s.fd R.streamCfg 15 0 ≠ 0) (hkept : i.val ∉ s.keptRecords) :
    exec (.streamAgeExpire i) s = .next (s.setStream i {}) :=
  (next_clocked h _).trans (congrArg (β := Res) .next (if_pos ⟨hused, by simp [hpin], hage, by simpa using hkept⟩))

theorem exec_streamAgeExpire_stays (h : s.works) {i : Fin 4096} (hnot : (s.stream i).used = false ∨ (s.stream i).pinned = true ∨
    s.fd R.streamCfg 15 0 = 0 ∨ i.val ∈ s.keptRecords) : exec (.streamAgeExpire i) s = .next s := by
  refine (next_clocked h _).trans (congrArg (β := Res) .next (if_neg ?_))
  rintro ⟨hused, hpin, hage, hkept⟩
  rcases hnot with h | h | h | h
  · simp [h] at hused
  · simp [h] at hpin
  · exact hage h
  · simp [h] at hkept

theorem exec_frerResetExpire_resets (h : s.works) {i : Fin 4096} (hused : (s.stream i).used = true) :
    exec (.frerResetExpire i) s = .next (s.setStream i { s.stream i with taken := false, history := 0 }) :=
  (next_clocked h _).trans (congrArg (β := Res) .next (if_pos hused))

theorem exec_frerResetExpire_stays (h : s.works) {i : Fin 4096} (hunused : (s.stream i).used = false) :
    exec (.frerResetExpire i) s = .next s :=
  (next_clocked h _).trans (congrArg (β := Res) .next (if_neg (by simp [hunused])))

end Sys2Proof.Machine

/-! The statements on a step, and on what arbiters, the tunnelling engine, locked sequences and stream records do (01_architecture.md). -/

namespace Sys2Proof

open Sys2Proof.Machine

/-- Settles O1: a step takes the command in front. -/
theorem stepRunsTheFrontCommand : Obligations.StepRunsTheFrontCommand := fun _ _ _ => rfl

/-- Settles O58: one law for each row and case. What a served copy, a closed AVTPDU and an abandoned lock keep is proved along the way of
copies to their ports (`EgressKept`) and of frames that settle (`Settled`). -/
theorem arbitersEnginesAndStreamsGoOn : Obligations.ArbitersEnginesAndStreamsGoOn := by
  intro s hw
  refine ⟨exec_arbiterWindowStart hw, exec_tunnelGrant_idle hw, fun c x f => exec_tunnelGrant_serves hw,
    fun p => ⟨exec_aggHoldExpire_none hw, fun x => exec_aggHoldExpire_closes hw⟩,
    fun n => ⟨fun hnone => exec_lockedSequenceTimeout_idle hw (if_neg (by simp [hnone])), fun m hm hl => ?_⟩,
    fun hnone => exec_lockedSequenceTimeout_idle hw (by simp only [lockedSequenceTimeout, State.oldestLock_none hnone]),
    ⟨exec_lockedSequenceTimeout_idle hw rfl, fun c => exec_lockedSequenceTimeout_idle hw rfl,
      fun c => exec_lockedSequenceTimeout_idle hw rfl⟩,
    fun hnone => exec_lockedSequenceTimeout_idle hw (by simp only [lockedSequenceTimeout, hnone]),
    fun p hp hpm hf => ⟨_, exec_lockedSequenceTimeout_freezes hw hp hpm hf, .ofEndLock (State.freeze_froze _ p 0 (by decide))⟩,
    fun p d hruns himm => ⟨exec_streamClear_outside hruns himm, exec_streamClear_clears hruns himm⟩,
    fun i => ⟨exec_streamAgeExpire_frees hw, exec_streamAgeExpire_stays hw, exec_frerResetExpire_resets hw,
      exec_frerResetExpire_stays hw⟩⟩
  have hend := State.abandonLock_abandoned hm hl
  refine ⟨_, exec_lockedSequenceTimeout_abandons hw hm hl (if_pos (by simp [hm])), hend.commit, hend.lost, hend.dropped,
    fun hslice hone => exec_lockedSequenceTimeout_abandons hw hm hl ?_⟩
  simp only [lockedSequenceTimeout, State.oldestLock_only hm hslice hone]

end Sys2Proof
end

section
/-! SUPPORT. Status words, what events beside the port controllers leave as it was, and the end of a link on a port with nothing in
flight (R49, R171). -/

namespace Sys2Proof.Machine

/-! ### Fields of a word (R8) -/

section
variable {n : Nat} (w : BitVec n)

/-- A bit outside the replaced field is as it was. -/
theorem bit_setFld_other {hi lo i : Nat} (v : Nat) (h : lo ≤ hi) (d : i < lo ∨ hi < i) : bit (setFld w hi lo v) i = bit w i := by
  unfold bit
  rw [getLsbD_setFld w v h, if_neg (by omega : ¬ (lo ≤ i ∧ i ≤ hi))]
  split
  · rfl
  · exact (BitVec.getLsbD_of_ge w i (by omega)).symm

/-- A bit of the replaced field is the one that replaced it. -/
theorem bit_setFld_same {hi lo i : Nat} (v : Nat) (h : lo ≤ i ∧ i ≤ hi) (hn : i < n) :
    bit (setFld w hi lo v) i = v.testBit (i - lo) := by
  unfold bit
  rw [getLsbD_setFld w v (h.1.trans h.2), if_pos hn, if_pos h]

/-- A field without the bit set is as it was. -/
theorem fld_setBit_other {i a b : Nat} (v : Bool) (d : a < i ∨ i < b) : fld (setBit w i v) a b = fld w a b :=
  fld_setFld_other w _ (Nat.le_refl i) d

/-- The low bits of a word, taken as a field, are those of its truncation. -/
theorem ofNat_fld_low (k : Nat) : BitVec.ofNat (k + 1) (fld w k 0) = w.setWidth (k + 1) := by
  apply BitVec.eq_of_toNat_eq
  simp [fld]

end

variable {s t u : State}

/-! ### Registers after a change of one (R366) -/

@[simp] theorem State.bt_modRg_same (s : State) (o : Nat) (f : W32 → W32) (i : Nat) : (s.modRg o f).bt o i = bit (f (s.rg o)) i := by
  rw [State.bt, State.rg_modRg_same]

@[simp] theorem State.fd_modRg_same (s : State) (o : Nat) (f : W32 → W32) (hi lo : Nat) :
    (s.modRg o f).fd o hi lo = fld (f (s.rg o)) hi lo := by
  rw [State.fd, State.rg_modRg_same]

theorem State.bt_modRg_other (s : State) {o j : Nat} (f : W32 → W32) (i : Nat) (h : j ≠ o) : (s.modRg o f).bt j i = s.bt j i := by
  rw [State.bt, State.rg_modRg_other s f h, State.bt]

@[simp] theorem State.faults_countFault_same (s : State) (x : RetryUnit) : (s.countFault x).faults x = s.faults x + 1 :=
  kvGet_set_same 0 s.err.windows (retryKey x) (s.faults x + 1)

/-! ### What the port controllers show (02_ports.md) -/

/-- What an event beside the port controllers leaves as it was: their registers, every 64-bit value, the fault windows, the waiting
REMOTE_ACCESS commands and what the block has sent. -/
structure PortsKept (s t : State) : Prop where
  keys : ∀ k, 0x60_0000 ≤ k → k < 0x70_0000 → t.key k = s.key k
  wide : t.reg.wide = s.reg.wide
  windows : t.err.windows = s.err.windows
  waits : t.cmd.remoteWait = s.cmd.remoteWait
  out : t.out = s.out

theorem PortsKept.refl (s : State) : PortsKept s s := ⟨fun _ _ _ => rfl, rfl, rfl, rfl, rfl⟩

theorem PortsKept.trans (h : PortsKept s t) (k : PortsKept t u) : PortsKept s u :=
  ⟨fun j h1 h2 => (k.keys j h1 h2).trans (h.keys j h1 h2), k.wide.trans h.wide, k.windows.trans h.windows, k.waits.trans h.waits,
    k.out.trans h.out⟩

theorem PortsKept.faults (h : PortsKept s t) (x : RetryUnit) : t.faults x = s.faults x := by
  rw [State.faults, h.windows, State.faults]

theorem PortsKept.wideAt (h : PortsKept s t) (o : Nat) : t.wide o = s.wide o := by
  rw [State.wide, h.wide, State.wide]

/-- A register outside the port controllers' changes. -/
theorem State.modRg_portsKept (s : State) {o : Nat} (f : W32 → W32) (h : o < 0x60_0000 ∨ 0x70_0000 ≤ o) : PortsKept s (s.modRg o f) :=
  ⟨fun k _ _ => State.key_setKey_other s _ (by omega), s.modRg_reg_wide o f, by simp, by simp, by simp⟩

theorem State.fifoPut_windows (s : State) (r : LogEntry) : (s.fifoPut r).2.err.windows = s.err.windows := by
  unfold State.fifoPut
  dsimp only
  split
  · split
    · rfl
    · split
      · rfl
      · simp
  · split
    · rfl
    · simp

theorem State.queueReport_windows (s : State) (r : LogEntry) : (s.queueReport r).err.windows = s.err.windows := by
  have hput := s.fifoPut_windows r
  unfold State.queueReport
  split
  · next heq => rwa [heq] at hput
  · next heq =>
    rw [heq] at hput
    split
    · exact hput
    · exact (State.fifoPut_windows _ _).trans hput

theorem State.report_portsKept (s : State) (code kind part unit detail : Nat) (fault : Bool) :
    PortsKept s (s.report code kind part unit detail fault) := by
  have hwindows : (s.report code kind part unit detail fault).err.windows = s.err.windows := s.queueReport_windows _
  obtain ⟨⟨e, r, heq⟩, hkeys⟩ := s.report_reported code kind part unit detail fault
  refine ⟨fun k h1 h2 => hkeys k ?_ ?_, by rw [heq], hwindows, by rw [heq], by rw [heq]⟩
  all_goals simp only [R.errDiscard, R.errStatus]; omega

@[simp] theorem State.report_tab (s : State) (code kind part unit detail : Nat) (fault : Bool) :
    (s.report code kind part unit detail fault).tab = s.tab := by
  obtain ⟨⟨e, r, heq⟩, -⟩ := s.report_reported code kind part unit detail fault
  rw [heq]

@[simp] theorem State.report_lnk (s : State) (code kind part unit detail : Nat) (fault : Bool) :
    (s.report code kind part unit detail fault).lnk = s.lnk := by
  obtain ⟨⟨e, r, heq⟩, -⟩ := s.report_reported code kind part unit detail fault
  rw [heq]

@[simp] theorem State.report_fwd (s : State) (code kind part unit detail : Nat) (fault : Bool) :
    (s.report code kind part unit detail fault).fwd = s.fwd :=
  (s.report_reported code kind part unit detail fault).beside.fwd

/-! ### The end of a link on a port with nothing in flight (R49) -/

/-- A port is idle by what the forwarding unit and the port controllers hold. -/
theorem State.idlePort_of_eq {c : Nat} (h : s.idlePort c) (hfwd : t.fwd = s.fwd) (hlnk : t.lnk = s.lnk) : t.idlePort c := by
  unfold State.idlePort State.egOf State.frWaiting State.rxOf at *
  rwa [hfwd, hlnk]

theorem State.linkLoss_idle {c : Nat} (h : s.idlePort c) : s.linkLoss c = s.setEg c (s.egOf c) := by
  obtain ⟨hqueues, htx, hpre, hcommit, hnext, hfr, -⟩ := h
  have he : { s.egOf c with queues := [], tx := none, preempted := none, commit := none, next := none } = s.egOf c := by
    generalize s.egOf c = e at hqueues htx hpre hcommit hnext
    cases e
    simp_all
  unfold State.linkLoss State.purgePort
  simp only [he, hfr, hqueues, htx, hpre, hcommit, hnext]
  simp [State.setEg]

theorem State.linkLoss_portsKept {c : Nat} (h : s.idlePort c) : PortsKept s (s.linkLoss c) := by
  rw [State.linkLoss_idle h]
  exact ⟨fun _ _ _ => rfl, rfl, rfl, rfl, rfl⟩

theorem State.rxOf_linkLoss {c : Nat} (h : s.idlePort c) (k : Nat) : (s.linkLoss c).rxOf k = s.rxOf k := by
  rw [State.linkLoss_idle h]
  rfl

/-- The end of one port's link leaves another idle. -/
theorem State.linkLoss_idlePort {c k : Nat} (h : s.idlePort c) (hk : s.idlePort k) : (s.linkLoss c).idlePort k := by
  have heg : (s.setEg c (s.egOf c)).egOf k = s.egOf k := by
    by_cases hck : k = c
    · rw [hck, State.egOf_setEg_same]
    · exact State.egOf_setEg_other s _ hck
  rw [State.linkLoss_idle h]
  unfold State.idlePort
  rw [heg]
  exact hk

theorem State.abortRx_portsKept {c : Nat} (h : s.rxOf c = []) : PortsKept s (s.abortRx c) := by
  unfold State.abortRx
  rw [h]
  exact ⟨fun _ _ _ => rfl, rfl, rfl, rfl, rfl⟩

/-- Reception and transmission of an idle port end with its link. -/
theorem State.linkDown_portsKept {c : Nat} (h : s.idlePort c) : PortsKept s ((s.linkLoss c).abortRx c) := by
  have hrx : s.rxOf c = [] := by
    obtain ⟨-, -, -, -, -, -, hrx⟩ := h
    exact hrx
  exact (State.linkLoss_portsKept h).trans (State.abortRx_portsKept ((State.rxOf_linkLoss h c).trans hrx))

theorem State.startRemotes_none (h : s.cmd.remoteWait = []) : s.startRemotes = s := by
  unfold State.startRemotes
  rw [h]
  show ({ s with cmd.remoteWait := [] } : State) = s
  rw [← h]

/-- The choice of a domain's slave port touches TSU only. -/
theorem State.setSlave_portsKept (s : State) {x : Nat} (hx : x < 2) (k : Option Nat) : PortsKept s (s.setSlave x k) := by
  unfold State.setSlave
  extract_lets w v
  split
  · exact .refl s
  · exact ⟨fun k _ _ => State.key_setKey_other s _ (by simp only [R.domStatus]; omega), rfl, rfl, rfl, rfl⟩

theorem State.chooseSlave_portsKept (s : State) {x : Nat} (hx : x < 2) : PortsKept s (s.chooseSlave x) := by
  unfold State.chooseSlave
  split
  · exact s.setSlave_portsKept hx _
  · split <;> exact s.setSlave_portsKept hx _

theorem State.gptpPortDown_portsKept (s : State) (n : Nat) : PortsKept s (s.gptpPortDown n) := by
  refine PortsKept.trans ?_ ((State.chooseSlave_portsKept _ (by decide)).trans (State.chooseSlave_portsKept _ (by decide)))
  exact ⟨fun _ _ _ => rfl, rfl, rfl, rfl, rfl⟩

end Sys2Proof.Machine
end

section
/-! SUPPORT. The links of the Ethernet ports, in a block whose clocks run (R47 to R51, R141). -/

namespace Sys2Proof.Machine

variable {s t u : State} {n : EPort}

/-! ### Retrains (R48) -/

/-- A lane's port after `k` lane retrains, before the one that retires it: its status but for the retrain count, the 64-bit values, tables
and the forwarding unit are as they were. -/
structure Retrained (s t : State) (n : EPort) (k : Nat) : Prop where
  fields : ∀ hi lo, hi < 8 ∨ 9 < lo → t.fd (R.ethStatus n) hi lo = s.fd (R.ethStatus n) hi lo
  bits : ∀ i, i < 8 ∨ 9 < i → t.bt (R.ethStatus n) i = s.bt (R.ethStatus n) i
  faults : t.faults (.lane n) = s.faults (.lane n) + k
  wide : ∀ o, t.wide o = s.wide o
  tab : t.tab = s.tab
  fwd : t.fwd = s.fwd

theorem ethStatus_port (n : EPort) : 0x60_0000 ≤ R.ethStatus n ∧ R.ethStatus n < 0x70_0000 := by
  simp only [R.ethStatus]
  omega

/-- What the port controllers show has a lane's status in it. -/
theorem PortsKept.ethStatus (h : PortsKept s t) (n : EPort) : t.rg (R.ethStatus n) = s.rg (R.ethStatus n) :=
  h.keys _ (ethStatus_port n).1 (ethStatus_port n).2

theorem State.countRetrain_few {n : EPort} (h : s.faults (.lane n) < 3) :
    s.countRetrain n = ((s.countFault (.lane n)).setFd (R.ethStatus n) 9 8 (s.faults (.lane n) + 1)).report 0x0602 kTransient 0xFF n.val
      (s.faults (.lane n) + 1) := by
  unfold State.countRetrain
  dsimp only
  rw [State.faults_countFault_same, if_neg (by omega), Nat.min_eq_left (by omega)]

/-- One of the first three lane retrains is counted. -/
theorem State.countRetrain_retrained {n : EPort} (h : s.faults (.lane n) < 3) : Retrained s (s.countRetrain n) n 1 ∧
    (s.countRetrain n).fd (R.ethStatus n) 9 8 = s.faults (.lane n) + 1 := by
  have hkept := State.report_portsKept ((s.countFault (.lane n)).setFd (R.ethStatus n) 9 8 (s.faults (.lane n) + 1)) 0x0602 kTransient 0xFF
    n.val (s.faults (.lane n) + 1) false
  rw [← State.countRetrain_few h] at hkept
  have hstatus : (s.countRetrain n).rg (R.ethStatus n) = setFld (s.rg (R.ethStatus n)) 9 8 (s.faults (.lane n) + 1) :=
    (hkept.ethStatus n).trans (State.rg_modRg_same _ _ _)
  refine ⟨⟨fun hi lo d => ?_, fun i d => ?_, ?_, hkept.wideAt, ?_, ?_⟩, ?_⟩
  · rw [State.fd, hstatus]
    exact fld_setFld_other _ _ (by decide) (by omega)
  · rw [State.bt, hstatus]
    exact bit_setFld_other _ _ (by decide) (by omega)
  · exact (hkept.faults _).trans (s.faults_countFault_same _)
  · rw [State.countRetrain_few h, State.report_tab]
    rfl
  · rw [State.countRetrain_few h, State.report_fwd]
    rfl
  · rw [State.fd, hstatus, fld_setFld_same _ _ (by decide) (by decide)]
    omega

theorem Retrained.none (s : State) (n : EPort) : Retrained s s n 0 :=
  ⟨fun _ _ _ => rfl, fun _ _ => rfl, rfl, fun _ => rfl, rfl, rfl⟩

/-- A lane retrain is counted where the lane is good. -/
theorem State.retrainIfGood_retrained (h : s.faults (.lane n) < 3) :
    Retrained s (s.retrainIfGood n) n (if s.laneGood n = true then 1 else 0) := by
  unfold State.retrainIfGood
  split
  · exact (State.countRetrain_retrained h).1
  · exact .none s n

/-! ### Losses (R47, R50, R51) -/

theorem lossBits_fld (c : LossCause) (w : W32) {hi lo : Nat} (h : hi < 3 ∨ 6 < lo) : fld (lossBits c w) hi lo = fld w hi lo := by
  cases c
  case signal => exact fld_setFld_other w 0 (by decide) (by omega)
  case phyLink => exact fld_setBit_other w false (by omega)
  case fecAlign => exact fld_setBit_other w false (by omega)
  all_goals exact (fld_setBit_other _ false (by omega)).trans (fld_setBit_other w false (by omega))

theorem lossBits_signal (w : W32) : bit (lossBits .signal w) 3 = false := bit_setFld_same w 0 (by decide) (by decide)

theorem lossBits_phyLink (w : W32) : bit (lossBits .phyLink w) 6 = false := bit_setBit_same w false (by decide)

/-- What a loss does that a port sees while it is not UP. -/
structure LossSeen (s t : State) (n : EPort) (c : LossCause) : Prop where
  state : t.ethState n = if c = .signal ∧ (s.lane n).change = true then pDown else s.ethState n
  signal : c = .signal → t.bt (R.ethStatus n) 3 = false
  phyLink : c = .phyLink → t.bt (R.ethStatus n) 6 = false
  retune : (t.lane n).retune = (s.lane n).retune
  tab : t.tab = s.tab
  fwd : t.fwd = s.fwd

/-- A loss that ends no rate change: the status bits alone. -/
theorem State.lossSeen_quiet {c : LossCause} (h : ¬ (c = .signal ∧ (s.lane n).change = true)) :
    s.lossSeen n c = s.modRg (R.ethStatus n) (lossBits c) := if_neg h

theorem State.lossSeen_seen (s : State) (n : EPort) (c : LossCause) : LossSeen s (s.lossSeen n c) n c := by
  by_cases h : c = .signal ∧ (s.lane n).change = true
  · obtain ⟨rfl, hchange⟩ := h
    have hword : (s.lossSeen n .signal).rg (R.ethStatus n) = setFld (lossBits .signal (s.rg (R.ethStatus n))) 2 0 pDown := by
      simp only [State.lossSeen, hchange, and_self, if_true, (State.report_portsKept _ _ _ _ _ _ _).ethStatus]
      exact (State.rg_modRg_same _ (R.ethStatus n) (fun w => setFld w 2 0 pDown)).trans
        (congrArg (setFld · 2 0 pDown) (s.rg_modRg_same (R.ethStatus n) (lossBits .signal)))
    have hlane : (s.lossSeen n .signal).lane n = { s.lane n with change := false } := by
      simp only [State.lossSeen, hchange, and_self, if_true]
      simp [State.lane, State.setLane]
    refine ⟨?_, fun _ => ?_, fun h => absurd h (by decide), by rw [hlane], ?_, ?_⟩
    · rw [if_pos ⟨rfl, hchange⟩, State.ethState, State.fd, hword]
      exact fld_setFld_same _ _ (by decide) (by decide)
    · rw [State.bt, hword, bit_setFld_other _ _ (by decide) (by decide)]
      exact lossBits_signal _
    · simp [State.lossSeen, hchange, State.setEthState]
    · simp [State.lossSeen, hchange, State.setEthState]
  · rw [State.lossSeen_quiet h]
    refine ⟨?_, fun hc => ?_, fun hc => ?_, by simp [State.lane], s.modRg_tab _ _, s.modRg_fwd _ _⟩
    · rw [if_neg h]
      exact (s.fd_modRg_same _ _ _ _).trans (lossBits_fld c _ (by decide))
    · rw [State.bt_modRg_same, hc, lossBits_signal]
    · rw [State.bt_modRg_same, hc, lossBits_phyLink]

/-! ### ETH_LINK_LOST (R47, R49, R51) -/

/-- The state with the 8 codewords of an FEC burst counted (R51). -/
def State.burstCounted (s : State) (n : EPort) (c : LossCause) : State :=
  if c = .fecBurst ∧ s.ethFec n ≠ 0 then s.countWide (R.ethCnt n 10) 8 else s

theorem State.burstCounted_rest (s : State) (n : EPort) (c : LossCause) : ∃ w, s.burstCounted n c = { s with reg.wide := w } := by
  unfold State.burstCounted
  split
  · exact ⟨_, rfl⟩
  · exact ⟨s.reg.wide, rfl⟩

/-- Port `n` leaves UP on a loss. -/
def State.lostUp (s : State) (n : EPort) (c : LossCause) : State :=
  ((downCause c s).2.leaveUp n (downCause c s).1).modRg (R.ethStatus n) (lossBits c)

/-- A loss, by the state in which the port sees it. -/
theorem ethLinkLost_eq (c : LossCause) : ethLinkLost n c s =
    if s.ethState n = pDisabled ∨ s.retired n = true then s
    else if s.ethState n ≠ pUp then (s.burstCounted n c).lossSeen n c
    else if laneFault c then ((s.burstCounted n c).lostUp n c).retrainIfGood n else (s.burstCounted n c).lostUp n c := by
  obtain ⟨w, hw⟩ := s.burstCounted_rest n c
  have hstate : (s.burstCounted n c).ethState n = s.ethState n := by rw [hw]; rfl
  have hret : (s.burstCounted n c).retired n = s.retired n := by rw [hw]; rfl
  rw [← hstate, ← hret]
  rfl

theorem ethLinkLost_disabled (c : LossCause) (h : s.ethState n = pDisabled) : ethLinkLost n c s = s := by
  rw [ethLinkLost_eq, if_pos (Or.inl h)]

theorem ethLinkLost_notUp (c : LossCause) (hr : s.retired n = false) (h : s.ethState n ≠ pUp) (hd : s.ethState n ≠ pDisabled) :
    ethLinkLost n c s = (s.burstCounted n c).lossSeen n c := by
  rw [ethLinkLost_eq, if_neg (by simp [hd, hr]), if_pos h]

theorem ethLinkLost_up (c : LossCause) (hr : s.retired n = false) (h : s.ethState n = pUp) :
    ethLinkLost n c s = if laneFault c then ((s.burstCounted n c).lostUp n c).retrainIfGood n else (s.burstCounted n c).lostUp n c := by
  rw [ethLinkLost_eq, if_neg (by simp [h, hr]; decide), if_neg (not_not_intro h)]

theorem downCause_rest (c : LossCause) (s : State) : ∃ f, (downCause c s).2 = { s with free := f } := by
  cases c
  case fecAlign => exact ⟨_, rfl⟩
  all_goals exact ⟨s.free, rfl⟩

/-- The cause that R47 gives a loss. -/
theorem downCause_fst {c : LossCause} (s : State) (h : c ≠ .fecAlign) : (downCause c s).1 =
    match c with | .signal => 1 | .blockLock => 2 | .phyLink => 3 | .fecBurst => 6 | .fecAlign => 0 := by
  cases c
  case fecAlign => exact absurd rfl h
  all_goals rfl

/-- A port with nothing in flight leaves UP: beside its status, the count of lost links and what no port controller shows, nothing
changes. -/
theorem State.leaveUp_portsKept (down : Nat) (hidle : s.idlePort n) (hwait : s.cmd.remoteWait = []) :
    PortsKept ((s.modRg (R.ethStatus n) (fun w => setFld (setFld w 2 0 pDown) 23 16 down)).countWide (R.ethCnt n 11)) (s.leaveUp n down) := by
  unfold State.leaveUp
  extract_lets s1 s2
  have hidle1 : s1.idlePort n := State.idlePort_of_eq hidle (by simp [s1]) (by simp [s1])
  have hdown : PortsKept s1 s2 := ((State.linkDown_portsKept hidle1).trans (State.modRg_portsKept _ _ (by simp only [R.gteStatus]; omega))).trans
    (State.gptpPortDown_portsKept _ n)
  have hreport := hdown.trans (State.report_portsKept s2 0x0601 kTransient 0xFF n.val down false)
  rw [State.startRemotes_none (hreport.waits.trans (by simpa [s1] using hwait))]
  exact hreport

/-- What the loss of an UP port with nothing in flight shows. -/
structure LostUp (s t : State) (n : EPort) (c : LossCause) (down : Nat) : Prop where
  status : t.rg (R.ethStatus n) = lossBits c (setFld (setFld (s.rg (R.ethStatus n)) 2 0 pDown) 23 16 down)
  downs : t.wide (R.ethCnt n 11) = s.wide (R.ethCnt n 11) + 1
  wide : ∀ o, o ≠ R.ethCnt n 11 → t.wide o = s.wide o
  faults : ∀ x, t.faults x = s.faults x

theorem State.lostUp_lost (c : LossCause) (hidle : s.idlePort n) (hwait : s.cmd.remoteWait = []) :
    LostUp s (s.lostUp n c) n c (downCause c s).1 := by
  obtain ⟨f, hf⟩ := downCause_rest c s
  unfold State.lostUp
  rw [hf]
  have hkept := State.leaveUp_portsKept (s := { s with free := f }) (n := n) (downCause c s).1 hidle hwait
  refine ⟨?_, ?_, fun o h => ?_, fun x => ?_⟩
  · rw [State.rg_modRg_same, hkept.ethStatus]
    exact congrArg (lossBits c) (s.rg_modRg_same (R.ethStatus n) (fun w => setFld (setFld w 2 0 pDown) 23 16 (downCause c s).1))
  · exact (hkept.wideAt _).trans (State.wide_countWide_same _ _ 1)
  · exact (hkept.wideAt _).trans (State.wide_countWide_other _ 1 h)
  · exact hkept.faults x

theorem State.burstCounted_burst (s : State) (n : EPort) (c : LossCause) : (s.burstCounted n c).wide (R.ethCnt n 10) =
    s.wide (R.ethCnt n 10) + (if c = .fecBurst ∧ s.ethFec n ≠ 0 then 8 else 0) := by
  unfold State.burstCounted
  split
  · exact s.wide_countWide_same _ 8
  · simp

theorem ethCnt_burst_ne_downs (n : EPort) : R.ethCnt n 10 ≠ R.ethCnt n 11 := by simp [R.ethCnt]

theorem State.burstCounted_downs (s : State) (n : EPort) (c : LossCause) :
    (s.burstCounted n c).wide (R.ethCnt n 11) = s.wide (R.ethCnt n 11) := by
  unfold State.burstCounted
  split
  · exact s.wide_countWide_other 8 (ethCnt_burst_ne_downs n).symm
  · rfl

/-- The loss of an UP port with nothing in flight, with the retrain that it may count. -/
theorem ethLinkLost_retrained (c : LossCause) (hr : s.retired n = false) (h : s.ethState n = pUp) (hidle : s.idlePort n)
    (hwait : s.cmd.remoteWait = []) (hf : s.faults (.lane n) < 3) :
    LostUp (s.burstCounted n c) ((s.burstCounted n c).lostUp n c) n c (downCause c (s.burstCounted n c)).1 ∧
      ∃ k, Retrained ((s.burstCounted n c).lostUp n c) (ethLinkLost n c s) n k := by
  obtain ⟨w, hw⟩ := s.burstCounted_rest n c
  have hlost : LostUp (s.burstCounted n c) ((s.burstCounted n c).lostUp n c) n c (downCause c (s.burstCounted n c)).1 :=
    State.lostUp_lost c (by rw [hw]; exact hidle) (by rw [hw]; exact hwait)
  have hfew : ((s.burstCounted n c).lostUp n c).faults (.lane n) < 3 := by
    rw [hlost.faults, hw]
    exact hf
  refine ⟨hlost, ?_⟩
  rw [ethLinkLost_up c hr h]
  split
  · exact ⟨_, State.retrainIfGood_retrained hfew⟩
  · exact ⟨0, .none _ n⟩

theorem State.ethState_setEthState_same (s : State) (n : EPort) {v : Nat} (h : v < 8) : (s.setEthState n v).ethState n = v :=
  (s.fd_setFd_same _ v (by decide) (by decide)).trans (Nat.mod_eq_of_lt h)

theorem State.bt_setEthState (s : State) (n : EPort) (v : Nat) {i : Nat} (h : 3 ≤ i) :
    (s.setEthState n v).bt (R.ethStatus n) i = s.bt (R.ethStatus n) i :=
  (s.bt_modRg_same _ _ _).trans (bit_setFld_other _ _ (by decide) (by omega))

@[simp] theorem State.lane_setEthState (s : State) (n : EPort) (v k : Nat) : (s.setEthState n v).lane k = s.lane k := rfl

/-- With verify_dis preemption is active at once. -/
theorem State.startVerify_disabled (h : s.bt (R.gteCfg n) 16 = true) : s.startVerify n = s.setBt (R.gteStatus n) 13 true := if_pos h

theorem State.startVerify_sends (h : s.bt (R.gteCfg n) 16 = false) : s.startVerify n =
    ((s.setEg n { s.egOf n with mmTries := 1, mmReplied := false, addFrag := 0 }).setBt (R.gteStatus n) 13 false).emit (.mm n) :=
  if_neg (by simp [h])

theorem State.startVerify_tab (s : State) (n : EPort) : (s.startVerify n).tab = s.tab := by
  cases h : s.bt (R.gteCfg n) 16
  case true => rw [State.startVerify_disabled h, State.setBt_tab]
  case false => rw [State.startVerify_sends h]; rfl

theorem State.startVerify_ethStatus (s : State) (n : EPort) : (s.startVerify n).rg (R.ethStatus n) = s.rg (R.ethStatus n) := by
  have hne : R.ethStatus n ≠ R.gteStatus n := by simp only [R.ethStatus, R.gteStatus]; omega
  cases h : s.bt (R.gteCfg n) 16
  case true =>
    rw [State.startVerify_disabled h]
    exact s.rg_modRg_other _ hne
  case false =>
    rw [State.startVerify_sends h]
    exact State.rg_modRg_other (s.setEg n _) (fun w => setBit w 13 false) hne

/-- The status word of a port that comes UP, with the FEC lock of its mode. -/
def upWord (fec : Nat) (w : W32) : W32 := setBit (setBit (setBit (setFld w 2 0 pUp) 4 true) 5 (fec != 0)) 7 false

theorem upWord_state (fec : Nat) (w : W32) : fld (upWord fec w) 2 0 = pUp := by
  unfold upWord
  rw [fld_setBit_other _ _ (by decide), fld_setBit_other _ _ (by decide), fld_setBit_other _ _ (by decide)]
  exact fld_setFld_same _ _ (by decide) (by decide)

theorem upWord_blockLock (fec : Nat) (w : W32) : bit (upWord fec w) 4 = true := by
  unfold upWord
  rw [bit_setBit_other _ _ (by decide), bit_setBit_other _ _ (by decide)]
  exact bit_setBit_same _ true (by decide)

/-- Training that ends with nothing against it takes the port UP. -/
theorem ethTrainingDone_up (hr : s.retired n = false) (b : Bool) (h : s.ethState n = pTraining) (hin : s.ethInband n = false ∨ b = true)
    (hphy : s.phyPoll n = true → s.bt (R.ethStatus n) 6 = true) :
    ethTrainingDone n b s = ((s.modRg (R.ethStatus n) (upWord (s.ethFec n))).setLane n {}).startVerify n := by
  have hspeed : ¬ (s.ethInband n = true ∧ ¬ b = true) := by
    rintro ⟨h1, h2⟩
    exact hin.elim (fun k => by simp [k] at h1) h2
  have hlink : ¬ (s.phyPoll n = true ∧ ¬ s.bt (R.ethStatus n) 6 = true) := fun ⟨h1, h2⟩ => h2 (hphy h1)
  unfold ethTrainingDone
  rw [if_neg (by simp [h, hr]), if_neg hspeed, if_neg hlink]
  rfl

/-! ### The rows of an Ethernet port's link, in a block whose clocks run -/

section
variable (hw : s.works)
include hw

theorem exec_ethTraining_stays (h : s.ethState n ≠ pTraining) (b : Bool) :
    exec (.ethTrainingDone n b) s = .next s ∧ exec (.ethTrainingTimeout n) s = .next s :=
  ⟨(next_clocked hw _).trans (congrArg (β := Res) .next (if_pos (Or.inl h))),
    (next_clocked hw _).trans (congrArg (β := Res) .next (if_pos (Or.inl h)))⟩

theorem exec_ethLinkLost_disabled (c : LossCause) (h : s.ethState n = pDisabled) : exec (.ethLinkLost n c) s = .next s :=
  (next_clocked hw _).trans (congrArg (β := Res) .next (ethLinkLost_disabled c h))

theorem exec_laneRetuneDone_stays (h : (s.lane n).retune = false ∨ s.ethState n = pUp) (b : Bool) :
    exec (.laneRetuneDone n b) s = .next s :=
  (next_clocked hw _).trans (congrArg (β := Res) .next (if_pos (h.imp_left fun k => by simp [k])))

theorem exec_laneRetuneDone (hlane : (s.lane n).retune = true) (h : s.ethState n ≠ pUp) (b : Bool) :
    ∃ t, exec (.laneRetuneDone n b) s = .next t ∧ (t.lane n).retune = false ∧
      t.ethState n = (if b then (if (s.lane n).change = true then pDown else s.ethState n)
        else if s.bt (R.ethStatus n) 3 = true ∧ s.ethState n = pDown then pTraining else s.ethState n) ∧
      (b = true → t.bt (R.ethStatus n) 3 = false) ∧ t.tab = s.tab := by
  have hexec : exec (.laneRetuneDone n b) s = .next (laneRetuneDone n b s) := next_clocked hw _
  generalize hs1 : s.setLane n { s.lane n with retune := false } = s1
  have hlane1 : s1.lane n = { s.lane n with retune := false } := by rw [← hs1, State.lane_setLane_same]
  have hstate : s1.ethState n = s.ethState n := by rw [← hs1]; rfl
  have hbit : s1.bt (R.ethStatus n) 3 = s.bt (R.ethStatus n) 3 := by rw [← hs1]; rfl
  have htab : s1.tab = s.tab := by rw [← hs1, State.setLane_tab]
  have hact : laneRetuneDone n b s = if b then s1.lossSeen n .signal
      else if s1.bt (R.ethStatus n) 3 ∧ s1.ethState n = pDown then s1.setEthState n pTraining else s1 := by
    unfold laneRetuneDone
    rw [if_neg (by simp [hlane, h]), hs1]
  rw [hact] at hexec
  cases b
  case true =>
    have hseen := s1.lossSeen_seen n .signal
    refine ⟨_, hexec, by simp [hseen.retune, hlane1], ?_, fun _ => hseen.signal rfl, hseen.tab.trans htab⟩
    simp [hseen.state, hlane1, hstate]
  case false =>
    simp only [Bool.false_eq_true, if_false, hbit, hstate] at hexec ⊢
    by_cases hgo : s.bt (R.ethStatus n) 3 = true ∧ s.ethState n = pDown
    · rw [if_pos hgo] at hexec ⊢
      exact ⟨_, hexec, by simp [hlane1], State.ethState_setEthState_same _ _ (by decide), fun h => h.elim, by simp [htab]⟩
    · rw [if_neg hgo] at hexec ⊢
      exact ⟨_, hexec, by simp [hlane1], hstate, fun h => h.elim, htab⟩

theorem exec_mmVerifyTimer (hup : s.portUp n = true) (hv : s.bt (R.gteCfg n) 16 = false) (hno : (s.egOf n).mmReplied = false)
    (h1 : 1 ≤ (s.egOf n).mmTries) (h3 : (s.egOf n).mmTries ≤ 3) :
    ∃ t, exec (.mmVerifyTimer n) s = .next t ∧ (t.egOf n).mmTries = (s.egOf n).mmTries + 1 ∧
      t.out = s.out ++ (if (s.egOf n).mmTries < 3 then [.mm n] else []) ∧ t.reg = s.reg := by
  have hexec : exec (.mmVerifyTimer n) s = .next (mmVerifyTimer n s) := next_clocked hw _
  have hact : mmVerifyTimer n s = (let s1 := s.setEg n { s.egOf n with mmTries := (s.egOf n).mmTries + 1 }
      if (s.egOf n).mmTries < 3 then s1.emit (.mm n) else s1) := by
    unfold mmVerifyTimer
    exact if_neg (by simp [hup, hv, hno]; omega)
  have htries : ∀ e : EgPort, ((s.setEg n e).egOf n).mmTries = e.mmTries := fun e => by rw [State.egOf_setEg_same]
  rw [hact] at hexec
  refine ⟨_, hexec, ?_⟩
  dsimp only
  split
  · exact ⟨htries _, rfl, rfl⟩
  · exact ⟨htries _, (List.append_nil _).symm, rfl⟩

variable (hr : s.retired n = false)
include hr

theorem exec_ethSignalDetect (hp : s.portsStopped = false) (hm : s.ethModeNo n ≠ 0) :
    ∃ t, exec (.ethSignalDetect n) s = .next t ∧ t.bt (R.ethStatus n) 3 = true ∧
      t.ethState n = (if s.ethState n = pDown ∧ (s.lane n).retune = false then pTraining else s.ethState n) ∧ t.tab = s.tab ∧
      t.fwd = s.fwd := by
  have hexec : exec (.ethSignalDetect n) s = .next (ethSignalDetect n s) := next_clocked hw _
  have hsignal : (s.setBt (R.ethStatus n) 3 true).bt (R.ethStatus n) 3 = true := s.bt_setBt_same _ true (by decide)
  have hstate : (s.setBt (R.ethStatus n) 3 true).ethState n = s.ethState n :=
    (s.fd_modRg_same _ _ _ _).trans (fld_setBit_other _ _ (by decide))
  have hact : ethSignalDetect n s = if s.ethState n = pDown ∧ (s.lane n).retune = false then
      (s.setBt (R.ethStatus n) 3 true).setEthState n pTraining else s.setBt (R.ethStatus n) 3 true := by
    unfold ethSignalDetect
    rw [if_neg (by simp [hm, hr, hp])]
    simp only [hstate, Bool.not_eq_true]
    rfl
  rw [hact] at hexec
  by_cases hgo : s.ethState n = pDown ∧ (s.lane n).retune = false
  · rw [if_pos hgo] at hexec ⊢
    exact ⟨_, hexec, (State.bt_setEthState _ _ _ (by decide)).trans hsignal, State.ethState_setEthState_same _ _ (by decide), by simp,
      by simp⟩
  · rw [if_neg hgo] at hexec ⊢
    exact ⟨_, hexec, hsignal, hstate, by simp, by simp⟩

theorem exec_ethTrainingDone_up (b : Bool) (h : s.ethState n = pTraining) (hin : s.ethInband n = false ∨ b = true)
    (hphy : s.phyPoll n = true → s.bt (R.ethStatus n) 6 = true) :
    ∃ t, exec (.ethTrainingDone n b) s = .next t ∧ t.ethState n = pUp ∧ t.bt (R.ethStatus n) 4 = true ∧ t.tab = s.tab ∧
      (s.bt (R.gteCfg n) 16 = true → t.bt (R.gteStatus n) 13 = true ∧ t.out = s.out) ∧
      (s.bt (R.gteCfg n) 16 = false → t.bt (R.gteStatus n) 13 = false ∧ t.out = s.out ++ [.mm n] ∧ (t.egOf n).mmTries = 1) := by
  have hexec : exec (.ethTrainingDone n b) s = .next (ethTrainingDone n b s) := next_clocked hw _
  rw [ethTrainingDone_up hr b h hin hphy] at hexec
  generalize hs1 : (s.modRg (R.ethStatus n) (upWord (s.ethFec n))).setLane n {} = s1 at hexec
  have hword : (s1.startVerify n).rg (R.ethStatus n) = upWord (s.ethFec n) (s.rg (R.ethStatus n)) := by
    rw [State.startVerify_ethStatus, ← hs1]
    exact s.rg_modRg_same _ _
  have hdis : s1.bt (R.gteCfg n) 16 = s.bt (R.gteCfg n) 16 := by
    rw [← hs1]
    exact s.bt_modRg_other _ _ (by simp only [R.ethStatus, R.gteCfg]; omega)
  have hout : s1.out = s.out := by rw [← hs1, State.setLane_out, State.modRg_out]
  refine ⟨_, hexec, ?_, ?_, ?_, fun hoff => ?_, fun hon => ?_⟩
  · rw [State.ethState, State.fd, hword, upWord_state]
  · rw [State.bt, hword, upWord_blockLock]
  · rw [State.startVerify_tab, ← hs1, State.setLane_tab, State.modRg_tab]
  · rw [State.startVerify_disabled (hdis.trans hoff), State.setBt_out]
    exact ⟨s1.bt_setBt_same _ true (by decide), hout⟩
  · rw [State.startVerify_sends (hdis.trans hon)]
    refine ⟨State.bt_setBt_same (s1.setEg n _) _ false (by decide), congrArg (· ++ [Out.mm n]) hout, ?_⟩
    exact congrArg EgPort.mmTries (s1.egOf_setEg_same n _)

theorem exec_ethTrainingDone_wrongSpeed (h : s.ethState n = pTraining) (hin : s.ethInband n = true) (hf : s.faults (.lane n) < 3) :
    ∃ t, exec (.ethTrainingDone n false) s = .next t ∧ t.ethState n = pTraining ∧ t.bt (R.ethStatus n) 7 = true ∧
      t.faults (.lane n) = s.faults (.lane n) + 1 ∧ t.fd (R.ethStatus n) 9 8 = s.faults (.lane n) + 1 ∧ t.tab = s.tab ∧ t.fwd = s.fwd := by
  have hexec : exec (.ethTrainingDone n false) s = .next (ethTrainingDone n false s) := next_clocked hw _
  have hact : ethTrainingDone n false s = (s.setBt (R.ethStatus n) 7 true).countRetrain n := by
    unfold ethTrainingDone
    rw [if_neg (by simp [h, hr]), if_pos (by simp [hin])]
  obtain ⟨htrain, hcount⟩ := State.countRetrain_retrained (s := s.setBt (R.ethStatus n) 7 true) (n := n) hf
  rw [hact] at hexec
  refine ⟨_, hexec, ?_, ?_, htrain.faults, hcount, ?_, ?_⟩
  · rw [State.ethState, htrain.fields 2 0 (by decide), ← h]
    exact (s.fd_modRg_same _ _ _ _).trans (fld_setBit_other _ _ (by decide))
  · rw [htrain.bits 7 (by decide)]
    exact s.bt_setBt_same _ true (by decide)
  · rw [htrain.tab, State.setBt_tab]
  · rw [htrain.fwd, State.setBt_fwd]

theorem exec_ethTrainingTimeout (h : s.ethState n = pTraining) (hf : s.faults (.lane n) < 3) :
    ∃ t, exec (.ethTrainingTimeout n) s = .next t ∧ t.ethState n = pDown ∧
      t.fd (R.ethStatus n) 23 16 = 4 ∧ t.tab = s.tab ∧ t.fwd = s.fwd ∧
      t.faults (.lane n) = s.faults (.lane n) + (if s.laneGood n = true then 1 else 0) := by
  have hexec : exec (.ethTrainingTimeout n) s = .next (ethTrainingTimeout n s) := next_clocked hw _
  have hact : ethTrainingTimeout n s =
      (s.modRg (R.ethStatus n) (fun w => setFld (setFld w 2 0 pDown) 23 16 4)).retrainIfGood n :=
    if_neg (by simp [h, hr])
  generalize hs1 : s.modRg (R.ethStatus n) _ = s1 at hact
  have htrain : Retrained s1 (s1.retrainIfGood n) n (if s1.laneGood n = true then 1 else 0) :=
    State.retrainIfGood_retrained (by rw [← hs1]; exact hf)
  have hgood : s1.laneGood n = s.laneGood n := by
    have hmode : R.ethMode n ≠ R.ethStatus n := by simp [R.ethMode, R.ethStatus]
    have hbit : ∀ i, 3 ≤ i → i < 16 → s1.bt (R.ethStatus n) i = s.bt (R.ethStatus n) i := fun i h1 h2 => by
      rw [← hs1, State.bt_modRg_same, bit_setFld_other _ _ (by decide) (by omega), bit_setFld_other _ _ (by decide) (by omega), State.bt]
    have hpoll : s1.phyPoll n = s.phyPoll n := by
      rw [← hs1]
      exact s.bt_modRg_other _ _ hmode
    rw [State.laneGood, hbit 3 (by decide) (by decide), hbit 6 (by decide) (by decide), hpoll, State.laneGood]
  rw [hact] at hexec
  refine ⟨_, hexec, ?_, ?_, ?_, ?_, ?_⟩
  · rw [State.ethState, htrain.fields 2 0 (by decide), ← hs1, State.fd_modRg_same, fld_setFld_other _ _ (by decide) (by decide)]
    exact fld_setFld_same _ _ (by decide) (by decide)
  · rw [htrain.fields 23 16 (by decide), ← hs1, State.fd_modRg_same]
    exact fld_setFld_same _ _ (by decide) (by decide)
  · rw [htrain.tab, ← hs1, State.modRg_tab]
  · rw [htrain.fwd, ← hs1, State.modRg_fwd]
  · rw [htrain.faults, hgood, ← hs1]
    rfl

theorem exec_ethLinkLost_notUp (c : LossCause) (h : s.ethState n ≠ pUp) (hd : s.ethState n ≠ pDisabled) :
    ∃ t, exec (.ethLinkLost n c) s = .next t ∧
      t.ethState n = (if c = .signal ∧ (s.lane n).change = true then pDown else s.ethState n) ∧
      (c = .signal → t.bt (R.ethStatus n) 3 = false) ∧ (c = .phyLink → t.bt (R.ethStatus n) 6 = false) ∧ t.tab = s.tab ∧
      t.fwd = s.fwd := by
  obtain ⟨w, hburst⟩ := s.burstCounted_rest n c
  have hseen := (s.burstCounted n c).lossSeen_seen n c
  have hexec : exec (.ethLinkLost n c) s = .next (ethLinkLost n c s) := next_clocked hw _
  rw [ethLinkLost_notUp c hr h hd] at hexec
  rw [hburst] at hseen hexec
  exact ⟨_, hexec, hseen.state, hseen.signal, hseen.phyLink, hseen.tab, hseen.fwd⟩

theorem exec_ethLinkLost_up (c : LossCause) (hwait : s.cmd.remoteWait = []) (h : s.ethState n = pUp) (hidle : s.idlePort n)
    (hf : s.faults (.lane n) < 3) : ∃ t, exec (.ethLinkLost n c) s = .next t ∧
      t.ethState n = pDown ∧ t.wide (R.ethCnt n 11) = s.wide (R.ethCnt n 11) + 1 ∧ t.tab.sameConfig s.tab ∧
      t.wide (R.ethCnt n 10) = s.wide (R.ethCnt n 10) + (if c = .fecBurst ∧ s.ethFec n ≠ 0 then 8 else 0) ∧
      (c = .signal → t.bt (R.ethStatus n) 3 = false) ∧ (c = .phyLink → t.bt (R.ethStatus n) 6 = false) ∧
      (c ≠ .fecAlign → t.fd (R.ethStatus n) 23 16 =
        match c with | .signal => 1 | .blockLock => 2 | .phyLink => 3 | .fecBurst => 6 | .fecAlign => 0) := by
  have hexec : exec (.ethLinkLost n c) s = .next (ethLinkLost n c s) := next_clocked hw _
  obtain ⟨hlost, k, htrain⟩ := ethLinkLost_retrained c hr h hidle hwait hf
  refine ⟨_, hexec, ?_, ?_, ((exec_follows _ s).out _ hexec).conf rfl, ?_, fun hc => ?_, fun hc => ?_, fun hc => ?_⟩
  · rw [State.ethState, htrain.fields 2 0 (by decide), State.fd, hlost.status, lossBits_fld c _ (by decide),
      fld_setFld_other _ _ (by decide) (by decide)]
    exact fld_setFld_same _ _ (by decide) (by decide)
  · rw [htrain.wide, hlost.downs, State.burstCounted_downs]
  · rw [htrain.wide, hlost.wide _ (ethCnt_burst_ne_downs n), State.burstCounted_burst]
  · rw [htrain.bits 3 (by decide), State.bt, hlost.status, hc, lossBits_signal]
  · rw [htrain.bits 6 (by decide), State.bt, hlost.status, hc, lossBits_phyLink]
  · rw [htrain.fields 23 16 (by decide), State.fd, hlost.status, lossBits_fld c _ (by decide),
      fld_setFld_same _ _ (by decide) (by decide), downCause_fst _ hc]
    cases c <;> rfl

end

end Sys2Proof.Machine
end

section
/-! SUPPORT. The MDIO buses, in a block whose clocks run (R52, R53). -/

namespace Sys2Proof.Machine

variable {s t u : State} {n : EPort}

/-! ### MDIO buses (R52, R53) -/

/-- A write that a master may make has its effect. -/
theorem onWrite_mayWrite {p : Part} {off : Nat} (h : s.mayWrite p off) (f : State → State) : onWrite p off f s = f s := by
  obtain ⟨htakes, hreach, hfrozen⟩ := h
  have hdozing : s.dozing = false := htakes.2.2
  unfold onWrite
  rw [onAccess_takes htakes]
  simp [hdozing, hreach, hfrozen]

section
variable {m : Nat} {x y : MdioReq} {r : List MdioReq}

/-- On a free bus an access starts at once, at the PHY address of its port. -/
theorem State.mdioAdd_free (h : s.mdioQ m = []) : s.mdioAdd m x = (s.setMdioQ m [x]).emit
    (.mdio m (BitVec.ofNat 5 (s.fd (R.ethMode x.port) 12 8)) x.dev x.reg (if x.read then none else some x.data)) := by
  unfold State.mdioAdd
  rw [h]
  rfl

/-- On a busy bus it joins the accesses that wait. -/
theorem State.mdioAdd_busy (h : s.mdioQ m = y :: r) : s.mdioAdd m x = s.setMdioQ m (y :: mdioInsert x r) := by
  unfold State.mdioAdd
  rw [h]

theorem State.mdioAdd_rest (s : State) (m : Nat) (x : MdioReq) : ∃ l o, s.mdioAdd m x = { s with lnk := l, out := o } := by
  unfold State.mdioAdd
  split
  · exact ⟨_, _, rfl⟩
  · exact ⟨_, s.out, rfl⟩

end

/-- What a read of a PHY's link asks. -/
def pollReq (n : EPort) : MdioReq := { who := .poll, port := n.val, dev := 1, reg := 1, read := true, data := 0 }

theorem mdioLinkPoll_due {ms : Nat} (hr : s.retired n = false) (hp : s.portsStopped = false) (hpoll : s.phyPoll n = true)
    (hm : s.ethModeNo n ≠ 0) (h : s.fd (R.mdioCfg (n.val / 4)) 23 16 ≤ ms) :
    mdioLinkPoll n ms s = s.mdioAdd (n.val / 4) (pollReq n) :=
  if_neg (by simp [hr, hp, hpoll, hm, h])

/-- What a poll finds shows in the status of its port, unless it takes an UP port down. -/
theorem State.pollRead_shows {d : BitVec 16} (hr : s.retired n = false) (hp : s.portsStopped = false) (hpoll : s.phyPoll n = true)
    (hm : s.ethModeNo n ≠ 0) (h : bit d 2 = true ∨ s.ethState n ≠ pUp) : s.pollRead n d = s.setBt (R.ethStatus n) 6 (bit d 2) := by
  unfold State.pollRead
  rw [if_neg (by simp [hr, hp, hpoll, hm])]
  exact if_neg fun ⟨h1, h2⟩ => h.elim h1 (fun k => k h2)

/-- The access in progress ends, and no other waits. -/
theorem mdioAccessDone_last {m : Fin 4} {x : MdioReq} (d : BitVec 16) (b : Bool) (h : s.mdioQ m = [x]) :
    mdioAccessDone m d b s = (s.setMdioQ m []).mdioResult m x d b := by
  unfold mdioAccessDone
  rw [h]

/-- The access in progress ends, and the next one starts. -/
theorem mdioAccessDone_more {m : Fin 4} {x y : MdioReq} {r : List MdioReq} (d : BitVec 16) (b : Bool) (h : s.mdioQ m = x :: y :: r) :
    mdioAccessDone m d b s = ((s.setMdioQ m (y :: r)).mdioResult m x d b).mdioShow m y := by
  unfold mdioAccessDone
  rw [h]

/-- A partition's copy of a register is no register that exists once at another key. -/
theorem State.fd_modRgp_other (s : State) {p : Part} {o j : Nat} (f : W32 → W32) (hi lo : Nat) (h : j ≠ copyKey p o) :
    (s.modRgp p o f).fd j hi lo = s.fd j hi lo := by
  unfold State.fd State.rg State.modRgp State.setRgp
  rw [State.key_setKey_other s _ h]

@[simp] theorem State.mdioQ_modRgp (s : State) (p : Part) (o m : Nat) (f : W32 → W32) : (s.modRgp p o f).mdioQ m = s.mdioQ m := by
  unfold State.mdioQ
  rw [State.modRgp_lnk]

@[simp] theorem State.rgp_setMdioQ (s : State) (m : Nat) (l : List MdioReq) (p : Part) (o : Nat) : (s.setMdioQ m l).rgp p o = s.rgp p o := rfl

@[simp] theorem State.fd_setMdioQ (s : State) (m : Nat) (l : List MdioReq) (o hi lo : Nat) : (s.setMdioQ m l).fd o hi lo = s.fd o hi lo := rfl

@[simp] theorem State.mdioQ_emit (s : State) (x : Out) (m : Nat) : (s.emit x).mdioQ m = s.mdioQ m := rfl

@[simp] theorem State.out_emit (s : State) (x : Out) : (s.emit x).out = s.out ++ [x] := rfl

theorem ethMode_ne_mdioAcc (p : Part) (m k : Nat) : R.ethMode k ≠ copyKey p (R.mdioAcc m) := by
  simp only [R.ethMode, R.mdioAcc, copyKey]
  omega

/-- A partition's copy of LNK_MDIO_ACC after its access: not busy, and of a read its data and whether the PHY did not answer. -/
def accDone (read : Bool) (d : BitVec 16) (b : Bool) (w : W32) : W32 :=
  let w1 := setBit w 31 false
  if read then setBit (setFld w1 15 0 d.toNat) 30 b else w1

theorem accDone_busy (read : Bool) (d : BitVec 16) (b : Bool) (w : W32) : bit (accDone read d b w) 31 = false := by
  have hidle : bit (setBit w 31 false) 31 = false := bit_setBit_same w false (by decide)
  cases read
  case false => exact hidle
  case true => exact (bit_setBit_other _ b (by decide)).trans ((bit_setFld_other _ _ (by decide) (by decide)).trans hidle)

theorem accDone_read (d : BitVec 16) (b : Bool) (w : W32) : fld (accDone true d b w) 15 0 = d.toNat ∧ bit (accDone true d b w) 30 = b := by
  refine ⟨(fld_setBit_other _ b (by decide)).trans ((fld_setFld_same _ _ (by decide) (by decide)).trans ?_), bit_setBit_same _ b (by decide)⟩
  exact Nat.mod_eq_of_lt d.isLt

theorem accDone_write (d : BitVec 16) (b : Bool) (w : W32) : fld (accDone false d b w) 15 0 = fld w 15 0 :=
  fld_setBit_other w false (by decide)

theorem State.mdioResult_part {m : Nat} {x : MdioReq} {p : Part} (d : BitVec 16) (b : Bool) (h : x.who = .part p) :
    s.mdioResult m x d b = s.modRgp p (R.mdioAcc m) (accDone x.read d b) := by
  unfold State.mdioResult
  rw [h]
  rfl

section
variable (hw : s.works)
include hw

theorem exec_mdioLinkPoll_early (ms : Nat) (h : s.phyPoll n = false ∨ ms < s.fd (R.mdioCfg (n.val / 4)) 23 16) :
    exec (.mdioLinkPoll n ms) s = .next s :=
  (next_clocked hw _).trans (congrArg (β := Res) .next (if_pos (h.elim (fun k => Or.inr (Or.inl (by simp [k]))) Or.inl)))

theorem exec_mdioLinkPoll {ms : Nat} (hr : s.retired n = false) (hp : s.portsStopped = false) (hpoll : s.phyPoll n = true)
    (hm : s.ethModeNo n ≠ 0) (h : s.fd (R.mdioCfg (n.val / 4)) 23 16 ≤ ms) :
    exec (.mdioLinkPoll n ms) s = .next (s.mdioAdd (n.val / 4) (pollReq n)) :=
  (next_clocked hw _).trans (congrArg (β := Res) .next (mdioLinkPoll_due hr hp hpoll hm h))

theorem exec_mdioAccessDone_none (m : Fin 4) (d : BitVec 16) (b : Bool) (h : s.mdioQ m = []) : exec (.mdioAccessDone m d b) s = .next s :=
  (next_clocked hw _).trans (congrArg (β := Res) .next (by unfold mdioAccessDone; rw [h]))

theorem exec_mdioAccessDone_poll (hr : s.retired n = false) (hp : s.portsStopped = false) (hpoll : s.phyPoll n = true)
    (hm : s.ethModeNo n ≠ 0) (d : BitVec 16) (b : Bool) (hq : s.mdioQ (n.val / 4) = [pollReq n]) (h : bit d 2 = true ∨ s.ethState n ≠ pUp) :
    exec (.mdioAccessDone (Fin.ofNat 4 (n.val / 4)) d b) s =
      .next ((s.setMdioQ (n.val / 4) []).setBt (R.ethStatus n) 6 (bit d 2)) := by
  have hbus : (Fin.ofNat 4 (n.val / 4)).val = n.val / 4 := Nat.mod_eq_of_lt (by omega)
  have hport : Fin.ofNat 16 n.val = n := Fin.ext (Nat.mod_eq_of_lt n.isLt)
  refine (next_clocked hw _).trans (congrArg (β := Res) .next ?_)
  rw [mdioAccessDone_last d b (by rw [hbus]; exact hq), hbus]
  show (s.setMdioQ (n.val / 4) []).pollRead (Fin.ofNat 16 n.val) d = _
  rw [hport]
  exact State.pollRead_shows hr hp hpoll hm h

theorem exec_mdioAccessDone_part (m : Fin 4) (d : BitVec 16) (b : Bool) (p : Part) (x : MdioReq) (r : List MdioReq) :
    s.mdioQ m = x :: r → x.who = .part p → ∃ t, exec (.mdioAccessDone m d b) s = .next t ∧ t.mdioQ m = r ∧
      bit (t.rgp p (R.mdioAcc m)) 31 = false ∧
      (x.read = true → fld (t.rgp p (R.mdioAcc m)) 15 0 = d.toNat ∧ bit (t.rgp p (R.mdioAcc m)) 30 = b) ∧
      (x.read = false → fld (t.rgp p (R.mdioAcc m)) 15 0 = fld (s.rgp p (R.mdioAcc m)) 15 0) ∧
      t.out = s.out ++ (match r with
        | [] => []
        | y :: _ => [.mdio m (BitVec.ofNat 5 (s.fd (R.ethMode y.port) 12 8)) y.dev y.reg (if y.read then none else some y.data)]) ∧
      t.tab = s.tab := by
  intro hq h
  have hexec : exec (.mdioAccessDone m d b) s = .next (mdioAccessDone m d b s) := next_clocked hw _
  generalize hs1 : (s.setMdioQ m r).modRgp p (R.mdioAcc m) (accDone x.read d b) = s1
  have hword : s1.rgp p (R.mdioAcc m) = accDone x.read d b (s.rgp p (R.mdioAcc m)) := by
    rw [← hs1, State.rgp_modRgp_same, State.rgp_setMdioQ]
  have hqueue : s1.mdioQ m = r := by
    rw [← hs1, State.mdioQ_modRgp, State.mdioQ_setMdioQ_same]
  have hphy : ∀ k, s1.fd (R.ethMode k) 12 8 = s.fd (R.ethMode k) 12 8 := fun k => by
    rw [← hs1, State.fd_modRgp_other _ _ _ _ (ethMode_ne_mdioAcc p m k), State.fd_setMdioQ]
  have hout : s1.out = s.out := by rw [← hs1, State.modRgp_out, State.setMdioQ_out]
  have htab : s1.tab = s.tab := by rw [← hs1, State.modRgp_tab, State.setMdioQ_tab]
  have hresult : bit (s1.rgp p (R.mdioAcc m)) 31 = false ∧
      (x.read = true → fld (s1.rgp p (R.mdioAcc m)) 15 0 = d.toNat ∧ bit (s1.rgp p (R.mdioAcc m)) 30 = b) ∧
      (x.read = false → fld (s1.rgp p (R.mdioAcc m)) 15 0 = fld (s.rgp p (R.mdioAcc m)) 15 0) := by
    rw [hword]
    exact ⟨accDone_busy _ _ _ _, fun hx => by rw [hx]; exact accDone_read d b _, fun hx => by rw [hx]; exact accDone_write d b _⟩
  obtain ⟨hbusy, hread, hwrite⟩ := hresult
  cases r with
  | nil =>
    rw [mdioAccessDone_last d b hq, State.mdioResult_part d b h, hs1] at hexec
    exact ⟨_, hexec, hqueue, hbusy, hread, hwrite, by rw [hout, List.append_nil], htab⟩
  | cons y r =>
    rw [mdioAccessDone_more d b hq, State.mdioResult_part d b h, hs1, State.mdioShow, hphy] at hexec
    exact ⟨_, hexec, hqueue, hbusy, hread, hwrite, by rw [State.out_emit, hout], htab⟩

end

@[simp] theorem State.rgp_mdioAdd (s : State) (m : Nat) (x : MdioReq) (p : Part) (o : Nat) : (s.mdioAdd m x).rgp p o = s.rgp p o := by
  obtain ⟨l, out, h⟩ := s.mdioAdd_rest m x
  rw [h]
  rfl

@[simp] theorem State.mdioAdd_tab (s : State) (m : Nat) (x : MdioReq) : (s.mdioAdd m x).tab = s.tab := by
  obtain ⟨l, out, h⟩ := s.mdioAdd_rest m x
  rw [h]

/-- What a write of a partition's LNK_MDIO_ACC asks of the bus. -/
def State.accReq (s : State) (p : Part) (m : Fin 4) (v : W32) : MdioReq :=
  { who := .part p, port := 4 * m.val + fld (s.rgp p (R.mdioReg m)) 22 21, dev := BitVec.ofNat 5 (fld (s.rgp p (R.mdioReg m)) 20 16)
    reg := BitVec.ofNat 16 (fld (s.rgp p (R.mdioReg m)) 15 0), read := bit v 16, data := v.setWidth 16 }

/-- The state in which a partition's LNK_MDIO_ACC holds the written access, busy. -/
def State.accBusy (s : State) (p : Part) (m : Fin 4) (v : W32) : State :=
  (s.modRgp p (R.mdioAcc m) (fun w => setFld w 16 0 (fld v 16 0))).modRgp p (R.mdioAcc m) (fun w => setBit (setBit w 31 true) 30 false)

theorem State.accBusy_busy (s : State) (p : Part) (m : Fin 4) (v : W32) : bit ((s.accBusy p m v).rgp p (R.mdioAcc m)) 31 = true := by
  rw [State.accBusy, State.rgp_modRgp_same, bit_setBit_other _ _ (by decide)]
  exact bit_setBit_same _ true (by decide)

theorem State.accBusy_phy (s : State) (p : Part) (m : Fin 4) (v : W32) (k : Nat) :
    (s.accBusy p m v).fd (R.ethMode k) 12 8 = s.fd (R.ethMode k) 12 8 := by
  rw [State.accBusy, State.fd_modRgp_other _ _ _ _ (ethMode_ne_mdioAcc p m k), State.fd_modRgp_other _ _ _ _ (ethMode_ne_mdioAcc p m k)]

@[simp] theorem State.accBusy_mdioQ (s : State) (p : Part) (m : Fin 4) (v : W32) (k : Nat) : (s.accBusy p m v).mdioQ k = s.mdioQ k := by
  rw [State.accBusy, State.mdioQ_modRgp, State.mdioQ_modRgp]

@[simp] theorem State.accBusy_out (s : State) (p : Part) (m : Fin 4) (v : W32) : (s.accBusy p m v).out = s.out := by
  rw [State.accBusy, State.modRgp_out, State.modRgp_out]

@[simp] theorem State.accBusy_tab (s : State) (p : Part) (m : Fin 4) (v : W32) : (s.accBusy p m v).tab = s.tab := by
  rw [State.accBusy, State.modRgp_tab, State.modRgp_tab]

theorem State.mdioStart_joins {p : Part} {m : Fin 4} {v : W32} (hv : bit v 31 = true) (hfree : bit (s.rgp p (R.mdioAcc m)) 31 = false)
    (hholds : s.holds p .port (s.accReq p m v).port = true) :
    s.mdioStart p p m v = (s.accBusy p m v).mdioAdd m (s.accReq p m v) := by
  have hdata : BitVec.ofNat 16 (fld v 15 0) = v.setWidth 16 := ofNat_fld_low v 15
  unfold State.mdioStart
  dsimp only
  rw [if_neg (by simp [hv, hfree]), hdata]
  exact if_neg (not_not_intro hholds)

theorem exec_mdioAccessStart {p : Part} {m : Fin 4} {v : W32} (hmay : s.mayWrite p (R.mdioAcc m)) (hv : bit v 31 = true)
    (hfree : bit (s.rgp p (R.mdioAcc m)) 31 = false) (hholds : s.holds p .port (s.accReq p m v).port = true) :
    exec (.mdioAccessStart p m v) s = .next ((s.accBusy p m v).mdioAdd m (s.accReq p m v)) :=
  congrArg (β := Res) .next ((onWrite_mayWrite hmay (mdioAccessStart p m v)).trans (State.mdioStart_joins hv hfree hholds))

theorem State.accBusy_mdioAdd_busy (s : State) (p : Part) (m : Fin 4) (v : W32) (x : MdioReq) :
    bit (((s.accBusy p m v).mdioAdd m x).rgp p (R.mdioAcc m)) 31 = true := by
  rw [State.rgp_mdioAdd, State.accBusy_busy]

/-- The access joins the bus as before the write. -/
theorem State.accBusy_mdioAdd_free {p : Part} {m : Fin 4} {x : MdioReq} (v : W32) (h : s.mdioQ m = []) :
    ((s.accBusy p m v).mdioAdd m x).mdioQ m = [x] ∧ ((s.accBusy p m v).mdioAdd m x).out = s.out ++
      [.mdio m (BitVec.ofNat 5 (s.fd (R.ethMode x.port) 12 8)) x.dev x.reg (if x.read then none else some x.data)] := by
  have hfree : (s.accBusy p m v).mdioQ m = [] := (s.accBusy_mdioQ p m v m).trans h
  rw [State.mdioAdd_free hfree, State.accBusy_phy, State.mdioQ_emit, State.mdioQ_setMdioQ_same, State.out_emit, State.setMdioQ_out,
    State.accBusy_out]
  exact ⟨rfl, rfl⟩

theorem State.accBusy_mdioAdd_wait {p : Part} {m : Fin 4} {x y : MdioReq} {l : List MdioReq} (v : W32) (h : s.mdioQ m = y :: l) :
    ((s.accBusy p m v).mdioAdd m x).mdioQ m = y :: mdioInsert x l ∧ ((s.accBusy p m v).mdioAdd m x).out = s.out := by
  have hbusy : (s.accBusy p m v).mdioQ m = y :: l := (s.accBusy_mdioQ p m v m).trans h
  rw [State.mdioAdd_busy hbusy, State.mdioQ_setMdioQ_same, State.setMdioQ_out, State.accBusy_out]
  exact ⟨rfl, rfl⟩

end Sys2Proof.Machine
end

section
/-! SUPPORT. The T1S, CAN, LIN and FlexRay ports, in a block whose clocks run (R54, R55, R60 to R65, R326). -/

namespace Sys2Proof.Machine

variable {s t u : State}

/-! ### T1S ports (R54, R55) -/

section
variable {n : Fin 8} (hw : s.works)
include hw

theorem exec_t1sUpTimer (h : s.t1sState n = pDown) (hen : s.bt (R.t1sCfg n) 0 = true) (hp : s.portsStopped = false) :
    exec (.t1sUpTimer n) s = .next (if s.t1sFollower n then s else s.setFd (R.t1sStatus n) 2 0 pUp) := by
  refine (next_clocked hw _).trans (congrArg (β := Res) .next ?_)
  cases hf : s.t1sFollower n <;> simp [t1sUpTimer, h, hen, hp, hf]

theorem exec_t1sBeaconReceived (h : s.t1sState n = pDown) (hen : s.bt (R.t1sCfg n) 0 = true) (hp : s.portsStopped = false) :
    exec (.t1sBeaconReceived n) s = .next (if s.t1sFollower n then s.setFd (R.t1sStatus n) 2 0 pUp else s) := by
  refine (next_clocked hw _).trans (congrArg (β := Res) .next ?_)
  cases hf : s.t1sFollower n <;> simp [t1sBeaconReceived, h, hen, hp, hf]

theorem exec_t1sBeaconLoss_stays (h : s.t1sState n ≠ pUp ∨ s.t1sFollower n = false) : exec (.t1sBeaconLoss n) s = .next s := by
  refine (next_clocked hw _).trans (congrArg (β := Res) .next (if_neg ?_))
  rintro ⟨hup, hf⟩
  exact h.elim (fun k => k hup) (fun k => by simp [k] at hf)

theorem exec_t1sBeaconLoss_down (h : s.t1sState n = pUp) (hf : s.t1sFollower n = true) (hidle : s.idlePort (0x10 + n)) :
    ∃ t, exec (.t1sBeaconLoss n) s = .next t ∧ t.t1sState n = pDown ∧ t.tab.sameConfig s.tab := by
  have hexec : exec (.t1sBeaconLoss n) s = .next (t1sBeaconLoss n s) := next_clocked hw _
  refine ⟨_, hexec, ?_, ((exec_follows _ s).out _ hexec).conf rfl⟩
  generalize hs1 : ((s.setFd (R.t1sStatus n) 2 0 pDown).count (R.t1sCnt n 4)).count (R.t1sCnt n 5) = s1
  have hact : t1sBeaconLoss n s = (s1.linkLoss (0x10 + n)).abortRx (0x10 + n) := by
    unfold t1sBeaconLoss
    rw [if_pos ⟨h, hf⟩, ← hs1]
  have hidle1 : s1.idlePort (0x10 + n) := State.idlePort_of_eq hidle (by simp [← hs1]) (by simp [← hs1])
  have hstate : s1.t1sState n = pDown := by
    rw [← hs1, State.t1sState, State.fd, State.rg_count_other _ _ (by simp [R.t1sStatus, R.t1sCnt]; omega),
      State.rg_count_other _ _ (by simp [R.t1sStatus, R.t1sCnt]; omega)]
    exact s.fd_setFd_same _ _ (by decide) (by decide)
  rw [hact]
  have hkept := State.linkDown_portsKept hidle1
  exact (congrArg (fld · 2 0) (hkept.keys (R.t1sStatus n) (by simp only [R.t1sStatus]; omega) (by simp only [R.t1sStatus]; omega))).trans
    hstate

end

/-! ### CAN controllers (R60) -/

section
variable {n : Fin 48} (hw : s.works)
include hw

theorem exec_canBusOff_stays (h : s.portUp (0x20 + n) = false) : exec (.canBusOff n) s = .next s :=
  (next_clocked hw _).trans (congrArg (β := Res) .next (if_pos (by simp [h])))

theorem exec_canBusOff (hwait : s.cmd.remoteWait = []) (h : s.portUp (0x20 + n) = true) (hidle : s.idlePort (0x20 + n)) :
    ∃ t, exec (.canBusOff n) s = .next t ∧ t.canState n = 2 ∧ t.rg (R.canCnt n 4) = satInc (s.rg (R.canCnt n 4)) 1 ∧
      t.tab.sameConfig s.tab := by
  have hexec : exec (.canBusOff n) s = .next (canBusOff n s) := next_clocked hw _
  generalize hs1 : (s.setFd (R.canStatus n) 17 16 2).count (R.canCnt n 4) = s1
  have hact : canBusOff n s = (s1.linkLoss (0x20 + n)).startRemotes := by
    unfold canBusOff
    rw [if_neg (by simp [h]), ← hs1]
  have hidle1 : s1.idlePort (0x20 + n) := State.idlePort_of_eq hidle (by simp [← hs1]) (by simp [← hs1])
  have hkept : PortsKept s1 (s1.linkLoss (0x20 + n)) := State.linkLoss_portsKept hidle1
  have hwait1 : s1.cmd.remoteWait = [] := by rw [← hs1]; simpa using hwait
  have hne : R.canStatus n ≠ R.canCnt n 4 := by simp only [R.canStatus, R.canCnt]; omega
  have hstate : s1.rg (R.canStatus n) = setFld (s.rg (R.canStatus n)) 17 16 2 := by
    rw [← hs1, State.rg_count_other _ _ hne]
    exact s.rg_modRg_same _ _
  have hcount : s1.rg (R.canCnt n 4) = satInc (s.rg (R.canCnt n 4)) 1 := by
    rw [← hs1, State.rg_count_same]
    exact congrArg (satInc · 1) (s.rg_modRg_other _ hne.symm)
  refine ⟨_, hexec, ?_, ?_, ((exec_follows _ s).out _ hexec).conf rfl⟩
  · rw [hact, State.startRemotes_none (hkept.waits.trans hwait1), State.canState, State.fd]
    rw [show (s1.linkLoss (0x20 + n)).rg (R.canStatus n) = s1.rg (R.canStatus n) from
      hkept.keys _ (by simp only [R.canStatus]; omega) (by simp only [R.canStatus]; omega), hstate]
    exact fld_setFld_same _ _ (by decide) (by decide)
  · rw [hact, State.startRemotes_none (hkept.waits.trans hwait1)]
    exact (hkept.keys _ (by simp only [R.canCnt]; omega) (by simp only [R.canCnt]; omega)).trans hcount

theorem exec_canBusOffRecovered (hp : s.portsStopped = false) (h : s.canState n = 2) (hr : s.retired (0x20 + n) = false) :
    exec (.canBusOffRecovered n) s = .next (if s.bt (R.canCfg n) 5 then s.setRg (R.canStatus n) 0 else s) := by
  refine (next_clocked hw _).trans (congrArg (β := Res) .next ?_)
  cases ha : s.bt (R.canCfg n) 5 <;> simp [canBusOffRecovered, h, hr, hp, ha]

end

/-! ### LIN ports (R61) -/

/-- A header for which no frame waits is left to another responder. -/
theorem State.linServe_waits {n : Nat} {pid : Byte} (own : Bool) (h : s.linReady (0x50 + n) pid = []) :
    s.linServe n pid own = s.setLin n { s.lin n with header := some pid, own := own, publish := false } := by
  unfold State.linServe
  dsimp only
  rw [h, State.pick_nil]

/-- A commander's header for which no frame waits, from a new place in its schedule. -/
theorem State.linSend_waits {n : Nat} {pid : Byte} (l : LinPort) (h : s.linReady (0x50 + n) pid = []) : (s.setLin n l).linSend n pid =
    ((s.setLin n l).emit (.linHeader n pid)).setLin n { l with header := some pid, own := true, publish := false } := by
  have hlin : ((s.setLin n l).emit (.linHeader n pid)).lin n = l := s.lin_setLin_same n l
  have hready : ((s.setLin n l).emit (.linHeader n pid)).linReady (0x50 + n) pid = [] := h
  rw [State.linSend, State.linServe_waits true hready, hlin]

section
variable {n : Fin 24} (hw : s.works)
include hw

theorem exec_linResponseTimeout_none (h : (s.lin n).header = none) : exec (.linResponseTimeout n) s = .next s :=
  (next_clocked hw _).trans (congrArg (β := Res) .next (if_neg (by simp [h])))

theorem exec_linResponseTimeout (h : (s.lin n).header ≠ none) : exec (.linResponseTimeout n) s =
    .next ((s.setLin n { s.lin n with header := none }).count (R.linCnt n 3)) :=
  (next_clocked hw _).trans (congrArg (β := Res) .next (if_pos (Option.isSome_iff_ne_none.2 h)))

variable (hup : s.portUp (0x50 + n) = true) (htx : (s.egOf (0x50 + n)).tx = none)
include hup htx

theorem exec_linHeaderReceived_off (hmode : s.fd (R.linCfg n) 1 0 = 2) (pid : Byte) (rate : Nat)
    (h : 15 * s.fd (R.linCfg n) 30 16 < 100 * (max rate (s.fd (R.linCfg n) 30 16) - min rate (s.fd (R.linCfg n) 30 16))) :
    exec (.linHeaderReceived n pid rate) s = .next (s.count (R.linCnt n 4)) := by
  refine (next_clocked hw _).trans (congrArg (β := Res) .next ?_)
  unfold linHeaderReceived
  rw [if_neg (by simp [hmode, hup, htx])]
  exact if_pos h

theorem exec_linHeaderReceived (hmode : s.fd (R.linCfg n) 1 0 = 2) (pid : Byte) (rate : Nat)
    (h : 100 * (max rate (s.fd (R.linCfg n) 30 16) - min rate (s.fd (R.linCfg n) 30 16)) ≤ 15 * s.fd (R.linCfg n) 30 16)
    (hready : s.linReady (0x50 + n) pid = []) : exec (.linHeaderReceived n pid rate) s =
      .next (s.setLin n { s.lin n with header := some pid, own := false, publish := false }) := by
  refine (next_clocked hw _).trans (congrArg (β := Res) .next ?_)
  unfold linHeaderReceived
  rw [if_neg (by simp [hmode, hup, htx])]
  exact (if_neg (Nat.not_lt.2 h)).trans (State.linServe_waits false hready)

variable (hmode : s.fd (R.linCfg n) 1 0 = 1)
include hmode

theorem exec_linScheduleSlot_inserted {pid : Byte} {b : Bool} {r : List (Byte × Bool)} (h : (s.lin n).inserted = (pid, b) :: r)
    (hready : s.linReady (0x50 + n) pid = []) : ∃ t, exec (.linScheduleSlot n) s = .next t ∧
      t.out = s.out ++ [.linHeader n pid] ∧ (t.lin n).inserted = r ∧ (t.lin n).header = some pid ∧ (t.lin n).own = true ∧
      t.reg = s.reg := by
  have hexec : exec (.linScheduleSlot n) s = .next (linScheduleSlot n s) := next_clocked hw _
  have hact : linScheduleSlot n s = (s.setLin n { s.lin n with inserted := r, header := none }).linSend n pid := by
    unfold linScheduleSlot
    rw [if_neg (by simp [hmode, hup, htx])]
    dsimp only
    rw [h]
  rw [hact, State.linSend_waits _ hready] at hexec
  refine ⟨_, hexec, rfl, ?_⟩
  rw [State.lin_setLin_same]
  exact ⟨rfl, rfl, rfl, rfl⟩

theorem exec_linScheduleSlot_none (h : (s.lin n).inserted = [])
    (hk : s.linEnabled n (if s.linEnabled n (s.lin n).slot then (s.lin n).slot else 0) = false) :
    exec (.linScheduleSlot n) s = .next s := by
  refine (next_clocked hw _).trans (congrArg (β := Res) .next ?_)
  unfold linScheduleSlot
  rw [if_neg (by simp [hmode, hup, htx])]
  dsimp only
  rw [h]
  exact if_neg (by simp [hk])

theorem exec_linScheduleSlot {k : Nat} (h : (s.lin n).inserted = []) (hk : k = if s.linEnabled n (s.lin n).slot then (s.lin n).slot else 0)
    (hen : s.linEnabled n k = true) (hready : s.linReady (0x50 + n) (BitVec.ofNat 8 (linPid (s.fd (R.linSlot n k) 5 0))) = []) :
    ∃ t, exec (.linScheduleSlot n) s = .next t ∧ (t.lin n).slot = k + 1 ∧ t.reg = s.reg ∧
      (t.lin n).header = some (BitVec.ofNat 8 (linPid (s.fd (R.linSlot n k) 5 0))) ∧
      t.out = s.out ++ [.linHeader n (BitVec.ofNat 8 (linPid (s.fd (R.linSlot n k) 5 0)))] := by
  have hexec : exec (.linScheduleSlot n) s = .next (linScheduleSlot n s) := next_clocked hw _
  have hact : linScheduleSlot n s =
      (s.setLin n { s.lin n with slot := k + 1, header := none }).linSend n (BitVec.ofNat 8 (linPid (s.fd (R.linSlot n k) 5 0))) := by
    unfold linScheduleSlot
    rw [if_neg (by simp [hmode, hup, htx])]
    dsimp only
    rw [h, ← hk]
    exact if_pos hen
  rw [hact, State.linSend_waits _ hready] at hexec
  refine ⟨_, hexec, ?_⟩
  rw [State.lin_setLin_same]
  exact ⟨rfl, rfl, rfl, rfl⟩

end

/-! ### FlexRay controllers (R62 to R65) -/

/-- The buffers of a channel are read from the message buffer registers alone. -/
theorem State.frBuffersOf_congr (h : ∀ j, 0x61_4000 ≤ j → t.rg j = s.rg j) (c id : Nat) : t.frBuffersOf c id = s.frBuffersOf c id := by
  have hcfg : ∀ g b, t.rg (R.frMbCfg g b) = s.rg (R.frMbCfg g b) := fun g b => h _ (by simp only [R.frMbCfg]; omega)
  simp only [State.frBuffersOf, State.bt, State.fd, hcfg]

theorem State.frSlotBuffer_congr (h : ∀ j, 0x61_4000 ≤ j → t.rg j = s.rg j) (f ch cycle slot : Nat) :
    t.frSlotBuffer f ch cycle slot = s.frSlotBuffer f ch cycle slot := by
  have hcyc : ∀ g b, t.rg (R.frMbCyc g b) = s.rg (R.frMbCyc g b) := fun g b => h _ (by simp only [R.frMbCyc]; omega)
  simp only [State.frSlotBuffer, State.frBuffersOf_congr h, State.frSends, State.fd, hcyc]

/-- A controller transmits on a channel: mode 0b01, and the channel is enabled. -/
def State.frTransmits (s : State) (f ch : Nat) : Prop := s.fd (R.frCfg f) 1 0 = 1 ∧ s.bt (R.frCfg f) (4 + ch) = true

/-- The state that shows a cycle. -/
def State.frShown (s : State) (f : Nat) (cyc : BitVec 6) : State := s.setFd (R.frStatus f) 9 4 cyc.toNat

theorem State.frShown_rg (s : State) {f j : Nat} (cyc : BitVec 6) (h : j ≠ R.frStatus f) : (s.frShown f cyc).rg j = s.rg j :=
  s.rg_modRg_other _ h

theorem State.frShown_buffers (s : State) (f : Fin 2) (cyc : BitVec 6) {j : Nat} (h : 0x61_4000 ≤ j) : (s.frShown f cyc).rg j = s.rg j :=
  s.frShown_rg cyc (by simp only [R.frStatus]; omega)

@[simp] theorem State.frShown_fwd (s : State) (f : Nat) (cyc : BitVec 6) : (s.frShown f cyc).fwd = s.fwd := s.modRg_fwd _ _
@[simp] theorem State.frShown_lnk (s : State) (f : Nat) (cyc : BitVec 6) : (s.frShown f cyc).lnk = s.lnk := s.modRg_lnk _ _
@[simp] theorem State.frShown_tab (s : State) (f : Nat) (cyc : BitVec 6) : (s.frShown f cyc).tab = s.tab := s.modRg_tab _ _

/-- A slot is the key slot of a controller that has one. -/
def State.frKeySlot (s : State) (f slot : Nat) : Prop := s.bt (R.frCfg f) 3 = true ∧ s.fd (R.frNode f) 10 0 = slot

theorem State.frKeySlot_shown (s : State) (f : Nat) (cyc : BitVec 6) (slot : Nat) :
    (s.frShown f cyc).frKeySlot f slot ↔ s.frKeySlot f slot := by
  unfold State.frKeySlot State.bt State.fd
  rw [s.frShown_rg cyc (by simp only [R.frCfg, R.frStatus]; omega), s.frShown_rg cyc (by simp only [R.frNode, R.frStatus]; omega)]

theorem State.frShown_cycle (s : State) (f : Nat) (cyc : BitVec 6) : (s.frShown f cyc).fd (R.frStatus f) 9 4 = cyc.toNat :=
  (s.fd_setFd_same _ _ (by decide) (by decide)).trans (Nat.mod_eq_of_lt cyc.isLt)

section
variable {f : Fin 2} {b : Bool} {cyc : BitVec 6} {slot : BitVec 11} {left : Nat}

theorem frSlot_down (h : s.portUp (0x68 + 2 * f.val + boolNat b) = false)
    (hno : ¬ (s.frTransmits f (boolNat b) ∧ s.frStartup f slot.toNat = true)) : frSlot f b cyc slot left s = s := by
  unfold frSlot
  dsimp only
  rw [if_neg (by simp [h])]
  exact if_neg (by simpa [State.frTransmits] using hno)

theorem frSlot_startup (h : s.portUp (0x68 + 2 * f.val + boolNat b) = false) (hsends : s.frTransmits f (boolNat b))
    (hstart : s.frStartup f slot.toNat = true) :
    frSlot f b cyc slot left s = (s.frShown f cyc).emit (.nullFrame (BitVec.ofNat 8 (0x68 + 2 * f.val + boolNat b)) slot) := by
  obtain ⟨hmode, hchannel⟩ := hsends
  unfold frSlot
  dsimp only
  rw [if_neg (by simp [h]), if_pos (by simp [hmode, hchannel, hstart])]
  rfl

theorem frSlot_quiet (h : s.portUp (0x68 + 2 * f.val + boolNat b) = true) (hpoc : s.fd (R.frStatus f) 2 0 ≠ 3) :
    frSlot f b cyc slot left s = s.frShown f cyc := by
  unfold frSlot
  dsimp only
  rw [if_pos h]
  exact if_pos (Or.inl hpoc)

theorem frSlot_active (h : s.portUp (0x68 + 2 * f.val + boolNat b) = true) (hpoc : s.fd (R.frStatus f) 2 0 = 3)
    (hsends : s.frTransmits f (boolNat b)) (htx : (s.egOf (0x68 + 2 * f.val + boolNat b)).tx = none) :
    frSlot f b cyc slot left s = (s.frShown f cyc).frTransmit f (boolNat b) cyc.toNat slot.toNat left := by
  obtain ⟨hmode, hchannel⟩ := hsends
  unfold frSlot
  dsimp only
  rw [if_pos h, if_neg (by simp [hpoc, hmode, hchannel, htx])]
  rfl

end

/-- In its key slot, without a buffer for it, a controller sends a null frame. -/
theorem State.frTransmit_keyNull {f : Fin 2} {ch cycle left : Nat} {slot : BitVec 11} (hkey : s.frKeySlot f slot.toNat)
    (hnone : s.frBuffersOf (0x68 + 2 * f.val + ch) slot.toNat = []) :
    s.frTransmit f ch cycle slot.toNat left = s.emit (.nullFrame (BitVec.ofNat 8 (0x68 + 2 * f.val + ch)) slot) := by
  have hbuffer : s.frSlotBuffer f ch cycle slot.toNat = none := by
    unfold State.frSlotBuffer
    rw [hnone]
    rfl
  obtain ⟨hkey, hslot⟩ := hkey
  unfold State.frTransmit
  dsimp only
  rw [if_pos (by simp [hkey, hslot]), hbuffer, hnone, BitVec.ofNat_toNat, BitVec.setWidth_eq]
  rfl

/-- In another static slot it sends what waits in the slot's buffer. -/
theorem State.frTransmit_buffer {f : Fin 2} {ch cycle left slot k : Nat} (hkey : ¬ s.frKeySlot f slot)
    (hstatic : slot ≤ s.fd (R.frStatic f) 9 0) (hbuffer : s.frSlotBuffer f ch cycle slot = some k)
    (hsend : s.frSend (0x68 + 2 * f.val + ch) k cycle slot false = some t) (hch : ch < 2) :
    s.frTransmit f ch cycle slot left = t := by
  have hctrl : (0x68 + 2 * f.val + ch - 0x68) / 2 = f.val := by omega
  have hfits : s.frFitsSlot (0x68 + 2 * f.val + ch) k slot left = true := by
    simp only [State.frFitsSlot, hctrl, hstatic, decide_true, Bool.true_or]
  unfold State.frTransmit
  dsimp only
  rw [if_neg (by simpa [State.frKeySlot] using hkey), hbuffer]
  dsimp only
  rw [hsend, if_neg (by simp [hfits])]
  rfl

/-- A transmission on a free line changes the port's egress side and its frame alone. -/
theorem State.beginTx_free {n : Nat} (x : Copy) (at_ : Nat) (h : (s.egOf n).tx = none) : ∃ e fr, s.beginTx n x at_ =
    { s with fwd.eg := e, fwd.frames := fr } ∧ (kvGet ({} : EgPort) e n).tx = some { copy := { x with started := true }, start := at_ } := by
  have htx : ((s.setEg n { s.egOf n with tx := some { copy := { x with started := true }, start := at_ } }).egOf n).tx =
      some { copy := { x with started := true }, start := at_ } := by rw [State.egOf_setEg_same]
  unfold State.beginTx State.startTx
  dsimp only
  rw [if_neg (by simp [h])]
  split
  · split <;> exact ⟨_, _, rfl, htx⟩
  · exact ⟨_, _, rfl, htx⟩

/-- A copy of a buffer, sent without the one-step stamp that it asks for, is counted. -/
def State.unstamped (s : State) (x : Copy) : State :=
  match s.frame x.frame with
  | some g => s.countUnstamped x g
  | none => s

theorem State.unstamped_kept (s : State) (x : Copy) : (∀ j, 0x60_0000 ≤ j → j < 0x70_0000 → (s.unstamped x).key j = s.key j) ∧
    (s.unstamped x).fwd = s.fwd ∧ (s.unstamped x).lnk = s.lnk ∧ (s.unstamped x).tab = s.tab := by
  unfold State.unstamped
  split
  · unfold State.countUnstamped
    split
    · exact ⟨(s.modRg_portsKept _ (by decide)).keys, s.count_fwd _ _, s.count_lnk _ _, s.count_tab _ _⟩
    · exact ⟨fun _ _ _ => rfl, rfl, rfl, rfl⟩
  · exact ⟨fun _ _ _ => rfl, rfl, rfl, rfl⟩

/-- A copy that waits in a buffer is sent with the header of its slot. -/
theorem State.frSend_eq {c k cycle slot : Nat} {key : Bool} {x : Copy}
    (hx : kvGet none s.lnk.frWait ((c - 0x68) * 128 + k) = some x) : s.frSend c k cycle slot key =
      some ((({ s with lnk.frWait := kvSet none s.lnk.frWait ((c - 0x68) * 128 + k) none } : State).unstamped x).beginTx c
        { x with hslot := some (s.frHeader ((c - 0x68) / 2) ((c - 0x68) % 2) k cycle slot key x.len) } s.pPs) := by
  unfold State.frSend
  dsimp only
  rw [hx]
  rfl

/-- A copy that waits in a buffer begins to be sent, and waits no more. -/
theorem State.frSend_waiting {c k cycle slot : Nat} {key : Bool} {x : Copy}
    (hx : kvGet none s.lnk.frWait ((c - 0x68) * 128 + k) = some x) (htx : (s.egOf c).tx = none) :
    ∃ t y, s.frSend c k cycle slot key = some t ∧ (t.egOf c).tx = some y ∧ y.copy.frame = x.frame ∧
      kvGet none t.lnk.frWait ((c - 0x68) * 128 + k) = none ∧ (∀ j, 0x60_0000 ≤ j → j < 0x70_0000 → t.key j = s.key j) ∧
      t.tab = s.tab := by
  generalize ha : ({ s with lnk.frWait := kvSet none s.lnk.frWait ((c - 0x68) * 128 + k) none } : State) = a
  have hwait : kvGet none a.lnk.frWait ((c - 0x68) * 128 + k) = none := by
    rw [← ha]
    exact kvGet_set_same none s.lnk.frWait _ none
  have hkeys : ∀ j, a.key j = s.key j := fun j => by
    rw [← ha]
    rfl
  have htab : a.tab = s.tab := by rw [← ha]
  obtain ⟨hukeys, hufwd, hulnk, hutab⟩ := a.unstamped_kept x
  have hfree : ((a.unstamped x).egOf c).tx = none := by
    rw [State.egOf, hufwd, ← ha]
    exact htx
  obtain ⟨e, fr, hbegin, hsent⟩ := State.beginTx_free
    { x with hslot := some (s.frHeader ((c - 0x68) / 2) ((c - 0x68) % 2) k cycle slot key x.len) } s.pPs hfree
  have hsend := State.frSend_eq (cycle := cycle) (slot := slot) (key := key) hx
  rw [ha, hbegin] at hsend
  exact ⟨_, _, hsend, hsent, rfl, (congrArg (fun l => kvGet none l.frWait ((c - 0x68) * 128 + k)) hulnk).trans hwait,
    fun j h1 h2 => (hukeys j h1 h2).trans (hkeys j), hutab.trans htab⟩

section
variable {f : Fin 2} {b : Bool} {cyc : BitVec 6} {slot : BitVec 11} {left : Nat} (hw : s.works)
include hw

theorem exec_frSlot_down (h : s.portUp (0x68 + 2 * f.val + boolNat b) = false)
    (hno : ¬ (s.frTransmits f (boolNat b) ∧ s.frStartup f slot.toNat = true)) : exec (.frSlot f b cyc ⟨slot, left⟩) s = .next s :=
  (next_clocked hw _).trans (congrArg (β := Res) .next (frSlot_down h hno))

theorem exec_frSlot_startup (h : s.portUp (0x68 + 2 * f.val + boolNat b) = false) (hsends : s.frTransmits f (boolNat b))
    (hstart : s.frStartup f slot.toNat = true) : exec (.frSlot f b cyc ⟨slot, left⟩) s =
      .next ((s.frShown f cyc).emit (.nullFrame (BitVec.ofNat 8 (0x68 + 2 * f.val + boolNat b)) slot)) :=
  (next_clocked hw _).trans (congrArg (β := Res) .next (frSlot_startup h hsends hstart))

variable (hup : s.portUp (0x68 + 2 * f.val + boolNat b) = true)
include hup

theorem exec_frSlot_quiet (hpoc : s.fd (R.frStatus f) 2 0 ≠ 3) : exec (.frSlot f b cyc ⟨slot, left⟩) s = .next (s.frShown f cyc) :=
  (next_clocked hw _).trans (congrArg (β := Res) .next (frSlot_quiet hup hpoc))

variable (hpoc : s.fd (R.frStatus f) 2 0 = 3) (hsends : s.frTransmits f (boolNat b))
  (htx : (s.egOf (0x68 + 2 * f.val + boolNat b)).tx = none)
include hpoc hsends htx

theorem exec_frSlot_active : exec (.frSlot f b cyc ⟨slot, left⟩) s =
    .next ((s.frShown f cyc).frTransmit f (boolNat b) cyc.toNat slot.toNat left) :=
  (next_clocked hw _).trans (congrArg (β := Res) .next (frSlot_active hup hpoc hsends htx))

theorem exec_frSlot_keyNull (hkey : s.frKeySlot f slot.toNat) (hnone : s.frBuffersOf (0x68 + 2 * f.val + boolNat b) slot.toNat = []) :
    exec (.frSlot f b cyc ⟨slot, left⟩) s =
      .next ((s.frShown f cyc).emit (.nullFrame (BitVec.ofNat 8 (0x68 + 2 * f.val + boolNat b)) slot)) := by
  rw [exec_frSlot_active hw hup hpoc hsends htx,
    State.frTransmit_keyNull ((s.frKeySlot_shown f cyc _).2 hkey) ((State.frBuffersOf_congr (fun _ => s.frShown_buffers f cyc) _ _).trans hnone)]

theorem exec_frSlot_buffer {k : Nat} {x : Copy} (hkey : ¬ s.frKeySlot f slot.toNat)
    (hstatic : slot.toNat ≤ s.fd (R.frStatic f) 9 0) (hbuffer : s.frSlotBuffer f (boolNat b) cyc.toNat slot.toNat = some k)
    (hx : kvGet none s.lnk.frWait ((0x68 + 2 * f.val + boolNat b - 0x68) * 128 + k) = some x) :
    ∃ t y, exec (.frSlot f b cyc ⟨slot, left⟩) s = .next t ∧ (t.egOf (0x68 + 2 * f.val + boolNat b)).tx = some y ∧
      y.copy.frame = x.frame ∧ kvGet none t.lnk.frWait ((0x68 + 2 * f.val + boolNat b - 0x68) * 128 + k) = none ∧
      t.fd (R.frStatus f) 9 4 = cyc.toNat ∧ t.tab = s.tab := by
  have hstatic' : slot.toNat ≤ (s.frShown f cyc).fd (R.frStatic f) 9 0 := by
    rw [State.fd, s.frShown_rg cyc (by simp only [R.frStatic, R.frStatus]; omega)]
    exact hstatic
  have hbuffer' : (s.frShown f cyc).frSlotBuffer f (boolNat b) cyc.toNat slot.toNat = some k :=
    (State.frSlotBuffer_congr (fun _ => s.frShown_buffers f cyc) _ _ _ _).trans hbuffer
  obtain ⟨t, y, hsend, hsent, hframe, hwait, hkeys, htab⟩ := State.frSend_waiting (s := s.frShown f cyc) (cycle := cyc.toNat)
    (slot := slot.toNat) (key := false) (by rw [State.frShown_lnk]; exact hx) (by rw [State.egOf, State.frShown_fwd]; exact htx)
  refine ⟨t, y, ?_, hsent, hframe, hwait, ?_, htab.trans (State.frShown_tab s f cyc)⟩
  · rw [exec_frSlot_active hw hup hpoc hsends htx,
      State.frTransmit_buffer (mt (s.frKeySlot_shown f cyc _).1 hkey) hstatic' hbuffer' hsend b.toNat_lt]
  · have hword := hkeys (R.frStatus f) (by simp only [R.frStatus]; omega) (by simp only [R.frStatus]; omega)
    exact (congrArg (fld · 9 4) hword).trans (s.frShown_cycle f cyc)

end

/-! ### The operation state of a FlexRay controller (R64) -/

/-- What the counts of a controller leave: its status, what its channels hold, the waiting commands and what the block has sent. -/
structure FrKept (f : Nat) (s t : State) : Prop where
  status : t.rg (R.frStatus f) = s.rg (R.frStatus f)
  fwd : t.fwd = s.fwd
  lnk : t.lnk = s.lnk
  cmd : t.cmd = s.cmd
  out : t.out = s.out

theorem FrKept.refl (f : Nat) (s : State) : FrKept f s s := ⟨rfl, rfl, rfl, rfl, rfl⟩

theorem FrKept.trans {f : Nat} (h : FrKept f s t) (k : FrKept f t u) : FrKept f s u :=
  ⟨k.status.trans h.status, k.fwd.trans h.fwd, k.lnk.trans h.lnk, k.cmd.trans h.cmd, k.out.trans h.out⟩

theorem State.count_frKept (s : State) (f ch : Nat) : FrKept f s (s.count (R.frCnt f ch 5)) :=
  ⟨s.rg_count_other _ (by simp only [R.frStatus, R.frCnt]; omega), s.count_fwd _ _, s.count_lnk _ _, s.count_cmd _ _, s.count_out _ _⟩

/-- A loss of synchronisation is counted on each enabled channel. -/
def State.frCountLost (s : State) (f : Nat) : State :=
  [0, 1].foldl (fun a ch => if a.bt (R.frCfg f) (4 + ch) then a.count (R.frCnt f ch 5) else a) s

theorem State.frCountLost_frKept (s : State) (f : Fin 2) : FrKept f s (s.frCountLost f) := by
  have hone : ∀ (a : State) (ch : Nat), FrKept f a (if a.bt (R.frCfg f) (4 + ch) then a.count (R.frCnt f ch 5) else a) := by
    intro a ch
    split
    · exact a.count_frKept f ch
    · exact .refl f a
  exact (hone s 0).trans (hone _ 1)

/-- A change of a controller's operation state counts a loss, and may end its channels' link. -/
theorem frPocChange_cases {f : Fin 2} {poc : Fin 6} (hp : s.portsStopped = false) (hmode : s.fd (R.frCfg f) 1 0 ≠ 0)
    (hr : s.retired (0x68 + 2 * f) = false) : ∃ t, FrKept f (s.setFd (R.frStatus f) 2 0 poc.val) t ∧
      (frPocChange f poc s = (t.frDown f).startRemotes ∨ frPocChange f poc s = t) := by
  unfold frPocChange
  rw [if_neg (by simp [hmode, hr, hp])]
  refine ⟨_, ?_, ite_eq_or_eq _ _ _⟩
  split
  · exact State.frCountLost_frKept _ f
  · exact .refl f _

theorem State.frDown_portsKept {f : Nat} (hA : s.idlePort (0x68 + 2 * f)) (hB : s.idlePort (0x69 + 2 * f)) :
    PortsKept s (s.frDown f) :=
  (State.linkLoss_portsKept hA).trans (State.linkLoss_portsKept (State.linkLoss_idlePort hA hB))

theorem exec_frPocChange {f : Fin 2} {poc : Fin 6} (hw : s.works) (hp : s.portsStopped = false) (hwait : s.cmd.remoteWait = [])
    (hmode : s.fd (R.frCfg f) 1 0 ≠ 0) (hr : s.retired (0x68 + 2 * f) = false)
    (hidle : s.idlePort (0x68 + 2 * f) ∧ s.idlePort (0x69 + 2 * f)) :
    ∃ t, exec (.frPocChange f poc) s = .next t ∧ t.fd (R.frStatus f) 2 0 = poc.val ∧ t.tab.sameConfig s.tab ∧ t.out = s.out := by
  have hexec : exec (.frPocChange f poc) s = .next (frPocChange f poc s) := next_clocked hw _
  refine ⟨_, hexec, ?_⟩
  rw [and_left_comm]
  refine ⟨((exec_follows _ s).out _ hexec).conf rfl, ?_⟩
  obtain ⟨t, hkept, heq⟩ := frPocChange_cases (poc := poc) hp hmode hr
  have hpoc : t.fd (R.frStatus f) 2 0 = poc.val := by
    rw [State.fd, hkept.status]
    exact (s.fd_setFd_same _ _ (by decide) (by decide)).trans (Nat.mod_eq_of_lt (by omega))
  have hout : t.out = s.out := hkept.out.trans (s.modRg_out _ _)
  rcases heq with heq | heq
  · have hfwd : t.fwd = s.fwd := hkept.fwd.trans (s.modRg_fwd _ _)
    have hlnk : t.lnk = s.lnk := hkept.lnk.trans (s.modRg_lnk _ _)
    have hdown : PortsKept t (t.frDown f) :=
      State.frDown_portsKept (State.idlePort_of_eq hidle.1 hfwd hlnk) (State.idlePort_of_eq hidle.2 hfwd hlnk)
    have hnone : (t.frDown f).cmd.remoteWait = [] := by
      rw [hdown.waits, hkept.cmd]
      exact (congrArg CmdUnit.remoteWait (s.modRg_cmd _ _)).trans hwait
    have hstatus := hdown.keys (R.frStatus f) (by simp only [R.frStatus]; omega) (by simp only [R.frStatus]; omega)
    rw [heq, State.startRemotes_none hnone]
    exact ⟨(congrArg (fld · 2 0) hstatus).trans hpoc, hdown.out.trans hout⟩
  · rw [heq]
    exact ⟨hpoc, hout⟩

/-! ### Checker faults (R326, R329) -/

theorem exec_busCtrlFault_operand {c : PortCode} (hbus : isBus c.toNat = false) (ht1s : isS c.toNat = false) :
    exec (.busCtrlFault c) s = .fault (.operandOutsideSpec "BUS_CTRL_FAULT") :=
  if_neg (by simp [hbus, ht1s])

section
variable {c : PortCode} (hw : s.works) (hc : isC c.toNat = true)
include hw hc

theorem exec_busCtrlFault : exec (.busCtrlFault c) s = .next (busCtrlFault c.toNat s) :=
  (if_pos (Or.inl (by simp [isBus, hc]))).trans (next_clocked hw _)

theorem exec_busCtrlFault_retired (hr : s.retired c.toNat = true) : exec (.busCtrlFault c) s = .next s :=
  (exec_busCtrlFault hw hc).trans (congrArg (β := Res) .next (if_pos hr))

end

/-- A CAN controller with nothing in flight that restarts is error-active, unless it is retired. -/
theorem State.restartCtrl_can {c : Nat} (hc : isC c = true) (hb : s.boundsOf c = []) (htx : (s.egOf c).tx = none) :
    s.restartCtrl c = if s.canState (c - 0x20) = 3 then s.setBounds c [] else (s.setBounds c []).setRg (R.canStatus (c - 0x20)) 0 := by
  have hs : isS c = false := by
    simp only [isC, isS, decide_eq_true_eq, decide_eq_false_iff_not] at hc ⊢
    omega
  unfold State.restartCtrl
  dsimp only
  rw [if_neg (show ¬ (isBus c = true ∧ s.boundsOf c ≠ []) from fun h => h.2 hb), htx]
  dsimp only
  rw [if_pos hc]
  simp only [hs, Bool.false_eq_true, if_false]
  rfl

theorem State.restartCtrl_can_kept {c : Nat} (hc : isC c = true) (hb : s.boundsOf c = []) (htx : (s.egOf c).tx = none) :
    (s.restartCtrl c).err = s.err ∧ (s.restartCtrl c).cmd = s.cmd ∧
      (s.restartCtrl c).canState (c - 0x20) = if s.canState (c - 0x20) = 3 then 3 else 0 := by
  rw [State.restartCtrl_can hc hb htx]
  split
  · next h => exact ⟨rfl, rfl, h⟩
  · refine ⟨State.setRg_err _ _ _, State.setRg_cmd _ _ _, ?_⟩
    rw [State.canState, State.fd, State.rg_setRg_same]
    decide

/-- The first fault in its window restarts a CAN controller. -/
theorem busCtrlFault_first {c : PortCode} (hc : isC c.toNat = true) (hr : s.retired c.toNat = false) (h : s.faults (.busPort c) = 0) :
    busCtrlFault c.toNat s =
      (((s.countFault (.busPort c)).restartCtrl c.toNat).report 0x0604 kTransient 0xFF c.toNat c.toNat).startRemotes := by
  have hf : isF c.toNat = false := by
    simp only [isC, isF, decide_eq_true_eq, decide_eq_false_iff_not] at hc ⊢
    omega
  unfold busCtrlFault
  rw [if_neg (by simp [hr])]
  simp only [hf, Bool.false_eq_true, if_false, BitVec.ofNat_toNat, BitVec.setWidth_eq]
  rw [if_neg (by rw [State.faults_countFault_same, h]; decide)]

theorem exec_busCtrlFault_first {c : PortCode} (hw : s.works) (hwait : s.cmd.remoteWait = []) (hc : isC c.toNat = true)
    (hr : s.retired c.toNat = false) (hidle : s.idlePort c.toNat) (hb : s.boundsOf c.toNat = []) (hfirst : s.faults (.busPort c) = 0) :
    ∃ t, exec (.busCtrlFault c) s = .next t ∧ t.faults (.busPort c) = 1 ∧ t.tab.sameConfig s.tab ∧
      (s.canState (c.toNat - 0x20) ≠ 3 → t.canState (c.toNat - 0x20) = 0) ∧
      (s.canState (c.toNat - 0x20) = 3 → t.canState (c.toNat - 0x20) = 3) := by
  have hexec := exec_busCtrlFault hw hc
  refine ⟨_, hexec, ?_⟩
  rw [and_left_comm]
  refine ⟨((exec_follows _ s).out _ hexec).conf rfl, ?_⟩
  rw [busCtrlFault_first hc hr hfirst]
  generalize hs1 : s.countFault (.busPort c) = s1
  have hfaults : s1.faults (.busPort c) = 1 := by rw [← hs1, State.faults_countFault_same, hfirst]
  have hwait1 : s1.cmd.remoteWait = [] := by rw [← hs1]; exact hwait
  have hcan : s1.canState (c.toNat - 0x20) = s.canState (c.toNat - 0x20) := by rw [← hs1]; rfl
  obtain ⟨herr, hcmd, hrestart⟩ := State.restartCtrl_can_kept (s := s1) hc (by rw [← hs1]; exact hb)
    (by
      obtain ⟨-, htx, -⟩ := hidle
      rw [← hs1]
      exact htx)
  rw [hcan] at hrestart
  have hkept := (s1.restartCtrl c.toNat).report_portsKept 0x0604 kTransient 0xFF c.toNat c.toNat false
  have hstate : ((s1.restartCtrl c.toNat).report 0x0604 kTransient 0xFF c.toNat c.toNat).canState (c.toNat - 0x20) =
      if s.canState (c.toNat - 0x20) = 3 then 3 else 0 := by
    simp only [isC, decide_eq_true_eq] at hc
    exact (congrArg (fld · 17 16) (hkept.keys (R.canStatus (c.toNat - 0x20)) (by simp only [R.canStatus]; omega)
      (by simp only [R.canStatus]; omega))).trans hrestart
  rw [State.startRemotes_none (hkept.waits.trans ((congrArg CmdUnit.remoteWait hcmd).trans hwait1)), hstate]
  refine ⟨?_, fun h => if_neg h, fun h => if_pos h⟩
  rw [hkept.faults, State.faults, herr]
  exact hfaults

end Sys2Proof.Machine
end

section
/-! The statements on the ports (02_ports.md). -/

namespace Sys2Proof
open Sys2Proof.Machine

/-- Settles O52: one law for each row and case. A loss that takes an idle port out of UP is followed through its steps by what they leave of
the port's status word and counters (`PortsKept`, `LostUp`, `Retrained`). -/
theorem ethernetLinksFollowTheirStates : Obligations.EthernetLinksFollowTheirStates := by
  intro n s hw hr hp
  refine ⟨exec_ethSignalDetect hw hr hp, fun b h => exec_ethTraining_stays hw h b, exec_ethTrainingDone_up hw hr,
    exec_ethTrainingDone_wrongSpeed hw hr, exec_ethTrainingTimeout hw hr, exec_ethLinkLost_disabled hw, exec_ethLinkLost_notUp hw hr,
    exec_ethLinkLost_up hw hr, exec_laneRetuneDone_stays hw, exec_laneRetuneDone hw, exec_mmVerifyTimer hw, exec_mdioLinkPoll_early hw,
    fun ms hpoll hm hms => ⟨fun hq => ?_, fun y l hq => ?_, fun d b => exec_mdioAccessDone_poll hw hr hp hpoll hm d b⟩,
    fun p m v hmay hv hfree hholds => ⟨_, exec_mdioAccessStart hmay hv hfree hholds, s.accBusy_mdioAdd_busy p m v _, by simp,
      State.accBusy_mdioAdd_free v, fun y l => State.accBusy_mdioAdd_wait v⟩,
    exec_mdioAccessDone_none hw, exec_mdioAccessDone_part hw⟩
  · rw [exec_mdioLinkPoll hw hr hp hpoll hm hms, State.mdioAdd_free hq]
    rfl
  · rw [exec_mdioLinkPoll hw hr hp hpoll hm hms, State.mdioAdd_busy hq]
    rfl

/-- Settles O53: one law for each row and case. In a FlexRay slot the state that shows the cycle reads its buffers as before; a fault or a
change of state that ends a link is followed through its steps by what they leave of the port controllers (`PortsKept`). -/
theorem busPortsFollowTheirStates : Obligations.BusPortsFollowTheirStates := by
  intro s hw hp hwait
  refine ⟨fun n h hen => ⟨fun hf => ?_, fun hf => ?_⟩, fun n => exec_t1sBeaconLoss_down hw, fun n => exec_t1sBeaconLoss_stays hw,
    fun n => exec_canBusOff hw hwait, fun n => exec_canBusOff_stays hw, fun n h hr => ⟨fun hauto => ?_, fun hauto => ?_⟩,
    fun n hmode hup htx => ⟨fun pid b r => exec_linScheduleSlot_inserted hw hup htx hmode, fun k h hk =>
      ⟨fun hno => exec_linScheduleSlot_none hw hup htx hmode h (hk ▸ hno), exec_linScheduleSlot hw hup htx hmode h hk⟩⟩,
    fun n pid rate hmode hup htx => ⟨exec_linHeaderReceived_off hw hup htx hmode pid rate, exec_linHeaderReceived hw hup htx hmode pid rate⟩,
    fun n => ⟨exec_linResponseTimeout_none hw, exec_linResponseTimeout hw⟩, fun f b cyc slot left => ?_,
    fun f poc => exec_frPocChange hw hp hwait, fun c => exec_busCtrlFault_operand, fun c => exec_busCtrlFault_retired hw,
    fun c => exec_busCtrlFault_first hw hwait⟩
  · rw [exec_t1sUpTimer hw h hen hp, exec_t1sBeaconReceived hw h hen hp, hf]
    exact ⟨rfl, rfl⟩
  · rw [exec_t1sUpTimer hw h hen hp, exec_t1sBeaconReceived hw h hen hp, hf]
    exact ⟨rfl, rfl⟩
  · rw [exec_canBusOffRecovered hw hp h hr, hauto]
    rfl
  · rw [exec_canBusOffRecovered hw hp h hr, hauto]
    rfl
  · have hb : (if b then 1 else 0) = boolNat b := by cases b <;> rfl
    rw [hb]
    exact ⟨exec_frSlot_down hw, exec_frSlot_startup hw, exec_frSlot_quiet hw, fun hup hpoc hsends htx =>
      ⟨exec_frSlot_keyNull hw hup hpoc hsends htx, fun k x => exec_frSlot_buffer hw hup hpoc hsends htx⟩⟩

end Sys2Proof
end

section
/-! SUPPORT. A frame whose reception ends in an error, and behind it in its port's order a frame whose plan prunes a copy under the code of
RX_ERROR (R20, R89, R92). -/

namespace Sys2Proof.Machine

/-- A frame in reception on E15. -/
def receivedFrame : Frame := { id := 3, desc := { ingress := 0x0F } }

/-- A whole frame of E15 that is forwarded; its plan prunes the copy for E14 under 0x01, the code of RX_ERROR. -/
def frameBehind : Frame :=
  { id := 4, desc := { ingress := 0x0F, actions := 1 }, complete := true, plan := [({ frame := 4, port := 0x0E }, 0x01)] }

/-- The block after its start, with frame 3 in reception on E15 and frame 4 behind it in the port's order. -/
def orderBehindError : State :=
  { State.reset with
    pins.hiZ := false
    lnk.rx := [(0x0F, [{ frame := some 3, len := 64 }])]
    fwd.frames := [receivedFrame, frameBehind]
    fwd.order := [(0x0F, [3, 4])] }

theorem orderBehindError_works : orderBehindError.works := by
  unfold State.works
  decide +kernel

theorem exec_frameEnd_orderBehindError :
    exec (.frameEnd 0x0F .fcs) orderBehindError = .next (onLanes (frameEnd 0x0F .fcs) orderBehindError) :=
  next_clocked orderBehindError_works _

/-- The error drops frame 3 under RX_ERROR and lets the port's order move on: frame 4 branches, and its pruned copy counts there too. -/
theorem frameEnd_orderBehindError_countsTwice :
    (onLanes (frameEnd 0x0F .fcs) orderBehindError).wide (R.dropCnt 1) = orderBehindError.wide (R.dropCnt 1) + 2 := by
  decide +kernel

end Sys2Proof.Machine
end

section
/-! The statement on frames that enter through their ports (03_forwarding.md). -/

namespace Sys2Proof

open Machine

/-- Refutes O56: an FCS error counts once under RX_ERROR for its own frame, but it also moves the port's order on (R20), and the frames
behind it branch in the same event, each pruned copy counted under the reason that its frame's plan holds. The statement speaks of every
state that works and ties no plan to the pruning reasons of R89 (0x13 to 0x15): in `orderBehindError` the frame behind prunes under 0x01, and
the counter grows by two where the statement says one. -/
theorem not_framesEnterThroughTheirPorts : ¬ Obligations.FramesEnterThroughTheirPorts := by
  intro h
  obtain ⟨-, -, -, -, hend, -⟩ := h orderBehindError orderBehindError_works
  obtain ⟨-, hadmitted⟩ := hend 0x0F { frame := some 3, len := 64 } [] rfl
  obtain ⟨-, herror⟩ := hadmitted 3 receivedFrame rfl rfl (fun m _ hretune => absurd hretune (by decide +revert))
  obtain ⟨t, hexec, -, -, -, hcount, -⟩ := herror rfl
  rw [exec_frameEnd_orderBehindError] at hexec
  cases hexec
  rw [frameEnd_orderBehindError_countsTwice] at hcount
  exact absurd hcount (by decide +kernel)

end Sys2Proof
end

section
/-! SUPPORT. The registers of bridge and checker: the semaphores (R129), the bytes of mailbox space (R128, R133), and the running value of a
CRC, which stays within its width (R119, R125). -/

namespace Sys2Proof.Machine

variable {s : State} {p q : Part}

/-! ### Semaphores (R129) -/

/-- The copies of the semaphores stand at distinct keys. -/
theorem copyKey_sem_injective {m n : Nat} (hm : m < 64) (hn : n < 64) (h : copyKey q (R.sem m) = copyKey p (R.sem n)) :
    q = p ∧ m = n := by
  unfold copyKey R.sem at h
  exact ⟨Fin.ext (by omega), by omega⟩

theorem State.sem_setSem_other (s : State) {m n : Nat} (v : W32) (hm : m < 64) (hn : n < 64) (h : (q, m) ≠ (p, n)) :
    (s.setRgp p (R.sem n) v).rgp q (R.sem m) = s.rgp q (R.sem m) :=
  s.key_setKey_other v fun hk => h (Prod.ext_iff.2 (copyKey_sem_injective hm hn hk))

theorem exec_brgSemTake {n : Fin 64} (h : s.mayRead p (R.sem n)) : exec (.brgSemTake p n) s =
    .next ((s.setRgp p (R.sem n) 0).emit (.read p (BitVec.ofNat 32 (R.sem n)) ((s.rgp p (R.sem n)).setWidth 64))) :=
  congrArg (β := Res) .next (onRead_may h)

/-- The semaphore of a bit of BRG_SEM_REL_LO or _HI. -/
def semOfBit (hi : Bool) (i : Nat) : Nat := i + if hi then 32 else 0

theorem semOfBit_lt (hi : Bool) {i : Nat} (h : i < 32) : semOfBit hi i < 64 := by
  cases hi <;> simp [semOfBit] <;> omega

theorem eq_semOfBit_iff {hi : Bool} {m i : Nat} (hm : m < 64) (h : i < 32) :
    m = semOfBit hi i ↔ decide (32 ≤ m) = hi ∧ m % 32 = i := by
  cases hi <;> simp [semOfBit] <;> omega

/-- The state in which a write of BRG_SEM_REL has released the semaphores of its half's first `n` bits. -/
def State.semsReleased (s : State) (p : Part) (hi : Bool) (v : W32) (n : Nat) : State :=
  (List.range n).foldl (fun a i => if bit v i then a.setRgp p (R.sem (semOfBit hi i)) 1 else a) s

theorem State.semsReleased_succ (s : State) (p : Part) (hi : Bool) (v : W32) (n : Nat) : s.semsReleased p hi v (n + 1) =
    if bit v n then (s.semsReleased p hi v n).setRgp p (R.sem (semOfBit hi n)) 1 else s.semsReleased p hi v n := by
  simp only [State.semsReleased, List.range_succ, List.foldl_append, List.foldl_cons, List.foldl_nil]

/-- A release changes the register file only. -/
theorem State.semsReleased_rest (s : State) (p : Part) (hi : Bool) (v : W32) (n : Nat) :
    ∃ r, s.semsReleased p hi v n = { s with reg.regs := r } := by
  induction n with
  | zero => exact ⟨s.reg.regs, rfl⟩
  | succ n ih =>
    obtain ⟨r, heq⟩ := ih
    rw [State.semsReleased_succ, heq]
    split
    · exact ⟨_, rfl⟩
    · exact ⟨r, rfl⟩

/-- The release of a bit leaves every other semaphore. -/
theorem State.sem_semsReleased_succ_other (s : State) (hi : Bool) (v : W32) {m n : Nat} (hm : m < 64) (hn : n < 32)
    (h : (q, m) ≠ (p, semOfBit hi n)) :
    (s.semsReleased p hi v (n + 1)).rgp q (R.sem m) = (s.semsReleased p hi v n).rgp q (R.sem m) := by
  rw [State.semsReleased_succ]
  split
  · exact State.sem_setSem_other _ _ hm (semOfBit_lt hi hn) h
  · rfl

/-- A semaphore after a release: set where its bit is among those released. -/
theorem State.sem_semsReleased (s : State) (p : Part) (hi : Bool) (v : W32) {m n : Nat} (hm : m < 64) (hn : n ≤ 32) :
    (s.semsReleased p hi v n).rgp p (R.sem m) =
      if decide (32 ≤ m) = hi ∧ m % 32 < n ∧ bit v (m % 32) = true then 1 else s.rgp p (R.sem m) := by
  induction n with
  | zero => exact (if_neg (by omega)).symm
  | succ n ih =>
    have hthis := eq_semOfBit_iff (hi := hi) hm (Nat.lt_of_succ_le hn)
    specialize ih (by omega)
    by_cases hm' : m = semOfBit hi n
    · obtain ⟨hhalf, hbit⟩ := hthis.1 hm'
      rw [if_neg (by omega)] at ih
      rw [State.semsReleased_succ, hbit]
      cases bit v n
      · simpa using ih
      · rw [if_pos rfl, ← hm', State.rgp_setRgp_same, if_pos ⟨hhalf, Nat.lt_succ_self n, rfl⟩]
    · have hrange : decide (32 ≤ m) = hi → (m % 32 < n + 1 ↔ m % 32 < n) := fun hhalf => by
        have : m % 32 ≠ n := fun hbit => hm' (hthis.2 ⟨hhalf, hbit⟩)
        omega
      rw [s.sem_semsReleased_succ_other hi v hm hn fun h => hm' (Prod.ext_iff.1 h).2, ih]
      exact if_congr (and_congr_right fun hhalf => and_congr_left fun _ => (hrange hhalf).symm) rfl rfl

/-- A release leaves the other partitions' semaphores. -/
theorem State.sem_semsReleased_other (s : State) (hi : Bool) (v : W32) {m n : Nat} (hm : m < 64) (hn : n ≤ 32) (h : q ≠ p) :
    (s.semsReleased p hi v n).rgp q (R.sem m) = s.rgp q (R.sem m) := by
  induction n with
  | zero => rfl
  | succ n ih =>
    rw [s.sem_semsReleased_succ_other hi v hm hn fun k => h (Prod.ext_iff.1 k).1, ih (by omega)]

theorem exec_brgSemRelease {hi : Bool} (v : W32) (h : s.mayWrite p (if hi then R.semRelHi else R.semRelLo)) :
    exec (.brgSemRelease p hi v) s = .next (s.semsReleased p hi v 32) :=
  congrArg (β := Res) .next (onWrite_may h)

theorem exec_lockedRequest_live {h : HostPort} (addr : W32) (hlink : s.linked h.part = true) (hreach : s.unreachable = false) :
    exec (.lockedRequest h addr) s = .next (s.emit (.unsupported h.part addr)) :=
  congrArg (β := Res) .next (if_pos ⟨hlink, by simp [hreach]⟩)

/-! ### Mailbox space (R128, R133) -/

theorem slice_whole (l : List Byte) : slice l 0 l.length = l := by simp [slice]

/-- A byte of those written. -/
theorem Memory.read_writeBytes_inside (m : List Host.Cell) (a : Nat) (l : List Byte) {i : Nat} (h : i < l.length) :
    Memory.read (Memory.writeBytes m a l) (a + i) = byteAt l i := by
  induction l generalizing m a i with
  | nil => exact absurd h (Nat.not_lt_zero i)
  | cons b r ih =>
    cases i with
    | zero => exact (Memory.read_writeBytes_other _ (a + 1) r (.inl (by omega))).trans (Memory.read_write_same m a b)
    | succ i =>
      rw [show a + (i + 1) = a + 1 + i by omega]
      exact ih _ _ (Nat.lt_of_succ_lt_succ h)

section
variable {addr : W32} {n : Nat} {w : Option (List Byte)}

theorem registerShape_of_mailboxShape {a : Nat} (h : mailboxShape a n = true) : registerShape a n = false := by
  by_contra hr
  simp [mailboxShape_of_registerShape (Bool.not_eq_false _ ▸ hr)] at h

/-- A taken access that is no register access reaches mailbox space, or is not accepted. -/
theorem exec_mailboxAccess_taken (ht : s.takes p) (hr : registerShape addr.toNat n = false) :
    exec (.mailboxAccess p addr n w) s = .next
      (if mailboxShape addr.toNat n then mailboxAt p addr.toNat n w s else unsupported p addr.toNat w.isSome s) := by
  show (if registerShape addr.toNat n then .fault (.operandOutsideSpec "MAILBOX_ACCESS")
    else .next (onAccess p addr.toNat (mailboxAccess p addr.toNat n w) s) : Res) = _
  rw [hr, if_neg (by simp), onAccess_takes ht]
  unfold mailboxAccess
  rw [ht.2.2, if_neg (by simp)]

theorem exec_mailboxAccess_inside (ht : s.takes p) (h : mailboxShape addr.toNat n = true) :
    exec (.mailboxAccess p addr n w) s = .next (mailboxAt p addr.toNat n w s) := by
  rw [exec_mailboxAccess_taken ht (registerShape_of_mailboxShape h), if_pos h]

theorem exec_mailboxAccess_outside (ht : s.takes p) (hr : registerShape addr.toNat n = false)
    (hm : mailboxShape addr.toNat n = false) :
    exec (.mailboxAccess p addr n w) s = .next (unsupported p addr.toNat w.isSome s) := by
  rw [exec_mailboxAccess_taken ht hr, if_neg (by simp [hm])]

theorem exec_mailboxAccess_register (hr : registerShape addr.toNat n = true) :
    exec (.mailboxAccess p addr n w) s = .fault (.operandOutsideSpec "MAILBOX_ACCESS") := if_pos hr

end

section
variable {a n : Nat}

theorem mailboxAt_write {l : List Byte} (hl : l.length = n) (hf : s.frozen p = false) : mailboxAt p a n (some l) s =
    { s with reg.mailbox := Memory.writeBytes s.reg.mailbox (p.val * 512 + (a - 0x18_0400)) l } := by
  unfold mailboxAt
  simp only [hf, Bool.false_eq_true, if_false, ← hl, slice_whole]

theorem mailboxAt_write_frozen (l : List Byte) (hf : s.frozen p = true) : mailboxAt p a n (some l) s = s := if_pos hf

theorem mailboxAt_read (h : (s.slot p ((a - 0x18_0400) / 64)).state ≠ slError) : mailboxAt p a n none s =
    s.emit (.mailbox p (BitVec.ofNat 32 a) (Memory.readBytes s.reg.mailbox (p.val * 512 + (a - 0x18_0400)) n)) := if_neg h

theorem mailboxAt_read_error (h : (s.slot p ((a - 0x18_0400) / 64)).state = slError) :
    mailboxAt p a n none s = s.emit (.abort p (BitVec.ofNat 32 a)) := if_pos h

end

/-! ### CRCs (R119, R124 to R126) -/

/-- The bit steps of a fold keep a value within the width. -/
theorem crcBits_lt {w : Nat} (poly b k : Nat) {v : Nat} (h : v < 2 ^ w) : crcBits w poly b k v < 2 ^ w := by
  induction k generalizing v with
  | zero => exact h
  | succ k ih =>
    have hshift : v * 2 % 2 ^ w < 2 ^ w := Nat.mod_lt _ (Nat.two_pow_pos w)
    refine ih ?_
    split
    · exact Nat.xor_lt_two_pow hshift (Nat.mod_lt _ (Nat.two_pow_pos w))
    · exact hshift

theorem crcFold_lt {w : Nat} (poly : Nat) (refin : Bool) {v : Nat} (h : v < 2 ^ w) (l : List Byte) :
    crcFold w poly refin v l < 2 ^ w := by
  induction l generalizing v with
  | nil => exact h
  | cons b l ih => exact ih (crcBits_lt poly _ 8 h)

theorem reflect_lt (w v : Nat) : reflect w v < 2 ^ w := by
  have hfold : ∀ n, (List.range n).foldl (fun a i => a * 2 + (v >>> i) % 2) 0 < 2 ^ n := fun n => by
    induction n with
    | zero => exact Nat.one_pos
    | succ n ih =>
      rw [List.range_succ, List.foldl_append, List.foldl_cons, List.foldl_nil, Nat.pow_succ]
      omega
  exact hfold w

/-- The result of a value within the width: what the table's reflection makes of it, with the final XOR. -/
theorem crcRes_of_lt {w : Nat} (refout : Bool) {xorout v : Nat} (hv : v < 2 ^ w) (hx : xorout < 2 ^ w) :
    crcRes w refout xorout v = Nat.xor (if refout then reflect w v else v) xorout := by
  have hout : (if refout then reflect w v else v) < 2 ^ w := by
    split
    · exact reflect_lt w v
    · exact hv
  rw [crcRes, Nat.mod_eq_of_lt hv]
  exact Nat.mod_eq_of_lt (Nat.xor_lt_two_pow hout hx)

/-- A fixed polynomial whose initial value and final XOR lie within its width. -/
theorem crcFixed_eq {k : Nat} (l : List Byte) (hi : (crcPoly k).init < 2 ^ (crcPoly k).width)
    (hx : (crcPoly k).xorout < 2 ^ (crcPoly k).width) :
    crcFixed k l =
      let c := crcPoly k
      let v := crcFold c.width c.poly c.refl c.init l
      Nat.xor (if c.refl then reflect c.width v else v) c.xorout :=
  crcRes_of_lt _ (crcFold_lt _ _ hi l) hx

theorem length_leBytes (n v : Nat) : (leBytes n v).length = n := by
  induction n generalizing v with
  | zero => rfl
  | succ n ih => exact congrArg (· + 1) (ih (v / 256))

section
variable {k : Fin 8} {v : W32}

theorem exec_chkLoad (h : s.mayWrite p (0x90_0004 + 0x40 * k.val)) : exec (.chkLoad p k v) s = .next (s.chkLoad k.val v) :=
  congrArg (β := Res) .next (onWrite_may h)

theorem exec_chkDataWrite {r : ChkData} {v : W64} (h : s.mayWrite p ((chkDataOff r).1 + 0x40 * k.val)) :
    exec (.chkDataWrite p k r v) s = .next (s.chkFold k (leBytes (chkDataOff r).2 v.toNat)) :=
  congrArg (β := Res) .next (onWrite_may h)

theorem exec_chkCfgWrite (h : s.mayWrite p (R.chkCfg k)) : exec (.chkCfgWrite p k v) s = .next (s.writeChkCfg p k.val v) :=
  congrArg (β := Res) .next (onWrite_may h)

end

end Sys2Proof.Machine
end

section
/-! SUPPORT. The bridge's transactions (R131 to R133): what the end of a slot leaves unchanged, how a far-side error is
counted, the request frame of a window, and the frames that the block makes itself. -/

namespace Sys2Proof.Machine

variable {s t : State} {p : Part}

/-! ### Completions and slots that return to FREE (R132, R277) -/

/-- A completion changes the step of the signal box, the partition's path and its mould only. -/
theorem State.complete_rest (s : State) (p : Part) (r : Reply) :
    ∃ b c m, s.complete p r = { s with cmd.box := b, cmd.path := c, cmd.moulds := m } := by
  unfold State.complete State.endSeal
  dsimp only
  split
  · split <;> exact ⟨_, _, _, rfl⟩
  · exact ⟨_, _, _, rfl⟩

/-- What the return of a slot to FREE leaves: no request is open for it, and registers, forwarding and waiting commands are as before. -/
structure SlotFreed (s t : State) (p : Part) (k : Nat) : Prop where
  free : (t.slot p k).state = slFree
  reqs : ∀ r ∈ t.cmd.openReqs, ¬ (r.part = p ∧ r.slot = some k)
  fwd : t.fwd = s.fwd
  reg : t.reg = s.reg
  logger : t.logger = s.logger
  waits : t.cmd.remoteWait = s.cmd.remoteWait

theorem State.freeSlot_freed (s : State) (p : Part) (k : Nat) : SlotFreed s (s.freeSlot p k) p k where
  free := congrArg Slot.state (s.slot_setSlot_same p k {})
  reqs r hr := by
    obtain ⟨x, -, rfl⟩ := List.mem_map.1 hr
    split
    · simp
    · assumption
  fwd := rfl
  reg := rfl
  logger := rfl
  waits := rfl

theorem SlotFreed.complete {k : Nat} (h : SlotFreed s t p k) (r : Reply) : SlotFreed s (t.complete p r) p k := by
  obtain ⟨b, c, m, heq⟩ := t.complete_rest p r
  rw [heq]
  exact ⟨h.free, h.reqs, h.fwd, h.reg, h.logger, h.waits⟩

@[simp] theorem State.freeSlot_path (s : State) (p : Part) (k : Nat) (q : Part) : (s.freeSlot p k).path q = s.path q := rfl

/-- A slot that no command holds keeps an error for its reader. -/
theorem State.endSlot_error {k far : Nat} (h : (s.slot p k).cmd = none) (hfar : far ≠ 0) :
    s.endSlot p k far [] = s.setSlot p k { s.slot p k with state := slError, far := BitVec.ofNat 8 far } := by
  simp [State.endSlot, h, hfar]

/-- The reply of a REMOTE_ACCESS whose transaction ends with an error. -/
def farReply (tag : BitVec 12) (irq : Bool) (far : Nat) : Reply :=
  { tag := tag, status := St.farError, result := BitVec.ofNat 64 far, irq := irq }

/-- A slot that a REMOTE_ACCESS holds is freed with the command's completion. -/
theorem State.endSlot_command {k far : Nat} {tag : BitVec 12} {irq : Bool} (h : (s.slot p k).cmd = some (tag, irq)) (hfar : far ≠ 0) :
    s.endSlot p k far [] = (s.freeSlot p k).complete p (farReply tag irq far) := by
  simp [State.endSlot, h, hfar, farReply]

/-! ### Far-side errors (R133) -/

/-- A far-side error as counted and reported, its request closed. -/
def State.farCounted (s : State) (r : OpenReq) (far : Nat) : State :=
  ((s.closeReq r).modRgp r.part R.farErr (fun w => satInc w 1)).report 0x0112 kTransient r.part.val 0xFF
    (far + r.window * 2 ^ 8 + r.tag.toNat * 2 ^ 16)

theorem State.farError_slot {r : OpenReq} {k : Nat} (h : r.slot = some k) (far : Nat) :
    s.farError r far = (s.farCounted r far).endSlot r.part k far [] := by
  simp only [State.farError, h, State.farCounted]

theorem State.modRgp_rest (s : State) (p : Part) (o : Nat) (f : W32 → W32) :
    ∃ g, s.modRgp p o f = { s with reg.regs := g } := ⟨_, rfl⟩

theorem State.farCounted_rest (s : State) (r : OpenReq) (far : Nat) : ∃ e g, s.farCounted r far =
    { s with err := e, reg.regs := g, cmd.openReqs := s.cmd.openReqs.filter (fun x => !(x == r)) } := by
  obtain ⟨g, hcount⟩ := (s.closeReq r).modRgp_rest r.part R.farErr (fun w => satInc w 1)
  unfold State.farCounted
  rw [hcount]
  obtain ⟨⟨e, g', heq⟩, -⟩ := State.report_reported { s.closeReq r with reg.regs := g } 0x0112 kTransient r.part.val 0xFF
    (far + r.window * 2 ^ 8 + r.tag.toNat * 2 ^ 16) false
  exact ⟨e, g', heq⟩

/-- A report leaves a partition's copy of a register of the bridge. -/
theorem State.rgp_report_bridge (s : State) (q : Part) {o : Nat} (h : o < 0x20_0000) (code kind part unit detail : Nat) (fault : Bool) :
    (s.report code kind part unit detail fault).rgp q o = s.rgp q o := by
  refine (s.report_reported code kind part unit detail fault).keys _ ?_ ?_
  all_goals simp only [copyKey, R.errDiscard, R.errStatus]; omega

theorem State.farCounted_farErr (s : State) (r : OpenReq) (far : Nat) :
    (s.farCounted r far).rgp r.part R.farErr = satInc (s.rgp r.part R.farErr) 1 :=
  (State.rgp_report_bridge _ _ (by norm_num [R.farErr]) _ _ _ _ _ _).trans (State.rgp_modRgp_same _ _ _ _)

/-! ### The request frame of a window (R131) -/

theorem wnPort_lt (e : Window) : wnPort e < 256 := Nat.mod_lt _ (by decide)

theorem wnTc_lt (e : Window) : wnTc e < 8 := Nat.mod_lt _ (by decide)

/-- The data of a request in its frame: behind the sixteen bytes that CAN XL puts first (R58). -/
def requestData (e : Window) (l : List Byte) : List Byte := if isC (wnPort e) ∧ 2 ≤ wnFmt e then l.drop 16 else l

theorem requestData_canXl {e : Window} (hcan : isC (wnPort e) = true) (hfmt : 2 ≤ wnFmt e) (l : List Byte) :
    requestData e l = l.drop 16 := if_pos ⟨hcan, hfmt⟩

theorem requestData_plain {e : Window} (h : isC (wnPort e) = true → wnFmt e < 2) (l : List Byte) : requestData e l = l :=
  if_neg fun ⟨hcan, hfmt⟩ => Nat.not_lt.2 hfmt (h hcan)

theorem length_xlPrefix (s : State) : (xlPrefix s).1.length = 16 := by simp [xlPrefix, drawBytes]

theorem take_padTo (n : Nat) (l : List Byte) (s : State) : (padTo n l s).1.take l.length = l := by simp [padTo]

/-- A request frame carries the request's bytes first, and takes free values only. -/
theorem State.requestFrame_carries (s : State) (e : Window) (l : List Byte) :
    ∃ h b f, s.requestFrame e l = (h, b, { s with free := f }) ∧ (requestData e b).take l.length = l := by
  unfold State.requestFrame
  dsimp only
  by_cases hcan : isC (wnPort e) = true
  · rw [if_pos hcan]
    split
    · next hfmt => exact ⟨_, _, _, rfl, by rw [requestData_plain fun _ => by omega, List.take_length]⟩
    · next hfmt => exact ⟨_, _, _, rfl, by rw [requestData_plain fun _ => by omega, take_padTo]⟩
    · next h0 h1 =>
      have hfmt : 2 ≤ wnFmt e := by
        have : wnFmt e ≠ 0 := h0
        have : wnFmt e ≠ 1 := h1
        omega
      exact ⟨_, _, _, rfl, by rw [requestData_canXl hcan hfmt, List.drop_left' (length_xlPrefix s), List.take_length]⟩
  · rw [if_neg hcan]
    have hplain := requestData_plain fun h => absurd h hcan
    split
    · exact ⟨_, _, _, rfl, by rw [hplain, List.take_length]⟩
    · exact ⟨_, _, _, rfl, by rw [hplain, take_padTo]⟩

/-! ### Frames that the block makes itself (R95, R98) -/

theorem mkClass_tc {tc : Nat} (adm : Nat) (express locked : Bool) (h : tc < 8) : fld (mkClass tc adm express locked) 2 0 = tc := by
  simp [fld, mkClass]
  omega

theorem mkClass_adm (tc : Nat) {adm : Nat} (express locked : Bool) (h : adm < 4) : fld (mkClass tc adm express locked) 4 3 = adm := by
  have he := Bool.toNat_lt express
  have hl := Bool.toNat_lt locked
  simp [fld, mkClass, boolNat, Nat.shiftRight_eq_div_pow]
  omega

theorem mkClass_unlocked (tc adm : Nat) (express : Bool) : bit (mkClass tc adm express false) 6 = false := by
  have he := Bool.toNat_lt express
  simp [bit, mkClass, boolNat, BitVec.getLsbD, Nat.testBit_eq_decide_div_mod_eq]
  omega

theorem State.localFrame_refused (ingress : PortCode) {tc : Nat} (locked : Bool) (hslot : BitVec 128) (bytes : List Byte)
    (h : s.admits acctLocal (s.admOf tc) = false) : s.localFrame ingress tc locked hslot bytes = (none, s.bufFull) := by
  unfold State.localFrame
  dsimp only
  rw [if_pos (by simp [h])]

/-- A frame of the block that LOCAL admits: whole, the newest in the buffer, under the next number; forwarding changes by it and by its
charge, and free values are drawn. -/
theorem State.localFrame_admitted (ingress : PortCode) {tc : Nat} (locked : Bool) (hslot : BitVec 128) (bytes : List Byte)
    (h : s.admits acctLocal (s.admOf tc) = true) : ∃ f k g, s.localFrame ingress tc locked hslot bytes =
      (some s.fwd.nextFrame, { s with free := k, fwd := g }) ∧ f.id = s.fwd.nextFrame ∧ f.bytes = bytes ∧
      f.desc.cls = mkClass tc (s.admOf tc) false locked ∧ g.frames = s.fwd.frames ++ [f] ∧ g.eg = s.fwd.eg := by
  unfold State.localFrame
  dsimp only
  rw [if_neg (by simp [h])]
  exact ⟨_, _, _, rfl, rfl, rfl, rfl, rfl, rfl⟩

end Sys2Proof.Machine
end

section
/-! SUPPORT. A request copy on its way to a window's port (R89, R131, R140): what the settling of queues and frames leaves to the command
unit, the copy that finds its queue empty, and the start of a request. -/

namespace Sys2Proof.Machine

variable {s : State} {p : Part}

/-! ### The command unit beside the datapath -/

@[simp] theorem State.charge_cmd (s : State) (a g sh n : Nat) (add : Bool) : (s.charge a g sh n add).cmd = s.cmd := by
  unfold State.charge
  dsimp only
  split
  · rfl
  · split <;> rfl

@[simp] theorem State.dropCells_cmd (s : State) (f : Frame) : (s.dropCells f).cmd = s.cmd := by
  unfold State.dropCells
  split
  · exact s.charge_cmd _ _ _ _ _
  · rfl

@[simp] theorem State.capLost_cmd (s : State) (q n : Nat) : (s.capLost q n).cmd = s.cmd := by
  unfold State.capLost
  split
  · rfl
  · simp

@[simp] theorem State.evict_cmd (s : State) (v : Victim) : (s.evict v).cmd = s.cmd := by simp [State.evict]

theorem moveToCapture_cmd (fuel id : Nat) (s : State) : (moveToCapture fuel id s).cmd = s.cmd := by
  induction fuel generalizing s with
  | zero =>
    unfold moveToCapture
    rcases s.frame id with _ | f <;> rfl
  | succ k ih =>
    unfold moveToCapture
    rcases s.frame id with _ | f
    · rfl
    · dsimp only
      split
      · exact s.dropCells_cmd f
      split
      · simp [State.uncharge]
      split
      · rfl
      · refine (ih _).trans ?_
        split
        · split <;> simp
        · simp

@[simp] theorem State.settleFrame_cmd (s : State) (id : Nat) : (s.settleFrame id).cmd = s.cmd := by
  unfold State.settleFrame
  split
  · rfl
  · split
    · rfl
    · split
      · split
        · rfl
        · exact moveToCapture_cmd _ _ _
      · exact s.dropCells_cmd _

@[simp] theorem State.makeCapture_cmd (s : State) (q : Nat) (f : Frame) (d : FrameDesc) (deferred : Bool) (c : PortCode) :
    (s.makeCapture q f d deferred c).cmd = s.cmd := by
  unfold State.makeCapture
  dsimp only
  split <;> simp

@[simp] theorem State.refuseCopy_cmd (s : State) (c : Copy) : (s.refuseCopy c).cmd = s.cmd := by simp [State.refuseCopy]

@[simp] theorem State.deferCopy_cmd (s : State) (c : Copy) : (s.deferCopy c).cmd = s.cmd := by
  unfold State.deferCopy
  dsimp only
  split
  · rfl
  · split <;> simp

theorem settleHead_cmd (c q k : Nat) (s : State) : (settleHead c q k s).cmd = s.cmd := by
  induction k generalizing s with
  | zero => rfl
  | succ k ih =>
    unfold settleHead
    split
    · rfl
    · split
      · rfl
      extract_lets act t
      split
      · simp [ih, t]
      split
      · simp [ih, t]
      split
      · split
        · split <;> simp [ih, t]
        · simp
      · simp

@[simp] theorem State.pushCopy_cmd (s : State) (c : Copy) : (s.pushCopy c).cmd = s.cmd :=
  (settleHead_cmd _ _ _ _).trans (s.setQueue_cmd _ _ _)

/-! ### Copies for a port that is UP (R49, R139) -/

theorem State.enqueue_up {c : Copy} (h : s.portState c.port.toNat = pUp) : s.enqueue c = s.pushCopy c := if_pos h

/-- The copy of a frame of the block for a port. -/
def directCopy (s : State) (f : Frame) (id c : Nat) : Copy :=
  { frame := id, port := BitVec.ofNat 8 c, tc := f.desc.tc, adm := f.desc.adm
    express := !isE c || !s.bt (R.gteCfg c) f.desc.tc, locked := f.desc.lockedBit }

theorem State.sendDirect_up {id c : Nat} {f : Frame} (hf : s.frame id = some f) (hc : c < 256) (h : s.portState c = pUp) :
    s.sendDirect id c = (s.pushCopy (directCopy s f id c)).settleFrame id := by
  have hport : (directCopy s f id c).port.toNat = c := Nat.mod_eq_of_lt hc
  unfold State.sendDirect
  rw [hf, ← State.enqueue_up (hport.symm ▸ h)]
  rfl

theorem State.sendDirect_cmd {c : Nat} (id : Nat) (hc : c < 256) (h : s.portState c = pUp) : (s.sendDirect id c).cmd = s.cmd := by
  rcases hf : s.frame id with _ | f
  · simp [State.sendDirect, hf]
  · simp [State.sendDirect_up hf hc h]

@[simp] theorem State.queue_setQueue_same (s : State) (c q : Nat) (l : List Copy) : ((s.setQueue c q l).egOf c).queue q = l := by
  rw [State.setQueue, State.egOf_setEg_same, EgPort.queue, EgPort.setQueue, kvGet_set_same]

/-- A head of class A that has not been judged is admitted, whatever the band (R158). -/
theorem settleHead_classA {c q k : Nat} {x : Copy} {r : List Copy} (hq : (s.egOf c).queue q = x :: r) (hadm : x.adm = 0)
    (hshaped : x.shaped = none) (hheld : x.locked = false ∧ x.started = false) :
    settleHead c q (k + 1) s = s.setQueue c q ({ x with shaped := some false } :: r) := by
  simp [settleHead, hq, hadm, hshaped, hheld, State.polAct]

/-- A copy of class A that finds its queue empty waits there alone. -/
theorem State.pushCopy_alone {x : Copy} (hadm : x.adm = 0) (hshaped : x.shaped = none) (hheld : x.locked = false ∧ x.started = false)
    (hq : (s.egOf x.port.toNat).queue x.tc = []) : ∃ e y, s.pushCopy x = { s with fwd.eg := e } ∧
      ((s.pushCopy x).egOf x.port.toNat).queue x.tc = [y] ∧ y.frame = x.frame ∧ y.port = x.port := by
  have hpush : s.pushCopy x = (s.setQueue x.port.toNat x.tc [x]).setQueue x.port.toNat x.tc [{ x with shaped := some false }] := by
    unfold State.pushCopy
    dsimp only
    rw [hq]
    exact settleHead_classA (State.queue_setQueue_same _ _ _ _) hadm hshaped hheld
  rw [hpush]
  exact ⟨_, _, rfl, State.queue_setQueue_same _ _ _ _, rfl, rfl⟩

/-- A frame of which a copy waits in a queue is held. -/
theorem State.egressHolds_queue {c q id : Nat} {x : Copy} (h : x ∈ (s.egOf c).queue q) (hx : x.frame = id) :
    s.egressHolds id = true := by
  have hport : (c, s.egOf c) ∈ s.fwd.eg := mem_of_kvGet rfl fun he => by simp [he, EgPort.queue, kvGet] at h
  have hqueue : (q, (s.egOf c).queue q) ∈ (s.egOf c).queues := mem_of_kvGet rfl (List.ne_nil_of_mem h)
  have hheld : (s.egOf c).holdsFrame id = true := by
    simp only [EgPort.holdsFrame, Bool.or_eq_true, List.any_eq_true]
    exact .inl (.inl (.inl (.inl ⟨_, hqueue, x, h, beq_iff_eq.2 hx⟩)))
  simp only [State.egressHolds, Bool.or_eq_true, List.any_eq_true]
  exact .inl (.inl ⟨_, hport, hheld⟩)

theorem State.settleFrame_held {id : Nat} (h : s.egressHolds id = true) : s.settleFrame id = s := by
  unfold State.settleFrame
  split
  · rfl
  · rw [if_pos (.inr h)]

/-- The only frame under its number, as the newest of the buffer. -/
theorem find_newest {l : List Frame} {f : Frame} (h : ∀ g ∈ l, g.id < f.id) : (l ++ [f]).find? (fun g => g.id == f.id) = some f := by
  have hnone : l.find? (fun g => g.id == f.id) = none := List.find?_eq_none.2 fun g hg => by simpa using (h g hg).ne
  simp [hnone]

/-- A frame of the block of class A for a port that is UP, whose queue there is empty: its copy waits in the queue alone, and only the
egress ports change. -/
theorem State.sendDirect_alone {c : Nat} {f : Frame} (hf : s.frame f.id = some f) (hc : c < 256) (hup : s.portState c = pUp)
    (hadm : f.desc.adm = 0) (hlocked : f.desc.lockedBit = false) (hq : (s.egOf c).queue f.desc.tc = []) :
    ∃ e x, s.sendDirect f.id c = { s with fwd.eg := e } ∧ ((s.sendDirect f.id c).egOf c).queue f.desc.tc = [x] ∧ x.frame = f.id ∧
      x.port.toNat = c := by
  have hport : (directCopy s f f.id c).port.toNat = c := Nat.mod_eq_of_lt hc
  have hempty : (s.egOf (directCopy s f f.id c).port.toNat).queue (directCopy s f f.id c).tc = [] := by rwa [hport]
  obtain ⟨e, x, hpush, hqueue, hframe, hx⟩ := State.pushCopy_alone hadm rfl ⟨hlocked, rfl⟩ hempty
  rw [hport] at hqueue
  have hheld : (s.pushCopy (directCopy s f f.id c)).egressHolds f.id = true :=
    State.egressHolds_queue (hqueue.symm ▸ List.mem_singleton_self x) hframe
  rw [State.sendDirect_up hf hc hup, State.settleFrame_held hheld]
  exact ⟨e, x, hpush, hqueue, hframe, hx ▸ hport⟩

/-! ### The start of a request (R131, R132) -/

/-- The bytes of a request: operation, tag, offset, and the data of a write. -/
def State.requestBody (s : State) (p : Part) (w : Nat) (write : Bool) (off : Nat) (data : List Byte) : List Byte :=
  [if write then 2 else 1, s.winTagOf p w] ++ beBytes 2 off ++ (if write then data else [])

/-- A window's tag counts on. -/
def State.tagTaken (s : State) (p : Part) (w : Nat) : State :=
  { s with cmd.winTag := kvSet 0 s.cmd.winTag (p.val * 32 + w) (s.winTagOf p w + 1) }

/-- The request frame of a window as built and, where LOCAL admits it, in the packet buffer. -/
def State.requestBuilt (s : State) (p : Part) (w : Nat) (body : List Byte) : Option Nat × State :=
  let (h, b, t) := (s.tagTaken p w).requestFrame (s.window p w) body
  t.localFrame (BitVec.ofNat 8 (0x70 + p.val)) (wnTc (s.window p w)) false h b

/-- A slot takes a transaction, whose request is open. -/
def State.requestOpened (s : State) (p : Part) (k : Nat) (x : Slot) (r : OpenReq) : State :=
  { s.setSlot p k x with cmd.openReqs := s.cmd.openReqs ++ [r] }

/-- The request frame, if it was built, goes to the window's port. -/
def State.requestSent (s : State) (e : Window) : Option Nat → State
  | none => s
  | some i => (s.insertLin e).sendDirect i (wnPort e)

section
variable {k w len off : Nat} {write : Bool} {data : List Byte} {cmd : Option (BitVec 12 × Bool)}

theorem State.startRequest_disabled (h : wnEnable (s.window p w) = false) : s.startRequest p k w write len off data cmd =
    (s.setSlot p k { state := slPending, window := w, write, len, cmd }).endSlot p k 0xF1 [] := by
  unfold State.startRequest
  dsimp only
  rw [if_pos (by simp [h])]

theorem State.startRequest_long (h : wnEnable (s.window p w) = true) (hlen : wnLimit (s.window p w) < len) :
    s.startRequest p k w write len off data cmd =
      (s.setSlot p k { state := slPending, window := w, write, len, cmd }).endSlot p k 0xF0 [] := by
  unfold State.startRequest
  dsimp only
  rw [if_neg (by simp [h]), if_pos hlen]

theorem State.startRequest_sends (h : wnEnable (s.window p w) = true) (hlen : len ≤ wnLimit (s.window p w)) :
    s.startRequest p k w write len off data cmd =
      let x := s.requestBuilt p w (s.requestBody p w write off (data.take len))
      (x.2.requestOpened p k { state := slPending, window := w, write, len, cmd, tag := s.winTagOf p w }
        { part := p, window := w, tag := s.winTagOf p w, slot := some k, write, frame := x.1 }).requestSent (s.window p w) x.1 := by
  unfold State.startRequest State.requestBuilt State.requestBody State.tagTaken
  dsimp only
  rw [if_neg (by simp [h]), if_neg (Nat.not_lt.2 hlen)]
  generalize State.requestFrame _ _ _ = built
  generalize State.localFrame _ _ _ _ _ _ = x
  rcases x with ⟨_ | i, t⟩ <;> rfl
end

section
variable {w : Nat} {body : List Byte}

theorem State.tagTaken_admits (s : State) (p : Part) (w k a cls : Nat) :
    ({ s.tagTaken p w with free := k } : State).admits a cls = s.admits a cls := rfl

theorem State.tagTaken_admOf (s : State) (p : Part) (w k tc : Nat) : ({ s.tagTaken p w with free := k } : State).admOf tc = s.admOf tc :=
  rfl

/-- A request frame that LOCAL refuses. -/
theorem State.requestBuilt_refused (h : s.admits acctLocal (s.admOf (wnTc (s.window p w))) = false) :
    ∃ k, s.requestBuilt p w body = (none, ({ s.tagTaken p w with free := k } : State).bufFull) := by
  obtain ⟨hs, b, k, hframe, -⟩ := (s.tagTaken p w).requestFrame_carries (s.window p w) body
  rw [← s.tagTaken_admits p w k, ← s.tagTaken_admOf p w k] at h
  unfold State.requestBuilt
  rw [hframe]
  exact ⟨k, State.localFrame_refused _ _ _ _ h⟩

/-- A request frame that LOCAL admits is the newest in the buffer, and carries the request's bytes. -/
theorem State.requestBuilt_admitted (h : s.admits acctLocal (s.admOf (wnTc (s.window p w))) = true) :
    ∃ f k g, s.requestBuilt p w body = (some s.fwd.nextFrame, { s.tagTaken p w with free := k, fwd := g }) ∧ f.id = s.fwd.nextFrame ∧
      (requestData (s.window p w) f.bytes).take body.length = body ∧
      f.desc.cls = mkClass (wnTc (s.window p w)) (s.admOf (wnTc (s.window p w))) false false ∧
      g.frames = s.fwd.frames ++ [f] ∧ g.eg = s.fwd.eg := by
  obtain ⟨hs, b, k, hframe, hbody⟩ := (s.tagTaken p w).requestFrame_carries (s.window p w) body
  rw [← s.tagTaken_admits p w k, ← s.tagTaken_admOf p w k] at h
  obtain ⟨f, k', g, hlocal, hid, hbytes, hcls, hframes, heg⟩ := State.localFrame_admitted (BitVec.ofNat 8 (0x70 + p.val)) false hs b h
  unfold State.requestBuilt
  rw [hframe]
  refine ⟨f, k', g, hlocal, hid, by rwa [hbytes], hcls, hframes, heg⟩

/-- The building of a request's frame takes the window's tag, and nothing else of the command unit. -/
theorem State.requestBuilt_cmd (s : State) (p : Part) (w : Nat) (body : List Byte) :
    (s.requestBuilt p w body).2.cmd = (s.tagTaken p w).cmd := by
  rcases h : s.admits acctLocal (s.admOf (wnTc (s.window p w))) with _ | _
  · obtain ⟨k, heq⟩ := State.requestBuilt_refused (body := body) h
    rw [heq]
    simp [State.bufFull, State.dropFrame]
  · obtain ⟨f, k, g, heq, -⟩ := State.requestBuilt_admitted (body := body) h
    rw [heq]

/-- LIN headers are inserted in the port's schedule. -/
theorem State.insertLin_rest (s : State) (e : Window) : ∃ l, s.insertLin e = { s with lnk := l } := by
  unfold State.insertLin
  dsimp only
  split
  · exact ⟨_, rfl⟩
  · exact ⟨_, rfl⟩

/-- The state that a request's frame is sent from, where LOCAL admitted it: a port's link state there is as before the request. -/
theorem State.portState_requestOpened (s : State) (p : Part) (w k : Nat) (g : FwdUnit) (slot : Nat) (x : Slot) (r : OpenReq) (l : LnkUnit)
    (c : Nat) : ({ ({ s.tagTaken p w with free := k, fwd := g } : State).requestOpened p slot x r with lnk := l } : State).portState c =
      s.portState c := rfl

/-- The sending of a request leaves the command unit. -/
theorem State.requestSent_cmd (hup : s.portState (wnPort (s.window p w)) = pUp) (k : Nat) (x : Slot) (r : OpenReq) :
    let b := s.requestBuilt p w body
    ((b.2.requestOpened p k x r).requestSent (s.window p w) b.1).cmd = (b.2.requestOpened p k x r).cmd := by
  rcases h : s.admits acctLocal (s.admOf (wnTc (s.window p w))) with _ | _
  · obtain ⟨k', heq⟩ := State.requestBuilt_refused (body := body) h
    rw [heq]
    rfl
  · obtain ⟨f, k', g, heq, -⟩ := State.requestBuilt_admitted (body := body) h
    rw [heq]
    dsimp only [State.requestSent]
    obtain ⟨l, hlin⟩ := State.insertLin_rest
      (({ s.tagTaken p w with free := k', fwd := g } : State).requestOpened p k x r) (s.window p w)
    rw [hlin]
    exact State.sendDirect_cmd _ (wnPort_lt _) ((s.portState_requestOpened _ _ _ _ _ _ _ _ _).trans hup)

/-- A request that LOCAL admits in class A, whose queue is empty: its frame is in the buffer, and its copy waits in the queue alone. -/
theorem State.requestSent_alone (hadmits : s.admits acctLocal (s.admOf (wnTc (s.window p w))) = true)
    (hadm : s.admOf (wnTc (s.window p w)) = 0) (hup : s.portState (wnPort (s.window p w)) = pUp)
    (hq : (s.egOf (wnPort (s.window p w))).queue (wnTc (s.window p w)) = []) (hfresh : ∀ f ∈ s.fwd.frames, f.id < s.fwd.nextFrame)
    (k : Nat) (x : Slot) (r : OpenReq) :
    let b := s.requestBuilt p w body
    let t := (b.2.requestOpened p k x r).requestSent (s.window p w) b.1
    ∃ f y, b.1 = some f.id ∧ t.frame f.id = some f ∧
      (t.egOf (wnPort (s.window p w))).queue (wnTc (s.window p w)) = [y] ∧ y.frame = f.id ∧ y.port.toNat = wnPort (s.window p w) ∧
      (requestData (s.window p w) f.bytes).take body.length = body := by
  obtain ⟨f, k', g, heq, hid, hbody, hcls, hframes, heg⟩ := State.requestBuilt_admitted (body := body) hadmits
  rw [heq]
  obtain ⟨l, hlin⟩ := State.insertLin_rest
    (({ s.tagTaken p w with free := k', fwd := g } : State).requestOpened p k x r) (s.window p w)
  dsimp only [State.requestSent]
  rw [hlin, ← hid]
  set u : State := { ({ s.tagTaken p w with free := k', fwd := g } : State).requestOpened p k x r with lnk := l } with hu
  have hf : u.frame f.id = some f := by
    show g.frames.find? _ = _
    rw [hframes]
    exact find_newest fun e he => hid ▸ hfresh e he
  have hport : u.portState (wnPort (s.window p w)) = pUp := (s.portState_requestOpened _ _ _ _ _ _ _ _ _).trans hup
  have htc : f.desc.tc = wnTc (s.window p w) := by rw [FrameDesc.tc, hcls, mkClass_tc _ _ _ (wnTc_lt _)]
  have hempty : (u.egOf (wnPort (s.window p w))).queue f.desc.tc = [] := by
    rw [htc, ← hq]
    show EgPort.queue (kvGet {} g.eg _) _ = _
    rw [heg]
    rfl
  have hlocked : f.desc.lockedBit = false := by rw [FrameDesc.lockedBit, hcls, mkClass_unlocked]
  have hA : f.desc.adm = 0 := by rw [FrameDesc.adm, hcls, hadm, mkClass_adm _ _ _ (by decide)]
  obtain ⟨e, y, hsent, hqueue, hframe, hy⟩ := State.sendDirect_alone hf (wnPort_lt _) hport hA hlocked hempty
  refine ⟨f, y, rfl, ?_, htc ▸ hqueue, hframe, hy, hbody⟩
  rw [hsent]
  exact hf

end

end Sys2Proof.Machine
end

section
/-! SUPPORT. The rows of a bridge slot (R132, R133): a request, a release, the delayed-read timer and the far timeout. -/

namespace Sys2Proof.Machine

variable {s : State} {p : Part} {k : Fin 8}

/-! ### BRG_SLOTk_REQ -/

theorem exec_brgSlotReq {v : W32} (h : s.mayWrite p (0x18_0204 + 0x10 * k.val)) :
    exec (.brgSlotReq p k v) s = .next (brgSlotReq p k v s) := congrArg (β := Res) .next (onWrite_may h)

theorem brgSlotReq_busy {v : W32} (h : (s.slot p k).state ≠ slFree) : brgSlotReq p k v s = s.report 0x0110 kInfo p.val 0xFF k.val :=
  if_pos h

theorem brgSlotReq_free {v : W32} (h : (s.slot p k).state = slFree) : brgSlotReq p k v s =
    s.startRequest p k (fld v 4 0) (bit v 5) (fld v 11 6 + 1) (fld v 27 12) (s.slotData p k (fld v 11 6 + 1)) none :=
  if_neg (not_not_intro h)

theorem length_readBytes (m : List Host.Cell) (a n : Nat) : (Memory.readBytes m a n).length = n := by
  induction n generalizing a with
  | zero => rfl
  | succ n ih => exact congrArg (· + 1) (ih (a + 1))

/-- The data of a request of a slot are the bytes of its buffer. -/
theorem take_slotData (s : State) (p : Part) (k n : Nat) : (s.slotData p k n).take n = s.slotData p k n :=
  List.take_of_length_le (length_readBytes _ _ _).le

/-- What a request that ends in its slot leaves: the slot in ERROR with the far status, and no frame and no open request more. -/
structure LocalError (s t : State) (p : Part) (k : Nat) (far : Byte) : Prop where
  state : (t.slot p k).state = slError
  far : (t.slot p k).far = far
  fwd : t.fwd = s.fwd
  reqs : t.cmd.openReqs = s.cmd.openReqs
  out : t.out = s.out

/-- A slot that no command holds ends in ERROR with the far status. -/
theorem State.endSlot_localError (s : State) (p : Part) (k : Nat) {x : Slot} {far : Nat} (hx : x.cmd = none) (hfar : far ≠ 0) :
    LocalError s ((s.setSlot p k x).endSlot p k far []) p k (BitVec.ofNat 8 far) := by
  rw [State.endSlot_error (by rw [State.slot_setSlot_same, hx]) hfar]
  exact ⟨by rw [State.slot_setSlot_same], by rw [State.slot_setSlot_same], rfl, rfl, rfl⟩

theorem winTagOf_tagTaken (s : State) (p : Part) (w : Nat) : (s.tagTaken p w).winTagOf p w = s.winTagOf p w + 1 :=
  kvGet_set_same _ _ _ _

/-- What the start of a request leaves in the command unit. -/
structure RequestOpen (s t : State) (p : Part) (k w : Nat) (x : Slot) (r : OpenReq) : Prop where
  slot : t.slot p k = x
  tag : t.winTagOf p w = s.winTagOf p w + 1
  reqs : t.cmd.openReqs = s.cmd.openReqs ++ [r]

theorem State.requestSent_open {w : Nat} (body : List Byte) (hup : s.portState (wnPort (s.window p w)) = pUp) (k : Nat) (x : Slot)
    (r : OpenReq) :
    let b := s.requestBuilt p w body
    RequestOpen s ((b.2.requestOpened p k x r).requestSent (s.window p w) b.1) p k w x r := by
  intro b
  have hcmd : ((b.2.requestOpened p k x r).requestSent (s.window p w) b.1).cmd = ((s.tagTaken p w).requestOpened p k x r).cmd := by
    rw [State.requestSent_cmd hup k x r]
    simp only [State.requestOpened, State.setSlot, s.requestBuilt_cmd p w body]
  exact ⟨by rw [State.slot, hcmd]; exact State.slot_setSlot_same _ p k x,
    by rw [State.winTagOf, hcmd]; exact winTagOf_tagTaken s p w, by rw [hcmd]; rfl⟩

/-- The slot that a write of BRG_SLOTk_REQ makes PENDING, the bytes of its request, the frame as built, and the open request. -/
def State.pendingSlot (s : State) (p : Part) (v : W32) : Slot :=
  { state := slPending, window := fld v 4 0, write := bit v 5, len := fld v 11 6 + 1, tag := s.winTagOf p (fld v 4 0) }

def State.slotBody (s : State) (p : Part) (k : Fin 8) (v : W32) : List Byte :=
  s.requestBody p (fld v 4 0) (bit v 5) (fld v 27 12) (s.slotData p k (fld v 11 6 + 1))

def State.slotBuilt (s : State) (p : Part) (k : Fin 8) (v : W32) : Option Nat × State :=
  s.requestBuilt p (fld v 4 0) (s.slotBody p k v)

def State.pendingReq (s : State) (p : Part) (k : Fin 8) (v : W32) : OpenReq :=
  { part := p, window := fld v 4 0, tag := s.winTagOf p (fld v 4 0), slot := some k.val, write := bit v 5, frame := (s.slotBuilt p k v).1 }

/-- The state in which a write of BRG_SLOTk_REQ has sent its request. -/
def State.slotSent (s : State) (p : Part) (k : Fin 8) (v : W32) : State :=
  ((s.slotBuilt p k v).2.requestOpened p k (s.pendingSlot p v) (s.pendingReq p k v)).requestSent (s.window p (fld v 4 0))
    (s.slotBuilt p k v).1

section
variable {v : W32} (hfree : (s.slot p k).state = slFree)
include hfree

theorem brgSlotReq_disabled (h : wnEnable (s.window p (fld v 4 0)) = false) : LocalError s (brgSlotReq p k v s) p k 0xF1 := by
  rw [brgSlotReq_free hfree, State.startRequest_disabled h]
  exact s.endSlot_localError p k rfl (by decide)

theorem brgSlotReq_long (h : wnEnable (s.window p (fld v 4 0)) = true) (hlen : wnLimit (s.window p (fld v 4 0)) < fld v 11 6 + 1) :
    LocalError s (brgSlotReq p k v s) p k 0xF0 := by
  rw [brgSlotReq_free hfree, State.startRequest_long h hlen]
  exact s.endSlot_localError p k rfl (by decide)

theorem brgSlotReq_sends (h : wnEnable (s.window p (fld v 4 0)) = true) (hlen : fld v 11 6 + 1 ≤ wnLimit (s.window p (fld v 4 0))) :
    brgSlotReq p k v s = s.slotSent p k v := by
  rw [brgSlotReq_free hfree, State.startRequest_sends h hlen, take_slotData]
  rfl

end

/-! ### BRG_SLOTk_REL -/

theorem exec_brgSlotRelease {v : W32} (h : s.mayWrite p (0x18_0208 + 0x10 * k.val)) :
    exec (.brgSlotRelease p k v) s = .next (brgSlotRelease p k v s) := congrArg (β := Res) .next (onWrite_may h)

/-- With no REMOTE_ACCESS waiting, a slot that no command holds is freed. -/
theorem brgSlotRelease_plain {v : W32} (hv : bit v 0 = true) (hheld : (s.slot p k).state ≠ slFree) (hwait : s.cmd.remoteWait = [])
    (h : (s.slot p k).cmd = none) : brgSlotRelease p k v s = s.freeSlot p k := by
  unfold brgSlotRelease
  dsimp only
  rw [if_pos ⟨hv, hheld⟩, h]
  exact State.startRemotes_none hwait

/-- With no REMOTE_ACCESS waiting, a slot that one holds is freed with the command's completion (log entry 41). -/
theorem brgSlotRelease_command {v : W32} {tag : BitVec 12} {irq : Bool} (hv : bit v 0 = true) (hheld : (s.slot p k).state ≠ slFree)
    (hwait : s.cmd.remoteWait = []) (h : (s.slot p k).cmd = some (tag, irq)) :
    brgSlotRelease p k v s = (s.freeSlot p k).complete p (farReply tag irq 0xF2) := by
  unfold brgSlotRelease
  dsimp only
  rw [if_pos ⟨hv, hheld⟩, h]
  exact State.startRemotes_none (((s.freeSlot_freed p k).complete _).waits.trans hwait)

/-- With no REMOTE_ACCESS waiting, a release frees its slot, whoever holds it. -/
theorem brgSlotRelease_freed {v : W32} (hv : bit v 0 = true) (hheld : (s.slot p k).state ≠ slFree) (hwait : s.cmd.remoteWait = []) :
    SlotFreed s (brgSlotRelease p k v s) p k := by
  rcases hcmd : (s.slot p k).cmd with _ | ⟨tag, irq⟩
  · rw [brgSlotRelease_plain hv hheld hwait hcmd]
    exact s.freeSlot_freed p k
  · rw [brgSlotRelease_command hv hheld hwait hcmd]
    exact (s.freeSlot_freed p k).complete _

/-! ### The delayed-read timer -/

theorem exec_delayedReadExpire (h : s.works) : exec (.delayedReadExpire p k) s = .next (delayedReadExpire p k s) :=
  next_clocked h _

/-- The state in which an expiry has freed its slot, before its report. -/
def State.readDiscarded (s : State) (p : Part) (k : Nat) : State := (s.freeSlot p k).modRgp p R.drDiscard (fun w => satInc w 1)

/-- A held slot whose timer expires, with no REMOTE_ACCESS waiting. -/
theorem delayedReadExpire_held (h : (s.slot p k).state = slReady ∨ (s.slot p k).state = slError) (hwait : s.cmd.remoteWait = []) :
    delayedReadExpire p k s =
      (s.readDiscarded p k).report 0x0111 kInfo p.val 0xFF (k.val + (s.slot p k).tag.toNat * 2 ^ 8) := by
  have hfreed : (s.readDiscarded p k).cmd.remoteWait = [] := by
    rw [State.readDiscarded, State.modRgp_cmd]
    exact hwait
  unfold delayedReadExpire
  dsimp only
  rw [if_pos h, ← State.readDiscarded, State.startRemotes_none]
  rw [(State.report_portsKept _ _ _ _ _ _ _).waits, hfreed]

theorem State.report_slot (s : State) (code kind part unit detail : Nat) (fault : Bool) (q : Part) (j : Nat) :
    (s.report code kind part unit detail fault).slot q j = s.slot q j := by
  obtain ⟨⟨e, r, heq⟩, -⟩ := s.report_reported code kind part unit detail fault
  rw [heq]
  rfl

theorem State.readDiscarded_free (s : State) (p : Part) (k : Nat) : ((s.readDiscarded p k).slot p k).state = slFree := by
  obtain ⟨g, heq⟩ := (s.freeSlot p k).modRgp_rest p R.drDiscard (fun w => satInc w 1)
  rw [State.readDiscarded, heq]
  exact (s.freeSlot_freed p k).free

theorem State.readDiscarded_counted (s : State) (p : Part) (k : Nat) :
    (s.readDiscarded p k).rgp p R.drDiscard = satInc (s.rgp p R.drDiscard) 1 := State.rgp_modRgp_same _ _ _ _

theorem State.readDiscarded_fwd (s : State) (p : Part) (k : Nat) : (s.readDiscarded p k).fwd = s.fwd := State.modRgp_fwd _ _ _ _

theorem delayedReadExpire_idle (h : (s.slot p k).state = slFree ∨ (s.slot p k).state = slPending) : delayedReadExpire p k s = s := by
  refine if_neg ?_
  rcases h with h | h <;> rw [h] <;> decide

/-! ### The far timeout -/

theorem exec_bridgeFarTimeout {w : Fin 32} {tag : Byte} (h : s.works) :
    exec (.bridgeFarTimeout p w tag) s = .next (bridgeFarTimeout p w tag s) := next_clocked h _

/-- The open request that a window and tag name is the partition's. -/
theorem part_of_find {w : Nat} {tag : Byte} {r : OpenReq} {l : List OpenReq}
    (h : l.find? (fun r => r.part == p && r.window == w && r.tag == tag) = some r) : r.part = p := by
  have hr := List.find?_some h
  simp only [Bool.and_eq_true, beq_iff_eq] at hr
  obtain ⟨⟨hpart, -⟩, -⟩ := hr
  exact hpart

theorem State.farCounted_slot (s : State) (r : OpenReq) (far : Nat) (q : Part) (j : Nat) : (s.farCounted r far).slot q j = s.slot q j := by
  obtain ⟨e, g, heq⟩ := s.farCounted_rest r far
  rw [heq]
  rfl

theorem State.farCounted_path (s : State) (r : OpenReq) (far : Nat) (q : Part) : (s.farCounted r far).path q = s.path q := by
  obtain ⟨e, g, heq⟩ := s.farCounted_rest r far
  rw [heq]
  rfl

/-- What a far timeout of a slot's request leaves, whoever holds the slot. -/
structure FarEnded (s t : State) (r : OpenReq) : Prop where
  counted : t.rgp r.part R.farErr = satInc (s.rgp r.part R.farErr) 1
  closed : r ∉ t.cmd.openReqs
  fwd : t.fwd = s.fwd
  waits : t.cmd.remoteWait = s.cmd.remoteWait

theorem State.farCounted_ended (s : State) (r : OpenReq) (far : Nat) : FarEnded s (s.farCounted r far) r := by
  have hcount := s.farCounted_farErr r far
  obtain ⟨e, g, heq⟩ := s.farCounted_rest r far
  exact ⟨hcount, by rw [heq]; simp, by rw [heq], by rw [heq]⟩

/-- A far-side error of a slot that no command holds. -/
theorem FarEnded.setSlot {t : State} {r : OpenReq} (h : FarEnded s t r) (q : Part) (j : Nat) (x : Slot) : FarEnded s (t.setSlot q j x) r :=
  ⟨h.counted, h.closed, h.fwd, h.waits⟩

/-- A far-side error of a slot that is freed. -/
theorem FarEnded.freed {t u : State} {r : OpenReq} {j : Nat} (h : FarEnded s t r) (hr : r.slot = some j) (hu : SlotFreed t u r.part j) :
    FarEnded s u r := by
  refine ⟨?_, fun hmem => hu.reqs r hmem ⟨rfl, hr⟩, hu.fwd.trans h.fwd, hu.waits.trans h.waits⟩
  rw [← h.counted, State.rgp, State.key, hu.reg, hu.logger]
  rfl

section
variable {w : Fin 32} {tag : Byte} {r : OpenReq}
  (hfind : s.cmd.openReqs.find? (fun r => r.part == p && r.window == w.val && r.tag == tag) = some r) (hr : r.slot = some k.val)
  (hwait : s.cmd.remoteWait = [])
include hfind hr hwait

/-- With no REMOTE_ACCESS waiting, the far timeout of a slot that no command holds. -/
theorem bridgeFarTimeout_plain (h : (s.slot p k).cmd = none) : bridgeFarTimeout p w tag s =
    (s.farCounted r 0xF2).setSlot p k { s.slot p k with state := slError, far := 0xF2 } := by
  obtain rfl := part_of_find hfind
  unfold bridgeFarTimeout
  rw [hfind]
  dsimp only
  rw [State.farError_slot hr, State.endSlot_error (by rwa [State.farCounted_slot]) (by decide), State.farCounted_slot]
  exact State.startRemotes_none ((s.farCounted_ended r 0xF2).waits.trans hwait)

/-- With no REMOTE_ACCESS waiting, the far timeout of a slot that one holds. -/
theorem bridgeFarTimeout_command {ctag : BitVec 12} {irq : Bool} (h : (s.slot p k).cmd = some (ctag, irq)) : bridgeFarTimeout p w tag s =
    ((s.farCounted r 0xF2).freeSlot p k).complete p (farReply ctag irq 0xF2) := by
  obtain rfl := part_of_find hfind
  unfold bridgeFarTimeout
  rw [hfind]
  dsimp only
  rw [State.farError_slot hr, State.endSlot_command (by rwa [State.farCounted_slot]) (by decide)]
  exact State.startRemotes_none ((((State.freeSlot_freed _ _ _).complete _).waits).trans ((s.farCounted_ended r 0xF2).waits.trans hwait))

/-- A far timeout of a slot's request counts the error and closes the request, whoever holds the slot. -/
theorem bridgeFarTimeout_ended : FarEnded s (bridgeFarTimeout p w tag s) r := by
  have hcounted := s.farCounted_ended r 0xF2
  rcases hcmd : (s.slot p k).cmd with _ | ⟨ctag, irq⟩
  · rw [bridgeFarTimeout_plain hfind hr hwait hcmd]
    exact hcounted.setSlot _ _ _
  · rw [bridgeFarTimeout_command hfind hr hwait hcmd]
    obtain rfl := part_of_find hfind
    exact hcounted.freed hr ((State.freeSlot_freed _ _ _).complete _)

end

end Sys2Proof.Machine
end

section
/-! The statements on tunnelling, bridge and checker (04_tunnelling.md). -/

namespace Sys2Proof
open Sys2Proof.Machine

/-- Settles O38: a read is one write of the semaphore's word; a release is one for each bit set, and the copies of the semaphores stand at
distinct keys. -/
theorem semaphoresAreTakenAndReleased : Obligations.SemaphoresAreTakenAndReleased := by
  intro p s
  refine ⟨fun n hread => ⟨_, exec_brgSemTake hread, rfl, by simp, fun q m hother => ?_⟩, fun hi v hwrite =>
    ⟨_, exec_brgSemRelease v hwrite, ?_, fun m => ?_, fun q m hq => s.sem_semsReleased_other hi v m.isLt le_rfl hq⟩,
    fun h addr => exec_lockedRequest_live addr⟩
  · exact s.sem_setSem_other 0 m.isLt n.isLt fun h => hother (Prod.ext (Prod.ext_iff.1 h).1 (Fin.ext (Prod.ext_iff.1 h).2))
  · obtain ⟨r, heq⟩ := s.semsReleased_rest p hi v 32
    rw [heq]
  · rw [s.sem_semsReleased p hi v m.isLt le_rfl]
    simp only [Nat.mod_lt m.val (by decide : 32 > 0), true_and]

/-- Settles O39: an access is judged by its shape; one in mailbox space writes or reads the partition's own bytes. -/
theorem mailboxAccessesReachTheSlotData : Obligations.MailboxAccessesReachTheSlotData := by
  intro p addr n s _ htakes
  refine ⟨fun hlo hhi hone hline => ?_, fun hreg hbox => ?_, fun l => exec_mailboxAccess_register⟩
  · have hbox : mailboxShape addr.toNat n = true := decide_eq_true ⟨hlo, hhi, hone, hline⟩
    have haddr : BitVec.ofNat 32 addr.toNat = addr := by simp
    simp only [exec_mailboxAccess_inside htakes hbox]
    refine ⟨fun l hl hf => ?_, fun l hf => by rw [mailboxAt_write_frozen l hf], fun h => by rw [mailboxAt_read h, haddr],
      fun h => by rw [mailboxAt_read_error h, haddr]⟩
    subst hl
    exact ⟨_, congrArg (β := Res) .next (mailboxAt_write rfl hf), fun i hi => Memory.read_writeBytes_inside _ _ l hi,
      fun a ha => Memory.read_writeBytes_other _ _ l ha, rfl⟩
  · simp only [exec_mailboxAccess_outside htakes hreg hbox, unsupported, BitVec.ofNat_toNat, BitVec.setWidth_eq]
    exact ⟨rfl, fun _ => rfl⟩

/-- Settles O40: each row of a slot is followed by what it leaves of the slots, the open requests and the partition's path (`LocalError`,
`RequestOpen`, `SlotFreed`, `FarEnded`); a request's copy of class A that finds its queue empty waits there alone, and holds its frame. -/
theorem bridgeSlotsRunTheirStates : Obligations.BridgeSlotsRunTheirStates := by
  intro p k s
  refine ⟨fun v hmay => ⟨fun hbusy => by rw [exec_brgSlotReq hmay, brgSlotReq_busy hbusy], fun hfree => ⟨fun hoff => ?_,
    fun hon hlong => ?_, fun hon hfits hup => ?_⟩⟩, fun hwait v hmay hv hheld => ?_, fun hwait hw hheld => ?_,
    fun hw hidle => by rw [exec_delayedReadExpire hw, delayedReadExpire_idle hidle], fun hwait hw w tag r hfind hr => ?_⟩
  · have h := brgSlotReq_disabled hfree hoff
    exact ⟨_, exec_brgSlotReq hmay, h.state, h.far, h.fwd, h.reqs, h.out⟩
  · have h := brgSlotReq_long hfree hon hlong
    exact ⟨_, exec_brgSlotReq hmay, h.state, h.far, h.fwd, h.reqs, h.out⟩
  · have hexec : exec (.brgSlotReq p k v) s = .next (s.slotSent p k v) := by
      rw [exec_brgSlotReq hmay, brgSlotReq_sends hfree hon hfits]
    have hopen : RequestOpen s (s.slotSent p k v) p k (fld v 4 0) (s.pendingSlot p v) (s.pendingReq p k v) :=
      State.requestSent_open _ hup k _ _
    have hconf := ((exec_follows (.brgSlotReq p k v) s).out _ hexec).conf rfl
    refine ⟨s.slotSent p k v, s.pendingReq p k v, hexec, by rw [hopen.slot]; rfl, by rw [hopen.slot]; rfl, by rw [hopen.slot]; rfl,
      hopen.tag, hopen.reqs, rfl, rfl, rfl, rfl, rfl, hconf, fun hadmits hA hempty hfresh => ?_⟩
    exact State.requestSent_alone hadmits hA hup hempty hfresh k (s.pendingSlot p v) (s.pendingReq p k v)
  · have h := brgSlotRelease_freed hv hheld hwait
    refine ⟨_, exec_brgSlotRelease hmay, h.free, h.fwd, h.reg, h.reqs, fun hcmd => ?_, fun tag irq hcmd hdrop => ?_⟩
    · rw [brgSlotRelease_plain hv hheld hwait hcmd]
      rfl
    · rw [brgSlotRelease_command hv hheld hwait hcmd]
      exact complete_done hdrop
  · refine ⟨_, exec_delayedReadExpire hw, ?_, ?_, ?_⟩ <;> rw [delayedReadExpire_held hheld hwait]
    · rw [State.report_slot, State.readDiscarded_free]
    · rw [State.rgp_report_bridge _ _ (by norm_num [R.drDiscard]), State.readDiscarded_counted]
    · rw [State.report_fwd, State.readDiscarded_fwd]
  · have h := bridgeFarTimeout_ended hfind hr hwait
    obtain rfl := part_of_find hfind
    refine ⟨_, exec_bridgeFarTimeout hw, h.counted, h.closed, h.fwd, fun hcmd => ?_, fun ctag irq hcmd => ⟨?_, fun hdrop => ?_⟩⟩
    · rw [bridgeFarTimeout_plain hfind hr hwait hcmd, State.slot_setSlot_same]
      exact ⟨rfl, rfl⟩
    · rw [bridgeFarTimeout_command hfind hr hwait hcmd]
      exact ((State.freeSlot_freed _ _ _).complete _).free
    · rw [bridgeFarTimeout_command hfind hr hwait hcmd]
      have hpath := s.farCounted_path r 0xF2 r.part
      exact (complete_done (by rwa [State.freeSlot_path, hpath])).trans (by rw [State.freeSlot_path, hpath]; rfl)

/-- Settles O42: a write of a channel's register that the master may make is the channel's own operation. -/
theorem crcChannelsFoldTheirBytes : Obligations.CrcChannelsFoldTheirBytes := by
  intro p k s
  refine ⟨fun v h => ?_, fun r v h => ?_, fun v h => ?_⟩
  · rw [exec_chkLoad h, State.chkLoad]
    exact ⟨fun hoff => by rw [if_neg (by simp [hoff])], fun hon => by rw [if_pos hon]; rfl⟩
  · rw [exec_chkDataWrite h, State.chkFold, length_leBytes]
    cases r <;> rfl
  · rw [exec_chkCfgWrite h, State.writeChkCfg]
    exact ⟨fun hlo hhi => by rw [if_neg (by omega)], fun hbad => by rw [if_pos hbad]⟩

/-- Settles O43: the running value and its reflection stay within the width, so the result's truncation cuts nothing. -/
theorem fixedPolynomialsGiveTheirCheckValues : Obligations.FixedPolynomialsGiveTheirCheckValues := by
  refine ⟨fun l => ?_, fun l => ?_, fun l => ?_, fun l => ?_, ?_⟩
  · exact crcFixed_eq l (by decide) (by decide)
  · exact crcFixed_eq l (by decide) (by decide)
  · exact crcFixed_eq l (by decide) (by decide)
  · exact crcFixed_eq l (by decide) (by decide)
  · decide +kernel

end Sys2Proof
end

section
/-! SUPPORT. A thermal sample whose new band has the heads judged again (R33, R155, R156), where a refused copy's frame moves to a full capture
reserve and evicts a copy that is pending beyond the queues Q0 to Q63 (R99). -/

namespace Sys2Proof.Machine

variable {s : State}

/-! ### The judgement of the heads under a new band (R33, R159) -/

/-- The judgement of one port's heads. -/
def State.rejudgePort (s : State) (c : Nat) : State :=
  (List.range 8).foldl (fun b q =>
    match (b.egOf c).queue q with
    | [] => b
    | h :: r => if h.started ∨ h.locked then b else (b.setQueue c q ({ h with shaped := none } :: r)).settleQueue c q) s

theorem State.rejudge_eq (s : State) : s.rejudge = (List.range 0x70).foldl State.rejudgePort s := rfl

theorem State.rejudgePort_empty {c : Nat} (h : (s.egOf c).queues = []) : s.rejudgePort c = s := by
  unfold State.rejudgePort
  exact List.foldl_fixed' (fun q => by simp [EgPort.queue, h, kvGet]) _

/-- With nothing left at any port after E0, the judgement is that of E0's heads. -/
theorem State.rejudge_first (h : (s.rejudgePort 0).fwd.eg = []) : s.rejudge = s.rejudgePort 0 := by
  have hports : List.range 0x70 = 0 :: (List.range 0x6F).map Nat.succ := by decide
  have hrest : ∀ c, (s.rejudgePort 0).rejudgePort c = s.rejudgePort 0 := fun c =>
    State.rejudgePort_empty (by rw [State.egOf, h]; rfl)
  rw [State.rejudge_eq, hports, List.foldl_cons]
  exact List.foldl_fixed' hrest _

/-- The first step up from normal: the band, its counter and its sticky bit, and the slices, before the heads are judged again. -/
def State.warmed (s : State) : State :=
  (((s.settleShapers.setFd R.band 2 0 1).count R.bandChg).setBt R.thermStat 0 true).enableSlices

theorem State.changeBand_warmed (h : s.fd R.band 2 0 = 0) : s.changeBand 1 = s.warmed.rejudge := by
  simp [State.changeBand, State.warmed, h]

/-! ### A capture copy beyond Q63 -/

/-- The block after its start, with band 1 refusing class B and the capture reserve full. A copy of class B of frame 3 heads a queue of E0, and
a capture copy of it is pending under queue number 0x2040: 0x100 bytes for each queue put that queue's CAP_Qn_STATUS at PWR_TEMP4. -/
def strayCaptureQueue : State :=
  ({ State.reset with
    pins.hiZ := false
    fwd.frames := [{ id := 3, complete := true, branched := true, banks := [0] }]
    fwd.eg := [(0, { queues := [(0, [{ frame := 3, port := 0, adm := 1 }])] })]
    fwd.capCells := 32768
    cap.qs := [(0x2040, { copies := [{ frame := 3, seq := 0, stampHi := 0, deferred := false, egress := 0, desc := {} }] })] } :
    State).setRg (R.admPol 1) 3

/-- A sample of 96.25 degrees at sensor 0 and 96 degrees at the others. -/
def warmSample : Vector (BitVec 12) 6 := #v[385, 384, 384, 384, 384, 384]

/-- Sensor 0 alone shows the highest reading. -/
theorem warmSample_hot :
    (List.range 6).filter (fun n => tempOf (warmSample.toList.getD n 0) = hottest warmSample.toList) = [0] := by decide

theorem strayCaptureQueue_samples : strayCaptureQueue.asleep = false ∧ strayCaptureQueue.wakingBefore 2 = false ∧
    strayCaptureQueue.pins.shutdown = false ∧ strayCaptureQueue.pins.hiZ = false := by decide +kernel

/-- The state with the readings stored, before its band changes. -/
def straySampled : State :=
  (({ strayCaptureQueue with free := strayCaptureQueue.free + 1 } : State).storeTemps warmSample.toList).setFd R.band 10 8 0

theorem thermalSample_stray : thermalSample warmSample strayCaptureQueue = straySampled.warmed.rejudge := by
  obtain ⟨hasleep, hwaking, hshutdown, hhiZ⟩ := strayCaptureQueue_samples
  have hband : nextBand (hottest warmSample.toList) (strayCaptureQueue.fd R.band 2 0) = 1 := by decide +kernel
  have hcool : strayCaptureQueue.overheat warmSample.toList = false := by decide +kernel
  have hnormal : straySampled.fd R.band 2 0 = 0 := by decide +kernel
  rw [← State.changeBand_warmed hnormal]
  simp only [thermalSample, hasleep, hwaking, hshutdown, hhiZ, warmSample_hot, hband, hcool, Bool.false_eq_true, or_self, if_false,
    drawNat, List.length_singleton, max_self, Nat.mod_one, List.getD_cons_zero, straySampled]

theorem straySampled_judged : (straySampled.warmed.rejudgePort 0).fwd.eg = [] := by decide +kernel

/-- The eviction sets `lost` of the queue's status, bit 5 of PWR_TEMP4: 416 quarter degrees for the 384 that the sensor read. -/
theorem thermalSample_stray_temp : (thermalSample warmSample strayCaptureQueue).fd (R.temp 4) 11 0 = 416 := by
  rw [thermalSample_stray, State.rejudge_first straySampled_judged]
  decide +kernel

end Sys2Proof.Machine
end

section
/-! SUPPORT. What the REMOTE_ACCESS commands that wait for a slot leave of the egress ports (R131, R132, R139): their requests join queues,
and no transmission, preempted frame or committed copy changes. -/

namespace Sys2Proof.Machine

variable {s t u : State}

/-! ### Egress ports beside their queues (R139, R142, R181) -/

/-- An egress port without its queues. -/
def EgPort.sansQueues (e : EgPort) : EgPort := { e with queues := [] }

/-- Every egress port is as before but for its queues. -/
def LinesKept (s t : State) : Prop := ∀ k, (t.egOf k).sansQueues = (s.egOf k).sansQueues

theorem LinesKept.refl (s : State) : LinesKept s s := fun _ => rfl

theorem LinesKept.trans (h : LinesKept s t) (k : LinesKept t u) : LinesKept s u := fun c => (k c).trans (h c)

theorem LinesKept.commit (h : LinesKept s t) (c : Nat) : (t.egOf c).commit = (s.egOf c).commit :=
  (congrArg EgPort.commit (h c) :)

theorem linesKept_of_eg (h : t.fwd.eg = s.fwd.eg) : LinesKept s t := fun k => by rw [State.egOf, h, State.egOf]

theorem Settled.linesKept (h : Settled s t) : LinesKept s t := linesKept_of_eg (congrArg FwdUnit.eg h.fwd :)

theorem Beside.linesKept (h : Beside s t) : LinesKept s t := linesKept_of_eg (by rw [h.fwd])

theorem State.countDrop_linesKept (s : State) (code : Nat) : LinesKept s (s.countDrop code) := linesKept_of_eg rfl

theorem State.setQueue_linesKept (s : State) (c q : Nat) (l : List Copy) : LinesKept s (s.setQueue c q l) := fun k => by
  by_cases h : k = c
  · subst h
    rw [State.setQueue, State.egOf_setEg_same]
    rfl
  · rw [State.setQueue, State.egOf_setEg_other _ _ h]

/-! ### Copies at their egress ports (R89, R102, R157 to R163) -/

theorem State.refuseCopy_linesKept (s : State) (c : Copy) : LinesKept s (s.refuseCopy c) :=
  (s.countDrop_linesKept _).trans (State.settleFrame_settled _ _).linesKept

theorem State.deferCopy_linesKept (s : State) (c : Copy) : LinesKept s (s.deferCopy c) := by
  unfold State.deferCopy
  dsimp only
  split
  · exact .refl s
  · split
    · exact ((s.countDrop_linesKept _).trans (State.makeCapture_beside _ _ _ _ _ _).linesKept).trans
        (State.settleFrame_settled _ _).linesKept
    · exact s.refuseCopy_linesKept c

/-- The judgement of a queue's heads changes queues only. -/
theorem settleHead_linesKept (c q k : Nat) (s : State) : LinesKept s (settleHead c q k s) := by
  induction k generalizing s with
  | zero => exact .refl s
  | succ k ih =>
    unfold settleHead
    split
    next => exact .refl s
    next h r _ =>
      have hset : ∀ l, LinesKept s (s.setQueue c q l) := s.setQueue_linesKept c q
      have hdefer := ((hset r).trans (State.deferCopy_linesKept _ h)).trans (ih _)
      have hrefuse := ((hset r).trans (State.refuseCopy_linesKept _ h)).trans (ih _)
      split
      · exact .refl s
      extract_lets act t
      split
      · exact hdefer
      split
      · exact hrefuse
      split
      · split
        · split
          · exact hdefer
          · exact hrefuse
        · exact hset _
      · exact hset _

theorem State.pushCopy_linesKept (s : State) (c : Copy) : LinesKept s (s.pushCopy c) :=
  (s.setQueue_linesKept _ _ _).trans (settleHead_linesKept _ _ _ _)

/-- A copy that ends under a reason is in no port's hands any more. -/
theorem State.endCopy_linesKept (s : State) (code : Nat) (c : Copy) : LinesKept s (s.endCopy code c) := by
  have hbus : LinesKept s (if code = 0x1A ∧ isC c.port.toNat then s.count (R.canCnt (c.port.toNat - 0x20) 5) else s) := by
    split
    · exact (s.count_beside _ 1).linesKept
    · exact .refl s
  have hfar : ∀ t : State, LinesKept t (if code = 0x15 ∨ code = 0x18 ∨ code = 0x1A then t.unsendable c.frame else t) := fun t => by
    split
    · exact (t.unsendable_beside _).linesKept
    · exact .refl t
  exact (((hbus.trans (State.countDrop_linesKept _ _)).trans (hfar _)).trans (State.noProtect_beside _ _ _).linesKept).trans
    (State.settleFrame_settled _ _).linesKept

theorem State.goneCopy_linesKept (s : State) (c : Copy) : LinesKept s (s.goneCopy c) := by
  unfold State.goneCopy
  dsimp only
  split
  · exact s.pushCopy_linesKept _
  · exact s.endCopy_linesKept _ c

theorem State.enqueue_linesKept (s : State) (c : Copy) : LinesKept s (s.enqueue c) := by
  unfold State.enqueue
  dsimp only
  split
  · exact s.pushCopy_linesKept c
  · split
    · exact s.endCopy_linesKept _ c
    · exact s.goneCopy_linesKept c

theorem State.sendDirect_linesKept (s : State) (id c : Nat) : LinesKept s (s.sendDirect id c) := by
  unfold State.sendDirect
  split
  · exact .refl s
  · exact (s.enqueue_linesKept _).trans (State.settleFrame_settled _ _).linesKept

/-! ### Requests (R131, R132) -/

theorem State.bufFull_linesKept (s : State) : LinesKept s s.bufFull :=
  (s.countDrop_linesKept 0x10).trans (linesKept_of_eg (congrArg FwdUnit.eg (State.setBt_fwd _ _ _ _)))

theorem State.requestBuilt_linesKept (s : State) (p : Part) (w : Nat) (body : List Byte) :
    LinesKept s (s.requestBuilt p w body).2 := by
  rcases h : s.admits acctLocal (s.admOf (wnTc (s.window p w))) with _ | _
  · obtain ⟨k, heq⟩ := State.requestBuilt_refused (body := body) h
    rw [heq]
    have htag : LinesKept s ({ s.tagTaken p w with free := k } : State) := linesKept_of_eg rfl
    exact htag.trans (State.bufFull_linesKept _)
  · obtain ⟨f, k, g, heq, -, -, -, -, heg⟩ := State.requestBuilt_admitted (body := body) h
    rw [heq]
    exact linesKept_of_eg heg

theorem State.requestSent_linesKept (s : State) (e : Window) (id : Option Nat) : LinesKept s (s.requestSent e id) := by
  rcases id with _ | i
  · exact .refl s
  · obtain ⟨l, hlin⟩ := s.insertLin_rest e
    have hinsert : LinesKept s (s.insertLin e) := linesKept_of_eg (by rw [hlin])
    exact hinsert.trans (State.sendDirect_linesKept _ _ _)

theorem State.startRequest_linesKept (s : State) (p : Part) (k w : Nat) (write : Bool) (len off : Nat) (data : List Byte)
    (cmd : Option (BitVec 12 × Bool)) : LinesKept s (s.startRequest p k w write len off data cmd) := by
  have hslot : ∀ x, LinesKept s (s.setSlot p k x) := fun x => linesKept_of_eg rfl
  have hends : ∀ x far, LinesKept s ((s.setSlot p k x).endSlot p k far []) := fun x far =>
    (hslot x).trans (State.endSlot_beside _ _ _ _ _).linesKept
  have hopen : ∀ (t : State) x r, LinesKept t (t.requestOpened p k x r) := fun t x r => linesKept_of_eg rfl
  rcases h : wnEnable (s.window p w) with _ | _
  · rw [State.startRequest_disabled h]
    exact hends _ _
  · by_cases hlen : len ≤ wnLimit (s.window p w)
    · rw [State.startRequest_sends h hlen]
      exact ((s.requestBuilt_linesKept p w _).trans (hopen _ _ _)).trans (State.requestSent_linesKept _ _ _)
    · rw [State.startRequest_long h (Nat.lt_of_not_le hlen)]
      exact hends _ _

theorem State.tryRemote_linesKept (s : State) (p : Part) (d : CmdDesc) : LinesKept s (s.tryRemote p d) := by
  have hdraw : LinesKept s (drawNat s).2 := linesKept_of_eg rfl
  unfold State.tryRemote
  split
  · exact linesKept_of_eg rfl
  · exact hdraw.trans (State.startRequest_linesKept _ _ _ _ _ _ _ _ _)

/-- The REMOTE_ACCESS commands that waited for a slot start: their requests join queues. -/
theorem State.startRemotes_linesKept (s : State) : LinesKept s s.startRemotes := by
  have hstart : ∀ (l : List (Part × CmdDesc)) (a : State), LinesKept a (l.foldl (fun a x => a.tryRemote x.1 x.2) a) := fun l => by
    induction l with
    | nil => exact LinesKept.refl
    | cons x l ih => exact fun a => (a.tryRemote_linesKept x.1 x.2).trans (ih _)
  have hnone : LinesKept s ({ s with cmd.remoteWait := [] } : State) := linesKept_of_eg rfl
  exact hnone.trans (hstart _ _)

end Sys2Proof.Machine
end

section
/-! SUPPORT. A grant in a state whose table of egress ports lists one port twice: the hold-back of a head writes the port's entry and removes
the second one, and with it the lock that it held on a slice (R148, R181). -/

namespace Sys2Proof.Machine

variable {s : State}

theorem exec_egressGrant (h : s.works) {c : PortCode} (hc : mediaCode c.toNat = true) :
    exec (.egressGrant c) s = .next (egressGrant c s).startRemotes :=
  (if_pos hc : execEgressGrant c s = _).trans (next_clocked h _)

/-- E0 with two heads of frame 3: a locked copy in queue 0, a plain one in queue 1. -/
def twoHeads : EgPort :=
  { queues := [(0, [{ frame := 3, port := 0, locked := true }]), (1, [{ frame := 3, port := 0 }])] }

/-- A port whose committed copy locks slice 0. -/
def slicedCommit : EgPort := { commit := some { copy := { frame := 3, port := 0 }, tc := 0, slice := some 0 } }

/-- The block after its start, with slice 0 alone enabled and E0 UP at 25 Gbit/s with a transmit SA. Its timetable closes every gate but that
of queue 0 within 10 ns. E0 stands twice among the egress ports: first with its two heads, then with the committed copy that a read of the
table does not find. -/
def portListedTwice : State :=
  (((((({ State.reset with
    pins.hiZ := false
    fwd.frames := [{ id := 3, complete := true, branched := true, desc := { length := 60 } }]
    fwd.eg := [(0, twoHeads), (0, slicedCommit)]
    tab.gates := [(0, { header := setImg 1 4 4 10, entries := [1] })]
    tab.keys := [(5, setImg 0 0 4 (2 + 2 ^ 30))]
    live.saState := [(5, 1)] } : State).setRg (R.ethMode 0) 1).setRg (R.ethStatus 0) 3).setRg (R.gteStatus 0) 0x3_0400).setRg
    (R.cryPort 0) 4).setRg R.sliceStatus 1)

theorem portListedTwice_works : portListedTwice.works := by
  unfold State.works
  decide +kernel

/-- No queue of E0 is ready: queue 1's head fails the length check, and no slice is open for the protection of queue 0's. -/
theorem portListedTwice_idle : portListedTwice.ethOpen 0 = true ∧ portListedTwice.contest 0 = some false ∧
    portListedTwice.pick (.eth 0) (portListedTwice.ethReady 0 false (portListedTwice.lineFree 0)) = none := by decide +kernel

theorem portListedTwice_commit : (portListedTwice.egOf 0).commit = none := by decide +kernel

/-- Once queue 1's head is held back, slice 0 is open, and the grant commits queue 0's head. -/
theorem egressGrant_portListedTwice : ((egressGrant 0 portListedTwice).egOf 0).commit.isSome = true := by decide +kernel

end Sys2Proof.Machine
end

section
/-! The statements on scheduling (05_scheduling.md). -/

namespace Sys2Proof

open Machine

/-- Refutes O51: a new band has the heads of the queues judged again; a refused copy's frame can move to a full capture reserve, and the copy
evicted there sets `lost` in its queue's CAP_Qn_STATUS (R99, R254). The statement speaks of every state and does not bound the queue numbers
under which capture copies are pending. Under 0x2040, far beyond Q63, that register lies at PWR_TEMP4: in `strayCaptureQueue` PWR_TEMP4 shows
416 after a sample of 384. A state that bounds its capture queues by Q63 is not of this kind. -/
theorem not_thermalSamplesMoveTheBand : ¬ Obligations.ThermalSamplesMoveTheBand := by
  rintro ⟨-, -, hsample, -⟩
  obtain ⟨hasleep, hwaking, hshutdown, hhiZ⟩ := strayCaptureQueue_samples
  obtain ⟨t, hexec, -, hread, -⟩ := hsample warmSample strayCaptureQueue hasleep hwaking hshutdown hhiZ
  cases hexec
  obtain ⟨htemp, -⟩ := hread 4
  exact absurd (thermalSample_stray_temp.symm.trans htemp) (by decide)

/-- Refutes O57: with no queue of an Ethernet port ready, a grant is said to start nothing. The arbiter judges the queues after the hold-backs,
which write the port's entry in the table of egress ports; the statement judges them before. It speaks of every state that works, not only of
those whose table lists a port once (`kvWf`): in `portListedTwice` the hold-back drops the port's second entry, whose committed copy locked
the only slice, and the head that waited for a slice is committed. -/
theorem not_egressPortsSendOneCopyAtATime : ¬ Obligations.EgressPortsSendOneCopyAtATime := by
  intro h
  obtain ⟨-, heth, -⟩ := h portListedTwice portListedTwice_works
  obtain ⟨hopen, hcontest, hpick⟩ := portListedTwice_idle
  obtain ⟨-, hjudged⟩ := heth 0 0 rfl
  obtain ⟨hidle, -⟩ := hjudged false hopen hcontest
  obtain ⟨t, hexec, -, -, hcommit, -⟩ := hidle (.inr (.inr hpick))
  have hsame : (egressGrant 0 portListedTwice).startRemotes = t.startRemotes := by
    rw [exec_egressGrant portListedTwice_works rfl] at hexec
    exact Host.Outcome.next.inj hexec
  have hgranted : ((egressGrant 0 portListedTwice).egOf 0).commit = none := calc
    _ = ((egressGrant 0 portListedTwice).startRemotes.egOf 0).commit := ((State.startRemotes_linesKept _).commit 0).symm
    _ = (t.egOf 0).commit := by rw [hsame, t.startRemotes_linesKept.commit 0]
    _ = none := hcommit.trans portListedTwice_commit
  exact absurd egressGrant_portListedTwice (by rw [hgranted]; exact Bool.false_ne_true)

end Sys2Proof
end

section
/-! SUPPORT. The calendar and the time reads: months and possible dates (R190), the latched copies of presented time (R177, R170), and the
rows that answer a time or a phase (R178, R189, R200, R207). -/

namespace Sys2Proof.Machine

variable {s : State} {p : Part} {d : CmdDesc}

/-! ### The calendar (R190) -/

theorem isLeap_iff (y : Nat) : isLeap y = true ↔ 4 ∣ y ∧ (¬ 100 ∣ y ∨ 400 ∣ y) := by
  simp only [isLeap, decide_eq_true_eq, Nat.dvd_iff_mod_eq_zero, ne_eq]

theorem monthDays_eq (y : Nat) {m : Nat} (h1 : 1 ≤ m) (h12 : m ≤ 12) : monthDays y m =
    if m = 2 then (if isLeap y = true then 29 else 28) else if m = 4 ∨ m = 6 ∨ m = 9 ∨ m = 11 then 30 else 31 := by
  interval_cases m <;> rfl

theorem State.possible_iff (s : State) (d : Date) (h mi se : Nat) : s.possible d h mi se = true ↔
    1970 ≤ d.year ∧ d.year ≤ 2553 ∧ 1 ≤ d.month ∧ d.month ≤ 12 ∧ 1 ≤ d.day ∧ d.day ≤ monthDays d.year d.month ∧
    h ≤ 23 ∧ mi ≤ 59 ∧
    (se ≤ 59 ∨ (se = 60 ∧ h = 23 ∧ mi = 59 ∧ ∃ l ∈ s.leaps, l.insert = true ∧ l.day = (daysOf d : Int))) := by
  simp only [State.possible, Bool.and_eq_true, Bool.or_eq_true, decide_eq_true_eq, List.any_eq_true, beq_iff_eq, and_assoc]

/-! ### The latched copies of presented time (R170, R177) -/

/-- A copy of a register beside the one that a write changes. -/
theorem State.rgp_setRgp_other (s : State) (p : Part) {o j : Nat} (v : W32) (h : j ≠ o) : (s.setRgp p o v).rgp p j = s.rgp p j :=
  s.key_setKey_other v (by unfold copyKey; omega)

/-- Registers of the 32-bit file alone change. -/
def RegsOnly (s t : State) : Prop := ∃ g, t = { s with reg.regs := g }

theorem RegsOnly.trans {t u : State} (h : RegsOnly s t) (k : RegsOnly t u) : RegsOnly s u := by
  obtain ⟨g, rfl⟩ := h
  obtain ⟨g', rfl⟩ := k
  exact ⟨g', rfl⟩

theorem State.setRgp_regsOnly (s : State) (p : Part) (o : Nat) (v : W32) : RegsOnly s (s.setRgp p o v) := ⟨_, rfl⟩

theorem latchTime_regsOnly (s : State) (p : Part) : RegsOnly s (latchTime p s) := by
  have hlatch : ∀ (t : State) o v, RegsOnly s t → RegsOnly s (t.setRgp p o v) := fun t o v h => h.trans (t.setRgp_regsOnly p o v)
  unfold latchTime
  exact hlatch _ _ _ (hlatch _ _ _ (hlatch _ _ _ (hlatch _ _ _ (hlatch _ _ _ (s.setRgp_regsOnly p _ _)))))

theorem latchTime_words (s : State) (p : Part) :
    (latchTime p s).rgp p R.latSecLo = BitVec.ofNat 32 (s.pNs / 1000000000) ∧
    (latchTime p s).rgp p R.latSecHi = BitVec.ofNat 32 (s.pNs / 1000000000 / 2 ^ 32 % 2 ^ 16) ∧
    (latchTime p s).rgp p R.latNsec = BitVec.ofNat 32 (s.pNs % 1000000000) ∧
    (latchTime p s).rgp p R.latStamp = BitVec.ofNat 32 s.pNs ∧
    (latchTime p s).rgp p R.calDate = s.calDateNow ∧ (latchTime p s).rgp p R.calTime = s.calTimeNow := by
  simp [latchTime, State.rgp_setRgp_other, R.latSecLo, R.latSecHi, R.latNsec, R.latStamp, R.calDate, R.calTime]

/-! ### The rows that answer a time or a phase (R189, R200, R207) -/

theorem exec_timeRead (h : s.runs p d) (himm : Imm p d 0) : exec (.timeRead p d) s = .next (s.answered p d St.ok s.pNs []) :=
  congrArg (β := Res) .next (runCommand_runs h (himm.check_none (f := timeReadForm) rfl rfl rfl nofun nofun) _)

theorem exec_tsuLatch (h : s.mayWrite p 0x20_0020) (v : W32) : exec (.tsuLatch p v) s = .next (tsuLatch p v s) :=
  congrArg (β := Res) .next (onWrite_may h)

theorem exec_ttPhaseRead {n : Fin 16} (h : s.mayRead p (R.ttPhase n)) : exec (.ttPhaseRead p n) s =
    .next ((s.setRgp p (R.ttPstamp n) (BitVec.ofNat 32 s.pNs)).emit
      (.read p (BitVec.ofNat 32 (R.ttPhase n)) ((s.phaseWord n s.pNs).setWidth 64))) :=
  congrArg (β := Res) .next (onRead_may h)

/-- A command that may run, whose form is right, completes with its body's answer. -/
theorem finish_runs {f : Form} {body : State → Ans} {t : State} {st : Byte} {r : Nat} (h : s.runs p d) (hc : f.check p d = none)
    (hb : body s = { s := t, status := st, result := r }) : runCommand f p d body s = t.answered p d st r [] := by
  rw [runCommand_runs h hc, hb]
  rfl

section
variable (h : s.runs p d) (himm : Imm p d 16) (hclean : d.le 1 7 = 0) (hn : d.b 0 < 16) (hheld : s.holds p .tt (d.b 0) = true)
include h himm hclean hn hheld

theorem exec_ttPhaseAt_near (h1 : s.pNs ≤ d.le 8 8 + 1000000) (h2 : d.le 8 8 ≤ s.pNs + 1000000) : exec (.ttPhaseAt p d) s =
    .next (s.answered p d St.ok
      ((s.phaseWord (d.b 0) (d.le 8 8)).toNat + (if s.ttState (d.b 0) = ttTracking then 2 ^ 32 else 0)) []) := by
  refine congrArg (β := Res) .next (finish_runs h (himm.check_none rfl rfl (by simp [ttPhaseAtForm, hclean]) nofun nofun) ?_)
  rw [ttPhaseAtBody, if_neg (by omega), onTarget_held hheld, if_neg (by omega)]
  by_cases ht : s.ttState (d.b 0) = ttTracking <;> simp [boolNat, ht]

theorem exec_ttPhaseAt_far (hfar : d.le 8 8 + 1000000 < s.pNs ∨ s.pNs + 1000000 < d.le 8 8) :
    exec (.ttPhaseAt p d) s = .next (s.answered p d St.badParam 0 []) := by
  refine congrArg (β := Res) .next (finish_runs h (himm.check_none rfl rfl (by simp [ttPhaseAtForm, hclean]) nofun nofun) ?_)
  rw [ttPhaseAtBody, if_neg (by omega), onTarget_held hheld, if_pos (by omega)]
  rfl

end

/-- TT_NEXT_CROSS completes with its body's answer. -/
theorem exec_ttNextCross {t : State} {st : Byte} {r : Nat} (h : s.runs p d) (himm : Imm p d 8) (hclean : d.le 2 2 = 0)
    (hanswer : ttNextCrossBody p d s = { s := t, status := st, result := r }) :
    exec (.ttNextCross p d) s = .next (t.answered p d st r []) :=
  congrArg (β := Res) .next (finish_runs h (himm.check_none rfl rfl (by simp [ttNextCrossForm, hclean]) nofun nofun) hanswer)

section
variable (hn : d.b 0 < 16) (hdir : d.b 1 ≤ 1) (hfrac : d.le 4 4 < 2 ^ 24) (hheld : s.holds p .tt (d.b 0) = true)
include hn hdir hfrac hheld

theorem ttNextCrossBody_lost (ht : s.ttState (d.b 0) ≠ ttTracking) : ttNextCrossBody p d s = { s := s, status := St.notFound } := by
  rw [ttNextCrossBody, if_neg (by omega), onTarget_held hheld]
  exact if_pos ht

theorem ttNextCrossBody_predicted {t : Nat} (ht : s.ttState (d.b 0) = ttTracking)
    (hx : s.nextCross (d.b 0) (d.b 1 == 1) (d.le 4 4) = some t) : ttNextCrossBody p d s = { s := s, result := t } := by
  rw [ttNextCrossBody, if_neg (by omega), onTarget_held hheld, if_neg (not_not.2 ht), hx]

/-- Where no crossing is predicted the answer is a free value. -/
theorem ttNextCrossBody_free (ht : s.ttState (d.b 0) = ttTracking) (hx : s.nextCross (d.b 0) (d.b 1 == 1) (d.le 4 4) = none) :
    ttNextCrossBody p d s = { s := { s with free := s.free + 1 }, result := Config.freeNat s.free } := by
  rw [ttNextCrossBody, if_neg (by omega), onTarget_held hheld, if_neg (not_not.2 ht), hx]
  rfl

end

end Sys2Proof.Machine
end

section
/-! SUPPORT. Events of GLB_EVT_STAT (R6), gates that follow a step of P (R174), and the step of a domain's time base to a value (R174,
R192). -/

namespace Sys2Proof.Machine

variable {s t u : State} {p : Part} {d : CmdDesc}

/-! ### The events of a partition (R6) -/

/-- What an event changes: the event bits, an MSI-X message sent or waiting, and PM's notice. -/
structure Notified (s t : State) : Prop where
  shape : ∃ g c o, t = { s with reg.regs := g, cmd := c, out := o }
  keys : ∀ k, 0x20_0000 ≤ k → k < 0x400_0000 → t.key k = s.key k
  path : t.path pm = s.path pm

theorem Notified.refl (s : State) : Notified s s := ⟨⟨_, _, _, rfl⟩, fun _ _ _ => rfl, rfl⟩

theorem Notified.trans (h : Notified s t) (k : Notified t u) : Notified s u := by
  obtain ⟨⟨g, c, o, rfl⟩, hkeys, hpath⟩ := h
  obtain ⟨⟨g', c', o', rfl⟩, kkeys, kpath⟩ := k
  exact ⟨⟨g', c', o', rfl⟩, fun j h1 h2 => (kkeys j h1 h2).trans (hkeys j h1 h2), kpath.trans hpath⟩

theorem State.modRgp_evtStat_notified (s : State) (p : Part) (f : W32 → W32) : Notified s (s.modRgp p R.evtStat f) :=
  ⟨⟨_, _, _, rfl⟩, fun k h1 h2 => State.key_setKey_other s _ (by simp only [copyKey, R.evtStat]; omega),
    by rw [State.path, State.modRgp_cmd, State.path]⟩

theorem State.key_emit (s : State) (o : Out) (k : Nat) : (s.emit o).key k = s.key k := rfl

theorem State.sendMsix_notified (s : State) {p : Part} (hp : p ≠ pm) (vec : BitVec 6) : Notified s (s.sendMsix p vec) := by
  unfold State.sendMsix
  split
  · exact ⟨⟨_, _, _, rfl⟩, fun k _ _ => State.key_setPath s p _ k, kvGet_set_other _ _ _ (Fin.val_ne_of_ne hp.symm)⟩
  · exact ⟨⟨_, _, _, rfl⟩, fun k _ _ => s.key_emit _ k, rfl⟩

theorem State.tellPm_notified (s : State) : Notified s { s with cmd.spiEvent := true } := ⟨⟨_, _, _, rfl⟩, fun _ _ _ => rfl, rfl⟩

theorem State.event_notified (s : State) (p : Part) (b : Nat) : Notified s (s.event p b) := by
  have hbit := s.modRgp_evtStat_notified p (fun w => setBit w b true)
  unfold State.event
  extract_lets was t
  split
  · exact hbit
  · split
    · exact hbit.trans t.tellPm_notified
    · next hp => exact hbit.trans (State.sendMsix_notified _ (by simpa using hp) _)

theorem State.eventAll_notified (s : State) (b : Nat) : Notified s (s.eventAll b) := by
  have hfold : ∀ (l : List Part) (a : State), Notified a (l.foldl (fun t p => t.event p b) a) := fun l => by
    induction l with
    | nil => exact Notified.refl
    | cons p l ih => exact fun a => (a.event_notified p b).trans (ih _)
  exact hfold allParts s

/-! ### Gates after a step of P (R149, R174) -/

/-- What the start of a timetable's entry changes: registers, counters, the port's transmission and what is sent. -/
def GatesMoved (s t : State) : Prop := ∃ g w f o, t = { s with reg.regs := g, reg.wide := w, fwd := f, out := o }

theorem GatesMoved.refl (s : State) : GatesMoved s s := ⟨_, _, _, _, rfl⟩

theorem GatesMoved.trans (h : GatesMoved s t) (k : GatesMoved t u) : GatesMoved s u := by
  obtain ⟨g, w, f, o, rfl⟩ := h
  obtain ⟨g', w', f', o', rfl⟩ := k
  exact ⟨g', w', f', o', rfl⟩

theorem State.preemptTx_moved (s : State) (n : Nat) : GatesMoved s (s.preemptTx n) := by
  unfold State.preemptTx
  split
  · split
    · split
      · exact ⟨_, _, _, _, rfl⟩
      · exact .refl s
    · exact .refl s
  · exact .refl s

theorem State.startEntry_moved (s : State) (n k : Nat) : GatesMoved s (s.startEntry n k) := by
  have hword : ∀ f, GatesMoved s (s.modRg (R.gteStatus n) f) := fun f => ⟨_, _, _, _, rfl⟩
  unfold State.startEntry State.heed
  dsimp only
  split
  · exact (hword _).trans (State.preemptTx_moved _ n)
  · exact hword _

theorem State.gatesStepped_moved (s : State) : GatesMoved s s.gatesStepped := by
  have hfold : ∀ (l : List Nat) (a : State), GatesMoved a (l.foldl (fun a n =>
      let t := a.gateOf n
      if a.bt (R.gteStatus n) 10 && ttbSrc t == 0 then a.startEntry n (entryAt t (a.gateOffset t)) else a) a) := fun l => by
    induction l with
    | nil => exact GatesMoved.refl
    | cons n l ih =>
      intro a
      refine GatesMoved.trans ?_ (ih _)
      dsimp only
      split
      · exact a.startEntry_moved n _
      · exact .refl a
  exact hfold (List.range 16) s

/-! ### A domain's time base takes a value (R174, R192) -/

/-- What a step of a domain to a TAI value leaves: the value in its time base, the other domain, PM's buffer and PM's path. -/
structure DomainSet (s t : State) (x : Nat) (v : Int) : Prop where
  ns : (t.dom x).ns = BitVec.ofInt 64 v
  other : t.dom (1 - x) = s.dom (1 - x)
  pmBuf : t.reg.pmBuf = s.reg.pmBuf
  path : t.path pm = s.path pm

section
variable {x : Nat} {v : Int}

/-- What follows changes no domain. -/
theorem DomainSet.later (h : DomainSet s t x v) (hdom : u.tsu.dom = t.tsu.dom) (hbuf : u.reg.pmBuf = t.reg.pmBuf)
    (hpath : u.path pm = t.path pm) : DomainSet s u x v :=
  ⟨by rw [State.dom, hdom]; exact h.ns, by rw [State.dom, hdom]; exact h.other, hbuf.trans h.pmBuf, hpath.trans h.path⟩

theorem DomainSet.notified (h : DomainSet s t x v) (k : Notified t u) : DomainSet s u x v := by
  have hpath := k.path
  obtain ⟨⟨g, c, o, rfl⟩, -, -⟩ := k
  exact h.later rfl rfl hpath

theorem DomainSet.moved (h : DomainSet s t x v) (k : GatesMoved t u) : DomainSet s u x v := by
  obtain ⟨g, w, f, o, rfl⟩ := k
  exact h.later rfl rfl rfl

theorem DomainSet.regsOnly (h : DomainSet s t x v) (k : RegsOnly t u) : DomainSet s u x v := by
  obtain ⟨g, rfl⟩ := k
  exact h.later rfl rfl rfl

theorem State.setFine_domainSet (s : State) (hx : x ≤ 1) (v : Int) :
    DomainSet s (s.setDom x ((s.dom x).setFine ((s.dom x).fine + (v * 2 ^ 32 - (s.dom x).fine)))) x v where
  ns := by
    rw [State.dom_setDom_same, Domain.setFine, add_sub_cancel]
    norm_num
  other := State.dom_setDom_other s _ (by omega)
  pmBuf := rfl
  path := rfl

/-- A leap that a step makes late is marked in the selected domain. -/
theorem DomainSet.leapsStepped (h : DomainSet s t x v) (hx : x ≤ 1) (ht : t.tsel = x) : DomainSet s (u.leapsStepped t) x v := by
  have hmark : ∀ b, DomainSet s (t.setDom x { t.dom x with leapLate := b }) x v := fun b =>
    ⟨by rw [State.dom_setDom_same]; exact h.ns, (State.dom_setDom_other t _ (by omega)).trans h.other, h.pmBuf, h.path⟩
  unfold State.leapsStepped
  rw [ht]
  exact (hmark _).later rfl rfl rfl

theorem State.modRg_regsOnly (s : State) (o : Nat) (f : W32 → W32) : RegsOnly s (s.modRg o f) := ⟨_, rfl⟩

theorem State.stepDomain_set (s : State) (hx : x ≤ 1) (v : Int) :
    DomainSet s (s.stepDomain x (v * 2 ^ 32 - (s.dom x).fine)) x v := by
  have hset := s.setFine_domainSet hx v
  unfold State.stepDomain
  extract_lets b s1 s2
  split
  · exact hset
  · next hsel =>
    have hsel : x = s.tsel := by omega
    split
    · have hcount : DomainSet s s2 x v := hset.regsOnly ((State.modRg_regsOnly _ _ _).trans (State.modRg_regsOnly _ _ _))
      have htsel : s2.tsel = x := by
        have hword : s2.rg R.tsuStatus = setBit (s.rg R.tsuStatus) 2 true :=
          (State.rg_count_other _ 1 (by decide)).trans (State.rg_modRg_same _ _ _)
        rw [hsel, State.tsel, State.fd, hword, fld_setBit_other _ _ (by omega), State.tsel, State.fd]
      exact ((hcount.leapsStepped hx htsel).moved (State.gatesStepped_moved _)).notified (State.eventAll_notified _ 0)
    · have hdelta : DomainSet s { s1 with tsu.delta := s1.tsu.delta - (v * 2 ^ 32 - (s.dom x).fine) } x v := hset.later rfl rfl rfl
      exact (hdelta.regsOnly ((State.modRg_regsOnly _ _ _).trans (State.modRg_regsOnly _ _ _))).notified (State.eventAll_notified _ 0)

/-- The step that a TIME_SET makes, with TSU_STATUS.valid. -/
theorem State.stepDomain_valid_set (s : State) (hx : x ≤ 1) (v : Int) :
    DomainSet s ((s.stepDomain x (v * 2 ^ 32 - (s.dom x).fine)).setBt R.tsuStatus 5 true) x v :=
  (s.stepDomain_set hx v).regsOnly (State.modRg_regsOnly _ R.tsuStatus (fun w => setBit w 5 true))

/-- The completion of the command that made the step. -/
theorem DomainSet.answered (h : DomainSet s t x v) (d : CmdDesc) (st : Byte) : ((t.answered pm d st 0 []).dom x).ns = BitVec.ofInt 64 v ∧
    (t.answered pm d st 0 []).dom (1 - x) = s.dom (1 - x) ∧ (t.answered pm d st 0 []).reg.pmBuf = s.reg.pmBuf := by
  obtain ⟨b, c, m, heq⟩ := t.complete_rest pm (replyOf d st 0 [])
  rw [State.answered, heq]
  exact ⟨h.ns, h.other, h.pmBuf⟩

theorem State.bt_answered (s : State) (p : Part) (d : CmdDesc) (st : Byte) (o i : Nat) :
    (s.answered p d st 0 []).bt o i = s.bt o i := by
  obtain ⟨b, c, m, heq⟩ := s.complete_rest p (replyOf d st 0 [])
  rw [State.answered, heq]
  rfl

end

/-! ### TIME_SET (R192, R279) -/

/-- The form check refuses an immediate command that is PM's to another issuer. -/
theorem Imm.check_noRight {f : Form} {n : Nat} (h : Imm p d n) (hk : f.kind = .immediate) (hz : f.size n = true) (hc : f.clean = true)
    (hp : f.pmOnly = true) (hne : p ≠ pm) : f.check p d = some St.noRight := by
  obtain ⟨hsound, hmould, rfl⟩ := h
  have htag := hsound.tag
  unfold Form.check
  rw [if_neg (fun k => k hsound.flags), if_neg (by rw [hsound.top]; omega), if_neg (fun ⟨hi, hr⟩ => hr (hsound.reserved hi)),
    if_neg (fun ⟨hi, hl⟩ => absurd (hsound.inline (by simpa using hi)) (Nat.not_le.2 hl)), if_neg (by simp [hk, hmould]),
    if_neg (fun k => k hz), if_neg (fun k => k hc), if_pos ⟨hp, hne⟩]

/-- Whether a TIME_SET names a time: a TAI count, or a possible date, time and fraction. -/
def SetsTime (d : CmdDesc) (s : State) : Prop :=
  d.b 1 = 1 ∨ (s.possible (setDate d) (d.b 6) (d.b 7) (d.b 8) = true ∧ d.le 10 4 < 1000000000)

/-- The TAI value that it names. -/
def taiNamed (d : CmdDesc) (s : State) : Int :=
  if d.b 1 = 1 then d.le 2 8 else s.taiOf (setDate d) (d.b 6) (d.b 7) (d.b 8) (d.le 10 4)

theorem setTai_none (h : ¬ SetsTime d s) : setTai d s = none := by
  obtain ⟨hform, hdate⟩ := not_or.1 h
  rw [setTai, if_neg hform, if_neg hdate]

theorem setTai_some (h : SetsTime d s) : setTai d s = some (taiNamed d s) := by
  unfold setTai taiNamed
  by_cases hform : d.b 1 = 1
  · rw [if_pos hform, if_pos hform]
  · rw [if_neg hform, if_neg hform, if_pos (h.resolve_left hform)]

section
variable {x : Nat}

theorem timeSetForm_clean (hclean : if d.b 1 = 1 then d.le 10 4 = 0 else d.b 9 = 0) : (timeSetForm d).clean = true := by
  unfold timeSetForm
  by_cases hform : d.b 1 = 1
  · simpa [hform] using hclean
  · simpa [hform] using hclean

theorem exec_timeSet_host (hclean : if d.b 1 = 1 then d.le 10 4 = 0 else d.b 9 = 0) (hp : p ≠ pm) (h : s.runs p d) (himm : Imm p d 14) :
    exec (.timeSet p d) s = .next (s.answered p d St.noRight 0 []) :=
  congrArg (β := Res) .next (runCommand_refused h (himm.check_noRight rfl rfl (timeSetForm_clean hclean) rfl hp) _)

variable (hx : d.b 0 = x) (hx1 : x ≤ 1) (hform : d.b 1 ≤ 1) (hclean : if d.b 1 = 1 then d.le 10 4 = 0 else d.b 9 = 0) (h : s.runs pm d)
  (himm : Imm pm d 14)
include hclean h himm

theorem exec_timeSet {t : State} {st : Byte} (hb : timeSetBody d s = { s := t, status := st }) :
    exec (.timeSet pm d) s = .next (t.answered pm d st 0 []) :=
  congrArg (β := Res) .next (finish_runs h (himm.check_none rfl rfl (timeSetForm_clean hclean) (fun _ => rfl) nofun) hb)

include hx hx1 hform

theorem exec_timeSet_badDate (hbad : ¬ SetsTime d s) : exec (.timeSet pm d) s = .next (s.answered pm d St.badDate 0 []) := by
  refine exec_timeSet hclean h himm ?_
  rw [timeSetBody, if_neg (by omega), setTai_none hbad]
  rfl

theorem exec_timeSet_locked (hgood : SetsTime d s) (hlocked : s.domState x = domLocked) (hsrc : s.domSrc x ≠ 3) :
    exec (.timeSet pm d) s = .next (s.answered pm d St.badParam 0 []) := by
  refine exec_timeSet hclean h himm ?_
  rw [timeSetBody, if_neg (by omega), setTai_some hgood]
  exact if_pos (hx ▸ ⟨hlocked, hsrc⟩)

theorem exec_timeSet_steps (hgood : SetsTime d s) (hfree : ¬ (s.domState x = domLocked ∧ s.domSrc x ≠ 3)) :
    exec (.timeSet pm d) s = .next (((s.stepDomain x (taiNamed d s * 2 ^ 32 - (s.dom x).fine)).setBt R.tsuStatus 5 true).answered pm d
      St.ok 0 []) := by
  subst hx
  refine exec_timeSet hclean h himm ?_
  rw [timeSetBody, if_neg (by omega), setTai_some hgood]
  exact if_neg hfree

end

end Sys2Proof.Machine
end

section
/-! SUPPORT. The states of the two time domains (R166, R330), the servo's rate (R168), and the selector (R173 to R175): what each leaves of
the time bases, of Δ and of presented time. -/

namespace Sys2Proof.Machine

variable {s t u : State} {x : Nat}

/-! ### What moves no clock (R164, R174) -/

/-- A domain's clock: time base, rate and integral with their mirror, and its PLL, without counts, leaps, the announced offset and the Sync
that waits. -/
def Domain.clock (d : Domain) : Domain :=
  { ns := d.ns, frac := d.frac, rate := d.rate, integ := d.integ, pllLost := d.pllLost, mRate := d.mRate, mInteg := d.mInteg }

/-- The registers of TSU that say a domain's state or UTC. -/
def stateWords : List Nat := [R.domStatus 0, R.domStatus 1, R.utc, R.utcNext]

/-- What moves no clock: each domain's, Δ and the registers of TSU but those of states and of UTC are as before, and so are the tables and
forwarding. -/
structure ClocksKept (s t : State) : Prop where
  clock : ∀ x, (t.dom x).clock = (s.dom x).clock
  delta : t.tsu.delta = s.tsu.delta
  keys : ∀ k, 0x20_0000 ≤ k → k < 0x30_0000 → k ∉ stateWords → t.key k = s.key k
  tab : t.tab = s.tab
  fwd : t.fwd = s.fwd

theorem ClocksKept.refl (s : State) : ClocksKept s s := ⟨fun _ => rfl, rfl, fun _ _ _ _ => rfl, rfl, rfl⟩

theorem ClocksKept.trans (h : ClocksKept s t) (k : ClocksKept t u) : ClocksKept s u :=
  ⟨fun x => (k.clock x).trans (h.clock x), k.delta.trans h.delta, fun j h1 h2 h3 => (k.keys j h1 h2 h3).trans (h.keys j h1 h2 h3),
    k.tab.trans h.tab, k.fwd.trans h.fwd⟩

theorem ClocksKept.fine (h : ClocksKept s t) (x : Nat) : (t.dom x).fine = (s.dom x).fine := (congrArg Domain.fine (h.clock x) :)

theorem ClocksKept.pllLost (h : ClocksKept s t) (x : Nat) : (t.dom x).pllLost = (s.dom x).pllLost := (congrArg Domain.pllLost (h.clock x) :)

theorem ClocksKept.tsel (h : ClocksKept s t) : t.tsel = s.tsel :=
  congrArg (fld · 0 0) (h.keys R.tsuStatus (by decide) (by decide) (by decide))

theorem ClocksKept.pFine (h : ClocksKept s t) : t.pFine = s.pFine := by
  rw [State.pFine, h.tsel, h.fine, h.delta, State.pFine]

theorem Reported.clocksKept (h : Reported s t) : ClocksKept s t := by
  obtain ⟨⟨e, r, rfl⟩, hkeys⟩ := h
  refine ⟨fun _ => rfl, rfl, fun k _ hk _ => hkeys k ?_ ?_, rfl, rfl⟩
  all_goals simp only [R.errDiscard, R.errStatus]; omega

theorem Notified.clocksKept (h : Notified s t) : ClocksKept s t := by
  obtain ⟨⟨g, c, o, rfl⟩, hkeys, -⟩ := h
  exact ⟨fun _ => rfl, rfl, fun k h1 h2 _ => hkeys k h1 (by omega), rfl, rfl⟩

theorem State.setDom_clocksKept {d : Domain} (h : d.clock = (s.dom x).clock) : ClocksKept s (s.setDom x d) := by
  refine ⟨fun y => ?_, rfl, fun _ _ _ _ => rfl, rfl, rfl⟩
  by_cases hy : y = x
  · rw [hy, State.dom_setDom_same, h]
  · rw [State.dom_setDom_other s d hy]

theorem State.modRg_clocksKept (s : State) {o : Nat} (f : W32 → W32) (h : o ∈ stateWords) : ClocksKept s (s.modRg o f) :=
  ⟨fun _ => rfl, rfl, fun _ _ _ hk => State.key_setKey_other s _ (fun he => hk (he ▸ h)), rfl, rfl⟩

theorem domStatus_mem (hx : x < 2) : R.domStatus x ∈ stateWords := by interval_cases x <;> decide

theorem domStatus_ne {y : Nat} (h : y ≠ x) : R.domStatus y ≠ R.domStatus x := by simp only [R.domStatus]; omega

/-! ### Reports and domains -/

@[simp] theorem State.report_tsu (s : State) (code kind part unit detail : Nat) (fault : Bool) :
    (s.report code kind part unit detail fault).tsu = s.tsu := by
  obtain ⟨⟨e, r, heq⟩, -⟩ := s.report_reported code kind part unit detail fault
  rw [heq]

@[simp] theorem State.dom_report (s : State) (code kind part unit detail : Nat) (fault : Bool) (x : Nat) :
    (s.report code kind part unit detail fault).dom x = s.dom x := by rw [State.dom, State.report_tsu, State.dom]

/-- A report leaves the registers of TSU. -/
theorem State.rg_report_tsu (s : State) (code kind part unit detail : Nat) (fault : Bool) {o : Nat} (h : o < 0x30_0000) :
    (s.report code kind part unit detail fault).rg o = s.rg o := by
  refine (s.report_reported code kind part unit detail fault).keys o ?_ ?_
  all_goals simp only [R.errDiscard, R.errStatus]; omega

/-! ### A domain changes state (R166) -/

/-- A domain's counts start again. -/
def Domain.restarted (d : Domain) (new : Nat) : Domain :=
  { d with inLock := 0, clamps := 0, lockedUs := 0, stepped := d.stepped && new != domAcquire }

/-- The status word with the new state, and the log's entry. -/
def State.toDomShown (s : State) (x new : Nat) : State :=
  (s.setFd (R.domStatus x) 2 0 new).report 0x0201 (if new = domFault then kTransient else kInfo) 0xFF x
    (x + s.domState x * 2 ^ 8 + new * 2 ^ 16)

section
variable {new : Nat}

theorem State.toDom_same (h : s.domState x = new) : s.toDom x new = s := if_pos h

theorem State.toDom_change (h : s.domState x ≠ new) (hnew : new ≠ domLocked) :
    s.toDom x new = (s.toDomShown x new).setDom x (((s.toDomShown x new).dom x).restarted new) := by
  unfold State.toDom
  dsimp only
  rw [if_neg h, if_neg hnew]
  rfl

theorem State.dom_toDomShown (s : State) (x new y : Nat) : (s.toDomShown x new).dom y = s.dom y := by
  rw [State.toDomShown, State.dom_report]
  rfl

theorem State.rg_toDomShown_other (s : State) (x new : Nat) {o : Nat} (ho : o < 0x30_0000) (h : o ≠ R.domStatus x) :
    (s.toDomShown x new).rg o = s.rg o :=
  (State.rg_report_tsu _ _ _ _ _ _ _ ho).trans (State.rg_modRg_other s _ h)

theorem State.rg_toDomShown_same (s : State) (hx : x < 2) (new : Nat) :
    (s.toDomShown x new).rg (R.domStatus x) = setFld (s.rg (R.domStatus x)) 2 0 new :=
  (State.rg_report_tsu _ _ _ _ _ _ _ (by simp only [R.domStatus]; omega)).trans (State.rg_modRg_same s _ _)

variable (hnew : new ≠ domLocked)
include hnew

theorem State.toDom_clocksKept (s : State) (hx : x < 2) : ClocksKept s (s.toDom x new) := by
  by_cases h : s.domState x = new
  · rw [State.toDom_same h]
    exact .refl s
  · rw [State.toDom_change h hnew]
    exact ((s.modRg_clocksKept _ (domStatus_mem hx)).trans (State.report_reported _ _ _ _ _ _ _).clocksKept).trans
      (State.setDom_clocksKept rfl)

theorem State.dom_toDom_other (s : State) {y : Nat} (hy : y ≠ x) : (s.toDom x new).dom y = s.dom y := by
  by_cases h : s.domState x = new
  · rw [State.toDom_same h]
  · rw [State.toDom_change h hnew, State.dom_setDom_other _ _ hy, State.dom_toDomShown]

theorem State.rg_toDom_other (s : State) {o : Nat} (ho : o < 0x30_0000) (hne : o ≠ R.domStatus x) : (s.toDom x new).rg o = s.rg o := by
  by_cases h : s.domState x = new
  · rw [State.toDom_same h]
  · rw [State.toDom_change h hnew]
    exact s.rg_toDomShown_other x new ho hne

theorem State.domState_toDom_other (s : State) {y : Nat} (hy2 : y < 2) (hy : y ≠ x) : (s.toDom x new).domState y = s.domState y :=
  congrArg (fld · 2 0) (s.rg_toDom_other hnew (by simp only [R.domStatus]; omega) (domStatus_ne hy))

theorem State.domState_toDom_same (s : State) (hx : x < 2) (hlt : new < 8) : (s.toDom x new).domState x = new := by
  by_cases h : s.domState x = new
  · rw [State.toDom_same h, h]
  · rw [State.toDom_change h hnew]
    refine (congrArg (fld · 2 0) (s.rg_toDomShown_same hx new)).trans ?_
    rw [fld_setFld_same _ _ (by omega) (by omega)]
    omega

end

/-! ### The servo's rate (R166, R168) -/

theorem clampInt_mono (m : Int) {a b : Int} (h : a ≤ b) : clampInt m a ≤ clampInt m b := max_le_max_left _ (min_le_min_left _ h)

theorem rateOf_le (sum : Int) (up : Bool) : -sum * 256 / integUnit ≤ rateOf sum up ∧ rateOf sum up ≤ -sum * 256 / integUnit + 1 := by
  unfold rateOf
  dsimp only
  split <;> omega

@[simp] theorem State.dom_setRate_same (s : State) (x : Nat) (r : Int) (c : Bool) :
    (s.setRate x r c).dom x = { s.dom x with rate := r, mRate := r, mInteg := (s.dom x).integ } := s.dom_setDom_same x _

theorem State.dom_setRate_other (s : State) {x y : Nat} (r : Int) (c : Bool) (h : y ≠ x) : (s.setRate x r c).dom y = s.dom y :=
  s.dom_setDom_other _ h

theorem State.rg_setRate_rate (s : State) (x : Nat) (r : Int) (c : Bool) : (s.setRate x r c).rg (R.domRate x) = BitVec.ofInt 32 r :=
  (State.rg_modRg_other _ _ (by simp only [R.domRate, R.domStatus]; omega)).trans (State.rg_setRg_same _ _ _)

theorem State.rg_setRate_other (s : State) {x o : Nat} (r : Int) (c : Bool) (h1 : o ≠ R.domRate x) (h2 : o ≠ R.domStatus x) :
    (s.setRate x r c).rg o = s.rg o :=
  (State.rg_modRg_other _ _ h2).trans (State.rg_setRg_other _ _ h1)

@[simp] theorem State.setRate_tab (s : State) (x : Nat) (r : Int) (c : Bool) : (s.setRate x r c).tab = s.tab := by
  simp [State.setRate, State.setDom]

/-! ### Loss of Sync, PLL faults, parity (R166, R326, R330) -/

section
variable (hw : s.works)
include hw

theorem exec_syncReceiptTimeout_stays {x : Fin 2} (h : s.domState x ≠ domLocked) : exec (.syncReceiptTimeout x) s = .next s :=
  (next_clocked hw _).trans (congrArg (β := Res) .next (if_neg h))

/-- A LOCKED domain that loses Sync: its rate is the negative of its integral, clamped. -/
theorem exec_syncReceiptTimeout_locked {x : Fin 2} (h : s.domState x = domLocked) : ∃ (u : State) (r : Int),
    exec (.syncReceiptTimeout x) s = .next (u.toDom x domHoldover) ∧ clampInt rateMax (-(s.dom x).integ * 256 / integUnit) ≤ r ∧
      r ≤ clampInt rateMax (-(s.dom x).integ * 256 / integUnit + 1) ∧
      u.dom x = { s.dom x with rate := r, mRate := r, mInteg := (s.dom x).integ } ∧ u.dom (1 - x.val) = s.dom (1 - x.val) ∧
      u.rg (R.domRate x) = BitVec.ofInt 32 r ∧ u.rg (R.syncTmo x) = satInc (s.rg (R.syncTmo x)) 1 ∧ u.tab = s.tab := by
  obtain ⟨hlo, hhi⟩ := rateOf_le (s.dom x).integ (Config.freeBit s.free)
  refine ⟨({ s.count (R.syncTmo x) with free := s.free + 1 } : State).setRate x
    (clampInt rateMax (rateOf (s.dom x).integ (Config.freeBit s.free))) ((s.count (R.syncTmo x)).bt (R.domStatus x) 3), _,
    (next_clocked hw _).trans (congrArg (β := Res) .next (if_pos h)), clampInt_mono _ hlo, clampInt_mono _ hhi,
    State.dom_setRate_same _ _ _ _, State.dom_setRate_other _ _ _ (by omega), State.rg_setRate_rate _ _ _ _,
    (State.rg_setRate_other _ _ _ ?_ ?_).trans (s.rg_count_same (R.syncTmo x) 1),
    (State.setRate_tab _ _ _ _).trans (s.count_tab (R.syncTmo x) 1)⟩
  all_goals simp only [R.syncTmo, R.domRate, R.domStatus]; omega

theorem exec_syncReceiptTimeout {x : Fin 2} (h : s.domState x = domLocked) : ∃ t : State, exec (.syncReceiptTimeout x) s = .next t ∧
    t.domState x = domHoldover ∧ t.rg (R.syncTmo x) = satInc (s.rg (R.syncTmo x)) 1 ∧ (t.dom x).fine = (s.dom x).fine ∧
    (t.dom x).integ = (s.dom x).integ ∧ clampInt rateMax (-(s.dom x).integ * 256 / integUnit) ≤ (t.dom x).rate ∧
    (t.dom x).rate ≤ clampInt rateMax (-(s.dom x).integ * 256 / integUnit + 1) ∧
    t.rg (R.domRate x) = BitVec.ofInt 32 (t.dom x).rate ∧ t.dom (1 - x.val) = s.dom (1 - x.val) ∧ t.tab = s.tab := by
  obtain ⟨u, r, hexec, hlo, hhi, hdom, hother, hrate, hcount, htab⟩ := exec_syncReceiptTimeout_locked hw h
  have hkept := u.toDom_clocksKept (new := domHoldover) (by decide) x.isLt
  have hclock := hkept.clock x
  have hrateKept : ((u.toDom x domHoldover).dom x).rate = r := (congrArg Domain.rate hclock).trans (by rw [hdom]; rfl)
  have hword : ∀ o, o < 0x30_0000 → o ≠ R.domStatus x → (u.toDom x domHoldover).rg o = u.rg o := fun o => u.rg_toDom_other (by decide)
  refine ⟨_, hexec, u.domState_toDom_same (by decide) x.isLt (by decide), (hword _ ?_ ?_).trans hcount,
    (hkept.fine x).trans (by rw [hdom]; rfl), (congrArg Domain.integ hclock).trans (by rw [hdom]; rfl), hlo.trans_eq hrateKept.symm,
    hrateKept.trans_le hhi, ((hword _ ?_ ?_).trans hrate).trans (by rw [hrateKept]),
    (u.dom_toDom_other (by decide) (by omega)).trans hother, hkept.tab.trans htab⟩
  all_goals simp only [R.syncTmo, R.domRate, R.domStatus]; omega

theorem exec_deltaSlewDone : exec .deltaSlewDone s = .next (s.setBt R.tsuStatus 1 (s.tsu.delta != 0)) := next_clocked hw _

theorem exec_tclkPllUnlock (x : Fin 2) : ∃ t : State, exec (.tclkPllUnlock x) s = .next t ∧ (t.dom x).pllLost = true ∧
    (t.dom x).fine = (s.dom x).fine ∧ t.domState x = (if s.domState x = domOff then domOff else domFault) ∧
    t.dom (1 - x.val) = s.dom (1 - x.val) ∧ t.tab = s.tab := by
  set u := (s.setDom x { s.dom x with pllLost := true }).report 0x0205 kTransient 0xFF x x with hu
  have hdom : u.dom x = { s.dom x with pllLost := true } := by rw [hu, State.dom_report, State.dom_setDom_same]
  have hother : u.dom (1 - x.val) = s.dom (1 - x.val) := by rw [hu, State.dom_report, State.dom_setDom_other _ _ (by omega)]
  have hstate : u.domState x = s.domState x := congrArg (fld · 2 0) (State.rg_report_tsu _ _ _ _ _ _ _ (by simp only [R.domStatus]; omega))
  have htab : u.tab = s.tab := State.report_tab _ _ _ _ _ _ _
  by_cases hoff : s.domState x = domOff
  · exact ⟨u, (next_clocked hw _).trans (congrArg (β := Res) .next (if_pos hoff)), by rw [hdom], by rw [hdom]; rfl,
      by rw [if_pos hoff, hstate, hoff], hother, htab⟩
  · have hkept := u.toDom_clocksKept (new := domFault) (by decide) x.isLt
    exact ⟨u.toDom x domFault, (next_clocked hw _).trans (congrArg (β := Res) .next (if_neg hoff)), (hkept.pllLost x).trans (by rw [hdom]),
      (hkept.fine x).trans (by rw [hdom]; rfl), by rw [if_neg hoff, u.domState_toDom_same (by decide) x.isLt (by decide)],
      (u.dom_toDom_other (by decide) (by omega)).trans hother, hkept.tab.trans htab⟩

theorem exec_tclkPllRelock (x : Fin 2) : ∃ t : State, exec (.tclkPllRelock x) s = .next t ∧
    t.dom x = { s.dom x with pllLost := false } ∧ t.domState x = s.domState x ∧ t.dom (1 - x.val) = s.dom (1 - x.val) ∧ t.tab = s.tab :=
  ⟨_, next_clocked hw _, by rw [tclkPllRelock, State.dom_report, State.dom_setDom_same],
    congrArg (fld · 2 0) (State.rg_report_tsu _ _ _ _ _ _ _ (by simp only [R.domStatus]; omega)),
    by rw [tclkPllRelock, State.dom_report, State.dom_setDom_other _ _ (by omega)], State.report_tab _ _ _ _ _ _ _⟩

theorem exec_tsuServoParityError (x : Fin 2) : ∃ t : State, exec (.tsuServoParityError x) s = .next t ∧
    t.dom x = { s.dom x with rate := (s.dom x).mRate, integ := (s.dom x).mInteg } ∧
    t.rg (R.domRate x) = BitVec.ofInt 32 (s.dom x).mRate ∧ t.domState x = s.domState x ∧ t.tab = s.tab := by
  have hword : ∀ o, o < 0x30_0000 → (tsuServoParityError x s).rg o =
      ((s.setDom x { s.dom x with rate := (s.dom x).mRate, integ := (s.dom x).mInteg }).setRg (R.domRate x)
        (BitVec.ofInt 32 (s.dom x).mRate)).rg o := fun o => State.rg_report_tsu _ _ _ _ _ _ _
  refine ⟨_, next_clocked hw _, ?_, (hword _ ?_).trans (State.rg_setRg_same _ _ _),
    congrArg (fld · 2 0) ((hword _ ?_).trans (State.rg_setRg_other _ _ ?_)), (State.report_tab _ _ _ _ _ _ _).trans (State.setRg_tab _ _ _)⟩
  · rw [tsuServoParityError, State.dom_report]
    exact State.dom_setDom_same _ _ _
  all_goals simp only [R.domRate, R.domStatus]; omega

end

end Sys2Proof.Machine
end

section
/-! SUPPORT. A selector evaluation (R166, R171, R173 to R175, R330): the domains' states, the domain that it selects, and presented
time, which it never moves. -/

namespace Sys2Proof.Machine

variable {s t u : State} {x : Nat}

/-! ### Announces that age, and slave ports (R171) -/

/-- What moves no clock and changes no domain's state. -/
structure StatesKept (s t : State) : Prop extends ClocksKept s t where
  states : ∀ y < 2, t.domState y = s.domState y

theorem StatesKept.refl (s : State) : StatesKept s s := ⟨.refl s, fun _ _ => rfl⟩

theorem StatesKept.trans (h : StatesKept s t) (k : StatesKept t u) : StatesKept s u :=
  ⟨h.toClocksKept.trans k.toClocksKept, fun y hy => (k.states y hy).trans (h.states y hy)⟩

theorem Reported.statesKept (h : Reported s t) : StatesKept s t := by
  refine ⟨h.clocksKept, fun y hy => ?_⟩
  refine congrArg (fld · 2 0) (h.keys (R.domStatus y) ?_ ?_)
  all_goals simp only [R.domStatus, R.errDiscard, R.errStatus]; omega

theorem Notified.statesKept (h : Notified s t) : StatesKept s t :=
  ⟨h.clocksKept, fun y hy => congrArg (fld · 2 0) (h.keys (R.domStatus y) (by simp only [R.domStatus]; omega)
    (by simp only [R.domStatus]; omega))⟩

theorem State.setDom_statesKept {d : Domain} (h : d.clock = (s.dom x).clock) : StatesKept s (s.setDom x d) :=
  ⟨State.setDom_clocksKept h, fun _ _ => rfl⟩

/-- The choice of a slave port changes the status word above its state field. -/
theorem State.setSlave_statesKept (s : State) (hx : x < 2) (n : Option Nat) : StatesKept s (s.setSlave x n) := by
  have hset : ∀ w : W32, fld w 2 0 = fld (s.rg (R.domStatus x)) 2 0 →
      StatesKept s ((s.setRg (R.domStatus x) w).setDom x { s.dom x with sync := none }) := fun w hw => by
    refine ⟨(s.modRg_clocksKept (fun _ => w) (domStatus_mem hx)).trans (State.setDom_clocksKept rfl), fun y hy => ?_⟩
    by_cases hyx : y = x
    · rw [hyx]
      exact (congrArg (fld · 2 0) (s.rg_setRg_same (R.domStatus x) w)).trans hw
    · exact congrArg (fld · 2 0) (s.rg_setRg_other w (domStatus_ne hyx))
  have hfield : ∀ k b, fld (setBit (setFld (s.rg (R.domStatus x)) 7 4 k) 8 b) 2 0 = fld (s.rg (R.domStatus x)) 2 0 := fun k b => by
    rw [fld_setBit_other _ _ (by omega), fld_setFld_other _ _ (by omega) (by omega)]
  unfold State.setSlave
  extract_lets w v
  split
  · exact .refl s
  · refine hset v ?_
    cases n with
    | none => exact hfield 0 false
    | some k => exact hfield k true

theorem State.chooseSlave_statesKept (s : State) (hx : x < 2) : StatesKept s (s.chooseSlave x) := by
  unfold State.chooseSlave
  split
  · exact s.setSlave_statesKept hx _
  · split <;> exact s.setSlave_statesKept hx _

theorem State.ageAnnounces_statesKept (s : State) : StatesKept s s.ageAnnounces := by
  have hforget : ∀ l, StatesKept s { s with tsu.announce := l } := fun l =>
    ⟨⟨fun _ => rfl, rfl, fun _ _ _ _ => rfl, rfl, rfl⟩, fun _ _ => rfl⟩
  unfold State.ageAnnounces
  split
  · exact ((hforget _).trans (State.chooseSlave_statesKept _ (by decide))).trans (State.chooseSlave_statesKept _ (by decide))
  · exact .refl s

/-! ### The states at an evaluation (R166, R330) -/

/-- The state that an evaluation leaves a domain in: FAULT ends once its PLL runs. -/
def State.evaluated (s : State) (x : Nat) : Nat :=
  if s.domState x = domFault ∧ (s.dom x).pllLost = false then domAcquire else s.domState x

theorem State.evaluated_locked (s : State) (x : Nat) : s.evaluated x = domLocked ↔ s.domState x = domLocked := by
  unfold State.evaluated
  split
  · next h => rw [h.1]; decide
  · rfl

theorem State.evaluateDom_clocksKept (s : State) (hx : x < 2) : ClocksKept s (s.evaluateDom x) := by
  unfold State.evaluateDom
  split
  · split
    · exact .refl s
    · exact s.toDom_clocksKept (by decide) hx
  · split
    · exact State.setDom_clocksKept rfl
    · exact .refl s

theorem State.domState_evaluateDom_same (s : State) (hx : x < 2) : (s.evaluateDom x).domState x = s.evaluated x := by
  unfold State.evaluateDom State.evaluated
  by_cases hfault : s.domState x = domFault
  · rw [if_pos hfault]
    cases hpll : (s.dom x).pllLost
    · exact (s.domState_toDom_same (by decide) hx (by decide)).trans (if_pos ⟨hfault, rfl⟩).symm
    · exact (if_neg (by simp)).symm
  · rw [if_neg hfault, if_neg (show ¬ (s.domState x = domFault ∧ (s.dom x).pllLost = false) from fun k => hfault k.1)]
    split <;> rfl

theorem State.domState_evaluateDom_other (s : State) {y : Nat} (hy : y < 2) (hne : y ≠ x) :
    (s.evaluateDom x).domState y = s.domState y := by
  unfold State.evaluateDom
  split
  · split
    · rfl
    · exact s.domState_toDom_other (by decide) hy hne
  · split <;> rfl

/-- The bookkeeping of an evaluation, before the selection. -/
def State.evaluatedBoth (s : State) : State := (s.ageAnnounces.evaluateDom 0).evaluateDom 1

theorem State.evaluatedBoth_clocksKept (s : State) : ClocksKept s s.evaluatedBoth :=
  (s.ageAnnounces_statesKept.toClocksKept.trans (State.evaluateDom_clocksKept _ (by decide))).trans
    (State.evaluateDom_clocksKept _ (by decide))

theorem State.domState_evaluatedBoth (s : State) (hx : x < 2) : s.evaluatedBoth.domState x = s.evaluated x := by
  have haged := s.ageAnnounces_statesKept
  have hfirst := State.evaluateDom_clocksKept s.ageAnnounces (x := 0) (by decide)
  interval_cases x
  · refine (State.domState_evaluateDom_other _ (by decide) (by decide)).trans ((State.domState_evaluateDom_same _ (by decide)).trans ?_)
    rw [State.evaluated, haged.states 0 (by decide), haged.pllLost, State.evaluated]
  · refine (State.domState_evaluateDom_same _ (by decide)).trans ?_
    rw [State.evaluated, State.domState_evaluateDom_other _ (by decide) (by decide), hfirst.pllLost, haged.states 1 (by decide),
      haged.pllLost, State.evaluated]

/-! ### The domain that is wanted (R173) -/

theorem State.tsel_le (s : State) : s.tsel ≤ 1 := Nat.le_of_lt_succ (Nat.mod_lt _ (by decide))

theorem State.wanted_le (s : State) : s.wanted ≤ 1 := by
  have hsel : s.fd R.tsuCtl 1 0 < 4 := Nat.mod_lt _ (by decide)
  have hcur := s.tsel_le
  unfold State.wanted
  dsimp only
  split
  · omega
  · split
    · omega
    · split <;> omega

theorem State.wanted_fixed (h : s.fd R.tsuCtl 1 0 < 2) : s.wanted = s.fd R.tsuCtl 1 0 := if_pos h

theorem State.wanted_other (h : 2 ≤ s.fd R.tsuCtl 1 0) (hcur : s.domState s.tsel ≠ domLocked)
    (hother : s.domState (1 - s.tsel) = domLocked) : s.wanted = 1 - s.tsel :=
  (if_neg (Nat.not_lt.2 h)).trans (if_pos ⟨hcur, hother⟩)

theorem State.wanted_stays (h : 2 ≤ s.fd R.tsuCtl 1 0) (hcur : s.domState s.tsel = domLocked) (hrevert : s.bt R.tsuCtl 2 = false) :
    s.wanted = s.tsel := by
  unfold State.wanted
  dsimp only
  rw [if_neg (Nat.not_lt.2 h), if_neg (fun k => k.1 hcur), if_neg (by simp [hrevert])]

/-! ### The switch (R174, R175) -/

/-- Domain `y` is selected, and Δ holds the difference of presented time from it: no time base has moved. -/
structure Selected (s t : State) (y : Nat) : Prop where
  tsel : t.tsel = y
  delta : t.tsu.delta = s.pFine - (s.dom y).fine
  fine : ∀ x, (t.dom x).fine = (s.dom x).fine
  states : ∀ x < 2, t.domState x = s.domState x
  tab : t.tab = s.tab
  fwd : t.fwd = s.fwd

section
variable {y : Nat}

theorem Selected.pFine (h : Selected s t y) : t.pFine = s.pFine := by
  rw [State.pFine, h.tsel, h.fine, h.delta]
  omega

theorem Selected.trans (h : Selected s t y) (k : StatesKept t u) : Selected s u y :=
  ⟨k.tsel.trans h.tsel, k.delta.trans h.delta, fun x => (k.fine x).trans (h.fine x), fun x hx => (k.states x hx).trans (h.states x hx),
    k.tab.trans h.tab, k.fwd.trans h.fwd⟩

/-- What the switch shows before its report: Δ and its slew, the selected domain, the count and the sticky bit. -/
def State.switchShown (s : State) (y : Nat) (dl : Int) : State :=
  (((s.setDelta dl).setBt R.tsuStatus 0 (y == 1)).count R.switches).setBt R.tsuStatus 4 true

theorem State.rg_switchShown (s : State) (y : Nat) (dl : Int) : (s.switchShown y dl).rg R.tsuStatus =
    setBit (setBit (setBit (s.rg R.tsuStatus) 1 (dl != 0)) 0 (y == 1)) 4 true := by
  simp only [State.switchShown, State.setBt, State.setDelta]
  rw [State.rg_modRg_same, State.rg_count_other _ _ (by decide), State.rg_modRg_same, State.rg_modRg_same]
  rfl

theorem State.rg_switchShown_other (s : State) (y : Nat) (dl : Int) {o : Nat} (h1 : o ≠ R.tsuStatus) (h2 : o ≠ R.switches) :
    (s.switchShown y dl).rg o = s.rg o := by
  simp only [State.switchShown, State.setBt, State.setDelta]
  rw [State.rg_modRg_other _ _ h1, State.rg_count_other _ _ h2, State.rg_modRg_other _ _ h1, State.rg_modRg_other _ _ h1]
  rfl

theorem State.switchShown_selected (s : State) (hy : y ≤ 1) : Selected s (s.switchShown y (s.pFine - (s.dom y).fine)) y where
  tsel := by
    rw [State.tsel, State.fd, State.rg_switchShown, fld_setBit_other _ _ (by omega), setBit, fld_setFld_same _ _ (by omega) (by omega)]
    interval_cases y <;> rfl
  delta := by simp [State.switchShown, State.setDelta]
  fine _ := by simp [State.switchShown, State.setDelta, State.dom]
  states x hx := by
    refine congrArg (fld · 2 0) (s.rg_switchShown_other y _ ?_ ?_)
    all_goals simp only [R.domStatus, R.tsuStatus, R.switches]; omega
  tab := by simp [State.switchShown, State.setDelta]
  fwd := by simp [State.switchShown, State.setDelta]

theorem State.fixLeapDay_statesKept (s : State) (x : Nat) : StatesKept s (s.fixLeapDay x) := State.setDom_statesKept rfl

theorem State.switchTo_selected (s : State) (hy : y ≤ 1) : Selected s (s.switchTo y) y := by
  unfold State.switchTo
  split
  · next h => exact ⟨h.symm, by rw [h, State.pFine]; omega, fun _ => rfl, fun _ _ => rfl, rfl, rfl⟩
  · extract_lets dl s1 s2
    have hdl : dl = s.pFine - (s.dom y).fine := by simp only [dl, State.pFine]; omega
    have hshown := s.switchShown_selected hy
    rw [← hdl] at hshown
    exact ((hshown.trans (State.fixLeapDay_statesKept _ y)).trans (State.report_reported _ _ _ _ _ _ _).statesKept).trans
      (State.eventAll_notified _ 0).statesKept

end

/-! ### SELECTOR_EVALUATION -/

theorem exec_selectorEvaluation (hw : s.works) : ∃ t : State, exec .selectorEvaluation s = .next t ∧ t.pFine = s.pFine ∧ t.tab = s.tab ∧
    t.fwd = s.fwd ∧ (∀ x : Fin 2, (t.dom x).fine = (s.dom x).fine ∧ t.domState x = s.evaluated x) ∧
    (s.fd R.tsuCtl 1 0 < 2 → t.tsel = s.fd R.tsuCtl 1 0) ∧
    (2 ≤ s.fd R.tsuCtl 1 0 → s.domState s.tsel ≠ domLocked → s.domState (1 - s.tsel) = domLocked → t.tsel = 1 - s.tsel) ∧
    (2 ≤ s.fd R.tsuCtl 1 0 → s.domState s.tsel = domLocked → s.bt R.tsuCtl 2 = false → t.tsel = s.tsel) := by
  set b := s.evaluatedBoth with hb
  have hkept : ClocksKept s b := s.evaluatedBoth_clocksKept
  have hstate : ∀ x < 2, b.domState x = s.evaluated x := fun x hx => s.domState_evaluatedBoth hx
  have hctl : b.rg R.tsuCtl = s.rg R.tsuCtl := hkept.keys _ (by decide) (by decide) (by decide)
  have hsel : b.fd R.tsuCtl 1 0 = s.fd R.tsuCtl 1 0 := congrArg (fld · 1 0) hctl
  have hrevert : b.bt R.tsuCtl 2 = s.bt R.tsuCtl 2 := congrArg (bit · 2) hctl
  have hlocked : ∀ x ≤ 1, (b.domState x = domLocked ↔ s.domState x = domLocked) := fun x hx => by
    rw [hstate x (by omega), State.evaluated_locked]
  have hswitch := b.switchTo_selected b.wanted_le
  have hcur := s.tsel_le
  refine ⟨b.switchTo b.wanted, next_clocked hw _, hswitch.pFine.trans hkept.pFine, hswitch.tab.trans hkept.tab, hswitch.fwd.trans hkept.fwd,
    fun x => ⟨(hswitch.fine x).trans (hkept.fine x), (hswitch.states x x.isLt).trans (hstate x x.isLt)⟩, fun h => ?_, fun h h1 h2 => ?_,
    fun h h1 h2 => ?_⟩
  · rw [hswitch.tsel, State.wanted_fixed (hsel.trans_lt h), hsel]
  · rw [hswitch.tsel, State.wanted_other (h.trans_eq hsel.symm), hkept.tsel]
    · rwa [hkept.tsel, ne_eq, hlocked _ hcur]
    · rwa [hkept.tsel, hlocked _ (by omega)]
  · rw [hswitch.tsel, State.wanted_stays (h.trans_eq hsel.symm) _ (hrevert.trans h2), hkept.tsel]
    rwa [hkept.tsel, hlocked _ hcur]

end Sys2Proof.Machine
end

section
/-! SUPPORT. Edges of the PPS inputs (R185), and leaps that apply (R189). -/

namespace Sys2Proof.Machine

variable {s t u : State}

/-! ### Words of a signed count (R177, R189) -/

theorem ofNat_natOfInt {n m : Nat} (h : n ≤ m) (v : Int) : BitVec.ofNat n (natOfInt m v) = BitVec.ofInt n v := by
  have hdvd : (2 ^ n : Int) ∣ 2 ^ m := pow_dvd_pow 2 h
  have hmod : ((natOfInt m v % 2 ^ n : Nat) : Int) = v % 2 ^ n := by
    have hpos : 0 ≤ v % 2 ^ m := Int.emod_nonneg _ (by positivity)
    rw [natOfInt, Int.natCast_mod, Int.toNat_of_nonneg hpos]
    push_cast
    exact Int.emod_emod_of_dvd v hdvd
  apply BitVec.eq_of_toNat_eq
  rw [BitVec.toNat_ofNat, BitVec.toNat_ofInt]
  push_cast
  rw [← hmod, Int.toNat_natCast]

/-- One second more of an offset of eight bits. -/
theorem natOfInt_succ (n : Nat) : natOfInt 8 ((n : Int) + 1) = (n + 1) % 256 := by
  simp only [natOfInt]
  omega

/-- One second less. -/
theorem natOfInt_pred (n : Nat) : natOfInt 8 ((n : Int) + -1) = (n + 255) % 256 := by
  simp only [natOfInt]
  omega

/-! ### PPS edges (R185) -/

/-- The instant of an edge as stamped, `k` ns after the earliest that R185 allows. -/
def State.edgeAt (s : State) (k : Nat) : Nat := natOfInt 64 ((s.pNs : Int) + k - 4)

theorem stampWithin_edge (s : State) : stampWithin 4 s = (s.edgeAt (Config.freeNat s.free % 9), { s with free := s.free + 1 }) := rfl

/-- An edge close after the last one that counts: its stamp does not wrap. -/
theorem State.edgeAt_near {s : State} {k : Nat} (hk : k < 9) (h4 : 4 ≤ s.pNs) (h : s.pNs + 8 < 2 ^ 64) : s.edgeAt k = s.pNs + k - 4 := by
  simp only [State.edgeAt, natOfInt]
  omega

/-- No whole number of seconds lies within 255 µs of an interval below 0.999 s. -/
theorem ppsInterval_short {dt tol : Nat} (h : dt ≤ 999000000) (htol : tol < 256) : ppsInterval dt tol = none := by
  refine List.find?_eq_none.2 fun k hk => ?_
  obtain ⟨j, -, rfl⟩ := List.mem_map.1 hk
  simp only [decide_eq_true_eq]
  omega

/-- The registers of an accepted edge: its stamp, and no offset yet. -/
def State.edgeShown (s : State) (n t : Nat) : State :=
  (s.setRg (R.ppsStamp n) (BitVec.ofNat 32 t)).setRg (R.ppsOfs n) 0x8000_0000

theorem State.rg_edgeShown_stamp (s : State) (n t : Nat) : (s.edgeShown n t).rg (R.ppsStamp n) = BitVec.ofNat 32 t :=
  (State.rg_setRg_other _ _ (by simp only [R.ppsStamp, R.ppsOfs]; omega)).trans (State.rg_setRg_same _ _ _)

theorem State.rg_edgeShown_ofs (s : State) (n t : Nat) : (s.edgeShown n t).rg (R.ppsOfs n) = 0x8000_0000 := State.rg_setRg_same _ _ _

theorem State.edgeShown_tsu (s : State) (n t : Nat) : (s.edgeShown n t).tsu = s.tsu := by simp [State.edgeShown]

theorem State.edgeShown_tab (s : State) (n t : Nat) : (s.edgeShown n t).tab = s.tab := by simp [State.edgeShown]

theorem State.setPps_dom (s : State) (n : Nat) (v : Pps) : (s.setPps n v).tsu.dom = s.tsu.dom := rfl

theorem State.rg_setPps (s : State) (n : Nat) (v : Pps) (o : Nat) : (s.setPps n v).rg o = s.rg o := rfl

section
variable (hw : s.works) {n : Fin 4}
include hw

theorem exec_ppsEdge_off (h : s.bt (R.ppsCfg n) 0 = false) : exec (.ppsEdge n) s = .next s :=
  (next_clocked hw _).trans (congrArg (β := Res) .next (if_pos (by simp [h])))

/-- A first edge that no sentence has labelled. -/
theorem exec_ppsEdge_first (hen : s.bt (R.ppsCfg n) 0 = true) (hedge : (s.pps n).edge = none) (hlabel : (s.pps n).nextLabel = none) :
    ∃ (t : State) (k : Int), 0 ≤ k ∧ k ≤ 8 ∧ exec (.ppsEdge n) s = .next t ∧
      (t.pps n).edge = some { at_ := BitVec.ofInt 64 (s.pNs + k - 4), k := 1, labelled := false } ∧
      t.rg (R.ppsStamp n) = BitVec.ofInt 32 (s.pNs + k - 4) ∧ t.rg (R.ppsOfs n) = 0x8000_0000 ∧ t.tsu.dom = s.tsu.dom ∧ t.tab = s.tab := by
  set k := Config.freeNat s.free % 9 with hk
  have hrun : ppsEdge n s = (({ s with free := s.free + 1 } : State).edgeShown n (s.edgeAt k)).setPps n
      { edge := some { at_ := BitVec.ofNat 64 (s.edgeAt k), k := 1 }, prev := none } := by
    have hpps : ({ s with free := s.free + 1 } : State).pps n = s.pps n := rfl
    unfold ppsEdge
    rw [if_neg (by simp [hen]), stampWithin_edge]
    dsimp only
    rw [hpps, hedge, hlabel]
    rfl
  refine ⟨_, k, by omega, by omega, (next_clocked hw _).trans (congrArg (β := Res) .next hrun), ?_, ?_, ?_, ?_, ?_⟩
  · rw [State.pps_setPps_same, State.edgeAt, ofNat_natOfInt le_rfl]
  · rw [State.rg_setPps, State.rg_edgeShown_stamp, State.edgeAt, ofNat_natOfInt (by decide)]
  · rw [State.rg_setPps, State.rg_edgeShown_ofs]
  · rw [State.setPps_dom, State.edgeShown_tsu]
  · rw [State.setPps_tab, State.edgeShown_tab]

theorem exec_ppsEdge_early {e : PpsEdge} (hen : s.bt (R.ppsCfg n) 0 = true) (hedge : (s.pps n).edge = some e)
    (hafter : e.at_.toNat + 4 ≤ s.pNs) (hbefore : s.pNs + 4 ≤ e.at_.toNat + 999000000) (hwrap : s.pNs + 8 < 2 ^ 64) :
    exec (.ppsEdge n) s = .next ({ s with free := s.free + 1 }.count R.ppsBad) := by
  set k := Config.freeNat s.free % 9 with hk
  have hat : s.edgeAt k = s.pNs + k - 4 := State.edgeAt_near (by omega) (by omega) hwrap
  have htol : s.fd (R.ppsCfg n) 15 8 < 256 := Nat.mod_lt _ (by decide)
  have hpps : ({ s with free := s.free + 1 } : State).pps n = s.pps n := rfl
  refine (next_clocked hw _).trans (congrArg (β := Res) .next ?_)
  unfold ppsEdge
  rw [if_neg (by simp [hen]), stampWithin_edge]
  dsimp only
  rw [hpps, hedge]
  dsimp only
  rw [← hk, hat, if_neg (by omega), ppsInterval_short (by omega) htol]

end

/-! ### Leaps (R189) -/

/-- What the end of a leap leaves: no clock moved, UTC's word as it was, and the leap nowhere scheduled. -/
structure LeapGone (s t : State) (l : Leap) : Prop where
  kept : ClocksKept s t
  utc : t.rg R.utc = s.rg R.utc
  set : s.setLeap.any l.same = true → t.fd R.utcNext 25 24 = 0 ∧ t.tsu.leapLate = false
  announced : s.announcedLeap.any l.same = true → (t.dom s.tsel).leap61 = false ∧ (t.dom s.tsel).leap59 = false

/-- The first part of a leap's end: the flags of the domain that announces it. -/
def State.flagsCleared (s : State) (l : Leap) : State :=
  if s.announcedLeap.any l.same then s.setDom s.tsel { s.dom s.tsel with leap61 := false, leap59 := false, leapLate := false } else s

theorem State.flagsCleared_kept (s : State) (l : Leap) : ClocksKept s (s.flagsCleared l) ∧ (s.flagsCleared l).reg = s.reg ∧
    (s.flagsCleared l).logger = s.logger ∧ (s.announcedLeap.any l.same = true → ((s.flagsCleared l).dom s.tsel).leap61 = false ∧
      ((s.flagsCleared l).dom s.tsel).leap59 = false) := by
  unfold State.flagsCleared
  split
  · refine ⟨State.setDom_clocksKept rfl, rfl, rfl, fun _ => ?_⟩
    rw [State.dom_setDom_same]
    exact ⟨rfl, rfl⟩
  · next h => exact ⟨.refl s, rfl, rfl, fun k => absurd k h⟩

/-- The second part: TSU_UTC_NEXT holds no leap. -/
def State.unscheduled (s : State) : State := { s.setFd R.utcNext 25 24 0 with tsu.leapLate := false }

theorem State.clearLeap_eq (s : State) (l : Leap) :
    s.clearLeap l = if s.setLeap.any l.same then (s.flagsCleared l).unscheduled else s.flagsCleared l := rfl

theorem State.rg_unscheduled (s : State) (o : Nat) : s.unscheduled.rg o = (s.setFd R.utcNext 25 24 0).rg o := rfl

theorem State.unscheduled_kept (s : State) : ClocksKept s s.unscheduled ∧ s.unscheduled.rg R.utc = s.rg R.utc ∧
    s.unscheduled.fd R.utcNext 25 24 = 0 ∧ s.unscheduled.tsu.leapLate = false := by
  have hmark : ∀ a : State, ClocksKept a { a with tsu.leapLate := false } := fun a => ⟨fun _ => rfl, rfl, fun _ _ _ _ => rfl, rfl, rfl⟩
  refine ⟨(s.modRg_clocksKept _ (by decide)).trans (hmark _), ?_, ?_, rfl⟩
  · rw [State.rg_unscheduled]
    exact s.rg_modRg_other _ (by decide)
  · rw [State.fd, State.rg_unscheduled]
    exact s.fd_setFd_same _ _ (by decide) (by decide)

theorem State.clearLeap_gone (s : State) (l : Leap) : LeapGone s (s.clearLeap l) l := by
  obtain ⟨hkept, hreg, hlogger, hflags⟩ := s.flagsCleared_kept l
  have hutc : (s.flagsCleared l).rg R.utc = s.rg R.utc := by
    rw [State.rg, State.key, hreg, hlogger]
    rfl
  rw [State.clearLeap_eq]
  split
  · obtain ⟨hset, hword, hnone⟩ := (s.flagsCleared l).unscheduled_kept
    exact ⟨hkept.trans hset, hword.trans hutc, fun _ => hnone, hflags⟩
  · next h => exact ⟨hkept, hutc, fun k => absurd k h, hflags⟩

/-- What a change of the offset leaves: no clock moved, the leaps as they were, and the new offset. -/
structure OffsetMoved (s t : State) (step : Int) : Prop where
  kept : ClocksKept s t
  utc : t.fd R.utc 7 0 = natOfInt 8 ((s.fd R.utc 7 0 : Int) + step)
  next : t.rg R.utcNext = s.rg R.utcNext
  late : t.tsu.leapLate = s.tsu.leapLate
  flags : ∀ x, (t.dom x).leap61 = (s.dom x).leap61 ∧ (t.dom x).leap59 = (s.dom x).leap59

theorem State.moveOffset_moved (s : State) (step : Int) : OffsetMoved s (s.moveOffset step) step := by
  have hlt : natOfInt 8 ((s.fd R.utc 7 0 : Int) + step) < 2 ^ 8 := by
    simp only [natOfInt]
    omega
  have hword : OffsetMoved s (s.modRg R.utc (fun w => setFld w 7 0 (natOfInt 8 ((fld w 7 0 : Int) + step)))) step :=
    ⟨s.modRg_clocksKept _ (by decide), by rw [State.fd_modRg_same, fld_setFld_same _ _ (by omega) (by omega)]; exact Nat.mod_eq_of_lt hlt,
      s.rg_modRg_other _ (by decide), rfl, fun _ => ⟨rfl, rfl⟩⟩
  unfold State.moveOffset
  extract_lets s1
  split
  · refine ⟨hword.kept.trans (State.setDom_clocksKept rfl), hword.utc, hword.next, hword.late, fun x => ?_⟩
    by_cases hx : x = s1.tsel
    · rw [hx, State.dom_setDom_same]
      exact ⟨rfl, rfl⟩
    · rw [State.dom_setDom_other _ _ hx]
      exact ⟨rfl, rfl⟩
  · exact hword

/-- What a leap that applies leaves. -/
structure LeapApplied (s t : State) (l : Leap) : Prop where
  kept : ClocksKept s t
  utc : t.fd R.utc 7 0 = (s.fd R.utc 7 0 + (if l.insert then 1 else 255)) % 256
  set : s.setLeap.any l.same = true → t.fd R.utcNext 25 24 = 0 ∧ t.tsu.leapLate = false
  announced : s.announcedLeap.any l.same = true → (t.dom t.tsel).leap61 = false ∧ (t.dom t.tsel).leap59 = false

theorem State.applyLeap_applied (s : State) (l : Leap) : LeapApplied s (s.applyLeap l) l := by
  have hgone := s.clearLeap_gone l
  have hmoved := (s.clearLeap l).moveOffset_moved (if l.insert then 1 else -1)
  have hutc : (s.clearLeap l).fd R.utc 7 0 = s.fd R.utc 7 0 := congrArg (fld · 7 0) hgone.utc
  have htsel : (s.applyLeap l).tsel = s.tsel := hmoved.kept.tsel.trans hgone.kept.tsel
  refine ⟨hgone.kept.trans hmoved.kept, ?_, fun h => ?_, fun h => ?_⟩
  · rw [State.applyLeap, hmoved.utc, hutc]
    cases l.insert
    · exact natOfInt_pred _
    · exact natOfInt_succ _
  · obtain ⟨hnext, hlate⟩ := hgone.set h
    exact ⟨(congrArg (fld · 25 24) hmoved.next).trans hnext, hmoved.late.trans hlate⟩
  · obtain ⟨h61, h59⟩ := hgone.announced h
    obtain ⟨k61, k59⟩ := hmoved.flags s.tsel
    rw [htsel]
    exact ⟨k61.trans h61, k59.trans h59⟩

theorem LeapApplied.reported {l : Leap} (h : LeapApplied s t l) (code kind part unit detail : Nat) :
    LeapApplied s (t.report code kind part unit detail) l := by
  have hreport := (t.report_reported code kind part unit detail false).clocksKept
  have hutc : (t.report code kind part unit detail).rg R.utc = t.rg R.utc := t.rg_report_tsu _ _ _ _ _ _ (by decide)
  have hnext : (t.report code kind part unit detail).rg R.utcNext = t.rg R.utcNext := t.rg_report_tsu _ _ _ _ _ _ (by decide)
  refine ⟨h.kept.trans hreport, (congrArg (fld · 7 0) hutc).trans h.utc, fun k => ?_, fun k => ?_⟩
  · rw [State.report_tsu, State.fd, hnext]
    exact h.set k
  · rw [hreport.tsel, State.dom_report]
    exact h.announced k

theorem leapApply_applied {l : Leap} (h : s.leaps.find? s.leapDue = some l) : LeapApplied s (leapApply s) l := by
  have happlied := s.applyLeap_applied l
  unfold leapApply
  rw [h]
  dsimp only
  split
  · exact happlied.reported _ _ _ _ _
  · exact happlied

section
variable (hw : s.works)
include hw

theorem exec_leapApply_none (h : ∀ l ∈ s.leaps, l.late = false ∧ s.utcSec < (l.day + 1) * 86400 + (if l.insert then 1 else -1)) :
    exec .leapApply s = .next s := by
  have hnone : s.leaps.find? s.leapDue = none := List.find?_eq_none.2 fun l hl => by
    obtain ⟨hlate, hday⟩ := h l hl
    simp [State.leapDue, hlate, hday]
  refine (next_clocked hw _).trans (congrArg (β := Res) .next ?_)
  rw [leapApply, hnone]

theorem exec_leapApply {l : Leap} (h : s.leaps.find? s.leapDue = some l) : ∃ t : State, exec .leapApply s = .next t ∧
    t.fd R.utc 7 0 = (s.fd R.utc 7 0 + (if l.insert then 1 else 255)) % 256 ∧
    (s.setLeap.any l.same = true → t.fd R.utcNext 25 24 = 0 ∧ t.tsu.leapLate = false) ∧
    (s.announcedLeap.any l.same = true → (t.dom t.tsel).leap61 = false ∧ (t.dom t.tsel).leap59 = false) ∧
    t.pFine = s.pFine ∧ t.tab = s.tab :=
  have happlied := leapApply_applied h
  ⟨_, next_clocked hw _, happlied.utc, happlied.set, happlied.announced, happlied.kept.pFine, happlied.kept.tab⟩

end

end Sys2Proof.Machine
end

section
/-! SUPPORT. What the signal box sends: gPTP messages to a port that is UP (R171, R179), which change the datapath and the port's sequence
numbers only, and ZDA sentences (R188). -/

namespace Sys2Proof.Machine

variable {s t u : State}

/-! ### The datapath alone (R16, R99, R139, R158 to R161) -/

/-- Free values are drawn, and forwarding, registers and capture queues change: no clock, no table, no command. -/
def DatapathOnly (s t : State) : Prop := ∃ k f r c, t = { s with free := k, fwd := f, reg := r, cap := c }

theorem DatapathOnly.refl (s : State) : DatapathOnly s s := ⟨_, _, _, _, rfl⟩

theorem DatapathOnly.trans (h : DatapathOnly s t) (k : DatapathOnly t u) : DatapathOnly s u := by
  obtain ⟨k, f, r, c, rfl⟩ := h
  obtain ⟨k', f', r', c', rfl⟩ := k
  exact ⟨k', f', r', c', rfl⟩

theorem DatapathOnly.tsu (h : DatapathOnly s t) : t.tsu = s.tsu := by
  obtain ⟨k, f, r, c, rfl⟩ := h
  rfl

theorem DatapathOnly.tab (h : DatapathOnly s t) : t.tab = s.tab := by
  obtain ⟨k, f, r, c, rfl⟩ := h
  rfl

theorem State.modRg_datapath (s : State) (o : Nat) (f : W32 → W32) : DatapathOnly s (s.modRg o f) := ⟨_, _, _, _, rfl⟩

theorem State.countDrop_datapath (s : State) (code : Nat) : DatapathOnly s (s.countDrop code) := ⟨_, _, _, _, rfl⟩

theorem State.setFrame_datapath (s : State) (f : Frame) : DatapathOnly s (s.setFrame f) := ⟨_, _, _, _, rfl⟩

theorem State.setCapq_datapath (s : State) (q : Nat) (c : CapQ) : DatapathOnly s (s.setCapq q c) := ⟨_, _, _, _, rfl⟩

theorem State.setQueue_datapath (s : State) (c q : Nat) (l : List Copy) : DatapathOnly s (s.setQueue c q l) := ⟨_, _, _, _, rfl⟩

theorem State.charge_datapath (s : State) (a g sh n : Nat) (add : Bool) : DatapathOnly s (s.charge a g sh n add) := by
  unfold State.charge
  dsimp only
  split
  · exact ⟨_, _, _, _, rfl⟩
  · split <;> exact ⟨_, _, _, _, rfl⟩

theorem State.dropCells_datapath (s : State) (f : Frame) : DatapathOnly s (s.dropCells f) := by
  have hremove : ∀ a : State, DatapathOnly a (a.removeFrame f.id) := fun _ => ⟨_, _, _, _, rfl⟩
  unfold State.dropCells
  split
  · exact (s.charge_datapath _ _ _ _ _).trans (hremove _)
  · exact .refl s

theorem State.capLost_datapath (s : State) (q n : Nat) : DatapathOnly s (s.capLost q n) := by
  unfold State.capLost
  split
  · exact .refl s
  · exact ((s.modRg_datapath _ _).trans (State.modRg_datapath _ _ _)).trans (State.setCapq_datapath _ _ _)

theorem State.evict_datapath (s : State) (v : Victim) : DatapathOnly s (s.evict v) := by
  unfold State.evict
  exact ((s.setCapq_datapath _ _).trans (State.countDrop_datapath _ _)).trans (State.capLost_datapath _ _ _)

theorem moveToCapture_datapath (fuel id : Nat) (s : State) : DatapathOnly s (moveToCapture fuel id s) := by
  induction fuel generalizing s with
  | zero =>
    unfold moveToCapture
    rcases s.frame id with _ | f <;> exact .refl s
  | succ k ih =>
    unfold moveToCapture
    rcases s.frame id with _ | f
    · exact .refl s
    · dsimp only
      split
      · exact s.dropCells_datapath f
      split
      · exact ((s.charge_datapath _ _ _ _ _).trans (State.charge_datapath _ _ _ _ _ _)).trans (State.setFrame_datapath _ _)
      split
      · exact .refl s
      · next v _ =>
        refine ((s.evict_datapath v).trans ?_).trans (ih _)
        split
        · split
          · exact State.dropCells_datapath _ _
          · exact .refl _
        · exact .refl _

theorem State.settleFrame_datapath (s : State) (id : Nat) : DatapathOnly s (s.settleFrame id) := by
  unfold State.settleFrame
  split
  · exact .refl s
  · split
    · exact .refl s
    · split
      · split
        · exact .refl s
        · exact moveToCapture_datapath _ _ s
      · exact s.dropCells_datapath _

theorem State.makeCapture_datapath (s : State) (q : Nat) (f : Frame) (d : FrameDesc) (deferred : Bool) (c : PortCode) :
    DatapathOnly s (s.makeCapture q f d deferred c) := by
  have hcount : ∀ (a : State) (k : Nat), DatapathOnly a { a with cap.order := k } := fun _ _ => ⟨_, _, _, _, rfl⟩
  unfold State.makeCapture
  dsimp only
  split
  · exact (s.setCapq_datapath q _).trans (State.capLost_datapath _ _ _)
  · exact ((s.setCapq_datapath q _).trans (State.setCapq_datapath _ q _)).trans (hcount _ _)

theorem State.refuseCopy_datapath (s : State) (c : Copy) : DatapathOnly s (s.refuseCopy c) :=
  (s.countDrop_datapath _).trans (State.settleFrame_datapath _ _)

theorem State.deferCopy_datapath (s : State) (c : Copy) : DatapathOnly s (s.deferCopy c) := by
  unfold State.deferCopy
  dsimp only
  split
  · exact .refl s
  · split
    · exact ((s.countDrop_datapath _).trans (State.makeCapture_datapath _ _ _ _ _ _)).trans (State.settleFrame_datapath _ _)
    · exact s.refuseCopy_datapath c

theorem settleHead_datapath (c q k : Nat) (s : State) : DatapathOnly s (settleHead c q k s) := by
  induction k generalizing s with
  | zero => exact .refl s
  | succ k ih =>
    unfold settleHead
    split
    next => exact .refl s
    next h r _ =>
      have hset : ∀ l, DatapathOnly s (s.setQueue c q l) := s.setQueue_datapath c q
      have hdefer := ((hset r).trans (State.deferCopy_datapath _ h)).trans (ih _)
      have hrefuse := ((hset r).trans (State.refuseCopy_datapath _ h)).trans (ih _)
      split
      · exact .refl s
      extract_lets act t
      split
      · exact hdefer
      split
      · exact hrefuse
      split
      · split
        · split
          · exact hdefer
          · exact hrefuse
        · exact hset _
      · exact hset _

/-- A frame of the block that goes to a port that is UP. -/
theorem State.sendDirect_datapath {c : Nat} (id : Nat) (hc : c < 256) (h : s.portState c = pUp) : DatapathOnly s (s.sendDirect id c) := by
  rcases hf : s.frame id with _ | f
  · rw [State.sendDirect, hf]
    exact .refl s
  · rw [State.sendDirect_up hf hc h]
    exact ((s.setQueue_datapath _ _ _).trans (settleHead_datapath _ _ _ _)).trans (State.settleFrame_datapath _ _)

/-! ### gPTP messages (R171, R179) -/

theorem State.portUp_iff (s : State) (c : Nat) : s.portUp c = true ↔ s.portState c = pUp := beq_iff_eq

theorem State.bufFull_datapath (s : State) : DatapathOnly s s.bufFull := by
  unfold State.bufFull State.dropFrame
  exact (s.countDrop_datapath 0x10).trans (State.modRg_datapath _ R.fwdStatus (fun w => setBit w 1 true))

theorem State.sendGptp_datapath {n : Nat} (hn : n < 256) (h : s.portState n = pUp) (locked : Bool) (l : List Byte) :
    DatapathOnly s (s.sendGptp n locked l) := by
  unfold State.sendGptp
  rcases hadmits : s.admits acctLocal (s.admOf 7) with _ | _
  · rw [State.localFrame_refused _ _ _ _ hadmits]
    exact s.bufFull_datapath
  · obtain ⟨f, k, g, hframe, -⟩ := State.localFrame_admitted 0x7C locked 0 l hadmits
    rw [hframe]
    have hbuilt : DatapathOnly s { s with free := k, fwd := g } := ⟨_, _, _, _, rfl⟩
    exact hbuilt.trans (State.sendDirect_datapath _ hn h)

theorem State.gptpMessage_rest (s : State) (n type dnum flags corr seq : Nat) (body : List Byte) :
    ∃ l k, s.gptpMessage n type dnum flags corr seq body = (l, { s with free := k }) := ⟨_, _, rfl⟩

/-- What a message of a port leaves: the port's new numbers, every clock and every table. -/
structure Messaged (s t : State) (n : Nat) (g : GptpPort) : Prop where
  port : t.gport n = g
  dom : t.tsu.dom = s.tsu.dom
  delta : t.tsu.delta = s.tsu.delta
  tab : t.tab = s.tab

/-- A message built with free values goes out after the port's numbers have moved on. -/
theorem State.sendGptp_messaged {n : Nat} (hn : n < 256) (h : s.portState n = pUp) (k : Nat) (g : GptpPort) (locked : Bool)
    (l : List Byte) : Messaged s ((({ s with free := k } : State).setGport n g).sendGptp n locked l) n g := by
  have hsent := State.sendGptp_datapath (s := ({ s with free := k } : State).setGport n g) hn h locked l
  refine ⟨?_, ?_, ?_, hsent.tab⟩
  · rw [State.gport, hsent.tsu]
    exact State.gport_setGport_same _ n g
  · rw [hsent.tsu]
    rfl
  · rw [hsent.tsu]
    rfl

section
variable {n : Nat} (hn : n < 256) (h : s.portState n = pUp)
include hn h

theorem State.sendPdelay_messaged : Messaged s (s.sendPdelay n) n { s.gport n with seq := (s.gport n).seq + 1, cur := some {} } := by
  obtain ⟨l, k, hmessage⟩ := s.gptpMessage_rest n 2 0 0 0 ((s.gport n).seq + 1).toNat (List.replicate 20 0)
  unfold State.sendPdelay
  dsimp only
  rw [hmessage]
  exact State.sendGptp_messaged hn h k _ _ _

theorem State.sendSync_messaged (x : Nat) : Messaged s (s.sendSync n x) n { s.gport n with syncId := (s.gport n).syncId + 1 } := by
  unfold State.sendSync
  extract_lets g one
  obtain ⟨l, k, hmessage⟩ := s.gptpMessage_rest n 0 (s.fd (R.domCfg x) 10 4) (if one then 0 else 2) 0 g.syncId.toNat (List.replicate 10 0)
  rw [hmessage]
  exact State.sendGptp_messaged hn h k _ _ _

theorem State.sendAnnounce_messaged (x : Nat) : Messaged s (s.sendAnnounce n x) n { s.gport n with syncId := (s.gport n).syncId + 1 } := by
  obtain ⟨l, k, hmessage⟩ := State.gptpMessage_rest ({ s with free := s.free + 30 } : State) n 0xB (s.fd (R.domCfg x) 10 4) 0 0
    (s.gport n).syncId.toNat ((List.range 30).map (fun i => Config.freeByte (s.free + i)))
  unfold State.sendAnnounce drawBytes
  dsimp only
  rw [hmessage]
  exact State.sendGptp_messaged hn h k _ _ _

end

section
variable (hw : s.works) {n : EPort} {x : Fin 2} {k : GptpTx}
include hw

theorem exec_gptpTxTimer_down (h : s.portUp n = false) : exec (.gptpTxTimer n x k) s = .next s :=
  (next_clocked hw _).trans (congrArg (β := Res) .next (if_pos (by simp [h])))

theorem exec_gptpTxTimer_noDelay (hk : k = .pdelayReq) (h : s.cmlds n = false) : exec (.gptpTxTimer n x k) s = .next s := by
  subst hk
  refine (next_clocked hw _).trans (congrArg (β := Res) .next ?_)
  unfold gptpTxTimer
  split
  · rfl
  · exact if_neg (by simp [h])

theorem exec_gptpTxTimer_notMaster (hk : k ≠ .pdelayReq) (h : (s.domEn x && s.gptpPortOf n x && s.isMaster x n) = false) :
    exec (.gptpTxTimer n x k) s = .next s := by
  refine (next_clocked hw _).trans (congrArg (β := Res) .next ?_)
  unfold gptpTxTimer
  split
  · rfl
  · cases k with
    | sync => exact if_neg (by simp [h])
    | announce => exact if_neg (by simp [h])
    | pdelayReq => exact absurd rfl hk

variable (hup : s.portUp n = true)
include hup

theorem exec_gptpTxTimer_pdelay (hk : k = .pdelayReq) (h : s.cmlds n = true) : ∃ t : State, exec (.gptpTxTimer n x k) s = .next t ∧
    (t.gport n).seq = (s.gport n).seq + 1 ∧ t.tsu.dom = s.tsu.dom ∧ t.tsu.delta = s.tsu.delta ∧ t.tab = s.tab := by
  subst hk
  have hsent := State.sendPdelay_messaged (n := n) (by omega) ((s.portUp_iff n).1 hup)
  refine ⟨s.sendPdelay n, (next_clocked hw _).trans (congrArg (β := Res) .next ?_), by rw [hsent.port], hsent.dom, hsent.delta, hsent.tab⟩
  exact (if_neg (by simp [hup])).trans (if_pos h)

theorem exec_gptpTxTimer_master (hk : k ≠ .pdelayReq) (hen : s.domEn x = true) (hport : s.gptpPortOf n x = true)
    (hmaster : s.isMaster x n = true) : ∃ t : State, exec (.gptpTxTimer n x k) s = .next t ∧
    (t.gport n).syncId = (s.gport n).syncId + 1 ∧ t.tsu.dom = s.tsu.dom ∧ t.tsu.delta = s.tsu.delta ∧ t.tab = s.tab := by
  have hstate := (s.portUp_iff n).1 hup
  have hrun : ∀ a, (if (s.domEn x && s.gptpPortOf n x && s.isMaster x n) then a else s) = a := fun a =>
    if_pos (by simp [hen, hport, hmaster])
  have hgo : ∀ a, gptpTxTimer n x k s = a → exec (.gptpTxTimer n x k) s = .next a := fun a ha =>
    (next_clocked hw _).trans (congrArg (β := Res) .next ha)
  have hdown : ¬ ¬ s.portUp n := by simp [hup]
  cases k with
  | sync =>
    have hsent := State.sendSync_messaged (n := n) (by omega) hstate x
    exact ⟨s.sendSync n x, hgo _ ((if_neg hdown).trans (hrun _)), by rw [hsent.port], hsent.dom, hsent.delta, hsent.tab⟩
  | announce =>
    have hsent := State.sendAnnounce_messaged (n := n) (by omega) hstate x
    exact ⟨s.sendAnnounce n x, hgo _ ((if_neg hdown).trans (hrun _)), by rw [hsent.port], hsent.dom, hsent.delta, hsent.tab⟩
  | pdelayReq => exact absurd rfl hk

end

/-! ### ZDA sentences (R188) -/

/-- A frame of the block that LOCAL admits is whole, under its port code, and asks for no stamp. -/
theorem State.localFrame_whole (ingress : PortCode) {tc : Nat} (locked : Bool) (hslot : BitVec 128) (bytes : List Byte)
    (h : s.admits acctLocal (s.admOf tc) = true) : ∃ f k g, s.localFrame ingress tc locked hslot bytes =
      (some s.fwd.nextFrame, { s with free := k, fwd := g }) ∧ f.id = s.fwd.nextFrame ∧ f.bytes = bytes ∧ f.desc.ingress = ingress ∧
      f.complete = true ∧ f.desc.actions = 0 ∧ g.frames = s.fwd.frames ++ [f] ∧ g.eg = s.fwd.eg := by
  unfold State.localFrame
  dsimp only
  rw [if_neg (by simp [h])]
  exact ⟨_, _, _, rfl, rfl, rfl, rfl, rfl, rfl, rfl, rfl⟩

/-- A frame that is being sent is held. -/
theorem State.egressHolds_tx {c id : Nat} {y : Tx} (h : (s.egOf c).tx = some y) (hy : y.copy.frame = id) : s.egressHolds id = true := by
  have hport : (c, s.egOf c) ∈ s.fwd.eg := mem_of_kvGet rfl fun he => by simp [he] at h
  have hheld : (s.egOf c).holdsFrame id = true := by simp [EgPort.holdsFrame, h, hy]
  simp only [State.egressHolds, Bool.or_eq_true, List.any_eq_true]
  exact .inl (.inl ⟨_, hport, hheld⟩)

/-- A whole frame's transmission on a free line changes the port's egress side alone. -/
theorem State.beginTx_whole {c : Nat} (x : Copy) (at_ : Nat) {f : Frame} (hfree : (s.egOf c).tx = none) (hf : s.frame x.frame = some f)
    (hwhole : f.complete = true) :
    s.beginTx c x at_ = s.setEg c { s.egOf c with tx := some { copy := { x with started := true }, start := at_ } } := by
  have hframe : ∀ e, (s.setEg c e).frame x.frame = some f := fun _ => hf
  unfold State.beginTx State.startTx
  dsimp only
  rw [if_neg (by simp [hfree]), hframe]
  exact if_pos hwhole

theorem State.startOther_whole {c : Nat} {x : Copy} {f : Frame} (hF : isF c = false) (hC : isC c = false) (hfree : (s.egOf c).tx = none)
    (hf : s.frame x.frame = some f) (hwhole : f.complete = true) (hstamp : f.desc.stampInsert = false) (hlocked : x.locked = false)
    (hretag : x.retag = none) : ∃ y, s.startOther c x f = s.setEg c { s.egOf c with tx := some y } ∧ y.copy.frame = x.frame := by
  have hcount : s.countUnstamped x f = s := if_neg (by simp [hlocked, hstamp])
  unfold State.startOther State.copyBytes
  rw [if_neg (by simp [hF]), if_neg (by simp [hC]), hcount, hretag]
  exact ⟨_, State.beginTx_whole _ _ hfree hf hwhole, rfl⟩

/-- A ZDA sentence that LOCAL admits starts on a free sentence port. -/
theorem State.zdaStart_starts {n : Nat} (hn : n < 4) (hfree : (s.egOf (0x6C + n)).tx = none)
    (hadmits : s.admits acctLocal (s.admOf 7) = true) (hfresh : ∀ f ∈ s.fwd.frames, f.id < s.fwd.nextFrame) :
    ∃ f y, ((s.zdaStart n).egOf (0x6C + n)).tx = some y ∧ y.copy.frame = f.id ∧ (s.zdaStart n).frame f.id = some f ∧
      f.bytes = s.zdaText ∧ f.desc.ingress = 0x7C ∧ (s.zdaStart n).tab = s.tab := by
  obtain ⟨f, k, g, hlocal, hid, hbytes, hingress, hwhole, hactions, hframes, heg⟩ :=
    State.localFrame_whole (s := { s with tsu.zdaWait := none }) 0x7C false (setImg 0 0 1 3) s.zdaText hadmits
  generalize hu : ({ ({ s with tsu.zdaWait := none } : State) with free := k, fwd := g } : State) = u at hlocal
  replace hlocal := hlocal.trans (congrArg (fun i => (some i, u)) hid.symm)
  have hf : u.frame f.id = some f := by
    rw [← hu, State.frame]
    show g.frames.find? _ = _
    rw [hframes]
    exact find_newest fun e he => hid ▸ hfresh e he
  have hidle : (u.egOf (0x6C + n)).tx = none := by
    rw [← hu, State.egOf]
    show (kvGet {} g.eg _).tx = none
    rw [heg]
    exact hfree
  have htab : u.tab = s.tab := by rw [← hu]
  have hstamp : f.desc.stampInsert = false := by
    rw [FrameDesc.stampInsert, hactions]
    decide
  obtain ⟨y, hstart, hy⟩ := State.startOther_whole (c := 0x6C + n)
    (x := { frame := f.id, port := BitVec.ofNat 8 (0x6C + n), tc := f.desc.tc, adm := f.desc.adm, express := true })
    (by interval_cases n <;> rfl) (by interval_cases n <;> rfl) hidle hf hwhole hstamp rfl rfl
  have hsent : ((u.setEg (0x6C + n) { u.egOf (0x6C + n) with tx := some y }).egOf (0x6C + n)).tx = some y := by
    rw [State.egOf_setEg_same]
  have hrun : s.zdaStart n = u.setEg (0x6C + n) { u.egOf (0x6C + n) with tx := some y } := by
    unfold State.zdaStart
    dsimp only
    rw [hlocal]
    dsimp only
    rw [hf]
    dsimp only
    rw [hstart, State.settleFrame_held (State.egressHolds_tx hsent hy)]
  rw [hrun]
  exact ⟨f, y, hsent, hy, hf, hbytes, hingress, htab⟩

section
variable (hw : s.works) {c : Nat} (hc : c = s.fd R.senout 2 1)
include hw hc

theorem exec_zdaSend_none (h : s.bt R.senout 0 = false ∨ s.utcSec < 0 ∨ s.portUp (0x6C + c) = false) : exec .zdaSend s = .next s := by
  subst hc
  exact (next_clocked hw _).trans (congrArg (β := Res) .next (if_pos (by simpa using h)))

variable (hon : s.bt R.senout 0 = true) (hutc : 0 ≤ s.utcSec) (hup : s.portUp (0x6C + c) = true)
include hon hutc hup

theorem exec_zdaSend : exec .zdaSend s = .next (if (s.egOf (0x6C + c)).tx.isSome then { s.count R.senLate with tsu.zdaWait := some c }
    else s.zdaStart c) := by
  subst hc
  exact (next_clocked hw _).trans (congrArg (β := Res) .next (if_neg (by simp [hon, hutc, hup])))

theorem exec_zdaSend_late (h : (s.egOf (0x6C + c)).tx ≠ none) :
    exec .zdaSend s = .next { s.count R.senLate with tsu.zdaWait := some c } := by
  rw [exec_zdaSend hw hc hon hutc hup, if_pos (Option.isSome_iff_ne_none.2 h)]

theorem exec_zdaSend_starts (hfree : (s.egOf (0x6C + c)).tx = none) (hadmits : s.admits acctLocal (s.admOf 7) = true)
    (hfresh : ∀ f ∈ s.fwd.frames, f.id < s.fwd.nextFrame) : ∃ t f y, exec .zdaSend s = .next t ∧ (t.egOf (0x6C + c)).tx = some y ∧
    y.copy.frame = f.id ∧ t.frame f.id = some f ∧ f.bytes = s.zdaText ∧ f.desc.ingress = 0x7C ∧ t.tab = s.tab := by
  have hc4 : c < 4 := hc ▸ Nat.mod_lt _ (by decide)
  obtain ⟨f, y, hstart⟩ := State.zdaStart_starts hc4 hfree hadmits hfresh
  refine ⟨s.zdaStart c, f, y, ?_, hstart⟩
  rw [exec_zdaSend hw hc hon hutc hup, hfree]
  rfl

end

end Sys2Proof.Machine
end

section
/-! The statements on time (06_time.md). -/

namespace Sys2Proof
open Machine

/-- Settles O15: a latch changes the register file alone, six words of one copy; each of the other rows answers by its own law. -/
theorem timeReadsAnswerPresentedTime : Obligations.TimeReadsAnswerPresentedTime := by
  intro p d s
  refine ⟨exec_timeRead, fun hw v hv => ?_, fun hw v hv => ?_, fun n => exec_ttPhaseRead,
    fun h himm hclean hn hheld => ⟨exec_ttPhaseAt_near h himm hclean hn hheld, exec_ttPhaseAt_far h himm hclean hn hheld⟩,
    fun h himm hclean hn hdir hfrac hheld => ⟨fun ht => ?_, fun t ht hx => ?_, fun ht hx => ?_⟩⟩
  · rw [exec_tsuLatch hw, tsuLatch, hv]
    rfl
  · obtain ⟨g, heq⟩ := latchTime_regsOnly s p
    have hwords := latchTime_words s p
    rw [heq] at hwords
    refine ⟨{ s.reg with regs := g }, ?_, rfl, rfl, rfl, hwords⟩
    rw [exec_tsuLatch hw, tsuLatch, if_pos hv, heq]
  · exact exec_ttNextCross h himm hclean (ttNextCrossBody_lost hn hdir hfrac hheld ht)
  · exact exec_ttNextCross h himm hclean (ttNextCrossBody_predicted hn hdir hfrac hheld ht hx)
  · exact exec_ttNextCross h himm hclean (ttNextCrossBody_free hn hdir hfrac hheld ht hx)

/-- Settles O16: the step to a value is followed through what it moves (`DomainSet`): gates, events and the late leaps of the selected
domain. -/
theorem timeSetStepsTheDomain : Obligations.TimeSetStepsTheDomain := by
  intro d s x hdrop hx hx1 hform hclean
  refine ⟨fun p hp => exec_timeSet_host hclean hp, fun h himm => ⟨exec_timeSet_badDate hx hx1 hform hclean h himm,
    exec_timeSet_locked hx hx1 hform hclean h himm, fun hgood hfree => ?_⟩⟩
  have hexec := exec_timeSet_steps hx hx1 hform hclean h himm hgood hfree
  have hconf := ((exec_follows (.timeSet pm d) s).out _ hexec).conf rfl
  have hset := s.stepDomain_valid_set hx1 (taiNamed d s)
  obtain ⟨hns, hother, hbuf⟩ := hset.answered d St.ok
  refine ⟨_, hexec, hns, hother, (State.bt_answered _ _ _ _ _ _).trans (State.bt_setBt_same _ _ true (by decide)), hconf, hbuf,
    replyOf d St.ok 0 [], ?_, rfl, rfl⟩
  rw [State.answered, complete_done (by rw [hset.path, hdrop])]
  exact List.mem_append_right _ (List.mem_singleton_self _)

/-- Settles O54: one law for each row and case. What moves no clock (`ClocksKept`) keeps presented time; a selector's switch is
`Selected`, a leap `LeapApplied`, and a message changes the datapath and its port's numbers alone (`Messaged`). -/
theorem timeDomainsKeepPresentedTime : Obligations.TimeDomainsKeepPresentedTime := by
  intro s hw
  exact ⟨fun x => ⟨exec_syncReceiptTimeout_stays hw, exec_syncReceiptTimeout hw⟩, exec_selectorEvaluation hw, exec_deltaSlewDone hw,
    exec_tclkPllUnlock hw, exec_tclkPllRelock hw, exec_tsuServoParityError hw,
    fun n x k => ⟨exec_gptpTxTimer_down hw, exec_gptpTxTimer_noDelay hw, exec_gptpTxTimer_notMaster hw,
      fun hk hup => exec_gptpTxTimer_pdelay hw hup hk, fun hk hup => exec_gptpTxTimer_master hw hup hk⟩,
    fun n => ⟨exec_ppsEdge_off hw, exec_ppsEdge_first hw, fun e => exec_ppsEdge_early hw⟩,
    fun c hc => ⟨exec_zdaSend_none hw hc, fun hon hutc hup =>
      ⟨exec_zdaSend_late hw hc hon hutc hup, exec_zdaSend_starts hw hc hon hutc hup⟩⟩,
    exec_leapApply_none hw, fun l => exec_leapApply hw⟩

/-- Settles O17: each definition says it. -/
theorem possibleDatesAreTheCalendars : Obligations.PossibleDatesAreTheCalendars :=
  ⟨isLeap_iff, by decide, by decide, by decide, fun y _ => monthDays_eq y, State.possible_iff⟩

/-- Settles O18: both windows are arithmetic on the years of the definition. -/
theorem twoDigitYearsAreWindowed : Obligations.TwoDigitYearsAreWindowed := by
  intro s yy hyy
  refine ⟨rfl, fun hpivot => ?_, fun hpivot => ?_⟩
  all_goals
    unfold State.windowYear
    split <;> omega

end Sys2Proof
end

section
/-! SUPPORT. What the edges of a turntable leave: its counters of edges, its configuration, its direction and its position, through the
changes of state (R198), the tracking loop (R199), the index (R203) and the gates that follow a turntable (R150). -/

namespace Sys2Proof.Machine

variable {s t u : State} {n : Nat}

/-! ### Registers beside the gates' (R366) -/

theorem State.rg_setBt_other (s : State) {o j : Nat} (i : Nat) (b : Bool) (h : j ≠ o) : (s.setBt o i b).rg j = s.rg j :=
  State.rg_modRg_other _ _ h

/-- Gates move, and no register below theirs. -/
structure GatesAlone (s t : State) : Prop where
  moved : GatesMoved s t
  rg : ∀ o < 0x40_0000, t.rg o = s.rg o

theorem GatesAlone.trans (h : GatesAlone s t) (k : GatesAlone t u) : GatesAlone s u :=
  ⟨h.moved.trans k.moved, fun o ho => (k.rg o ho).trans (h.rg o ho)⟩

theorem GatesAlone.tab (h : GatesAlone s t) : t.tab = s.tab := by
  obtain ⟨⟨g, w, f, o, rfl⟩, -⟩ := h
  rfl

theorem GatesAlone.tt (h : GatesAlone s t) (n : Nat) : t.tt n = s.tt n := by
  obtain ⟨⟨g, w, f, o, rfl⟩, -⟩ := h
  rfl

theorem State.gates_alone (s : State) (n : Nat) (f : W32 → W32) : GatesAlone s (s.modRg (R.gteStatus n) f) :=
  ⟨⟨_, _, _, _, rfl⟩, fun o ho => State.rg_modRg_other _ _ (by simp only [R.gteStatus]; omega)⟩

/-- A transmission that is preempted leaves every register of 32 bits and the tables. -/
theorem State.preemptTx_shape (s : State) (n : Nat) : ∃ w f o, s.preemptTx n = { s with reg.wide := w, fwd := f, out := o } := by
  unfold State.preemptTx
  split
  · split
    · split
      · exact ⟨_, _, _, rfl⟩
      · exact ⟨_, _, _, rfl⟩
    · exact ⟨_, _, _, rfl⟩
  · exact ⟨_, _, _, rfl⟩

theorem State.heed_shape (s : State) (n : Nat) : ∃ w f o, s.heed n = { s with reg.wide := w, fwd := f, out := o } := by
  unfold State.heed
  split
  · exact s.preemptTx_shape n
  · exact ⟨_, _, _, rfl⟩

theorem State.rg_heed (s : State) (n o : Nat) : (s.heed n).rg o = s.rg o := by
  obtain ⟨w, f, q, h⟩ := s.heed_shape n
  rw [h]
  rfl

theorem State.heed_alone (s : State) (n : Nat) : GatesAlone s (s.heed n) := by
  refine ⟨?_, fun o _ => s.rg_heed n o⟩
  obtain ⟨w, f, o, h⟩ := s.heed_shape n
  exact ⟨_, w, f, o, h⟩

theorem State.startEntry_alone (s : State) (n k : Nat) : GatesAlone s (s.startEntry n k) :=
  (s.gates_alone n _).trans (State.heed_alone _ n)

/-- The fallback gates of a lost turntable change registers alone (R150). -/
theorem State.gatesLost_alone (s : State) (n : Nat) : GatesAlone s (s.gatesLost n) ∧ RegsOnly s (s.gatesLost n) := by
  refine List.foldlRecOn (motive := fun a => GatesAlone s a ∧ RegsOnly s a) _ _ ⟨⟨.refl s, fun _ _ => rfl⟩, ⟨_, rfl⟩⟩ ?_
  intro a ⟨halone, honly⟩ m _
  split
  · exact ⟨halone.trans (a.gates_alone m _), honly.trans (a.modRg_regsOnly _ _)⟩
  · exact ⟨halone, honly⟩

theorem State.gatesResume_alone (s : State) (n : Nat) : GatesAlone s (s.gatesResume n) := by
  refine List.foldlRecOn (motive := GatesAlone s) _ _ ⟨.refl s, fun _ _ => rfl⟩ ?_
  intro a halone m _
  split
  · exact halone.trans (a.startEntry_alone m _)
  · exact halone

/-! ### What follows the count of an edge -/

/-- What follows the count of an edge keeps of a turntable: the counters of its edges, its configuration, direction, position and
waiting index, and every table. -/
structure EdgeKept (n : Nat) (s t : State) : Prop where
  tab : t.tab = s.tab
  counts : ∀ j < 5, t.rg (R.ttCnt n j) = s.rg (R.ttCnt n j)
  cfg : t.rg (R.ttCfg n) = s.rg (R.ttCfg n)
  down : t.bt (R.ttStatus n) 2 = s.bt (R.ttStatus n) 2
  pos : (t.tt n).p = (s.tt n).p
  pend : (t.tt n).idxPend = (s.tt n).idxPend

/-- It keeps those, and nothing is sent. -/
structure EdgeQuiet (n : Nat) (s t : State) : Prop extends EdgeKept n s t where
  fwd : t.fwd = s.fwd
  out : t.out = s.out

theorem EdgeKept.trans (h : EdgeKept n s t) (k : EdgeKept n t u) : EdgeKept n s u :=
  ⟨k.tab.trans h.tab, fun j hj => (k.counts j hj).trans (h.counts j hj), k.cfg.trans h.cfg, k.down.trans h.down, k.pos.trans h.pos,
    k.pend.trans h.pend⟩

theorem EdgeQuiet.refl (n : Nat) (s : State) : EdgeQuiet n s s := ⟨⟨rfl, fun _ _ => rfl, rfl, rfl, rfl, rfl⟩, rfl, rfl⟩

theorem EdgeQuiet.trans (h : EdgeQuiet n s t) (k : EdgeQuiet n t u) : EdgeQuiet n s u :=
  ⟨h.toEdgeKept.trans k.toEdgeKept, k.fwd.trans h.fwd, k.out.trans h.out⟩

/-- The turntable's own record changes, but for position and waiting index. -/
theorem EdgeQuiet.record (s : State) {x : Turntable} (hp : x.p = (s.tt n).p) (hi : x.idxPend = (s.tt n).idxPend) :
    EdgeQuiet n s (s.setTt n x) :=
  ⟨⟨rfl, fun _ _ => rfl, rfl, rfl, by rw [State.tt_setTt_same, hp], by rw [State.tt_setTt_same, hi]⟩, rfl, rfl⟩

/-- The status word changes, but for the direction. -/
theorem EdgeQuiet.status (s : State) (n : Nat) {f : W32 → W32} (hf : ∀ w, bit (f w) 2 = bit w 2) :
    EdgeQuiet n s (s.modRg (R.ttStatus n) f) :=
  ⟨⟨rfl, fun j _ => State.rg_modRg_other _ _ (by simp only [R.ttStatus, R.ttCnt]; omega),
    State.rg_modRg_other _ _ (by simp only [R.ttStatus, R.ttCfg]; omega), (s.bt_modRg_same _ f 2).trans (hf _), rfl, rfl⟩, rfl, rfl⟩

theorem EdgeQuiet.setBt (s : State) (n : Nat) {i : Nat} (b : Bool) (h : i ≠ 2) : EdgeQuiet n s (s.setBt (R.ttStatus n) i b) :=
  .status s n fun w => bit_setBit_other w b h.symm

theorem EdgeQuiet.setState (s : State) (n st : Nat) : EdgeQuiet n s (s.setTtState n st) :=
  .status s n fun w => bit_setFld_other w st (by decide) (.inr (by decide))

/-- A counter beside those of edges counts. -/
theorem EdgeQuiet.count (s : State) (n : Nat) {j : Nat} (k : Nat) (h : 5 ≤ j) : EdgeQuiet n s (s.count (R.ttCnt n j) k) :=
  ⟨⟨rfl, fun i _ => State.rg_count_other _ _ (by simp only [R.ttCnt]; omega),
    State.rg_count_other _ _ (by simp only [R.ttCnt, R.ttCfg]; omega),
    State.bt_modRg_other _ _ _ (by simp only [R.ttCnt, R.ttStatus]; omega), rfl, rfl⟩, rfl, rfl⟩

theorem EdgeQuiet.setVel (s : State) (n : Nat) (v : Int) : EdgeQuiet n s (s.setVel n v) :=
  ⟨⟨rfl, fun _ _ => State.rg_setRg_other _ _ (by simp only [R.ttCnt, R.ttVel]; omega),
    State.rg_setRg_other _ _ (by simp only [R.ttCfg, R.ttVel]; omega),
    congrArg (bit · 2) (State.rg_setRg_other _ _ (by simp only [R.ttStatus, R.ttVel]; omega)), rfl, rfl⟩, rfl, rfl⟩

theorem EdgeQuiet.markPours (s : State) (n : Nat) (m : Option Int) : EdgeQuiet n s (s.markPours n m) :=
  ⟨⟨rfl, fun _ _ => rfl, rfl, rfl, rfl, rfl⟩, rfl, rfl⟩

/-- Gates that follow a turntable keep what an edge has counted. -/
theorem GatesAlone.edgeKept (h : GatesAlone s t) (hn : n < 16) : EdgeKept n s t :=
  ⟨h.tab, fun j hj => h.rg _ (by simp only [R.ttCnt]; omega), h.rg _ (by simp only [R.ttCfg]; omega),
    congrArg (bit · 2) (h.rg _ (by simp only [R.ttStatus]; omega)), by rw [h.tt], by rw [h.tt]⟩

theorem State.gatesLost_quiet (s : State) (hn : n < 16) : EdgeQuiet n s (s.gatesLost n) := by
  obtain ⟨halone, g, honly⟩ := s.gatesLost_alone n
  exact ⟨halone.edgeKept hn, by rw [honly], by rw [honly]⟩

/-! ### The states of a turntable (R198) -/

theorem State.leaveTracking_quiet (s : State) (hn : n < 16) : EdgeQuiet n s (s.leaveTracking n) := by
  unfold State.leaveTracking
  split
  · have hspan : EdgeQuiet n s (s.setTt n { s.tt n with spans := endSpan s.extP (s.tt n).spans }) := .record s rfl rfl
    have hshown := (hspan.trans (.setBt _ n (i := 4) true (by decide))).trans (.count _ n (j := 10) 1 (by decide))
    exact (hshown.trans (.markPours _ n none)).trans (State.gatesLost_quiet _ hn)
  · exact .refl n s

theorem State.enterAcquire_quiet (s : State) (hn : n < 16) : EdgeQuiet n s (s.enterAcquire n) :=
  (s.leaveTracking_quiet hn).trans (((EdgeQuiet.setState _ n _).trans (.setVel _ n 0)).trans (.record _ rfl rfl))

theorem State.enterTracking_kept (s : State) (hn : n < 16) (e : W64) : EdgeKept n s (s.enterTracking n e) := by
  unfold State.enterTracking
  extract_lets x dt
  have hdraw : EdgeQuiet n s (if dt = 0 then drawNat s else (0, s)).2 := by
    split
    · exact ⟨⟨rfl, fun _ _ => rfl, rfl, rfl, rfl, rfl⟩, rfl, rfl⟩
    · exact .refl n s
  have hrecord : (if dt = 0 then drawNat s else (0, s)).2.tt n = x := by split <;> rfl
  dsimp only
  refine EdgeKept.trans ?_ (GatesAlone.edgeKept (State.gatesResume_alone _ n) hn)
  refine (hdraw.trans (((EdgeQuiet.setState _ n _).trans (.setVel _ n _)).trans ((EdgeQuiet.record _ ?_ ?_).trans
    (.markPours _ n _)))).toEdgeKept
  · exact (congrArg Turntable.p hrecord).symm
  · exact (congrArg Turntable.idxPend hrecord).symm

theorem State.tryTrack_kept (s : State) (hn : n < 16) (e : W64) : EdgeKept n s (s.tryTrack n e) := by
  unfold State.tryTrack
  dsimp only
  split
  · exact s.enterTracking_kept hn e
  · exact (EdgeQuiet.refl n s).toEdgeKept

/-- A turntable in ACQUIRE has counted one edge of its run at most. -/
def State.acquiresAnew (s : State) (n : Nat) : Prop := s.ttState n = ttAcquire → (s.tt n).acqN ≤ 1

/-- A run of one edge does not take a turntable into TRACKING where two are asked for. -/
theorem State.tryTrack_short (h : s.acquiresAnew n) (hacq : 2 ≤ s.fd (R.ttCfg n) 23 16) (e : W64) : s.tryTrack n e = s := by
  refine if_neg ?_
  rintro ⟨hstate, hlong, -⟩
  have := h hstate
  omega

theorem State.ttState_setBt (s : State) (n : Nat) {i : Nat} (b : Bool) (h : 2 ≤ i) :
    (s.setBt (R.ttStatus n) i b).ttState n = s.ttState n :=
  (s.fd_modRg_same _ _ 1 0).trans (fld_setBit_other _ b (by omega))

theorem State.ttState_modRg_other (s : State) {n o : Nat} (f : W32 → W32) (h : R.ttStatus n ≠ o) :
    (s.modRg o f).ttState n = s.ttState n := congrArg (fld · 1 0) (State.rg_modRg_other s f h)

theorem State.ttState_count (s : State) (n j k : Nat) : (s.count (R.ttCnt n j) k).ttState n = s.ttState n :=
  s.ttState_modRg_other _ (by simp only [R.ttStatus, R.ttCnt]; omega)

theorem State.ttState_setTtState (s : State) (n : Nat) {st : Nat} (h : st < 4) : (s.setTtState n st).ttState n = st :=
  (s.fd_setFd_same (R.ttStatus n) (hi := 1) (lo := 0) st (by decide) (by decide)).trans (Nat.mod_eq_of_lt h)

theorem State.ttState_setVel (s : State) (n : Nat) (v : Int) : (s.setVel n v).ttState n = s.ttState n :=
  congrArg (fld · 1 0) (State.rg_setRg_other _ _ (by simp only [R.ttStatus, R.ttVel]; omega))

theorem State.ttState_setTt (s : State) (n : Nat) (x : Turntable) : (s.setTt n x).ttState n = s.ttState n := rfl

theorem State.ttState_enterAcquire (s : State) (n : Nat) : (s.enterAcquire n).ttState n = ttAcquire := by
  rw [State.enterAcquire, State.ttState_setTt, State.ttState_setVel, State.ttState_setTtState _ n (by decide)]

theorem State.acqN_enterAcquire (s : State) (n : Nat) : ((s.enterAcquire n).tt n).acqN = 0 := by
  rw [State.enterAcquire, State.tt_setTt_same]

/-! ### The loop and the run of an edge (R198, R199, R203) -/

theorem State.acquireEdge_quiet (s : State) (n : Nat) (e : W64) (turned : Bool) : EdgeQuiet n s (s.acquireEdge n e turned) := by
  unfold State.acquireEdge
  dsimp only
  split
  · exact .record s rfl rfl
  · exact .record s rfl rfl

theorem State.ttState_acquireEdge (s : State) (n : Nat) (e : W64) (turned : Bool) :
    (s.acquireEdge n e turned).ttState n = s.ttState n := by
  unfold State.acquireEdge
  dsimp only
  split <;> rfl

/-- The first edge of a run. -/
theorem State.acquireEdge_first (e : W64) {turned : Bool} (h : (s.tt n).acqN = 0 ∨ turned = true) :
    s.acquireEdge n e turned = s.setTt n { s.tt n with acqN := 1, acqP := (s.tt n).p, acqT := e } := if_pos h

/-- A loop's update changes the turntable's record and velocity, and draws a rounding. -/
theorem State.updateLoop_cases (s : State) (n : Nat) (e : W64) : s.updateLoop n e = s ∨
    ∃ v l, s.updateLoop n e = (({ s with free := s.free + 1 } : State).setVel n v).setTt n { s.tt n with loops := l } := by
  unfold State.updateLoop
  dsimp only
  split
  · exact .inl rfl
  · split
    · exact .inl rfl
    · exact .inr ⟨_, _, rfl⟩

theorem State.carryLoop_cases (s : State) (n : Nat) (e : W64) :
    s.carryLoop n e = s ∨ ∃ l, s.carryLoop n e = s.setTt n { s.tt n with loops := l } := by
  unfold State.carryLoop
  dsimp only
  split
  · exact .inl rfl
  · exact .inr ⟨_, rfl⟩

theorem State.carryLoop_quiet (s : State) (n : Nat) (e : W64) :
    EdgeQuiet n s (s.carryLoop n e) ∧ (s.carryLoop n e).ttState n = s.ttState n := by
  obtain h | ⟨l, h⟩ := s.carryLoop_cases n e
  · rw [h]
    exact ⟨.refl n s, rfl⟩
  · rw [h]
    exact ⟨.record s rfl rfl, rfl⟩

theorem State.loopEdge_quiet (s : State) (n : Nat) (e : W64) (near : Bool) :
    EdgeQuiet n s (s.loopEdge n e near) ∧ (s.loopEdge n e near).ttState n = s.ttState n := by
  unfold State.loopEdge
  split
  · exact s.carryLoop_quiet n e
  · obtain h | ⟨v, l, h⟩ := s.updateLoop_cases n e
    · rw [h]
      exact ⟨.refl n s, rfl⟩
    · have hdraw : EdgeQuiet n s { s with free := s.free + 1 } := ⟨⟨rfl, fun _ _ => rfl, rfl, rfl, rfl, rfl⟩, rfl, rfl⟩
      rw [h, State.ttState_setTt, State.ttState_setVel]
      exact ⟨hdraw.trans ((EdgeQuiet.setVel _ n v).trans (.record _ rfl rfl)), rfl⟩

theorem State.applyIndex_none (h : (s.tt n).idxPend = none) : s.applyIndex n = s := by
  simp only [State.applyIndex, h]

/-- A lost index is shown and counted, and changes nothing of the turntable's record or state. -/
theorem State.checkIndexLost_quiet (s : State) (n : Nat) : EdgeQuiet n s (s.checkIndexLost n) ∧
    (s.checkIndexLost n).ttState n = s.ttState n ∧ (s.checkIndexLost n).tt n = s.tt n := by
  unfold State.checkIndexLost
  dsimp only
  split
  · exact ⟨(EdgeQuiet.setBt s n _ (by decide)).trans (.count _ n 1 (by decide)),
      (State.ttState_count _ n 8 1).trans (s.ttState_setBt n _ (by decide)), rfl⟩
  · exact ⟨.refl n s, rfl, rfl⟩

end Sys2Proof.Machine
end

section
/-! SUPPORT. A counted edge of a turntable: what it counts in each mode, the interval test of single-edge TRACKING, and what the row does
with it before its end (R196, R197, R201, R202). -/

namespace Sys2Proof.Machine

variable {s t u : State} {n : Nat}

/-! ### The count of an edge (R197) -/

theorem State.rg_setTt (s : State) (n : Nat) (x : Turntable) (o : Nat) : (s.setTt n x).rg o = s.rg o := rfl

section
variable (s) (n : Nat) (e : W64) (k : Nat) (down : Bool)

theorem State.tt_countEdge : (s.countEdge n e k down).tt n = { s.tt n with
    p := if (s.tt n).first then 0 else if down then (s.tt n).p - k else (s.tt n).p + k, first := false, lastEdge := some e, extras := 0 } :=
  State.tt_setTt_same _ n _

theorem State.countEdge_tab : (s.countEdge n e k down).tab = s.tab := by simp [State.countEdge]
theorem State.countEdge_fwd : (s.countEdge n e k down).fwd = s.fwd := by simp [State.countEdge]
theorem State.countEdge_out : (s.countEdge n e k down).out = s.out := by simp [State.countEdge]

theorem State.pos_countEdge (h : (s.tt n).first = false) :
    ((s.countEdge n e k down).tt n).p = if down then (s.tt n).p - k else (s.tt n).p + k := by
  simp [State.tt_countEdge, h]

/-- Registers beside those of the count. -/
theorem State.rg_countEdge_other {o : Nat} (h0 : o ≠ R.ttCnt n 0) (he : o ≠ R.ttEdge n) (hs : o ≠ R.ttStatus n) :
    (s.countEdge n e k down).rg o = s.rg o := by
  unfold State.countEdge
  dsimp only
  rw [State.rg_setTt, State.rg_setBt_other _ _ _ hs, State.rg_setRg_other _ _ he, State.rg_count_other _ _ h0]

theorem State.countEdge_edges : (s.countEdge n e k down).rg (R.ttCnt n 0) = satInc (s.rg (R.ttCnt n 0)) 1 := by
  unfold State.countEdge
  dsimp only
  rw [State.rg_setTt, State.rg_setBt_other _ _ _ (by simp only [R.ttStatus, R.ttCnt]; omega),
    State.rg_setRg_other _ _ (by simp only [R.ttEdge, R.ttCnt]; omega), State.rg_count_same]

theorem State.rg_countEdge_cnt {j : Nat} (h : j ≠ 0) : (s.countEdge n e k down).rg (R.ttCnt n j) = s.rg (R.ttCnt n j) := by
  refine s.rg_countEdge_other n e k down ?_ ?_ ?_ <;> simp only [R.ttCnt, R.ttEdge, R.ttStatus] <;> omega

theorem State.rg_countEdge_cfg : (s.countEdge n e k down).rg (R.ttCfg n) = s.rg (R.ttCfg n) := by
  refine s.rg_countEdge_other n e k down ?_ ?_ ?_ <;> simp only [R.ttCnt, R.ttEdge, R.ttStatus, R.ttCfg] <;> omega

theorem State.down_countEdge : (s.countEdge n e k down).bt (R.ttStatus n) 2 = down := by
  unfold State.countEdge
  dsimp only
  rw [State.bt, State.rg_setTt]
  exact State.bt_setBt_same _ _ down (by decide)

theorem State.ttState_countEdge : (s.countEdge n e k down).ttState n = s.ttState n := by
  have hedge : ∀ (a : State) v, (a.setRg (R.ttEdge n) v).ttState n = a.ttState n := fun a v =>
    congrArg (fld · 1 0) (State.rg_setRg_other _ _ (by simp only [R.ttStatus, R.ttEdge]; omega))
  unfold State.countEdge
  dsimp only
  rw [State.ttState_setTt, State.ttState_setBt _ n down (le_refl 2), hedge, State.ttState_count]

end

/-! ### An edge outside the interval test (R197, R198, R202) -/

section
variable (hn : n < 16) (e : W64) (k : Nat) (down near : Bool)
include hn

theorem State.plainEdge_quiet : EdgeQuiet n (s.countEdge n e k down) (s.plainEdge n e k down near) := by
  unfold State.plainEdge
  extract_lets turned s1 s2
  split
  · split
    · exact (EdgeQuiet.count s1 n (j := 5) 1 (by decide)).trans ((State.enterAcquire_quiet _ hn).trans (State.acquireEdge_quiet _ n e _))
    · exact (s1.loopEdge_quiet n e near).1
  · have hs2 : EdgeQuiet n s1 s2 := by
      show EdgeQuiet n s1 (if _ then _ else _)
      split
      · exact s1.enterAcquire_quiet hn
      · exact .refl n s1
    exact hs2.trans (s2.acquireEdge_quiet n e turned)

end

/-- An edge that finds a turntable outside ACQUIRE starts a run of edges at most. -/
theorem State.plainEdge_anew (h : s.ttState n ≠ ttAcquire) (e : W64) (k : Nat) (down near : Bool) :
    (s.plainEdge n e k down near).acquiresAnew n := by
  have hcount := s.ttState_countEdge n e k down
  unfold State.plainEdge
  extract_lets turned s1 s2
  split
  · split
    · intro _
      rw [State.acquireEdge_first e (.inr rfl), State.tt_setTt_same]
    · intro hacq
      rw [(s1.loopEdge_quiet n e near).2, hcount] at hacq
      exact absurd hacq h
  · intro hacq
    rw [State.ttState_acquireEdge] at hacq
    have hstalled : s2 = s1.enterAcquire n := by
      refine if_pos (of_not_not fun hne => h ?_)
      rwa [show s2 = s1 from if_neg hne, hcount] at hacq
    rw [hstalled, State.acquireEdge_first e (.inl (State.acqN_enterAcquire _ _)), State.tt_setTt_same]

/-! ### The interval test (R201) -/

/-- What an edge in TRACKING counts, by the interval test. -/
def State.judgedEdge (s : State) (n : Nat) (e : W64) : EdgeCase → State
  | .extra => s.count (R.ttCnt n 2)
  | .normal => s.countEdge n e 1 false
  | .missing m => (s.countEdge n e (m + 1) false).count (R.ttCnt n 3) m
  | .tooMany m => (s.countEdge n e (m + 1) false).count (R.ttCnt n 3) m

theorem State.judgedEdge_extra (s : State) (n : Nat) (e : W64) : s.judgedEdge n e .extra = s.count (R.ttCnt n 2) := rfl
theorem State.judgedEdge_normal (s : State) (n : Nat) (e : W64) : s.judgedEdge n e .normal = s.countEdge n e 1 false := rfl

/-- What an edge in TRACKING makes of a turntable: what the test counts, then loop or ACQUIRE. -/
structure EdgeJudged (s t : State) (n : Nat) (e : W64) (c : EdgeCase) : Prop extends EdgeQuiet n (s.judgedEdge n e c) t where
  anew : t.acquiresAnew n
  lost : ∀ m, c = .tooMany m → t.ttState n = ttAcquire

theorem EdgeJudged.of_tracking {e : W64} {c : EdgeCase} (hquiet : EdgeQuiet n (s.judgedEdge n e c) t) (hstate : t.ttState n = ttTracking)
    (hc : ∀ m, c ≠ .tooMany m) : EdgeJudged s t n e c :=
  ⟨hquiet, fun h => absurd (hstate.symm.trans h) (by decide), fun m h => absurd h (hc m)⟩

theorem EdgeJudged.of_acquire {e : W64} {c : EdgeCase} (hn : n < 16) (hquiet : EdgeQuiet n (s.judgedEdge n e c) t) :
    EdgeJudged s (t.enterAcquire n) n e c :=
  ⟨hquiet.trans (t.enterAcquire_quiet hn), fun _ => (t.acqN_enterAcquire n).trans_le (Nat.zero_le 1),
    fun _ _ => t.ttState_enterAcquire n⟩

/-- The case of the interval test that an edge with a stamp is. -/
def State.caseOf (s : State) (n : Nat) (e : W64) : EdgeCase :=
  edgeCase (s.fd (R.ttCfg n) 27 24) (s.fd (R.ttCfg n) 30 28) (s.velocity n) (e.toNat - ((s.tt n).lastEdge.getD e).toNat)

/-- The first edge after the blank of line sync (R202). -/
def State.blankEdge (s : State) (n : Nat) : Bool := s.ttMode n == 2 && decide ((s.tt n).p % (s.cpr n : Int) = (s.cpr n : Int) - 1)

theorem State.trackEdge_blank (h : s.blankEdge n = true) (e : W64) (near : Bool) :
    s.trackEdge n e near = (s.countEdge n e 1 false).carryLoop n e := if_pos h

/-- What becomes of an edge in TRACKING that the interval test judges. -/
def State.trackJudged (s : State) (n : Nat) (e : W64) (near : Bool) (c : EdgeCase) : State :=
  match c with
  | .extra =>
    let t := (s.judgedEdge n e c).setTt n { s.tt n with extras := (s.tt n).extras + 1 }
    if (s.tt n).extras + 1 = 4 then t.enterAcquire n else t
  | .tooMany _ => (s.judgedEdge n e c).enterAcquire n
  | .normal | .missing _ => (s.judgedEdge n e c).loopEdge n e near

theorem State.trackEdge_judged (h : s.blankEdge n = false) (e : W64) (near : Bool) :
    s.trackEdge n e near = s.trackJudged n e near (s.caseOf n e) := by
  unfold State.trackEdge
  unfold State.blankEdge at h
  cases hc : s.caseOf n e
  all_goals
    unfold State.caseOf at hc
    simp only [h, hc, Bool.false_eq_true, if_false]
    rfl

theorem State.trackJudged_judged (hn : n < 16) (e : W64) (near : Bool) (c : EdgeCase) (h : s.ttState n = ttTracking) :
    EdgeJudged s (s.trackJudged n e near c) n e c := by
  have hcounted : ∀ k, (s.countEdge n e k false).ttState n = ttTracking := fun k => (s.ttState_countEdge n e k false).trans h
  unfold State.trackJudged
  cases c with
  | extra =>
    have hextra : EdgeQuiet n (s.judgedEdge n e .extra)
        ((s.judgedEdge n e .extra).setTt n { s.tt n with extras := (s.tt n).extras + 1 }) := .record _ rfl rfl
    dsimp only
    split
    · exact .of_acquire hn hextra
    · exact .of_tracking hextra ((State.ttState_setTt _ n _).trans ((s.ttState_count n 2 1).trans h)) nofun
  | normal =>
    obtain ⟨hquiet, hstate⟩ := State.loopEdge_quiet (s.judgedEdge n e .normal) n e near
    exact .of_tracking hquiet (hstate.trans (hcounted 1)) nofun
  | missing m =>
    obtain ⟨hquiet, hstate⟩ := State.loopEdge_quiet (s.judgedEdge n e (.missing m)) n e near
    exact .of_tracking hquiet (hstate.trans ((State.ttState_count _ n 3 m).trans (hcounted (m + 1)))) nofun
  | tooMany m => exact .of_acquire hn (.refl n _)

/-- An edge in TRACKING: by the interval test, or the normal one after the blank. -/
theorem State.trackEdge_cases (hn : n < 16) (e : W64) (near : Bool) (h : s.ttState n = ttTracking) :
    ∃ c, (s.ttMode n = 1 → c = s.caseOf n e) ∧ EdgeJudged s (s.trackEdge n e near) n e c := by
  cases hblank : s.blankEdge n with
  | true =>
    obtain ⟨hquiet, hstate⟩ := State.carryLoop_quiet (s.countEdge n e 1 false) n e
    rw [State.trackEdge_blank hblank]
    refine ⟨.normal, fun hmode => absurd hblank (by simp [State.blankEdge, hmode]), .of_tracking hquiet ?_ nofun⟩
    exact hstate.trans ((s.ttState_countEdge n e 1 false).trans h)
  | false =>
    rw [State.trackEdge_judged hblank]
    exact ⟨_, fun _ => rfl, State.trackJudged_judged hn e near _ h⟩

/-! ### A row of an edge -/

/-- The stamp of an edge: presented time within 3 ns (R196). -/
def State.edgeStamp (s : State) : W64 := BitVec.ofInt 64 ((s.pNs : Int) + (Config.freeNat s.free % 7 : Nat) - 3)

/-- Stamped, its discarded pulses counted. -/
def State.edgeFiltered (s : State) (n g : Nat) : State := { s.count (R.ttCnt n 1) g with free := s.free + 1 }

theorem State.pNs_count_glitch (s : State) (n g : Nat) : (s.count (R.ttCnt n 1) g).pNs = s.pNs := by
  have hsel : (s.count (R.ttCnt n 1) g).tsel = s.tsel :=
    congrArg (fld · 0 0) (State.rg_count_other _ g (by simp only [R.ttCnt, R.tsuStatus]; omega))
  rw [State.pNs, State.pFine, hsel]
  rfl

theorem stampWithin_edge3 (s : State) (n g : Nat) : ∃ t, stampWithin 3 (s.count (R.ttCnt n 1) g) = (t, s.edgeFiltered n g) ∧
    BitVec.ofNat 64 t = s.edgeStamp :=
  ⟨_, rfl, by rw [State.pNs_count_glitch, ofNat_natOfInt le_rfl]; rfl⟩

/-- The end of an edge's row: an index that waits applies, and the turntable may track. -/
def State.edgeEnds (s : State) (n : Nat) (e : W64) : State :=
  if (s.tt n).lastEdge = some e then ((s.applyIndex n).checkIndexLost n).tryTrack n e else s

/-- What an edge counts before its row's end: by the interval test in TRACKING with one input, else one position or two. -/
def State.edgeCounts (s : State) (n : Nat) (a b near : Bool) (g : Nat) : State :=
  if s.ttMode n ≠ 0 ∧ s.ttState n = ttTracking then (s.edgeFiltered n g).trackEdge n s.edgeStamp near
  else if s.ttMode n = 0 ∧ b = true then
    ((s.edgeFiltered n g).count (R.ttCnt n 4)).plainEdge n s.edgeStamp 2 (s.bt (R.ttStatus n) 2) near
  else (s.edgeFiltered n g).plainEdge n s.edgeStamp 1 (decide (s.ttMode n = 0) && a == s.bt (R.ttCfg n) 4) near

/-- A row of an edge while the turntable is not OFF: the count, then the row's end. -/
theorem ttCountedEdge_runs {n : Fin 16} (h : s.ttState n ≠ ttOff) (a b : Bool) (g : Nat) :
    ∃ near, ttCountedEdge n a b g s = (s.edgeCounts n a b near g).edgeEnds n s.edgeStamp := by
  obtain ⟨tn, hstamp, htn⟩ := stampWithin_edge3 s n g
  have hcounts : ∀ near, (if (!s.ttMode n == 0 && s.ttState n == ttTracking) = true then
      (if (s.ttMode n == 0 && b) = true then (s.edgeFiltered n g).count (R.ttCnt n 4) else s.edgeFiltered n g).trackEdge n s.edgeStamp near
      else (if (s.ttMode n == 0 && b) = true then (s.edgeFiltered n g).count (R.ttCnt n 4) else s.edgeFiltered n g).plainEdge n s.edgeStamp
        (if (s.ttMode n == 0 && b) = true then 2 else 1)
        (s.ttMode n == 0 && if b = true then s.bt (R.ttStatus n) 2 else a == s.bt (R.ttCfg n) 4) near) = s.edgeCounts n a b near g := by
    intro near
    unfold State.edgeCounts
    by_cases hmode : s.ttMode n = 0
    · cases b <;> simp [hmode]
    · simp [hmode, beq_eq_false_iff_ne.2 hmode]
  unfold ttCountedEdge
  rw [if_neg (fun k => h k.1), if_neg h]
  dsimp only
  rw [hstamp]
  dsimp only
  rw [htn, hcounts]
  exact ⟨_, rfl⟩

end Sys2Proof.Machine
end

section
/-! SUPPORT. The row of a counted edge, in each mode and state of its turntable (R196 to R203, R206). -/

namespace Sys2Proof.Machine

variable {s t u : State} {n : Nat}

/-! ### What every edge of a running turntable counts (R196) -/

theorem State.rg_edgeFiltered (s : State) (n g o : Nat) : (s.edgeFiltered n g).rg o = (s.count (R.ttCnt n 1) g).rg o := rfl

theorem State.rg_edgeFiltered_other (s : State) {n o : Nat} (g : Nat) (h : o ≠ R.ttCnt n 1) : (s.edgeFiltered n g).rg o = s.rg o := by
  rw [State.rg_edgeFiltered, State.rg_count_other _ _ h]

theorem State.rg_edgeFiltered_cnt (s : State) (n g : Nat) {j : Nat} (h : j ≠ 1) :
    (s.edgeFiltered n g).rg (R.ttCnt n j) = s.rg (R.ttCnt n j) :=
  s.rg_edgeFiltered_other g (by simp only [R.ttCnt]; omega)

theorem State.rg_edgeFiltered_cfg (s : State) (n g : Nat) : (s.edgeFiltered n g).rg (R.ttCfg n) = s.rg (R.ttCfg n) :=
  s.rg_edgeFiltered_other g (by simp only [R.ttCnt, R.ttCfg]; omega)

theorem State.rg_edgeFiltered_status (s : State) (n g : Nat) : (s.edgeFiltered n g).rg (R.ttStatus n) = s.rg (R.ttStatus n) :=
  s.rg_edgeFiltered_other g (by simp only [R.ttCnt, R.ttStatus]; omega)

theorem State.ttState_edgeFiltered (s : State) (n g : Nat) : (s.edgeFiltered n g).ttState n = s.ttState n :=
  congrArg (fld · 1 0) (s.rg_edgeFiltered_status n g)

theorem State.tt_count (s : State) (o k n : Nat) : (s.count o k).tt n = s.tt n := rfl

theorem State.tt_edgeFiltered (s : State) (n g j : Nat) : (s.edgeFiltered n g).tt j = s.tt j := rfl

/-- The discarded pulses are counted, and beside the turntable's own state and registers nothing changes. -/
structure EdgeCounted (n g : Nat) (s t : State) : Prop where
  tab : t.tab = s.tab
  fwd : t.fwd = s.fwd
  out : t.out = s.out
  glitches : t.rg (R.ttCnt n 1) = satInc (s.rg (R.ttCnt n 1)) g
  cfg : t.rg (R.ttCfg n) = s.rg (R.ttCfg n)
  pend : (t.tt n).idxPend = (s.tt n).idxPend

theorem State.edgeFiltered_counted (s : State) (n g : Nat) : EdgeCounted n g s (s.edgeFiltered n g) :=
  ⟨rfl, rfl, rfl, by rw [State.rg_edgeFiltered, State.rg_count_same], s.rg_edgeFiltered_cfg n g, rfl⟩

section
variable {g : Nat} (h : EdgeCounted n g s t)
include h

theorem EdgeCounted.quiet (k : EdgeQuiet n t u) : EdgeCounted n g s u :=
  ⟨k.tab.trans h.tab, k.fwd.trans h.fwd, k.out.trans h.out, (k.counts 1 (by decide)).trans h.glitches, k.cfg.trans h.cfg,
    k.pend.trans h.pend⟩

theorem EdgeCounted.count {j : Nat} (k : Nat) (hj : j ≠ 1) : EdgeCounted n g s (t.count (R.ttCnt n j) k) :=
  ⟨h.tab, h.fwd, h.out, (State.rg_count_other _ _ (by simp only [R.ttCnt]; omega)).trans h.glitches,
    (State.rg_count_other _ _ (by simp only [R.ttCnt, R.ttCfg]; omega)).trans h.cfg, h.pend⟩

theorem EdgeCounted.countEdge (e : W64) (k : Nat) (down : Bool) : EdgeCounted n g s (t.countEdge n e k down) :=
  ⟨(t.countEdge_tab n e k down).trans h.tab, (t.countEdge_fwd n e k down).trans h.fwd, (t.countEdge_out n e k down).trans h.out,
    (t.rg_countEdge_cnt n e k down (by decide)).trans h.glitches, (t.rg_countEdge_cfg n e k down).trans h.cfg,
    by rw [State.tt_countEdge]; exact h.pend⟩

theorem EdgeCounted.judgedEdge (e : W64) (c : EdgeCase) : EdgeCounted n g s (t.judgedEdge n e c) := by
  cases c with
  | extra => exact h.count 1 (by decide)
  | normal => exact h.countEdge e 1 false
  | missing m => exact (h.countEdge e (m + 1) false).count m (by decide)
  | tooMany m => exact (h.countEdge e (m + 1) false).count m (by decide)

end

/-! ### An edge before its row's end -/

section
variable {a b near : Bool} {g : Nat}

theorem State.edgeCounts_track (hmode : s.ttMode n ≠ 0) (hstate : s.ttState n = ttTracking) :
    s.edgeCounts n a b near g = (s.edgeFiltered n g).trackEdge n s.edgeStamp near := if_pos ⟨hmode, hstate⟩

theorem State.edgeCounts_double (hmode : s.ttMode n = 0) (hb : b = true) : s.edgeCounts n a b near g =
    ((s.edgeFiltered n g).count (R.ttCnt n 4)).plainEdge n s.edgeStamp 2 (s.bt (R.ttStatus n) 2) near :=
  (if_neg (fun k => k.1 hmode)).trans (if_pos ⟨hmode, hb⟩)

theorem State.edgeCounts_quad (hmode : s.ttMode n = 0) (hb : b = false) : s.edgeCounts n a b near g =
    (s.edgeFiltered n g).plainEdge n s.edgeStamp 1 (a == s.bt (R.ttCfg n) 4) near := by
  simp [State.edgeCounts, hmode, hb]

theorem State.edgeCounts_upward (hmode : s.ttMode n ≠ 0) (hstate : s.ttState n ≠ ttTracking) : s.edgeCounts n a b near g =
    (s.edgeFiltered n g).plainEdge n s.edgeStamp 1 false near := by
  simp [State.edgeCounts, hmode, hstate]

/-- The three ways in which an edge counts. -/
theorem State.edgeCounts_cases (s : State) (n : Nat) (a b near : Bool) (g : Nat) :
    (s.ttState n = ttTracking ∧ s.edgeCounts n a b near g = (s.edgeFiltered n g).trackEdge n s.edgeStamp near) ∨
    (∃ down, s.edgeCounts n a b near g = ((s.edgeFiltered n g).count (R.ttCnt n 4)).plainEdge n s.edgeStamp 2 down near) ∨
    ∃ down, s.edgeCounts n a b near g = (s.edgeFiltered n g).plainEdge n s.edgeStamp 1 down near := by
  unfold State.edgeCounts
  split
  · next h => exact .inl ⟨h.2, rfl⟩
  · split
    · exact .inr (.inl ⟨_, rfl⟩)
    · exact .inr (.inr ⟨_, rfl⟩)

variable (hn : n < 16)
include hn

theorem State.edgeCounts_counted (s : State) (a b near : Bool) (g : Nat) : EdgeCounted n g s (s.edgeCounts n a b near g) := by
  have hfiltered := s.edgeFiltered_counted n g
  obtain ⟨hstate, h⟩ | ⟨down, h⟩ | ⟨down, h⟩ := s.edgeCounts_cases n a b near g
  · obtain ⟨c, -, hjudged⟩ := State.trackEdge_cases hn s.edgeStamp near ((s.ttState_edgeFiltered n g).trans hstate)
    exact h ▸ (hfiltered.judgedEdge s.edgeStamp c).quiet hjudged.toEdgeQuiet
  · exact h ▸ ((hfiltered.count 1 (by decide)).countEdge s.edgeStamp 2 down).quiet (State.plainEdge_quiet hn _ _ _ _)
  · exact h ▸ (hfiltered.countEdge s.edgeStamp 1 down).quiet (State.plainEdge_quiet hn _ _ _ _)

theorem State.edgeCounts_anew (hstate : s.ttState n ≠ ttAcquire) (a b near : Bool) (g : Nat) :
    (s.edgeCounts n a b near g).acquiresAnew n := by
  have hfiltered : (s.edgeFiltered n g).ttState n ≠ ttAcquire := by rwa [State.ttState_edgeFiltered]
  obtain ⟨htrack, h⟩ | ⟨down, h⟩ | ⟨down, h⟩ := s.edgeCounts_cases n a b near g
  · obtain ⟨c, -, hjudged⟩ := State.trackEdge_cases hn s.edgeStamp near ((s.ttState_edgeFiltered n g).trans htrack)
    exact h ▸ hjudged.anew
  · exact h ▸ State.plainEdge_anew (by rwa [State.ttState_count]) _ _ _ _
  · exact h ▸ State.plainEdge_anew hfiltered _ _ _ _

/-! ### The end of an edge's row, where no index waits -/

theorem State.edgeEnds_kept (h : (s.tt n).idxPend = none) (e : W64) : EdgeKept n s (s.edgeEnds n e) := by
  unfold State.edgeEnds
  split
  · rw [State.applyIndex_none h]
    exact (s.checkIndexLost_quiet n).1.toEdgeKept.trans (State.tryTrack_kept _ hn e)
  · exact (EdgeQuiet.refl n s).toEdgeKept

omit hn in
theorem State.edgeEnds_quiet (h : (s.tt n).idxPend = none) (hanew : s.acquiresAnew n) (hacq : 2 ≤ s.fd (R.ttCfg n) 23 16) (e : W64) :
    EdgeQuiet n s (s.edgeEnds n e) ∧ (s.edgeEnds n e).ttState n = s.ttState n := by
  obtain ⟨hquiet, hstate, htt⟩ := s.checkIndexLost_quiet n
  unfold State.edgeEnds
  split
  · rw [State.applyIndex_none h, State.tryTrack_short]
    · exact ⟨hquiet, hstate⟩
    · intro k
      rw [htt]
      exact hanew (hstate.symm.trans k)
    · rwa [State.fd, hquiet.cfg]
  · exact ⟨.refl n s, rfl⟩

end

/-! ### The row of an edge, where no index waits -/

section
variable {n : Fin 16} {a b : Bool} {g : Nat} (h : s.ttState n ≠ ttOff) (hpend : (s.tt n).idxPend = none)
include h hpend

/-- The row ends as its edge was counted, but for what follows. -/
theorem ttCountedEdge_kept (a b : Bool) (g : Nat) : ∃ near, EdgeKept n (s.edgeCounts n a b near g) (ttCountedEdge n a b g s) := by
  obtain ⟨near, hrow⟩ := ttCountedEdge_runs h a b g
  refine ⟨near, ?_⟩
  rw [hrow]
  exact State.edgeEnds_kept n.isLt ((s.edgeCounts_counted n.isLt a b near g).pend.trans hpend) _

theorem ttCountedEdge_tab : (ttCountedEdge n a b g s).tab = s.tab ∧
    (ttCountedEdge n a b g s).rg (R.ttCnt n 1) = satInc (s.rg (R.ttCnt n 1)) g := by
  obtain ⟨near, hkept⟩ := ttCountedEdge_kept h hpend a b g
  have hcounted := s.edgeCounts_counted n.isLt a b near g
  exact ⟨hkept.tab.trans hcounted.tab, (hkept.counts 1 (by decide)).trans hcounted.glitches⟩

/-- A run that starts is too short for TRACKING, so that no gate follows. -/
theorem ttCountedEdge_quiet (hstate : s.ttState n ≠ ttAcquire) (hacq : 2 ≤ s.fd (R.ttCfg n) 23 16) :
    ∃ near, EdgeQuiet n (s.edgeCounts n a b near g) (ttCountedEdge n a b g s) ∧
      (ttCountedEdge n a b g s).ttState n = (s.edgeCounts n a b near g).ttState n := by
  obtain ⟨near, hrow⟩ := ttCountedEdge_runs h a b g
  have hcounted := s.edgeCounts_counted n.isLt a b near g
  refine ⟨near, ?_⟩
  rw [hrow]
  exact State.edgeEnds_quiet (hcounted.pend.trans hpend) (State.edgeCounts_anew n.isLt hstate a b near g)
    (by rwa [State.fd, hcounted.cfg]) _

theorem ttCountedEdge_sent (hstate : s.ttState n ≠ ttAcquire) (hacq : 2 ≤ s.fd (R.ttCfg n) 23 16) :
    (ttCountedEdge n a b g s).fwd = s.fwd ∧ (ttCountedEdge n a b g s).out = s.out := by
  obtain ⟨near, hquiet, -⟩ := ttCountedEdge_quiet (a := a) (b := b) (g := g) h hpend hstate hacq
  have hcounted := s.edgeCounts_counted n.isLt a b near g
  exact ⟨hquiet.fwd.trans hcounted.fwd, hquiet.out.trans hcounted.out⟩

variable (hfirst : (s.tt n).first = false)
include hfirst

/-- An edge outside the interval test moves the position, counts, and shows its direction. -/
theorem ttCountedEdge_plain {k : Nat} {down : Bool} (hcounts : ∀ near, s.edgeCounts n a b near g =
    (s.edgeFiltered n g).plainEdge n s.edgeStamp k down near) :
    ((ttCountedEdge n a b g s).tt n).p = (if down then (s.tt n).p - k else (s.tt n).p + k) ∧
    (ttCountedEdge n a b g s).rg (R.ttCnt n 0) = satInc (s.rg (R.ttCnt n 0)) 1 ∧
    (ttCountedEdge n a b g s).bt (R.ttStatus n) 2 = down := by
  obtain ⟨near, hkept⟩ := ttCountedEdge_kept h hpend a b g
  rw [hcounts] at hkept
  have hrow := (State.plainEdge_quiet n.isLt s.edgeStamp k down near).toEdgeKept.trans hkept
  exact ⟨hrow.pos.trans (State.pos_countEdge _ _ _ _ _ hfirst),
    (hrow.counts 0 (by decide)).trans ((State.countEdge_edges _ _ _ _ _).trans (by rw [s.rg_edgeFiltered_cnt n g (by decide)])),
    hrow.down.trans (State.down_countEdge _ _ _ _ _)⟩

theorem ttCountedEdge_quad (hmode : s.ttMode n = 0) (hb : b = false) :
    ((ttCountedEdge n a b g s).tt n).p = (s.tt n).p + (if a = s.bt (R.ttCfg n) 4 then -1 else 1) ∧
    (ttCountedEdge n a b g s).rg (R.ttCnt n 0) = satInc (s.rg (R.ttCnt n 0)) 1 ∧
    (ttCountedEdge n a b g s).bt (R.ttStatus n) 2 = (a == s.bt (R.ttCfg n) 4) := by
  obtain ⟨hpos, hedges, hdown⟩ := ttCountedEdge_plain h hpend hfirst fun near => State.edgeCounts_quad (g := g) (a := a) hmode hb
  refine ⟨hpos.trans ?_, hedges, hdown⟩
  by_cases hdir : a = s.bt (R.ttCfg n) 4
  · simp [hdir, sub_eq_add_neg]
  · simp [hdir]

theorem ttCountedEdge_double (hmode : s.ttMode n = 0) (hb : b = true) :
    ((ttCountedEdge n a b g s).tt n).p = (s.tt n).p + (if s.bt (R.ttStatus n) 2 = true then -2 else 2) ∧
    (ttCountedEdge n a b g s).rg (R.ttCnt n 4) = satInc (s.rg (R.ttCnt n 4)) 1 := by
  obtain ⟨near, hkept⟩ := ttCountedEdge_kept h hpend a b g
  rw [State.edgeCounts_double hmode hb] at hkept
  have hrow := (State.plainEdge_quiet n.isLt s.edgeStamp 2 _ near).toEdgeKept.trans hkept
  constructor
  · have htt : ((s.edgeFiltered n g).count (R.ttCnt n 4)).tt n = s.tt n :=
      (State.tt_count _ _ _ _).trans (s.tt_edgeFiltered n g n)
    rw [hrow.pos, State.pos_countEdge _ _ _ _ _ (by rw [htt, hfirst]), htt]
    cases s.bt (R.ttStatus n) 2
    · rfl
    · exact sub_eq_add_neg _ _
  · refine (hrow.counts 4 (by decide)).trans ((State.rg_countEdge_cnt _ _ _ _ _ (by decide)).trans ?_)
    rw [State.rg_count_same, s.rg_edgeFiltered_cnt n g (by decide)]

theorem ttCountedEdge_upward (hmode : s.ttMode n ≠ 0) (hstate : s.ttState n ≠ ttTracking) :
    ((ttCountedEdge n a b g s).tt n).p = (s.tt n).p + 1 ∧
    (ttCountedEdge n a b g s).rg (R.ttCnt n 0) = satInc (s.rg (R.ttCnt n 0)) 1 := by
  obtain ⟨hpos, hedges, -⟩ := ttCountedEdge_plain h hpend hfirst fun near => State.edgeCounts_upward (g := g) (a := a) (b := b) hmode hstate
  exact ⟨hpos, hedges⟩

end

/-! ### Single-edge TRACKING (R201) -/

/-- What a turntable shows after an edge that the interval test judged. -/
def EdgeOutcome (s t : State) (n : Nat) : EdgeCase → Prop
  | .extra => (t.tt n).p = (s.tt n).p ∧ t.rg (R.ttCnt n 2) = satInc (s.rg (R.ttCnt n 2)) 1 ∧ t.rg (R.ttCnt n 0) = s.rg (R.ttCnt n 0)
  | .normal => (t.tt n).p = (s.tt n).p + 1 ∧ t.rg (R.ttCnt n 0) = satInc (s.rg (R.ttCnt n 0)) 1
  | .missing m => (t.tt n).p = (s.tt n).p + (m + 1) ∧ t.rg (R.ttCnt n 3) = satInc (s.rg (R.ttCnt n 3)) m
  | .tooMany m => (t.tt n).p = (s.tt n).p + (m + 1) ∧ t.rg (R.ttCnt n 3) = satInc (s.rg (R.ttCnt n 3)) m ∧ t.ttState n = ttAcquire

theorem EdgeKept.outcome (h : (s.tt n).first = false) {g : Nat} {e : W64} {c : EdgeCase}
    (k : EdgeKept n ((s.edgeFiltered n g).judgedEdge n e c) t) (hlost : ∀ m, c = .tooMany m → t.ttState n = ttAcquire) :
    EdgeOutcome s t n c := by
  have hpos : ∀ k, (((s.edgeFiltered n g).countEdge n e k false).tt n).p = (s.tt n).p + k := fun k =>
    State.pos_countEdge (s.edgeFiltered n g) n e k false h
  have hmoved : ∀ m, (((s.edgeFiltered n g).countEdge n e (m + 1) false).count (R.ttCnt n 3) m |>.tt n).p = (s.tt n).p + (m + 1) :=
    fun m => by rw [State.tt_count, hpos, Nat.cast_succ]
  have hmissing : ∀ m, (((s.edgeFiltered n g).countEdge n e (m + 1) false).count (R.ttCnt n 3) m).rg (R.ttCnt n 3) =
      satInc (s.rg (R.ttCnt n 3)) m := fun m => by
    rw [State.rg_count_same, State.rg_countEdge_cnt _ _ _ _ _ (by decide), s.rg_edgeFiltered_cnt n g (by decide)]
  cases c with
  | extra =>
    refine ⟨k.pos, (k.counts 2 (by decide)).trans ?_, (k.counts 0 (by decide)).trans ?_⟩
    · rw [State.judgedEdge_extra, State.rg_count_same, s.rg_edgeFiltered_cnt n g (by decide)]
    · rw [State.judgedEdge_extra, State.rg_count_other _ _ (by simp only [R.ttCnt]; omega), s.rg_edgeFiltered_cnt n g (by decide)]
  | normal =>
    refine ⟨k.pos.trans ?_, (k.counts 0 (by decide)).trans ?_⟩
    · rw [State.judgedEdge_normal, hpos, Nat.cast_one]
    · rw [State.judgedEdge_normal, State.countEdge_edges, s.rg_edgeFiltered_cnt n g (by decide)]
  | missing m => exact ⟨k.pos.trans (hmoved m), (k.counts 3 (by decide)).trans (hmissing m)⟩
  | tooMany m => exact ⟨k.pos.trans (hmoved m), (k.counts 3 (by decide)).trans (hmissing m), hlost m rfl⟩

/-- The filter's count leaves what the interval test reads. -/
theorem State.caseOf_edgeFiltered {e l : W64} (h : (s.tt n).lastEdge = some l) (g : Nat) : (s.edgeFiltered n g).caseOf n e =
    edgeCase (s.fd (R.ttCfg n) 27 24) (s.fd (R.ttCfg n) 30 28) (s.velocity n) (e.toNat - l.toNat) := by
  have hvel : (s.edgeFiltered n g).velocity n = s.velocity n := by
    rw [State.velocity, State.ttState_edgeFiltered]
    rfl
  rw [State.caseOf, hvel, s.tt_edgeFiltered, h, State.fd, State.fd, State.rg_edgeFiltered_cfg]
  rfl

theorem ttCountedEdge_judged {n : Fin 16} {a b : Bool} {g : Nat} {l : W64} (hpend : (s.tt n).idxPend = none)
    (hfirst : (s.tt n).first = false) (hmode : s.ttMode n = 1) (hstate : s.ttState n = ttTracking)
    (hacq : 2 ≤ s.fd (R.ttCfg n) 23 16) (hlast : (s.tt n).lastEdge = some l) : EdgeOutcome s (ttCountedEdge n a b g s) n
      (edgeCase (s.fd (R.ttCfg n) 27 24) (s.fd (R.ttCfg n) 30 28) (s.velocity n) (s.edgeStamp.toNat - l.toNat)) := by
  obtain ⟨near, hquiet, hsame⟩ := ttCountedEdge_quiet (a := a) (b := b) (g := g) (by rw [hstate]; decide) hpend
    (by rw [hstate]; decide) hacq
  have hfiltered : (s.edgeFiltered n g).ttMode n = 1 := by rwa [State.ttMode, State.fd, State.rg_edgeFiltered_cfg]
  rw [State.edgeCounts_track (by rw [hmode]; decide) hstate] at hquiet hsame
  obtain ⟨c, hc, hjudged⟩ := State.trackEdge_cases n.isLt s.edgeStamp near ((s.ttState_edgeFiltered n g).trans hstate)
  have hcase := (hc hfiltered).trans (State.caseOf_edgeFiltered hlast g)
  exact hcase ▸ (hjudged.toEdgeQuiet.trans hquiet).toEdgeKept.outcome hfirst fun m hm => hsame.trans (hjudged.lost m hm)

end Sys2Proof.Machine
end

section
/-! SUPPORT. The first edge of an enabled turntable (R197, R203, R206), index pulses (R196, R203) and stalls (R198). -/

namespace Sys2Proof.Machine

variable {s t u : State} {n : Nat}

/-! ### An enabled turntable leaves OFF (R206) -/

/-- A turntable on its way out of OFF, before the edge that takes it there counts. -/
def State.leavesOff (s : State) (n : Nat) : State := (s.setTtState n ttAcquire).setTt n (s.tt n).restart

theorem State.ttState_leavesOff (s : State) (n : Nat) : (s.leavesOff n).ttState n = ttAcquire :=
  (State.ttState_setTt _ _ _).trans (State.ttState_setTtState _ n (by decide))

theorem State.tt_leavesOff (s : State) (n : Nat) : (s.leavesOff n).tt n = (s.tt n).restart := State.tt_setTt_same _ _ _

theorem State.rg_leavesOff_other (s : State) {n o : Nat} (h : o ≠ R.ttStatus n) : (s.leavesOff n).rg o = s.rg o :=
  (State.rg_setTt _ _ _ _).trans (State.rg_modRg_other _ _ h)

theorem ttCountedEdge_leaves {n : Fin 16} (hoff : s.ttState n = ttOff) (hen : s.bt (R.ttCfg n) 0 = true) (a b : Bool) (g : Nat) :
    ttCountedEdge n a b g s = ttCountedEdge n a b g (s.leavesOff n) := by
  have hleft : (s.leavesOff n).ttState n ≠ ttOff := by rw [State.ttState_leavesOff]; decide
  conv_rhs => rw [ttCountedEdge, if_neg (fun k => hleft k.1), if_neg hleft]
  rw [ttCountedEdge, if_neg (fun k => k.2 hen), if_pos hoff]
  rfl

/-- The first edge of a run from position 0. -/
theorem State.plainEdge_first (hstate : s.ttState n = ttAcquire) (hfirst : (s.tt n).first = true) (hrun : (s.tt n).acqN = 0) (e : W64)
    (k : Nat) (down near : Bool) : s.plainEdge n e k down near = (s.countEdge n e k down).setTt n { s.tt n with
      p := 0, first := false, lastEdge := some e, extras := 0, acqN := 1, acqP := 0, acqT := e } := by
  have htt : (s.countEdge n e k down).tt n = { s.tt n with p := 0, first := false, lastEdge := some e, extras := 0 } := by
    rw [State.tt_countEdge, hfirst]
    rfl
  unfold State.plainEdge
  rw [hstate]
  dsimp only
  rw [if_neg (by decide), if_neg (by decide), State.acquireEdge_first e (.inl (by rw [htt, hrun])), htt]

/-- What the first index of a turntable leaves, and where it takes the position (R203). -/
structure FirstIndex (n : Nat) (s t : State) : Prop where
  tab : t.tab = s.tab
  fwd : t.fwd = s.fwd
  state : t.ttState n = s.ttState n
  cfg : t.rg (R.ttCfg n) = s.rg (R.ttCfg n)
  run : (t.tt n).acqN = (s.tt n).acqN
  pos : (t.tt n).p = if (s.tt n).idxPend = none then (s.tt n).p
    else (s.tt n).p + idxDiff (s.fd (R.ttIdx n) 19 0) (s.tt n).p (s.cpr n)

theorem State.applyIndex_first (h : (s.tt n).idxEver = false) : FirstIndex n s (s.applyIndex n) := by
  have hstamp : ∀ v, (s.setRg (R.ttIdxStamp n) v).ttState n = s.ttState n := fun v =>
    congrArg (fld · 1 0) (State.rg_setRg_other _ _ (by simp only [R.ttStatus, R.ttIdxStamp]; omega))
  have hcfg : ∀ v, (s.setRg (R.ttIdxStamp n) v).rg (R.ttCfg n) = s.rg (R.ttCfg n) := fun v =>
    State.rg_setRg_other _ _ (by simp only [R.ttCfg, R.ttIdxStamp]; omega)
  unfold State.applyIndex
  dsimp only
  cases hpend : (s.tt n).idxPend with
  | none => exact ⟨rfl, rfl, rfl, rfl, rfl, by rw [if_pos hpend]⟩
  | some e =>
    dsimp only
    rw [if_pos (.inl (by simp [h]))]
    refine ⟨rfl, rfl, ?_, ?_, by rw [State.tt_setTt_same], by rw [State.tt_setTt_same, hpend, if_neg nofun]⟩
    · rw [State.ttState_setTt, State.ttState_setBt _ _ _ (by decide), hstamp]
    · rw [State.rg_setTt, State.rg_setBt_other _ _ _ (by simp only [R.ttStatus, R.ttCfg]; omega), hcfg]

theorem State.edgeCounts_single {a near : Bool} {g : Nat} (hstate : s.ttState n ≠ ttTracking) :
    ∃ down, s.edgeCounts n a false near g = (s.edgeFiltered n g).plainEdge n s.edgeStamp 1 down near :=
  ⟨_, (if_neg (fun k => hstate k.2)).trans (if_neg (by simp))⟩

/-- What the first counted edge makes of a turntable that has left OFF. -/
structure FirstEdge (s t : State) (n : Nat) (e : W64) : Prop where
  tab : t.tab = s.tab
  fwd : t.fwd = s.fwd
  state : t.ttState n = ttAcquire
  rg : ∀ o, o ≠ R.ttCnt n 0 → o ≠ R.ttCnt n 1 → o ≠ R.ttEdge n → o ≠ R.ttStatus n → t.rg o = s.rg o
  record : t.tt n = { (s.tt n).restart with p := 0, first := false, lastEdge := some e, extras := 0, acqN := 1, acqP := 0, acqT := e }

theorem State.edgeCounts_first (s : State) (n : Nat) (a near : Bool) (g : Nat) :
    FirstEdge s ((s.leavesOff n).edgeCounts n a false near g) n (s.leavesOff n).edgeStamp := by
  have hstate := s.ttState_leavesOff n
  have htt : ((s.leavesOff n).edgeFiltered n g).tt n = (s.tt n).restart := s.tt_leavesOff n
  obtain ⟨down, hcounts⟩ := State.edgeCounts_single (s := s.leavesOff n) (n := n) (a := a) (near := near) (g := g) (by rw [hstate]; decide)
  rw [hcounts, State.plainEdge_first ((State.ttState_edgeFiltered _ n g).trans hstate) (by rw [htt]; rfl) (by rw [htt]; rfl)]
  refine ⟨?_, ?_, ?_, fun o h0 h1 he hs => ?_, by rw [State.tt_setTt_same, htt]⟩
  · rw [State.setTt_tab, State.countEdge_tab]
    rfl
  · rw [State.setTt_fwd, State.countEdge_fwd]
    rfl
  · rw [State.ttState_setTt, State.ttState_countEdge, State.ttState_edgeFiltered, hstate]
  · rw [State.rg_setTt, State.rg_countEdge_other _ _ _ _ _ h0 he hs, State.rg_edgeFiltered_other _ _ h1, s.rg_leavesOff_other hs]

theorem ttCountedEdge_first {n : Fin 16} (hoff : s.ttState n = ttOff) (hen : s.bt (R.ttCfg n) 0 = true)
    (hacq : 2 ≤ s.fd (R.ttCfg n) 23 16) (a : Bool) (g : Nat) : (ttCountedEdge n a false g s).ttState n = ttAcquire ∧
      (ttCountedEdge n a false g s).tab = s.tab ∧ (ttCountedEdge n a false g s).fwd = s.fwd ∧
      ((ttCountedEdge n a false g s).tt n).p =
        (if (s.tt n).idxPend = none then 0 else idxDiff (s.fd (R.ttIdx n) 19 0) 0 (s.cpr n)) := by
  rw [ttCountedEdge_leaves hoff hen]
  obtain ⟨near, hrow⟩ := ttCountedEdge_runs (s := s.leavesOff n) (n := n) (by rw [State.ttState_leavesOff]; decide) a false g
  rw [hrow]
  obtain ⟨htab, hfwd, hstate, hrg, hrecord⟩ := s.edgeCounts_first n a near g
  generalize (s.leavesOff n).edgeCounts n a false near g = u at *
  have hindex := State.applyIndex_first (s := u) (n := n) (by rw [hrecord]; rfl)
  obtain ⟨hquiet, hkept, htt⟩ := (u.applyIndex n).checkIndexLost_quiet n
  have hkeep : ∀ o, o = R.ttCfg n ∨ o = R.ttIdx n ∨ o = R.ttCpr n → u.rg o = s.rg o := by
    rintro o (rfl | rfl | rfl) <;> refine hrg _ ?_ ?_ ?_ ?_ <;>
      simp only [R.ttCfg, R.ttIdx, R.ttCpr, R.ttCnt, R.ttEdge, R.ttStatus] <;> omega
  unfold State.edgeEnds
  rw [if_pos (by rw [hrecord]), State.tryTrack_short]
  · refine ⟨hkept.trans (hindex.state.trans hstate), hquiet.tab.trans (hindex.tab.trans htab),
      hquiet.fwd.trans (hindex.fwd.trans hfwd), ?_⟩
    rw [htt, hindex.pos, hrecord, State.cpr, State.fd, State.fd, hkeep _ (.inr (.inl rfl)), hkeep _ (.inr (.inr rfl))]
    simp only [Turntable.restart, zero_add]
    rfl
  · intro _
    rw [htt, hindex.run, hrecord]
  · rwa [State.fd, hquiet.cfg, hindex.cfg, hkeep _ (.inl rfl)]

/-! ### Index pulses (R196, R203) -/

theorem ttIndexEdge_runs {n : Fin 16} (h : s.ttState n ≠ ttOff ∨ s.bt (R.ttCfg n) 0 = true) (g : Nat) : ttIndexEdge n g s =
    if s.idxOn n = true then (s.edgeFiltered n g).setTt n { s.tt n with idxPend := some s.edgeStamp } else s.count (R.ttCnt n 1) g := by
  have hon : (s.count (R.ttCnt n 1) g).idxOn n = s.idxOn n := by
    have hcfg : (s.count (R.ttCnt n 1) g).rg (R.ttCfg n) = s.rg (R.ttCfg n) := s.rg_edgeFiltered_cfg n g
    rw [State.idxOn, State.bt, State.ttMode, State.fd, hcfg]
    rfl
  obtain ⟨tn, hstamp, htn⟩ := stampWithin_edge3 s n g
  unfold ttIndexEdge
  rw [if_neg (by simpa [or_iff_not_imp_left] using h)]
  dsimp only
  rw [hon, hstamp]
  dsimp only
  rw [htn]
  rfl

/-! ### Stalls (R198) -/

/-- What a stall makes of a turntable, and leaves. -/
structure Stalled (n : Nat) (s t : State) : Prop where
  tab : t.tab = s.tab
  fwd : t.fwd = s.fwd
  pos : (t.tt n).p = (s.tt n).p
  state : t.ttState n = ttStalled
  vel : t.rg (R.ttVel n) = velWord (s.cpr n) 0
  shown : t.bt (R.ttStatus n) 5 = true
  stalls : t.rg (R.ttCnt n 9) = satInc (s.rg (R.ttCnt n 9)) 1
  lost : t.rg (R.ttCnt n 10) = if s.ttState n = ttTracking then satInc (s.rg (R.ttCnt n 10)) 1 else s.rg (R.ttCnt n 10)

theorem State.rg_markPours (s : State) (n : Nat) (m : Option Int) (o : Nat) : (s.markPours n m).rg o = s.rg o := rfl

section
variable (s) (hn : n < 16)

theorem State.rg_leaveTracking_other {o : Nat} (ho : o < 0x40_0000) (hs : o ≠ R.ttStatus n) (h10 : o ≠ R.ttCnt n 10) :
    (s.leaveTracking n).rg o = s.rg o := by
  unfold State.leaveTracking
  split
  · dsimp only
    rw [(State.gatesLost_alone _ n).1.rg _ ho, State.rg_markPours, State.rg_count_other _ _ h10, State.rg_setBt_other _ _ _ hs,
      State.rg_setTt]
  · rfl

include hn

theorem State.leaveTracking_lost : (s.leaveTracking n).rg (R.ttCnt n 10) =
    if s.ttState n = ttTracking then satInc (s.rg (R.ttCnt n 10)) 1 else s.rg (R.ttCnt n 10) := by
  unfold State.leaveTracking
  split
  · dsimp only
    rw [(State.gatesLost_alone _ n).1.rg _ (by simp only [R.ttCnt]; omega), State.rg_markPours, State.rg_count_same,
      State.rg_setBt_other _ _ _ (by simp only [R.ttCnt, R.ttStatus]; omega), State.rg_setTt]
  · rfl

/-- A turntable leaves TRACKING before it stalls, so that its counter of lost tracks stands when the stall is counted. -/
theorem State.enterStalled_stalled : Stalled n s (s.enterStalled n) := by
  have hquiet := s.leaveTracking_quiet hn
  have hlost := s.leaveTracking_lost hn
  have hcpr : (s.leaveTracking n).rg (R.ttCpr n) = s.rg (R.ttCpr n) := s.rg_leaveTracking_other
    (by simp only [R.ttCpr]; omega) (by simp only [R.ttCpr, R.ttStatus]; omega) (by simp only [R.ttCpr, R.ttCnt]; omega)
  have hstalls : (s.leaveTracking n).rg (R.ttCnt n 9) = s.rg (R.ttCnt n 9) := s.rg_leaveTracking_other
    (by simp only [R.ttCnt]; omega) (by simp only [R.ttCnt, R.ttStatus]; omega) (by simp only [R.ttCnt]; omega)
  unfold State.enterStalled
  dsimp only
  generalize s.leaveTracking n = l at *
  have hvel : ∀ (a : State) o, o ≠ R.ttVel n → (a.setVel n 0).rg o = a.rg o := fun a o h => State.rg_setRg_other _ _ h
  have hset : ∀ o, o ≠ R.ttStatus n → (l.setTtState n ttStalled).rg o = l.rg o := fun o h => State.rg_modRg_other _ _ h
  have hkept : EdgeQuiet n s (((l.setTtState n ttStalled).setVel n 0 |>.setBt (R.ttStatus n) 5 true).count (R.ttCnt n 9)) :=
    (hquiet.trans (.setState l n _)).trans (((EdgeQuiet.setVel _ n 0).trans (.setBt _ n _ (by decide))).trans (.count _ n 1 (by decide)))
  refine ⟨?_, ?_, ?_, ?_, ?_, ?_, ?_, ?_⟩
  · rw [State.setTt_tab, hkept.tab]
  · rw [State.setTt_fwd, hkept.fwd]
  · rw [State.tt_setTt_same]
    exact hkept.pos
  · rw [State.ttState_setTt, State.ttState_count, State.ttState_setBt _ _ _ (by decide), State.ttState_setVel,
      State.ttState_setTtState _ _ (by decide)]
  · rw [State.rg_setTt, State.rg_count_other _ _ (by simp only [R.ttVel, R.ttCnt]; omega),
      State.rg_setBt_other _ _ _ (by simp only [R.ttVel, R.ttStatus]; omega), State.setVel, State.rg_setRg_same, State.cpr, State.fd,
      hset _ (by simp only [R.ttCpr, R.ttStatus]; omega), hcpr]
    rfl
  · rw [State.bt, State.rg_setTt, State.rg_count_other _ _ (by simp only [R.ttStatus, R.ttCnt]; omega)]
    exact State.bt_setBt_same _ _ true (by decide)
  · rw [State.rg_setTt, State.rg_count_same, State.rg_setBt_other _ _ _ (by simp only [R.ttCnt, R.ttStatus]; omega),
      hvel _ _ (by simp only [R.ttCnt, R.ttVel]; omega), hset _ (by simp only [R.ttCnt, R.ttStatus]; omega), hstalls]
  · rw [State.rg_setTt, State.rg_count_other _ _ (by simp only [R.ttCnt]; omega),
      State.rg_setBt_other _ _ _ (by simp only [R.ttCnt, R.ttStatus]; omega),
      hvel _ _ (by simp only [R.ttCnt, R.ttVel]; omega), hset _ (by simp only [R.ttCnt, R.ttStatus]; omega), hlost]

end

end Sys2Proof.Machine
end

section
/-! SUPPORT. Trigger outputs on a turntable and on presented time (R209 to R212). -/

namespace Sys2Proof.Machine

variable {s t u : State} {m : Fin 32}

/-! ### A pulse (R209, R210) -/

theorem State.rg_setTrg (s : State) (m : Nat) (v : Trigger) (o : Nat) : (s.setTrg m v).rg o = s.rg o := rfl

/-- What a pulse that starts makes of a trigger. -/
structure Fired (m : Nat) (s t : State) : Prop where
  active : t.bt (R.trgStat m) 0 = true
  counts : t.rg (R.trgCount m) = satInc (s.rg (R.trgCount m)) 1
  out : t.out = s.out ++ [.trigger m (!s.bt (R.trgCfg m) 8)]
  record : t.trg m = { s.trg m with width := s.fd (R.trgWidth m) 23 0 }
  tab : t.tab = s.tab

theorem State.rg_driveTrg_other (s : State) {m o : Nat} (b : Bool) (h : o ≠ R.trgStat m) : (s.driveTrg m b).rg o = s.rg o :=
  s.rg_setBt_other 0 b h

theorem State.bt_driveTrg (s : State) (m : Nat) (b : Bool) : (s.driveTrg m b).bt (R.trgStat m) 0 = b :=
  State.bt_setBt_same (s := s) (R.trgStat m) b (by decide)

theorem State.out_driveTrg (s : State) (m : Nat) (b : Bool) : (s.driveTrg m b).out = s.out ++ [.trigger m (b != s.bt (R.trgCfg m) 8)] := by
  simp [State.driveTrg, State.emit, State.trgLevel]

theorem State.tab_driveTrg (s : State) (m : Nat) (b : Bool) : (s.driveTrg m b).tab = s.tab := by simp [State.driveTrg]

theorem State.firePulse_fires (s : State) (m : Nat) : Fired m s (s.firePulse m) where
  active := by
    rw [State.firePulse, State.bt, State.rg_setTrg, State.rg_count_other _ _ (by simp only [R.trgStat, R.trgCount]; omega)]
    exact s.bt_driveTrg m true
  counts := by
    rw [State.firePulse, State.rg_setTrg, State.rg_count_same, s.rg_driveTrg_other true (by simp only [R.trgStat, R.trgCount]; omega)]
  out := by rw [State.firePulse, State.setTrg_out, State.count_out, State.out_driveTrg, Bool.true_bne]
  record := State.trg_setTrg_same _ m _
  tab := by rw [State.firePulse, State.setTrg_tab, State.count_tab, State.tab_driveTrg]

theorem State.issuePulse_overlaps {m : Nat} (h : s.bt (R.trgStat m) 0 = true) : s.issuePulse m = s.setBt (R.trgStat m) 2 true := if_pos h

theorem State.issuePulse_fires {m : Nat} (h : s.bt (R.trgStat m) 0 = false) : s.issuePulse m = s.firePulse m :=
  if_neg (Bool.eq_false_iff.1 h)

/-! ### Crossings of a turntable (R207, R209, R210) -/

/-- The revolution count of the crossing that an active edge now is. -/
def State.trgRev (s : State) (m : Nat) : Int :=
  nearestRev (s.turns (s.fd (R.trgCfg m) 5 2) (s.phi (s.fd (R.trgCfg m) 5 2) (s.pNs + s.fd (R.trgCfg m) 29 20))) (s.fd (R.trgTgt m) 23 0)

/-- Whether the trigger's turntable moves down. -/
def State.trgDown (s : State) (m : Nat) : Bool := decide (s.velocity (s.fd (R.trgCfg m) 5 2) < 0)

/-- Whether a trigger on a turntable heeds the crossing that is now. -/
def State.trgReady (s : State) (m : Nat) : Prop :=
  s.bt (R.trgCfg m) 0 = true ∧ s.bt (R.trgCfg m) 1 = false ∧ s.ttState (s.fd (R.trgCfg m) 5 2) = ttTracking ∧
    (s.fd (R.trgCfg m) 7 6 = 2 ∨ s.fd (R.trgCfg m) 7 6 = (if s.trgDown m = true then 1 else 0)) ∧
    (s.trgRev m, s.trgDown m) ∉ (s.trg m).seen

/-- Whether the trigger selects the revolution. -/
def State.trgChosen (s : State) (m : Nat) : Prop :=
  (s.trgRev m % 2 ^ s.fd (R.trgCfg m) 11 9).toNat = s.fd (R.trgCfg m) 18 12 % 2 ^ s.fd (R.trgCfg m) 11 9

/-- The crossing is seen. -/
def State.trgSeen (s : State) (m : Nat) : State :=
  ({ s with free := s.free + 1 } : State).setTrg m { s.trg m with seen := (s.trgRev m, s.trgDown m) :: (s.trg m).seen }

theorem State.trgReady_iff (s : State) (m : Nat) : s.trgReady m ↔
    (s.bt (R.trgCfg m) 0 = true ∧ ¬ s.bt (R.trgCfg m) 1 = true ∧ s.ttState (s.fd (R.trgCfg m) 5 2) = ttTracking ∧
      (s.fd (R.trgCfg m) 7 6 = 2 ∨ s.fd (R.trgCfg m) 7 6 = (if s.trgDown m = true then 1 else 0)) ∧
      ¬ (s.trg m).seen.contains (s.trgRev m, s.trgDown m) = true) := by
  simp only [State.trgReady, Bool.not_eq_true, List.contains_eq_mem, decide_eq_false_iff_not]

theorem triggerActiveEdge_unready (h : ¬ s.trgReady m) : triggerActiveEdge m s = s := if_neg (fun k => h ((s.trgReady_iff m).2 k))

/-- On a revolution that it does not select a trigger only remembers the crossing. -/
theorem triggerActiveEdge_passes (h : s.trgReady m) (hrev : ¬ s.trgChosen m) : triggerActiveEdge m s = s.trgSeen m :=
  (if_pos ((s.trgReady_iff m).1 h)).trans (if_pos hrev)

/-- A late edge is shown and counted. -/
def State.lateShown (s : State) (m : Nat) (late : Bool) : State :=
  if late = true then (s.setBt (R.trgStat m) 1 true).count R.trgLate else s

/-- What the showing of a late edge leaves to the pulse. -/
structure PulseAhead (m : Nat) (s t : State) : Prop where
  rg : ∀ o, o ≠ R.trgStat m → o ≠ R.trgLate → t.rg o = s.rg o
  active : t.bt (R.trgStat m) 0 = s.bt (R.trgStat m) 0
  out : t.out = s.out
  record : t.trg m = s.trg m
  tab : t.tab = s.tab

theorem State.lateShown_ahead (s : State) (m : Fin 32) (late : Bool) : PulseAhead m s (s.lateShown m late) := by
  unfold State.lateShown
  split
  · refine ⟨fun o hs hl => ?_, ?_, rfl, rfl, rfl⟩
    · rw [State.rg_count_other _ _ hl, State.rg_setBt_other _ _ _ hs]
    · rw [State.bt, State.rg_count_other _ _ (by simp only [R.trgStat, R.trgLate]; omega)]
      exact (s.bt_modRg_same _ _ 0).trans (bit_setBit_other _ true (by decide))
  · exact ⟨fun _ _ _ => rfl, rfl, rfl, rfl, rfl⟩

/-- A pulse that starts once a late edge is shown. -/
theorem PulseAhead.fired {m : Fin 32} (h : PulseAhead m s t) (k : Fired m t u) : Fired m s u where
  active := k.active
  counts := by
    rw [k.counts, h.rg _ (by simp only [R.trgStat, R.trgCount]; omega) (by simp only [R.trgLate, R.trgCount]; omega)]
  out := by
    rw [k.out, h.out, State.bt, h.rg _ (by simp only [R.trgStat, R.trgCfg]; omega) (by simp only [R.trgLate, R.trgCfg]; omega)]
    rfl
  record := by
    rw [k.record, h.record, State.fd, h.rg _ (by simp only [R.trgStat, R.trgWidth]; omega) (by simp only [R.trgLate, R.trgWidth]; omega)]
    rfl
  tab := k.tab.trans h.tab

/-- On one that it selects it issues the pulse; an edge of an idle pin may be late. -/
theorem triggerActiveEdge_issues (h : s.trgReady m) (hrev : s.trgChosen m) : ∃ late, triggerActiveEdge m s =
    ((s.trgSeen m).lateShown m (late && !s.bt (R.trgStat m) 0)).issuePulse m :=
  ⟨_, (if_pos ((s.trgReady_iff m).1 h)).trans (if_neg (not_not.2 hrev))⟩

theorem triggerActiveEdge_overlaps (h : s.trgReady m) (hrev : s.trgChosen m) (hactive : s.bt (R.trgStat m) 0 = true) :
    triggerActiveEdge m s = (s.trgSeen m).setBt (R.trgStat m) 2 true := by
  obtain ⟨late, hrun⟩ := triggerActiveEdge_issues h hrev
  rw [hrun, hactive, Bool.not_true, Bool.and_false]
  exact State.issuePulse_overlaps hactive

theorem triggerActiveEdge_fires (h : s.trgReady m) (hrev : s.trgChosen m) (hidle : s.bt (R.trgStat m) 0 = false) :
    Fired m (s.trgSeen m) (triggerActiveEdge m s) := by
  obtain ⟨late, hrun⟩ := triggerActiveEdge_issues h hrev
  have hahead := (s.trgSeen m).lateShown_ahead m (late && !s.bt (R.trgStat m) 0)
  rw [hrun, State.issuePulse_fires (hahead.active.trans hidle)]
  exact hahead.fired (State.firePulse_fires _ m)

theorem State.trg_trgSeen (s : State) (m : Nat) :
    (s.trgSeen m).trg m = { s.trg m with seen := (s.trgRev m, s.trgDown m) :: (s.trg m).seen } := State.trg_setTrg_same _ m _

theorem exec_triggerActiveEdge (hw : s.works) (h : s.trgReady m) : ∃ t : State, exec (.triggerActiveEdge m) s = .next t ∧
    (t.trg m).seen = (s.trgRev m, s.trgDown m) :: (s.trg m).seen ∧ t.tab = s.tab ∧
    (¬ s.trgChosen m → t.reg = s.reg ∧ t.out = s.out ∧ t.pins = s.pins) ∧
    (s.trgChosen m → s.bt (R.trgStat m) 0 = true → t.reg = (s.setBt (R.trgStat m) 2 true).reg ∧ t.out = s.out ∧ t.pins = s.pins) ∧
    (s.trgChosen m → s.bt (R.trgStat m) 0 = false → t.bt (R.trgStat m) 0 = true ∧ t.rg (R.trgCount m) = satInc (s.rg (R.trgCount m)) 1 ∧
      t.out = s.out ++ [.trigger m (!s.bt (R.trgCfg m) 8)] ∧ (t.trg m).width = s.fd (R.trgWidth m) 23 0) := by
  refine ⟨triggerActiveEdge m s, next_clocked hw _, ?_⟩
  have hseen := s.trg_trgSeen m
  by_cases hrev : s.trgChosen m
  · cases hactive : s.bt (R.trgStat m) 0 with
    | true =>
      rw [triggerActiveEdge_overlaps h hrev hactive]
      exact ⟨congrArg Trigger.seen hseen, rfl, fun k => absurd hrev k, fun _ _ => ⟨rfl, rfl, rfl⟩, fun _ => nofun⟩
    | false =>
      obtain ⟨hon, hcounts, hout, hrecord, htab⟩ := triggerActiveEdge_fires h hrev hactive
      refine ⟨?_, htab, fun k => absurd hrev k, fun _ => nofun, fun _ _ => ⟨hon, hcounts, hout, ?_⟩⟩
      · rw [hrecord, hseen]
      · rw [hrecord]
        rfl
  · rw [triggerActiveEdge_passes h hrev]
    exact ⟨congrArg Trigger.seen hseen, rfl, fun _ => ⟨rfl, rfl, rfl⟩, fun k => absurd k hrev, fun k => absurd k hrev⟩

/-! ### Instants of presented time (R209, R211) -/

/-- Whether the present instant is that of `k`, within 3 ns. -/
def State.trgAt (s : State) (m k : Nat) : Prop :=
  s.trgBase m + k * (s.rg (R.trgPeriod m)).toNat ≤ s.pNs + s.fd (R.trgCfg m) 29 20 + 3 ∧
    s.pNs + s.fd (R.trgCfg m) 29 20 ≤ s.trgBase m + k * (s.rg (R.trgPeriod m)).toNat + 3

section
variable {m : Nat} (hperiod : 1000 ≤ (s.rg (R.trgPeriod m)).toNat)
include hperiod

/-- The instant that is now is the last that has come. -/
theorem State.trgAt_iff (k : Nat) : s.trgAt m k ↔ s.atInstant m = true ∧ s.trgIndex m = k := by
  have hnow : s.trgNow m = s.pNs + s.fd (R.trgCfg m) 29 20 + 3 := rfl
  rw [State.trgAt, State.atInstant, State.trgIndex, max_eq_right (by omega), Bool.and_eq_true, decide_eq_true_eq, decide_eq_true_eq]
  generalize (s.rg (R.trgPeriod m)).toNat = p at *
  have hsplit := Nat.div_add_mod' (s.trgNow m - s.trgBase m) p
  constructor
  · rintro ⟨hcome, hnear⟩
    have hdiv : (s.trgNow m - s.trgBase m) / p = k := by
      refine Nat.div_eq_of_lt_le (by omega) ?_
      rw [Nat.succ_mul]
      omega
    rw [hdiv] at hsplit
    exact ⟨⟨by omega, by omega⟩, hdiv⟩
  · rintro ⟨⟨hcome, hnear⟩, rfl⟩
    constructor <;> omega

end

/-- A trigger on time that is armed. -/
def State.trgTimed (s : State) (m : Nat) : Prop := s.bt (R.trgCfg m) 0 = true ∧ s.bt (R.trgCfg m) 1 = true

theorem timeTrigger_unarmed (h : ¬ s.trgTimed m) : timeTrigger m s = s := if_neg fun k => h ⟨k.1, k.2.1⟩

theorem timeTrigger_between (hperiod : 1000 ≤ (s.rg (R.trgPeriod m)).toNat) (h : ∀ k, ¬ s.trgAt m k) : timeTrigger m s = s :=
  if_neg fun k => h _ ((State.trgAt_iff hperiod _).2 ⟨k.2.2.1, rfl⟩)

section
variable {k : Nat} (hperiod : 1000 ≤ (s.rg (R.trgPeriod m)).toNat) (hat : s.trgAt m k)
include hperiod hat

theorem timeTrigger_seen (h : ((k : Int), false) ∈ (s.trg m).seen) : timeTrigger m s = s := by
  obtain ⟨-, rfl⟩ := (State.trgAt_iff hperiod k).1 hat
  exact if_neg fun c => c.2.2.2 (by simpa using h)

theorem timeTrigger_issues (harmed : s.trgTimed m) (h : ((k : Int), false) ∉ (s.trg m).seen) :
    timeTrigger m s = (s.setTrg m { s.trg m with seen := [((k : Int), false)] }).issuePulse m := by
  obtain ⟨hnow, rfl⟩ := (State.trgAt_iff hperiod k).1 hat
  exact if_pos ⟨harmed.1, harmed.2, hnow, by simpa using h⟩

theorem timeTrigger_fires (harmed : s.trgTimed m) (h : ((k : Int), false) ∉ (s.trg m).seen) (hidle : s.bt (R.trgStat m) 0 = false) :
    Fired m (s.setTrg m { s.trg m with seen := [((k : Int), false)] }) (timeTrigger m s) := by
  rw [timeTrigger_issues hperiod hat harmed h, State.issuePulse_fires (s := s.setTrg m _) hidle]
  exact State.firePulse_fires _ m

end

/-! ### The end of a pulse (R209, R212) -/

theorem triggerInactiveEdge_idle (h : s.bt (R.trgStat m) 0 = false) : triggerInactiveEdge m s = s := if_neg (Bool.eq_false_iff.1 h)

theorem triggerInactiveEdge_ends (h : s.bt (R.trgStat m) 0 = true) : triggerInactiveEdge m s = s.driveTrg m false := if_pos h

end Sys2Proof.Machine
end

section
/-! SUPPORT. Timetables (R147, R149, R150, R152): what the start of an entry shows, and the preemption by a hold that takes effect. -/

namespace Sys2Proof.Machine

variable {s t u : State}

/-! ### GTE_STATUS with an entry (R149) -/

section
variable (w : W32) (k g : Nat) (hold : Bool)

theorem fld_entryStatus_entry : fld (entryStatus w k g hold) 9 0 = k % 1024 := by
  rw [entryStatus, fld_setFld_other _ _ (by decide) (.inl (by decide)), fld_setBit_other _ _ (by decide), fld_setBit_other _ _ (by decide),
    fld_setFld_same _ _ (by decide) (by decide)]
  rfl

theorem fld_entryStatus_gates : fld (entryStatus w k g hold) 23 16 = g % 256 := by
  rw [entryStatus, fld_setFld_same _ _ (by decide) (by decide)]
  rfl

theorem bit_entryStatus_hold : bit (entryStatus w k g hold) 14 = hold := by
  rw [entryStatus, bit_setFld_other _ _ (by decide) (by decide), bit_setBit_same _ _ (by decide)]

theorem bit_entryStatus_fallback : bit (entryStatus w k g hold) 11 = false := by
  rw [entryStatus, bit_setFld_other _ _ (by decide) (by decide), bit_setBit_other _ _ (by decide), bit_setBit_same _ _ (by decide)]

theorem bit_entryStatus_mm : bit (entryStatus w k g hold) 13 = bit w 13 := by
  rw [entryStatus, bit_setFld_other _ _ (by decide) (by decide), bit_setBit_other _ _ (by decide), bit_setBit_other _ _ (by decide),
    bit_setFld_other _ _ (by decide) (by decide)]

end

theorem entGates_lt (e : BitVec 64) : entGates e % 256 = entGates e := by simp [entGates, fld]

theorem holdAfter_eq (op : Nat) (was : Bool) : holdAfter op was = if op = 1 then true else if op = 2 then false else was := by
  unfold holdAfter
  split <;> simp_all

/-! ### A hold preempts (R141, R149) -/

theorem State.heed_idle {n : Nat} (h : (s.egOf n).tx = none) : s.heed n = s := by
  unfold State.heed State.preemptTx
  rw [h]
  exact ite_self s

/-- A hold in force preempts what can be preempted. -/
theorem State.heed_preempts {n : Nat} {y : Tx} (hhold : s.holdNow n = true) (htx : (s.egOf n).tx = some y)
    (hpre : s.preemptable n y = true) (hlegal : s.legalPoint n y ≠ none) :
    ((s.heed n).egOf n).tx = none ∧ ((s.heed n).egOf n).preempted ≠ none := by
  obtain ⟨b, hb⟩ := Option.ne_none_iff_exists'.1 hlegal
  have hrun : s.heed n = s.preempt n y b := by
    unfold State.heed State.preemptTx
    rw [if_pos hhold, htx]
    dsimp only
    rw [if_pos hpre, hb]
  have heg : (s.preempt n y b).egOf n =
      { s.egOf n with tx := none, preempted := some { y with sent := b, frags := y.frags + 1 }, free := s.lineFree n } :=
    State.egOf_setEg_same (s := s) n _
  rw [hrun, heg]
  exact ⟨rfl, nofun⟩

/-- The gates' register does not bear on the line. -/
theorem State.legalPoint_gates (s : State) {n : Nat} (hn : n < 16) (f : W32 → W32) (y : Tx) :
    (s.modRg (R.gteStatus n) f).legalPoint n y = s.legalPoint n y := by
  have hother : ∀ o, R.gteStatus n ≠ o → (s.modRg (R.gteStatus n) f).rg o = s.rg o := fun o h => State.rg_modRg_other _ _ h.symm
  have hnow : (s.modRg (R.gteStatus n) f).pPs = s.pPs := by
    have hsel : (s.modRg (R.gteStatus n) f).tsel = s.tsel :=
      congrArg (fld · 0 0) (hother _ (by simp only [R.gteStatus, R.tsuStatus]; omega))
    rw [State.pPs, State.pFine, hsel]
    rfl
  have hrate : (s.modRg (R.gteStatus n) f).rate n = s.rate n := by
    have hold : (s.modRg (R.gteStatus n) f).oldRate n = s.oldRate n := by
      rw [State.oldRate, State.fd, hother _ (by simp only [R.gteStatus, R.ethStatus]; omega)]
      rfl
    rw [State.rate, State.ethModeNo, hold, State.fd, hother _ (by simp only [R.gteStatus, R.ethMode]; omega)]
    rfl
  rw [State.legalPoint, State.sentNow, hnow, hrate]
  rfl

/-- What the start of an entry shows and does. -/
structure EntryStarted (n : Nat) (k : Nat) (e : BitVec 64) (was : Bool) (s t : State) : Prop where
  entry : t.fd (R.gteStatus n) 9 0 = k % 1024
  gates : t.gates n = entGates e
  hold : t.bt (R.gteStatus n) 14 = holdAfter (entOp e) was
  fallback : t.bt (R.gteStatus n) 11 = false
  tab : t.tab = s.tab
  idle : (s.egOf n).tx = none → t.fwd = s.fwd ∧ t.out = s.out
  preempts : entOp e = 1 → s.bt (R.gteStatus n) 13 = true → ∀ y, (s.egOf n).tx = some y → s.preemptable n y = true →
    s.legalPoint n y ≠ none → (t.egOf n).tx = none ∧ (t.egOf n).preempted ≠ none

theorem State.startEntry_started (s : State) {n : Nat} (hn : n < 16) (k : Nat) :
    EntryStarted n k ((s.gateOf n).entries.getD k 0) (s.bt (R.gteStatus n) 14) s (s.startEntry n k) := by
  generalize he : (s.gateOf n).entries.getD k 0 = e
  set a := s.modRg (R.gteStatus n) (fun w => entryStatus w k (entGates e) (holdAfter (entOp e) (bit w 14))) with ha
  have hrun : s.startEntry n k = a.heed n := by rw [State.startEntry, he]
  have hword : a.rg (R.gteStatus n) = entryStatus (s.rg (R.gteStatus n)) k (entGates e) (holdAfter (entOp e) (s.bt (R.gteStatus n) 14)) :=
    State.rg_modRg_same _ _ _
  have hshown : (a.heed n).rg (R.gteStatus n) = a.rg (R.gteStatus n) := a.rg_heed n _
  rw [hrun]
  refine ⟨?_, ?_, ?_, ?_, (a.heed_alone n).tab, fun hidle => ?_, fun hop hmm y htx hpre hlegal => ?_⟩
  · rw [State.fd, hshown, hword, fld_entryStatus_entry]
  · rw [State.gates, State.fd, hshown, hword, fld_entryStatus_gates, entGates_lt]
  · rw [State.bt, hshown, hword, bit_entryStatus_hold]
  · rw [State.bt, hshown, hword, bit_entryStatus_fallback]
  · rw [State.heed_idle (s := a) hidle]
    exact ⟨rfl, rfl⟩
  · have hmmNow : a.mmActive n = s.mmActive n := by rw [State.mmActive, State.bt, hword, bit_entryStatus_mm]; rfl
    refine State.heed_preempts (s := a) ?_ htx (by rwa [State.preemptable, hmmNow]) (by rwa [ha, State.legalPoint_gates s hn])
    rw [State.holdNow, State.bt, hword, bit_entryStatus_hold, hop]
    exact hmmNow.trans hmm

/-! ### The rows of a timetable (R147, R150, R152) -/

section
variable {n : EPort}

theorem timetableEntryStart_starts (hen : s.bt (R.gteStatus n) 10 = true) (hsrc : ttbSrc (s.gateOf n) ≠ 3) :
    timetableEntryStart n s = s.startEntry n (s.nextEntry n) := if_pos (by simp [hen, hsrc])

theorem timetableEntryStart_stays (h : s.bt (R.gteStatus n) 10 = false ∨ ttbSrc (s.gateOf n) = 3) : timetableEntryStart n s = s :=
  if_neg (by rcases h with h | h <;> simp [h])

/-- An entry's start that a phase crosses upward is remembered. -/
def State.startSeen (s : State) (n : Nat) : State :=
  { s with phw.gateSeen := kvSet [] s.phw.gateSeen n (s.startCrossed n (s.nextEntry n) :: s.seenStarts n) }

theorem timetablePhaseCrossing_starts (hen : s.bt (R.gteStatus n) 10 = true) (hsrc : ttbSrc (s.gateOf n) = 3)
    (hup : s.movesUp (ttbTt (s.gateOf n)) = true) (hnew : s.startCrossed n (s.nextEntry n) ∉ s.seenStarts n) :
    timetablePhaseCrossing n s = (s.startSeen n).startEntry n (s.nextEntry n) := if_pos (by simp [hen, hsrc, hup, hnew])

theorem timetablePhaseCrossing_stays (h : s.bt (R.gteStatus n) 10 = false ∨ ttbSrc (s.gateOf n) ≠ 3 ∨
    s.movesUp (ttbTt (s.gateOf n)) = false ∨ s.startCrossed n (s.nextEntry n) ∈ s.seenStarts n) : timetablePhaseCrossing n s = s :=
  if_neg (by rcases h with h | h | h | h <;> simp [h])

theorem timetablePendingStart_stays (h : s.bt (R.gteStatus n) 12 = false ∨
    (ttbSrc (s.gatePending n) = 3 ∧ s.movesUp (ttbTt (s.gatePending n)) = false)) : timetablePendingStart n s = s :=
  if_neg (by rcases h with h | ⟨h, k⟩ <;> simp [*])

/-- What shows once a pending timetable is in force. -/
structure PendingStarted (n : Nat) (p : Timetable) (s t : State) : Prop where
  inForce : t.gateOf n = p
  entry : t.fd (R.gteStatus n) 9 0 = 0
  gates : t.gates n = entGates (p.entries.getD 0 0)
  enabled : t.bt (R.gteStatus n) 10 = true
  taken : t.bt (R.gteStatus n) 12 = false
  hold : t.bt (R.gteStatus n) 14 = true ↔ entOp (p.entries.getD 0 0) = 1
  tab : t.tab.sameConfig s.tab
  idle : (s.egOf n).tx = none → t.fwd = s.fwd

/-- The pending timetable takes the place of the one in force. -/
def State.pendingInForce (s : State) (n : Nat) : State :=
  { s with tab.gates := kvSet {} s.tab.gates n (s.gatePending n), live.gatePend := kvErase s.live.gatePend n
           phw.gateSeen := kvSet [] s.phw.gateSeen n [] }

/-- GTE_STATUS at the start of a pending timetable. -/
def pendingStatus (e : BitVec 64) (w : W32) : W32 :=
  setBit (setBit (entryStatus w 0 (entGates e) (holdAfter (entOp e) false)) 10 true) 12 false

theorem timetablePendingStart_runs (hpend : s.bt (R.gteStatus n) 12 = true)
    (hgo : ttbSrc (s.gatePending n) ≠ 3 ∨ s.movesUp (ttbTt (s.gatePending n)) = true) : timetablePendingStart n s =
      ((s.pendingInForce n).modRg (R.gteStatus n) (pendingStatus ((s.gatePending n).entries.getD 0 0))).heed n :=
  if_pos (by simpa [hpend] using hgo)

theorem timetablePendingStart_starts (hpend : s.bt (R.gteStatus n) 12 = true)
    (hgo : ttbSrc (s.gatePending n) ≠ 3 ∨ s.movesUp (ttbTt (s.gatePending n)) = true) :
    PendingStarted n (s.gatePending n) s (timetablePendingStart n s) := by
  rw [timetablePendingStart_runs hpend hgo]
  generalize he : (s.gatePending n).entries.getD 0 0 = e
  set a := (s.pendingInForce n).modRg (R.gteStatus n) (pendingStatus e) with ha
  have hword : (a.heed n).rg (R.gteStatus n) = pendingStatus e (s.rg (R.gteStatus n)) := (a.rg_heed n _).trans (State.rg_modRg_same _ _ _)
  have htab := (a.heed_alone n).tab
  refine ⟨?_, ?_, ?_, ?_, ?_, ?_, ?_, fun hidle => ?_⟩
  · rw [State.gateOf, htab]
    exact kvGet_set_same _ _ _ _
  · rw [State.fd, hword, pendingStatus, fld_setBit_other _ _ (by decide), fld_setBit_other _ _ (by decide), fld_entryStatus_entry]
  · rw [State.gates, State.fd, hword, pendingStatus, fld_setBit_other _ _ (by decide), fld_setBit_other _ _ (by decide),
      fld_entryStatus_gates, entGates_lt, he]
  · rw [State.bt, hword, pendingStatus, bit_setBit_other _ _ (by decide), bit_setBit_same _ _ (by decide)]
  · rw [State.bt, hword, pendingStatus, bit_setBit_same _ _ (by decide)]
  · rw [State.bt, hword, pendingStatus, bit_setBit_other _ _ (by decide), bit_setBit_other _ _ (by decide), bit_entryStatus_hold,
      holdAfter_eq, he]
    split <;> simp_all
  · rw [htab]
    exact ⟨rfl, rfl, rfl, rfl, rfl, rfl, rfl, rfl, rfl⟩
  · rw [State.heed_idle (s := a) hidle]
    rfl

end

end Sys2Proof.Machine
end

section
/-! SUPPORT. The rows of turntables, triggers and timetables, in a block whose clocks run (R147 to R152, R196 to R212). -/

namespace Sys2Proof.Machine

variable {s : State} (hw : s.works)
include hw

/-! ### Turntables (R196 to R203) -/

section
variable {n : Fin 16} {a b : Bool} {g : Nat}

theorem exec_ttCountedEdge_off (hoff : s.ttState n = ttOff) (hen : s.bt (R.ttCfg n) 0 = false) :
    exec (.ttCountedEdge n a b g) s = .next s :=
  (next_clocked hw _).trans (congrArg (β := Res) .next (if_pos ⟨hoff, by simp [hen]⟩))

theorem exec_ttCountedEdge_first (hoff : s.ttState n = ttOff) (hen : s.bt (R.ttCfg n) 0 = true) (hacq : 2 ≤ s.fd (R.ttCfg n) 23 16) :
    ∃ t : State, exec (.ttCountedEdge n a false g) s = .next t ∧ t.ttState n = ttAcquire ∧ t.tab = s.tab ∧ t.fwd = s.fwd ∧
      (t.tt n).p = (if (s.tt n).idxPend = none then 0 else idxDiff (s.fd (R.ttIdx n) 19 0) 0 (s.cpr n)) :=
  ⟨_, next_clocked hw _, ttCountedEdge_first hoff hen hacq a g⟩

theorem exec_ttIndexEdge_off (h : ¬ (s.ttState n ≠ ttOff ∨ s.bt (R.ttCfg n) 0 = true)) : exec (.ttIndexEdge n g) s = .next s :=
  (next_clocked hw _).trans (congrArg (β := Res) .next (if_pos (by simpa using h)))

variable (h : s.ttState n ≠ ttOff ∨ s.bt (R.ttCfg n) 0 = true)
include h

theorem exec_ttIndexEdge_unused (hoff : s.idxOn n = false) : exec (.ttIndexEdge n g) s = .next (s.count (R.ttCnt n 1) g) :=
  (next_clocked hw _).trans (congrArg (β := Res) .next ((ttIndexEdge_runs h g).trans (if_neg (Bool.eq_false_iff.1 hoff))))

theorem exec_ttIndexEdge_waits (hon : s.idxOn n = true) : ∃ (t : State) (k : Int), 0 ≤ k ∧ k ≤ 6 ∧ exec (.ttIndexEdge n g) s = .next t ∧
    t.tt n = { s.tt n with idxPend := some (BitVec.ofInt 64 (s.pNs + k - 3)) } ∧ t.reg = (s.count (R.ttCnt n 1) g).reg ∧ t.tab = s.tab :=
  ⟨(s.edgeFiltered n g).setTt n { s.tt n with idxPend := some s.edgeStamp }, (Config.freeNat s.free % 7 : Nat), by omega, by omega,
    (next_clocked hw _).trans (congrArg (β := Res) .next ((ttIndexEdge_runs h g).trans (if_pos hon))), State.tt_setTt_same _ _ _, rfl, rfl⟩

omit h

theorem exec_ttStallTimeout_stays (hacq : s.ttState n ≠ ttAcquire) (htrack : s.ttState n ≠ ttTracking) :
    exec (.ttStallTimeout n) s = .next s :=
  (next_clocked hw _).trans (congrArg (β := Res) .next (if_neg (by simp [hacq, htrack])))

theorem exec_ttStallTimeout (hrun : s.ttState n = ttAcquire ∨ s.ttState n = ttTracking) :
    ∃ t : State, exec (.ttStallTimeout n) s = .next t ∧ Stalled n s t :=
  ⟨_, (next_clocked hw _).trans (congrArg (β := Res) .next (if_pos hrun)), s.enterStalled_stalled n.isLt⟩

end

/-! ### Triggers (R209 to R212) -/

section
variable {m : Fin 32}

theorem exec_triggerActiveEdge_unready (h : ¬ s.trgReady m) : exec (.triggerActiveEdge m) s = .next s :=
  (next_clocked hw _).trans (congrArg (β := Res) .next (triggerActiveEdge_unready h))

theorem exec_timeTrigger_unarmed (h : ¬ s.trgTimed m) : exec (.timeTrigger m) s = .next s :=
  (next_clocked hw _).trans (congrArg (β := Res) .next (timeTrigger_unarmed h))

theorem exec_timeTrigger_between (hperiod : 1000 ≤ (s.rg (R.trgPeriod m)).toNat) (h : ∀ k, ¬ s.trgAt m k) :
    exec (.timeTrigger m) s = .next s :=
  (next_clocked hw _).trans (congrArg (β := Res) .next (timeTrigger_between hperiod h))

section
variable {k : Nat} (harmed : s.trgTimed m) (hperiod : 1000 ≤ (s.rg (R.trgPeriod m)).toNat) (hat : s.trgAt m k)
include hperiod hat

theorem exec_timeTrigger_seen (h : ((k : Int), false) ∈ (s.trg m).seen) : exec (.timeTrigger m) s = .next s :=
  (next_clocked hw _).trans (congrArg (β := Res) .next (timeTrigger_seen hperiod hat h))

include harmed

theorem exec_timeTrigger_overlaps (h : ((k : Int), false) ∉ (s.trg m).seen) (hactive : s.bt (R.trgStat m) 0 = true) :
    exec (.timeTrigger m) s = .next ((s.setTrg m { s.trg m with seen := [((k : Int), false)] }).setBt (R.trgStat m) 2 true) :=
  (next_clocked hw _).trans (congrArg (β := Res) .next
    ((timeTrigger_issues hperiod hat harmed h).trans (State.issuePulse_overlaps (s := s.setTrg m _) hactive)))

theorem exec_timeTrigger_fires (h : ((k : Int), false) ∉ (s.trg m).seen) (hidle : s.bt (R.trgStat m) 0 = false) :
    ∃ t : State, exec (.timeTrigger m) s = .next t ∧ t.bt (R.trgStat m) 0 = true ∧
      t.rg (R.trgCount m) = satInc (s.rg (R.trgCount m)) 1 ∧ t.out = s.out ++ [.trigger m (!s.bt (R.trgCfg m) 8)] ∧
      (t.trg m).seen = [((k : Int), false)] ∧ (t.trg m).width = s.fd (R.trgWidth m) 23 0 ∧ t.tab = s.tab := by
  obtain ⟨hon, hcounts, hout, hrecord, htab⟩ := timeTrigger_fires hperiod hat harmed h hidle
  refine ⟨_, next_clocked hw _, hon, hcounts, hout, ?_, ?_, htab⟩
  · rw [hrecord, State.trg_setTrg_same]
  · rw [hrecord]
    rfl

end

theorem exec_triggerInactiveEdge_idle (h : s.bt (R.trgStat m) 0 = false) : exec (.triggerInactiveEdge m) s = .next s :=
  (next_clocked hw _).trans (congrArg (β := Res) .next (triggerInactiveEdge_idle h))

theorem exec_triggerInactiveEdge_ends (h : s.bt (R.trgStat m) 0 = true) : ∃ t : State, exec (.triggerInactiveEdge m) s = .next t ∧
    t.bt (R.trgStat m) 0 = false ∧ t.out = s.out ++ [.trigger m (s.bt (R.trgCfg m) 8)] ∧ t.rg (R.trgCount m) = s.rg (R.trgCount m) ∧
    t.tab = s.tab :=
  ⟨s.driveTrg m false, (next_clocked hw _).trans (congrArg (β := Res) .next (triggerInactiveEdge_ends h)), s.bt_driveTrg m false,
    (s.out_driveTrg m false).trans (by rw [Bool.false_bne]), s.rg_driveTrg_other false (by simp only [R.trgStat, R.trgCount]; omega),
    s.tab_driveTrg m false⟩

end

/-! ### Timetables (R147, R149, R150, R152) -/

section
variable {n : EPort}

/-- In the row of an instruction the next entry of a port's timetable starts, as the port shows it. -/
def StartsEntry (s : State) (n : EPort) (x : Instr) : Prop :=
  let e := (s.gateOf n).entries.getD (s.nextEntry n) 0
  ∃ t : State, exec x s = .next t ∧ t.fd (R.gteStatus n) 9 0 = s.nextEntry n % 1024 ∧ t.gates n = entGates e ∧
    t.bt (R.gteStatus n) 14 = (if entOp e = 1 then true else if entOp e = 2 then false else s.bt (R.gteStatus n) 14) ∧
    t.bt (R.gteStatus n) 11 = false ∧ t.tab = s.tab ∧ ((s.egOf n).tx = none → t.fwd = s.fwd ∧ t.out = s.out) ∧
    (entOp e = 1 → s.bt (R.gteStatus n) 13 = true → ∀ y, (s.egOf n).tx = some y → s.preemptable n y = true → s.legalPoint n y ≠ none →
      (t.egOf n).tx = none ∧ (t.egOf n).preempted ≠ none)

theorem exec_timetableEntryStart (hen : s.bt (R.gteStatus n) 10 = true) (hsrc : ttbSrc (s.gateOf n) ≠ 3) :
    StartsEntry s n (.timetableEntryStart n) := by
  obtain ⟨hentry, hgates, hhold, hfallback, htab, hidle, hpreempts⟩ := s.startEntry_started n.isLt (s.nextEntry n)
  exact ⟨_, (next_clocked hw _).trans (congrArg (β := Res) .next (timetableEntryStart_starts hen hsrc)),
    hentry, hgates, hhold.trans (holdAfter_eq _ _), hfallback, htab, hidle, hpreempts⟩

theorem exec_timetableEntryStart_stays (h : s.bt (R.gteStatus n) 10 = false ∨ ttbSrc (s.gateOf n) = 3) :
    exec (.timetableEntryStart n) s = .next s :=
  (next_clocked hw _).trans (congrArg (β := Res) .next (timetableEntryStart_stays h))

theorem exec_timetablePhaseCrossing (hen : s.bt (R.gteStatus n) 10 = true) (hsrc : ttbSrc (s.gateOf n) = 3)
    (hup : s.movesUp (ttbTt (s.gateOf n)) = true) (hnew : s.startCrossed n (s.nextEntry n) ∉ s.seenStarts n) :
    StartsEntry s n (.timetablePhaseCrossing n) := by
  obtain ⟨hentry, hgates, hhold, hfallback, htab, hidle, hpreempts⟩ := (s.startSeen n).startEntry_started n.isLt (s.nextEntry n)
  exact ⟨_, (next_clocked hw _).trans (congrArg (β := Res) .next (timetablePhaseCrossing_starts hen hsrc hup hnew)),
    hentry, hgates, hhold.trans (holdAfter_eq _ _), hfallback, htab, hidle, hpreempts⟩

theorem exec_timetablePhaseCrossing_stays (h : s.bt (R.gteStatus n) 10 = false ∨ ttbSrc (s.gateOf n) ≠ 3 ∨
    s.movesUp (ttbTt (s.gateOf n)) = false ∨ s.startCrossed n (s.nextEntry n) ∈ s.seenStarts n) :
    exec (.timetablePhaseCrossing n) s = .next s :=
  (next_clocked hw _).trans (congrArg (β := Res) .next (timetablePhaseCrossing_stays h))

theorem exec_timetablePendingStart_stays (h : s.bt (R.gteStatus n) 12 = false ∨
    (ttbSrc (s.gatePending n) = 3 ∧ s.movesUp (ttbTt (s.gatePending n)) = false)) : exec (.timetablePendingStart n) s = .next s :=
  (next_clocked hw _).trans (congrArg (β := Res) .next (timetablePendingStart_stays h))

theorem exec_timetablePendingStart (hpend : s.bt (R.gteStatus n) 12 = true)
    (hgo : ttbSrc (s.gatePending n) ≠ 3 ∨ s.movesUp (ttbTt (s.gatePending n)) = true) :
    ∃ t : State, exec (.timetablePendingStart n) s = .next t ∧ PendingStarted n (s.gatePending n) s t :=
  ⟨_, next_clocked hw _, timetablePendingStart_starts hpend hgo⟩

end

end Sys2Proof.Machine
end

section
/-! The statement on turntables, trigger outputs and timetables (07_turntables.md, 05_scheduling.md). -/

namespace Sys2Proof
open Machine

/-- Settles O55: one law for each row and case. What follows the count of an edge keeps what the edge has counted (`EdgeKept`), so that each
mode's row is read off its count; pulses are `Fired`, entries `EntryStarted`. An index that waits applies at the first edge by R203; crossings
count once for each revolution count by R207 (log entry 33). -/
theorem phaseHardwareFollowsItsInputs : Obligations.PhaseHardwareFollowsItsInputs := by
  intro s hw
  refine ⟨fun n a b g => exec_ttCountedEdge_off hw, fun n a g => exec_ttCountedEdge_first hw, fun n a b g hrun hfirst hpend => ?_,
    fun n g => ⟨exec_ttIndexEdge_off hw, exec_ttIndexEdge_unused hw, exec_ttIndexEdge_waits hw⟩,
    fun n => ⟨exec_ttStallTimeout_stays hw, fun hrun => ?_⟩, fun m => ⟨exec_triggerActiveEdge_unready hw, exec_triggerActiveEdge hw⟩,
    fun m => ⟨exec_timeTrigger_unarmed hw, exec_timeTrigger_between hw, fun k harmed hperiod hat =>
      ⟨exec_timeTrigger_seen hw hperiod hat, exec_timeTrigger_overlaps hw harmed hperiod hat,
        exec_timeTrigger_fires hw harmed hperiod hat⟩⟩,
    fun m => ⟨exec_triggerInactiveEdge_idle hw, exec_triggerInactiveEdge_ends hw⟩, fun n => ?_⟩
  · obtain ⟨htab, hglitches⟩ := ttCountedEdge_tab (a := a) (b := b) (g := g) hrun hpend
    refine ⟨ttCountedEdge n a b g s, next_clocked hw _, htab, ttCountedEdge_sent hrun hpend, hglitches,
      ttCountedEdge_quad hrun hpend hfirst, ttCountedEdge_double hrun hpend hfirst, ttCountedEdge_upward hrun hpend hfirst,
      fun e hmode hstate hacq hlast => ⟨(Config.freeNat s.free % 7 : Nat), by omega, by omega, ?_⟩⟩
    have hjudged := ttCountedEdge_judged (a := a) (b := b) (g := g) hpend hfirst hmode hstate hacq hlast
    rw [State.edgeStamp] at hjudged
    revert hjudged
    generalize edgeCase _ _ _ _ = c
    cases c <;> exact id
  · obtain ⟨t, hexec, h⟩ := exec_ttStallTimeout hw hrun
    exact ⟨t, hexec, h.state, h.vel, h.shown, h.stalls, h.lost, h.pos, h.tab, h.fwd⟩
  · refine ⟨fun hoff => ⟨exec_timetableEntryStart_stays hw (.inl hoff), exec_timetablePhaseCrossing_stays hw (.inl hoff)⟩,
      fun hen hsrc => ⟨exec_timetableEntryStart hw hen hsrc, exec_timetablePhaseCrossing_stays hw (.inr (.inl hsrc))⟩,
      fun hen hsrc => ⟨exec_timetableEntryStart_stays hw (.inr hsrc), exec_timetablePhaseCrossing hw hen hsrc,
        fun h => exec_timetablePhaseCrossing_stays hw (.inr (.inr h))⟩,
      exec_timetablePendingStart_stays hw, fun hpend hgo => ?_⟩
    obtain ⟨t, hexec, h⟩ := exec_timetablePendingStart hw hpend hgo
    exact ⟨t, hexec, h.inForce, h.entry, h.gates, h.enabled, h.taken, h.hold, h.tab, h.idle⟩

end Sys2Proof
end

section
/-! SUPPORT. The commands on the nodes of the registry and the end of a hold (R234, R237): the bytes of an entry's image that hold its
state, cause and time, and what a hold and a release leave of the other entries. -/

namespace Sys2Proof.Machine

/-! ### Bytes of an image (R8, R234) -/

section
variable {n o k : Nat}

theorem imgLe_eq_fld (w : BitVec n) (o : Nat) (hk : 0 < k) : imgLe w o k = fld w (8 * (o + k) - 1) (8 * o) := by
  rw [imgLe, fld, show 8 * (o + k) - 1 + 1 - 8 * o = 8 * k by omega]

theorem imgLe_setImg_same (w : BitVec n) (v : Nat) (hk : 0 < k) (hn : 8 * (o + k) ≤ n) : imgLe (setImg w o k v) o k = v % 2 ^ (8 * k) := by
  rw [imgLe_eq_fld _ o hk, setImg, fld_setFld_same w v (by omega) (by omega), show 8 * (o + k) - 1 + 1 - 8 * o = 8 * k by omega]

/-- Bytes outside the replaced ones are as they were. -/
theorem imgLe_setImg_other (w : BitVec n) {a b : Nat} (v : Nat) (hk : 0 < k) (hb : 0 < b) (h : a + b ≤ o ∨ o + k ≤ a) :
    imgLe (setImg w o k v) a b = imgLe w a b := by
  rw [imgLe_eq_fld _ a hb, imgLe_eq_fld _ a hb, setImg, fld_setFld_other w v (by omega) (by omega)]

/-- Byte 23 of an entry (R234): bit 0 says that the node is held. -/
theorem ndHeld_eq (e : Node) : ndHeld e = (imgLe e 23 1).testBit 0 := by
  rw [imgLe_eq_fld e 23 Nat.one_pos, testBit_fld]
  rfl

theorem leNat_lt : ∀ l : List Byte, leNat l < 2 ^ (8 * l.length)
  | [] => Nat.one_pos
  | b :: r => by
    have ih := leNat_lt r
    have hb := b.isLt
    rw [leNat, List.length_cons, Nat.mul_succ, Nat.pow_add]
    omega

theorem length_slice (l : List Byte) (o n : Nat) : (slice l o n).length = n := by
  rw [slice, List.length_append, List.length_replicate, List.length_take]
  omega

/-- A little-endian number of `n` bytes lies below 2^8n. -/
theorem paramLe_lt (d : CmdDesc) (o n : Nat) : d.le o n < 2 ^ (8 * n) := by
  have h := leNat_lt (slice d.params o n)
  rwa [length_slice] at h

/-- An entry with another byte 23, which holds the held bit and its cause, and another hold time (R234). -/
def withHold (e : Node) (held ms : Nat) : Node := setImg (setImg e 23 1 held) 24 2 ms

theorem imgLe_withHold_time (e : Node) (v ms : Nat) : imgLe (withHold e v ms) 24 2 = ms % 2 ^ 16 :=
  imgLe_setImg_same _ ms (by decide) (by decide)

theorem imgLe_withHold_held (e : Node) (v ms : Nat) : imgLe (withHold e v ms) 23 1 = v % 2 ^ 8 :=
  (imgLe_setImg_other _ ms (by decide) (by decide) (by decide)).trans (imgLe_setImg_same e v (by decide) (by decide))

theorem ndHeld_withHold (e : Node) (v ms : Nat) : ndHeld (withHold e v ms) = (v % 2 ^ 8).testBit 0 := by
  rw [ndHeld_eq, imgLe_withHold_held]

end

variable {s t : State} {p : Part} {d : CmdDesc} {i : Nat} {e : Node}

/-! ### One entry changes (R234, R235) -/

/-- An entry found by its key is the one at its index. -/
theorem State.nodeAt_of_node {k : BitVec 64} (h : s.node k = some (i, e)) : s.nodeAt i = some e := by
  obtain ⟨j, -, hj⟩ := List.exists_of_findSome?_eq_some h
  split at hj
  · next hat =>
    split at hj
    · obtain ⟨rfl, rfl⟩ := Prod.mk.inj (Option.some.inj hj)
      exact hat
    · contradiction
  · contradiction

/-- One entry of the registry is set: every other entry and the configuration in force are as before. -/
structure NodeSet (i : Nat) (e : Node) (s t : State) : Prop where
  node : t.nodeAt i = some e
  others : ∀ j, j ≠ i → t.nodeAt j = s.nodeAt j
  config : t.tab.sameConfig s.tab

theorem State.setNode_set (s : State) (i : Nat) (e : Node) : NodeSet i e s (s.setNode i e) where
  node := kvGet_set_same none s.tab.nodes i (some e)
  others _ h := kvGet_set_other none s.tab.nodes (some e) h
  config := ⟨rfl, rfl, rfl, rfl, rfl, rfl, rfl, rfl, rfl⟩

/-- What changes no table keeps the entry that is set. -/
theorem NodeSet.of_tab {u : State} (h : NodeSet i e s t) (htab : u.tab = t.tab) : NodeSet i e s u where
  node := (congrArg (fun x : Tables => kvGet none x.nodes i) htab).trans h.node
  others j hj := (congrArg (fun x : Tables => kvGet none x.nodes j) htab).trans (h.others j hj)
  config := htab ▸ h.config

theorem State.answered_tab (s : State) (p : Part) (d : CmdDesc) (st : Byte) (r : Nat) (out : List Byte) :
    (s.answered p d st r out).tab = s.tab := by
  obtain ⟨b, c, m, heq⟩ := s.complete_rest p (replyOf d st r out)
  rw [State.answered, heq]

theorem State.answered_reg (s : State) (p : Part) (d : CmdDesc) (st : Byte) (r : Nat) (out : List Byte) :
    (s.answered p d st r out).reg = s.reg := by
  obtain ⟨b, c, m, heq⟩ := s.complete_rest p (replyOf d st r out)
  rw [State.answered, heq]

theorem State.holdNode_eq (h : s.nodeAt i = some e) (cause ms : Nat) : s.holdNode i cause ms =
    { s.setNode i (withHold e (1 + 2 * cause) ms) with live.holdAt := kvSet 0 s.live.holdAt i s.upNs } := by
  rw [State.holdNode, h]
  rfl

/-- A release changes the entry, and beside it the mask bits that the hold caused and their record (R321). -/
theorem State.releaseNode_eq (h : s.nodeAt i = some e) :
    ∃ g l, s.releaseNode i = { s.setNode i (withHold e 0 0) with reg := g, slp := l } := by
  rw [State.releaseNode, h]
  refine List.foldlRecOn (motive := fun u : State => ∃ g l, u = { s.setNode i (withHold e 0 0) with reg := g, slp := l }) _ _
    ⟨_, _, rfl⟩ ?_
  rintro u ⟨g, l, rfl⟩ n -
  dsimp only
  split
  · exact ⟨_, _, rfl⟩
  · exact ⟨_, _, rfl⟩

theorem State.holdNode_set (h : s.nodeAt i = some e) (cause ms : Nat) :
    NodeSet i (withHold e (1 + 2 * cause) ms) s (s.holdNode i cause ms) := by
  rw [State.holdNode_eq h]
  exact (s.setNode_set i _).of_tab rfl

theorem State.holdNode_reg (h : s.nodeAt i = some e) (cause ms : Nat) : (s.holdNode i cause ms).reg = s.reg := by
  rw [State.holdNode_eq h]
  rfl

theorem State.releaseNode_set (h : s.nodeAt i = some e) : NodeSet i (withHold e 0 0) s (s.releaseNode i) := by
  obtain ⟨g, l, heq⟩ := State.releaseNode_eq h
  rw [heq]
  exact (s.setNode_set i _).of_tab rfl

theorem State.releaseNode_kept (h : s.nodeAt i = some e) :
    (s.releaseNode i).cmd = s.cmd ∧ (s.releaseNode i).live.saState = s.live.saState := by
  obtain ⟨g, l, heq⟩ := State.releaseNode_eq h
  rw [heq]
  exact ⟨rfl, rfl⟩

theorem NodeSet.answered (h : NodeSet i e s t) (p : Part) (d : CmdDesc) (st : Byte) (r : Nat) (out : List Byte) :
    NodeSet i e s (t.answered p d st r out) :=
  h.of_tab (t.answered_tab p d st r out)

/-! ### NODE_HOLD, NODE_RELEASE (R237, R279) -/

section
variable (hruns : s.runs p d) (hheld : s.holds p .port (d.b 0) = true) (hport : s.retired (d.b 0) = false)
include hruns hheld hport

section
variable (himm : Imm p d 10)
include himm

theorem exec_nodeHold_absent (hnode : s.node (cmdNkey d) = none) :
    exec (.nodeHold p d) s = .next (s.answered p d St.notFound 0 []) := by
  refine congrArg (β := Res) .next (finish_runs hruns (himm.check_none rfl rfl rfl nofun nofun) ?_)
  rw [nodeHoldBody, onTarget_held hheld, if_neg (by simp [hport]), hnode]
  rfl

theorem exec_nodeHold (hnode : s.node (cmdNkey d) = some (i, e)) :
    exec (.nodeHold p d) s = .next ((s.holdNode i 4 (d.le 8 2)).answered p d St.ok 0 []) := by
  refine congrArg (β := Res) .next (finish_runs hruns (himm.check_none rfl rfl rfl nofun nofun) ?_)
  rw [nodeHoldBody, onTarget_held hheld, if_neg (by simp [hport]), hnode]

end

variable (himm : Imm p d 8)
include himm

theorem exec_nodeRelease_absent (hnode : s.node (cmdNkey d) = none) :
    exec (.nodeRelease p d) s = .next (s.answered p d St.notFound 0 []) := by
  refine congrArg (β := Res) .next (finish_runs hruns (himm.check_none rfl rfl rfl nofun nofun) ?_)
  rw [nodeReleaseBody, onTarget_held hheld, if_neg (by simp [hport]), hnode]
  rfl

theorem exec_nodeRelease_free (hnode : s.node (cmdNkey d) = some (i, e)) (hfree : ndHeld e = false) :
    exec (.nodeRelease p d) s = .next (s.answered p d St.okAlready 0 []) := by
  refine congrArg (β := Res) .next (finish_runs hruns (himm.check_none rfl rfl rfl nofun nofun) ?_)
  rw [nodeReleaseBody, onTarget_held hheld, if_neg (by simp [hport]), hnode]
  exact if_neg (by simp [hfree])

theorem exec_nodeRelease (hnode : s.node (cmdNkey d) = some (i, e)) (hnd : ndHeld e = true) :
    exec (.nodeRelease p d) s = .next ((s.releaseNode i).answered p d St.ok 0 []) := by
  refine congrArg (β := Res) .next (finish_runs hruns (himm.check_none rfl rfl rfl nofun nofun) ?_)
  rw [nodeReleaseBody, onTarget_held hheld, if_neg (by simp [hport]), hnode]
  exact if_pos hnd

end

/-! ### NODE_HOLD_EXPIRE (R237) -/

section
variable {i : Fin 262144} (hw : s.works)
include hw

theorem exec_nodeHoldExpire_absent (hnode : s.nodeAt i.val = none) : exec (.nodeHoldExpire i) s = .next s := by
  refine (next_clocked hw _).trans (congrArg (β := Res) .next ?_)
  rw [nodeHoldExpire, hnode]

theorem exec_nodeHoldExpire_stays (hnode : s.nodeAt i.val = some e) (h : ndHeld e = false ∨ imgLe e 24 2 = 0) :
    exec (.nodeHoldExpire i) s = .next s := by
  refine (next_clocked hw _).trans (congrArg (β := Res) .next ?_)
  rw [nodeHoldExpire, hnode]
  refine if_neg fun ⟨hnd, htime⟩ => ?_
  rcases h with h | h
  · simp [h] at hnd
  · exact htime h

theorem exec_nodeHoldExpire (hnode : s.nodeAt i.val = some e) (hnd : ndHeld e = true) (htime : imgLe e 24 2 ≠ 0) :
    exec (.nodeHoldExpire i) s = .next (s.releaseNode i.val) := by
  refine (next_clocked hw _).trans (congrArg (β := Res) .next ?_)
  rw [nodeHoldExpire, hnode]
  exact if_pos ⟨hnd, htime⟩

end

end Sys2Proof.Machine
end

section
/-! SUPPORT. Commands that wait for a crypto resource; of those the raw block services (R238); and random bytes (R218, R219). -/

namespace Sys2Proof.Machine

variable {s : State} {p : Part} {d : CmdDesc}

/-! ### Commands that wait (R38, R239) -/

/-- A command that waits for a crypto resource and whose checks give a status completes with it. -/
theorem runCrypto_answers {f : Form} {body : State → Except Ans State} {st : Byte} (h : s.runs p d) (hc : f.check p d = none)
    (hw : s.inCrypto p d.ctag = false) (hb : body s = .error (fail s st)) : runCrypto f p d body s = s.answered p d st 0 [] :=
  runWaiting_fails h hc hw hb

theorem targetCheck_held {k : Kind} {i : Nat} (h : s.holds p k i = true) : targetCheck s p d k i = none := if_pos h

theorem boolNat_eq_ite (b : Bool) : boolNat b = if b = true then 1 else 0 := by cases b <;> rfl

/-! ### Raw block services (R238) -/

section
variable {n : Nat} {body : KeySlot → Except Byte (Nat × List Byte)} (hind : d.indirect = true) (hkey : d.le 0 2 < 2048)
  (hheld : s.holds p .key (d.le 0 2) = true)
include hind hkey hheld

theorem onRaw_wrongType (htype : ksType (s.keySlot (d.le 0 2)) ≠ 5) : onRaw p d n body s = .error (fail s St.badParam) := by
  rw [onRaw, if_neg (Nat.not_le.2 hkey), targetCheck_held hheld]
  dsimp only
  rw [if_neg (not_not.2 hind), if_pos htype]

variable (htype : ksType (s.keySlot (d.le 0 2)) = 5)
include htype

theorem onRaw_refused {st : Byte} (hbody : body (s.keySlot (d.le 0 2)) = .error st) : onRaw p d n body s = .error (fail s st) := by
  rw [onRaw, if_neg (Nat.not_le.2 hkey), targetCheck_held hheld]
  dsimp only
  rw [if_neg (not_not.2 hind), if_neg (not_not.2 htype), hbody]

theorem onRaw_waits {v : Nat} {out : List Byte} (hbody : body (s.keySlot (d.le 0 2)) = .ok (v, out))
    (hfits : out.length ≤ d.outLen.toNat) :
    onRaw p d n body s = .ok { s with cry.work := s.cry.work ++ [rawWork p d v out n] } := by
  rw [onRaw, if_neg (Nat.not_le.2 hkey), targetCheck_held hheld]
  dsimp only
  rw [if_neg (not_not.2 hind), if_neg (not_not.2 htype), hbody]
  exact if_neg (Nat.not_lt.2 hfits)

end

/-! ### RAW_CIPHER -/

section
variable {k : KeySlot} {text : List Nat} (htext : natsOf (d.params.drop 24) = text) (hdir : d.b 3 ≤ 1)
include htext hdir

section
variable (hmode : d.b 2 ≤ 1) (haad : d.le 20 4 = 0)
include hmode haad

theorem rawCipher_blocks_outside (h : text.length < 16 ∨ 65536 < text.length ∨ text.length % 16 ≠ 0) :
    rawCipher k d = .error St.lengthLimit := by
  subst htext
  rw [rawCipher, if_neg (by omega), if_pos hmode, if_pos h]

/-- ECB or CBC over the whole blocks of a text. -/
theorem rawCipher_blocks (hlow : 16 ≤ text.length) (hhigh : text.length ≤ 65536) (hwhole : text.length % 16 = 0) :
    rawCipher k d = .ok (bytesOf (
      if d.b 2 = 0 then ecb (roundKeys (ksAes k)) (d.b 3 == 0) text
      else cbc (roundKeys (ksAes k)) (d.b 3 == 0) (natsOf (slice d.params 4 16)) (chunks 16 (text.length / 16) text))) := by
  subst htext
  rw [rawCipher, if_neg (by omega), if_pos hmode, if_neg (by omega)]

end

section
variable (hmode : d.b 2 = 2) (haad : d.le 20 4 = 0)
include hmode haad

theorem rawCipher_ctr_outside (h : text.length < 1 ∨ 65536 < text.length) : rawCipher k d = .error St.lengthLimit := by
  subst htext
  rw [rawCipher, if_neg (by omega), if_neg (by omega), if_pos hmode, if_pos h]

theorem rawCipher_ctr (hlow : 1 ≤ text.length) (hhigh : text.length ≤ 65536) :
    rawCipher k d = .ok (bytesOf (ctr (roundKeys (ksAes k)) 128 (blockNat (natsOf (slice d.params 4 16))) (blocks text))) := by
  subst htext
  rw [rawCipher, if_neg (by omega), if_neg (by omega), if_pos hmode, if_neg (by omega)]

end

/-- GCM's text and its tag after it, the additional data in front of the text (log entry 42). -/
theorem rawCipher_gcm {g : List Nat × List Nat} (hmode : d.b 2 = 3) (haad : d.le 20 4 ≤ text.length) (hhigh : text.length ≤ 65536)
    (hg : gcm (ksAes k) (d.b 3 == 0) ((natsOf (slice d.params 4 16)).take 12) (text.take (d.le 20 4)) (text.drop (d.le 20 4)) = g) :
    rawCipher k d = .ok (bytesOf (g.1 ++ g.2)) := by
  subst htext hg
  rw [rawCipher, if_neg (by omega), if_neg (by omega), if_neg (by omega), if_neg (by omega), if_neg (by omega)]

end

section
variable (hsound : Sound p d) (hmould : d.mouldFlag = false) (hlen : 24 ≤ d.len) (hind : d.indirect = true) (hptr : d.outPtr ≠ 0)
include hsound hmould hlen hind hptr

theorem rawCipherForm_check : rawCipherForm.check p d = none :=
  Form.check_none hsound nofun (fun _ => hmould) (decide_eq_true hlen) rfl nofun fun _ => ⟨hind, hptr⟩

variable (hruns : s.runs p d)
include hruns

theorem exec_rawCipher_again (hw : s.inCrypto p d.ctag = true) : exec (.rawCipher p d) s = .next s :=
  congrArg (β := Res) .next (runWaiting_again hruns (rawCipherForm_check hsound hmould hlen hind hptr) hw _)

variable (hw : s.inCrypto p d.ctag = false) (hkey : d.le 0 2 < 2048) (hheld : s.holds p .key (d.le 0 2) = true)
include hw hkey hheld

theorem exec_rawCipher_wrongType (htype : ksType (s.keySlot (d.le 0 2)) ≠ 5) :
    exec (.rawCipher p d) s = .next (s.answered p d St.badParam 0 []) :=
  congrArg (β := Res) .next (runCrypto_answers hruns (rawCipherForm_check hsound hmould hlen hind hptr) hw
    (onRaw_wrongType hind hkey hheld htype))

variable (htype : ksType (s.keySlot (d.le 0 2)) = 5)
include htype

theorem exec_rawCipher_refused {st : Byte} (h : rawCipher (s.keySlot (d.le 0 2)) d = .error st) :
    exec (.rawCipher p d) s = .next (s.answered p d st 0 []) := by
  refine congrArg (β := Res) .next (runCrypto_answers hruns (rawCipherForm_check hsound hmould hlen hind hptr) hw
    (onRaw_refused hind hkey hheld htype ?_))
  rw [h]
  rfl

theorem exec_rawCipher_waits {out : List Byte} (h : rawCipher (s.keySlot (d.le 0 2)) d = .ok out) (hfits : out.length ≤ d.outLen.toNat) :
    exec (.rawCipher p d) s = .next { s with cry.work := s.cry.work ++ [rawWork p d 0 out (d.len - 24)] } := by
  refine congrArg (β := Res) .next (runWaiting_waits hruns (rawCipherForm_check hsound hmould hlen hind hptr) hw
    (onRaw_waits hind hkey hheld htype ?_ hfits))
  rw [h]
  rfl

end

/-! ### RAW_CMAC -/

section
variable {k : KeySlot}

theorem rawCmac_outside (hverify : d.b 2 ≤ 1) (h : d.b 3 < 4 ∨ 16 < d.b 3 ∨ 65536 < d.len - 20) : rawCmac k d = .error St.lengthLimit := by
  rw [rawCmac, if_neg (by omega), if_pos h]

variable (hlow : 4 ≤ d.b 3) (hhigh : d.b 3 ≤ 16) (hlen : d.len ≤ 65556)
include hlow hhigh hlen

theorem rawCmac_generates (hverify : d.b 2 = 0) :
    rawCmac k d = .ok (0, (bytesOf (cmac (ksAes k) (natsOf (d.params.drop 20)))).take (d.b 3)) := by
  rw [rawCmac, if_neg (by omega), if_neg (by omega), if_neg (by omega)]

theorem rawCmac_verifies (hverify : d.b 2 = 1) : rawCmac k d = .ok
    (if (bytesOf (cmac (ksAes k) (natsOf (d.params.drop 20)))).take (d.b 3) = (slice d.params 4 16).take (d.b 3) then 1 else 0, []) := by
  rw [rawCmac, if_neg (by omega), if_neg (by omega), if_pos hverify, boolNat_eq_ite]
  simp only [beq_iff_eq]

end

section
variable (hsound : Sound p d) (hmould : d.mouldFlag = false) (hind : d.indirect = true) (hlen : 20 ≤ d.len)
  (hptr : d.b 2 = 0 → d.outPtr ≠ 0)
include hsound hmould hind hlen hptr

theorem rawCmacForm_check : (rawCmacForm d).check p d = none :=
  Form.check_none hsound nofun (fun _ => hmould) (decide_eq_true hlen) rfl nofun fun h => ⟨hind, hptr (beq_iff_eq.1 h)⟩

variable (hruns : s.runs p d) (hw : s.inCrypto p d.ctag = false) (hkey : d.le 0 2 < 2048) (hheld : s.holds p .key (d.le 0 2) = true)
  (htype : ksType (s.keySlot (d.le 0 2)) = 5)
include hruns hw hkey hheld htype

theorem exec_rawCmac_refused {st : Byte} (h : rawCmac (s.keySlot (d.le 0 2)) d = .error st) :
    exec (.rawCmac p d) s = .next (s.answered p d st 0 []) :=
  congrArg (β := Res) .next (runCrypto_answers hruns (rawCmacForm_check hsound hmould hind hlen hptr) hw
    (onRaw_refused hind hkey hheld htype h))

theorem exec_rawCmac_waits {v : Nat} {out : List Byte} (h : rawCmac (s.keySlot (d.le 0 2)) d = .ok (v, out))
    (hfits : out.length ≤ d.outLen.toNat) :
    exec (.rawCmac p d) s = .next { s with cry.work := s.cry.work ++ [rawWork p d v out (d.len - 20)] } :=
  congrArg (β := Res) .next (runWaiting_waits hruns (rawCmacForm_check hsound hmould hind hlen hptr) hw
    (onRaw_waits hind hkey hheld htype h hfits))

end

/-! ### CRY_RANDOM (R218, R219) -/

section
variable (hsound : Sound p d) (hmould : d.mouldFlag = false) (hind : d.indirect = true) (hlen : d.len = 4) (hptr : d.outPtr ≠ 0)
include hsound hmould hind hlen hptr

theorem cryRandomForm_check : cryRandomForm.check p d = none :=
  Form.check_none hsound nofun (fun _ => hmould) (beq_iff_eq.2 hlen) rfl nofun fun _ => ⟨hind, hptr⟩

variable (hruns : s.runs p d) (hlow : 1 ≤ d.le 0 4) (hhigh : d.le 0 4 ≤ 4096)
include hruns hlow hhigh

theorem exec_cryRandom_gone (hgone : s.entropyGone = true) :
    exec (.cryRandom p d) s = .next (s.answered p d St.resourceGone 0 []) := by
  refine congrArg (β := Res) .next (finish_runs hruns (cryRandomForm_check hsound hmould hind hlen hptr) ?_)
  rw [cryRandomBody, if_neg (by omega), if_pos hgone]
  rfl

theorem exec_cryRandom (hready : s.entropyGone = false) (hfits : d.le 0 4 ≤ d.outLen.toNat) : exec (.cryRandom p d) s =
    .next ({ s with free := s.free + d.le 0 4 }.answered p d St.ok 0
      ((List.range (d.le 0 4)).map (fun i => Config.freeByte (s.free + i)))) := by
  refine congrArg (β := Res) .next ((runCommand_runs hruns (cryRandomForm_check hsound hmould hind hlen hptr) _).trans ?_)
  rw [cryRandomBody, if_neg (by omega), if_neg (by simp [hready]), if_neg (Nat.not_lt.2 hfits)]
  rfl

end

end Sys2Proof.Machine
end

section
/-! SUPPORT. The public-key engine: the commands that join its queue, and the end of the operation at its head (R219, R239, R240). -/

namespace Sys2Proof.Machine

variable {s : State} {p : Part} {d : CmdDesc}

/-! ### The commands of the public-key engine (R239, R240) -/

theorem pkMicros_eq (verify p384 : Bool) : pkMicros verify p384 =
    if verify = true then (if p384 = true then 420 else 180) else (if p384 = true then 350 else 150) := by
  cases verify <;> cases p384 <;> rfl

theorem exec_pkVerify (hruns : s.runs p d) (hw : s.inCrypto p d.ctag = false) (hsound : Sound p d) (hmould : d.mouldFlag = false)
    (hcurve : d.b 0 ≤ 1) (hlen : d.len = if d.b 0 = 1 then 260 else 196) (hclean : d.le 1 3 = 0) :
    exec (.pkVerify p d) s = .next (s.queuePk p d (pkVerifyAns d) (if d.b 0 = 1 then 420 else 180) none) := by
  have hcheck : (pkVerifyForm d).check p d = none :=
    Form.check_none hsound nofun (fun _ => hmould) (by simpa [pkVerifyForm, pkVerifySize] using hlen) (beq_iff_eq.2 hclean) nofun nofun
  refine congrArg (β := Res) .next (runWaiting_waits hruns hcheck hw ?_)
  rw [pkVerifyBody, if_neg (Nat.not_lt.2 hcurve), pkMicros_eq]
  simp only [if_true, beq_iff_eq]

/-- The answer of a verification, its checks in the order of R240. -/
theorem pkVerifyAns_eq (d : CmdDesc) : pkVerifyAns d =
    (let c := curveOf (d.b 0 == 1)
     let q := ptAt c d 68
     let rv := ptAt c d (68 + 2 * c.bytes)
     if ¬ c.on q.1 q.2 then { status := St.invalidPoint }
     else if c.badScalar rv.1 ∨ c.badScalar rv.2 then { status := St.invalidScalar }
     else { result := if c.verify (beAt d.params 4 c.bytes) q.1 q.2 rv.1 rv.2 then 1 else 0 }) := by
  simp only [pkVerifyAns, boolNat_eq_ite, Bool.or_eq_true]

/-- A slot's key is an EC scalar of the curve that a command names (R240). -/
def EcKey (d : CmdDesc) (k : KeySlot) : Prop := ksType k = 6 ∧ ksP384 k = (d.b 0 == 1)

section
variable {need : Nat} {body : KeySlot → State → Except Ans State} (hcurve : d.b 0 ≤ 1) (hkey : d.le 2 2 < 2048)
  (hheld : s.holds p .key (d.le 2 2) = true)
include hcurve hkey hheld

theorem onEcSlot_wrong (h : ¬ EcKey d (s.keySlot (d.le 2 2))) : onEcSlot p d need body s = .error (fail s St.badParam) := by
  rw [onEcSlot, if_neg (by omega), targetCheck_held hheld]
  exact if_pos (not_and_or.1 h)

theorem onEcSlot_right (h : EcKey d (s.keySlot (d.le 2 2))) (hfits : need ≤ d.outLen.toNat) :
    onEcSlot p d need body s = body (s.keySlot (d.le 2 2)) s := by
  rw [onEcSlot, if_neg (by omega), targetCheck_held hheld]
  dsimp only
  rw [if_neg (not_or.2 ⟨not_not.2 h.1, not_not.2 h.2⟩), if_neg (Nat.not_lt.2 hfits)]

end

section
variable (hsound : Sound p d) (hmould : d.mouldFlag = false) (hclean : d.b 1 = 0) (hind : d.indirect = true) (hptr : d.outPtr ≠ 0)
include hsound hmould hclean hind hptr

theorem pkEcdhForm_check (hlen : d.len = if d.b 0 = 1 then 100 else 68) : (pkEcdhForm d).check p d = none :=
  Form.check_none hsound nofun (fun _ => hmould) (by simpa [pkEcdhForm, pkEcdhSize] using hlen) (beq_iff_eq.2 hclean) nofun
    fun _ => ⟨hind, hptr⟩

theorem pkKeygenForm_check (hlen : d.len = 4) : (pkKeygenForm d).check p d = none :=
  Form.check_none hsound nofun (fun _ => hmould) (beq_iff_eq.2 hlen) (beq_iff_eq.2 hclean) nofun fun _ => ⟨hind, hptr⟩

variable (hruns : s.runs p d) (hw : s.inCrypto p d.ctag = false) (hcurve : d.b 0 ≤ 1) (hkey : d.le 2 2 < 2048)
  (hheld : s.holds p .key (d.le 2 2) = true)
include hruns hw hcurve hkey hheld

section
variable (hlen : d.len = if d.b 0 = 1 then 100 else 68)
include hlen

theorem exec_pkEcdh_wrong (h : ¬ EcKey d (s.keySlot (d.le 2 2))) : exec (.pkEcdh p d) s = .next (s.answered p d St.badParam 0 []) :=
  congrArg (β := Res) .next (runCrypto_answers hruns (pkEcdhForm_check hsound hmould hclean hind hptr hlen) hw
    (onEcSlot_wrong hcurve hkey hheld h))

theorem exec_pkEcdh (h : EcKey d (s.keySlot (d.le 2 2))) (hfits : (curveOf (d.b 0 == 1)).bytes ≤ d.outLen.toNat) :
    exec (.pkEcdh p d) s =
      .next (s.queuePk p d (pkEcdhAns (s.keySlot (d.le 2 2)) d) (if d.b 0 = 1 then 350 else 150) none) := by
  refine congrArg (β := Res) .next (runWaiting_waits hruns (pkEcdhForm_check hsound hmould hclean hind hptr hlen) hw
    ((onEcSlot_right hcurve hkey hheld h hfits).trans ?_))
  rw [pkMicros_eq, if_neg Bool.false_ne_true]
  simp only [beq_iff_eq]

end

section
variable (hlen : d.len = 4)
include hlen

theorem exec_pkKeygen_wrong (h : ¬ EcKey d (s.keySlot (d.le 2 2))) : exec (.pkKeygen p d) s = .next (s.answered p d St.badParam 0 []) :=
  congrArg (β := Res) .next (runCrypto_answers hruns (pkKeygenForm_check hsound hmould hclean hind hptr hlen) hw
    (onEcSlot_wrong hcurve hkey hheld h))

variable (h : EcKey d (s.keySlot (d.le 2 2))) (hfits : 2 * (curveOf (d.b 0 == 1)).bytes ≤ d.outLen.toNat)
include h hfits

theorem exec_pkKeygen_gone (hgone : s.entropyGone = true) : exec (.pkKeygen p d) s =
    .next (s.queuePk p d { status := St.resourceGone } (if d.b 0 = 1 then 350 else 150) none) := by
  refine congrArg (β := Res) .next (runWaiting_waits hruns (pkKeygenForm_check hsound hmould hclean hind hptr hlen) hw
    ((onEcSlot_right hcurve hkey hheld h hfits).trans ?_))
  rw [if_pos hgone, pkMicros_eq, if_neg Bool.false_ne_true]
  simp only [beq_iff_eq]

/-- A generated scalar is a free value from 1 to n − 1 (log entry 1). -/
theorem exec_pkKeygen (hready : s.entropyGone = false) : ∃ x : Nat, 1 ≤ x ∧ x < (curveOf (d.b 0 == 1)).n ∧ exec (.pkKeygen p d) s =
    .next ({ s with free := s.free + 1 }.queuePk p d { out := pkPublic (curveOf (d.b 0 == 1)) x } (if d.b 0 = 1 then 350 else 150)
      (some (d.le 2 2, imgOf 384 ((curveOf (d.b 0 == 1)).coord x)))) := by
  have hn : 1 < (curveOf (d.b 0 == 1)).n := by cases d.b 0 == 1 <;> decide
  have hx := Nat.mod_lt (Config.freeNat s.free) (by omega : 0 < (curveOf (d.b 0 == 1)).n - 1)
  refine ⟨Config.freeNat s.free % ((curveOf (d.b 0 == 1)).n - 1) + 1, by omega, by omega, congrArg (β := Res) .next
    (runWaiting_waits hruns (pkKeygenForm_check hsound hmould hclean hind hptr hlen) hw
      ((onEcSlot_right hcurve hkey hheld h hfits).trans ?_))⟩
  rw [if_neg (by simp [hready]), pkMicros_eq, if_neg Bool.false_ne_true, h.2]
  simp only [beq_iff_eq]
  rfl

end

end

/-! ### PK_ENGINE_DONE (R219, R239, R240) -/

theorem mem_kvInsert {α : Type} (v : α) (k : Nat) : ∀ m : List (Nat × α), (k, v) ∈ kvInsert m k v
  | [] => List.mem_singleton_self _
  | (j, w) :: r => by
    rw [kvInsert]
    split
    · exact List.mem_cons_self
    · exact List.mem_cons_of_mem _ (mem_kvInsert v k r)

/-- Whether an operation generates a key pair whose entropy source has been retired since (R219). -/
def State.keyGone (s : State) (o : PkOp) : Bool := o.store.isSome && s.entropyGone

/-- The reply of an operation that ends: a key pair is not given once the entropy source is retired (R219, R240). -/
def PkOp.replyWhen (o : PkOp) (gone : Bool) : Reply :=
  { o.reply with status := if gone = true then St.resourceGone else o.status, out := if gone = true then [] else o.out }

/-- The operation at the head of the queue ends: its command completes, and a key pair that is given waits for the next pour. -/
theorem pkEngineDone_head {o : PkOp} {r : List PkOp} (hq : s.cry.pkQ = o :: r) : ∃ l,
    pkEngineDone s = ({ s with cry.pkQ := r, live.keyStaged := l } : State).complete o.part (o.replyWhen (s.keyGone o)) ∧
    (o.store = none ∨ s.keyGone o = true → l = s.live.keyStaged) ∧
    (∀ k m, o.store = some (k, m) → s.keyGone o = false → (k, (o.part, m)) ∈ l) := by
  unfold pkEngineDone
  rw [hq]
  dsimp only
  cases hstore : o.store with
  | none =>
    have hgone : s.keyGone o = false := by simp [State.keyGone, hstore]
    exact ⟨s.live.keyStaged, by rw [hgone]; rfl, fun _ => rfl, nofun⟩
  | some x =>
    obtain ⟨k, m⟩ := x
    have hgone : s.keyGone o = s.entropyGone := by simp [State.keyGone, hstore]
    cases hent : s.entropyGone with
    | true => exact ⟨s.live.keyStaged, by rw [hgone, hent]; rfl, fun _ => rfl, by simp [hgone, hent]⟩
    | false =>
      refine ⟨kvInsert (kvErase s.live.keyStaged k) k (o.part, m), by rw [hgone, hent]; rfl, by simp [hgone, hent], ?_⟩
      intro k' m' h _
      obtain ⟨rfl, rfl⟩ := Prod.mk.inj (Option.some.inj h)
      exact mem_kvInsert _ _ _

end Sys2Proof.Machine
end

section
/-! The statements on nodes and on the crypto unit (08_security.md). -/

namespace Sys2Proof
open Machine

/-- Settles O19: a hold and a release set one entry of the registry (`NodeSet`), a hold with cause 4, a release with none. That a node which
is absent answers NOT_FOUND is log entry 56. -/
theorem nodeCommandsHoldAndReleaseTalkers : Obligations.NodeCommandsHoldAndReleaseTalkers := by
  have hreleased : ∀ e : Node, ndHeld (withHold e 0 0) = false ∧ imgLe (withHold e 0 0) 23 1 = 0 ∧ imgLe (withHold e 0 0) 24 2 = 0 :=
    fun e => ⟨ndHeld_withHold e 0 0, imgLe_withHold_held e 0 0, imgLe_withHold_time e 0 0⟩
  refine ⟨fun p d s hruns hdrop hheld hport => ⟨exec_nodeHold_absent hruns hheld hport, exec_nodeRelease_absent hruns hheld hport,
      fun i e hnode => ⟨fun himm => ?_, fun himm hnd => ?_, fun himm => exec_nodeRelease_free hruns hheld hport himm hnode⟩⟩,
    fun i s hw => ⟨exec_nodeHoldExpire_absent hw, fun e => exec_nodeHoldExpire_stays hw, fun e hnode hnd htime => ?_⟩⟩
  · have hat := s.nodeAt_of_node hnode
    have hset := (State.holdNode_set hat 4 (d.le 8 2)).answered p d St.ok 0 []
    exact ⟨_, _, exec_nodeHold hruns hheld hport himm hnode, hset.node, ndHeld_withHold _ _ _, imgLe_withHold_held _ _ _,
      (imgLe_withHold_time _ _ _).trans (Nat.mod_eq_of_lt (paramLe_lt d 8 2)),
      (State.answered_reg _ _ _ _ _ _).trans (State.holdNode_reg hat _ _), hset.others, hset.config⟩
  · have hset := (State.releaseNode_set (s.nodeAt_of_node hnode)).answered p d St.ok 0 []
    obtain ⟨hfree, hcause, htime⟩ := hreleased e
    exact ⟨_, _, exec_nodeRelease hruns hheld hport himm hnode hnd, hset.node, hfree, hcause, htime, hset.others, hset.config⟩
  · have hset := State.releaseNode_set hnode
    obtain ⟨hcmd, hsa⟩ := State.releaseNode_kept hnode
    obtain ⟨hfree, hcause, htime'⟩ := hreleased e
    exact ⟨_, _, exec_nodeHoldExpire hw hnode hnd htime, hset.node, hfree, hcause, htime', hset.others, hset.config, hcmd, hsa⟩

/-- Settles O20: each mode's output, or its length limit, is one law of `rawCipher`. GCM's IV and tag, and the width of CTR's counter, are log
entry 42; the row of a command that waits already is log entry 7. -/
theorem rawCipherFollowsItsMode : Obligations.RawCipherFollowsItsMode := by
  intro p d s hruns hsound hmould hlen hind hptr
  refine ⟨exec_rawCipher_again hsound hmould hlen hind hptr hruns, fun hw hkey hheld =>
    ⟨exec_rawCipher_wrongType hsound hmould hlen hind hptr hruns hw hkey hheld, fun htype hdir => ?_⟩⟩
  have hrefused {st} := exec_rawCipher_refused (st := st) hsound hmould hlen hind hptr hruns hw hkey hheld htype
  have hwaits {out} := exec_rawCipher_waits (out := out) hsound hmould hlen hind hptr hruns hw hkey hheld htype
  refine ⟨fun hmode haad h => hrefused (rawCipher_blocks_outside rfl hdir hmode haad h),
    fun hmode haad h => hrefused (rawCipher_ctr_outside rfl hdir hmode haad h), fun out hlow hhigh hwhole haad hfits h => ?_,
    fun out hlow hhigh hmode haad hout => hwaits (hout ▸ rawCipher_ctr rfl hdir hmode haad hlow hhigh),
    fun out hhigh hmode haad hout => hwaits (hout ▸ rawCipher_gcm rfl hdir hmode haad hhigh rfl)⟩
  refine hwaits ((rawCipher_blocks rfl hdir (by omega) haad hlow hhigh hwhole).trans ?_) hfits
  rcases h with ⟨hmode, rfl⟩ | ⟨hmode, rfl⟩
  · rw [if_pos hmode]
  · rw [if_neg (by omega)]

/-- Settles O21: generation and verification share AES-CMAC's tag; random bytes are drawn one by one. -/
theorem rawCmacGeneratesAndVerifies : Obligations.RawCmacGeneratesAndVerifies := by
  intro p d s hruns hsound hmould hind
  refine ⟨fun hw hlen hkey hheld htype hptr => ?_, fun hlen hptr hlow hhigh =>
    ⟨exec_cryRandom_gone hsound hmould hind hlen hptr hruns hlow hhigh, exec_cryRandom hsound hmould hind hlen hptr hruns hlow hhigh⟩⟩
  have hwaits {v out} := exec_rawCmac_waits (v := v) (out := out) hsound hmould hind hlen hptr hruns hw hkey hheld htype
  exact ⟨fun hverify h => exec_rawCmac_refused hsound hmould hind hlen hptr hruns hw hkey hheld htype (rawCmac_outside hverify h),
    fun hverify hlow hhigh hmax => hwaits (rawCmac_generates hlow hhigh hmax hverify),
    fun hverify hlow hhigh hmax => hwaits (rawCmac_verifies hlow hhigh hmax hverify) (Nat.zero_le _)⟩

/-- Settles O22: the three bodies pass their form and slot checks, and their operations join the queue. -/
theorem publicKeyCommandsQueueForTheEngine : Obligations.PublicKeyCommandsQueueForTheEngine := by
  intro p d s hruns hw hsound hmould hcurve
  refine ⟨fun hlen hclean => pkVerifyAns_eq d ▸ exec_pkVerify hruns hw hsound hmould hcurve hlen hclean,
    fun hclean hind hptr hkey hheld => ⟨fun hlen => ⟨?_, ?_⟩, fun hlen => ⟨?_, fun hright hfits => ⟨?_, ?_⟩⟩⟩⟩
  · exact exec_pkEcdh_wrong hsound hmould hclean hind hptr hruns hw hcurve hkey hheld hlen
  · exact exec_pkEcdh hsound hmould hclean hind hptr hruns hw hcurve hkey hheld hlen
  · exact exec_pkKeygen_wrong hsound hmould hclean hind hptr hruns hw hcurve hkey hheld hlen
  · exact exec_pkKeygen_gone hsound hmould hclean hind hptr hruns hw hcurve hkey hheld hlen hright hfits
  · exact exec_pkKeygen hsound hmould hclean hind hptr hruns hw hcurve hkey hheld hlen hright hfits

/-- Settles O23: the head of the queue ends with one completion; a key pair's end turns on the entropy source. -/
theorem publicKeyEngineAnswersInOrder : Obligations.PublicKeyEngineAnswersInOrder := by
  intro s hw
  refine ⟨fun hq => (next_clocked hw _).trans (congrArg (β := Res) .next (by rw [pkEngineDone, hq])), fun o r hq hdrop => ?_⟩
  obtain ⟨l, hdone, hkept, hstaged⟩ := pkEngineDone_head hq
  rw [complete_eq (by exact hdrop)] at hdone
  refine ⟨_, (next_clocked hw _).trans (congrArg (β := Res) .next hdone), rfl, rfl, rfl, ?_, ?_, fun h => ?_, hstaged⟩
  · rw [path_setPath]
    rfl
  · exact ⟨_, congrArg CmdPath.done (path_setPath _), rfl, rfl, rfl, rfl, rfl, rfl⟩
  · obtain rfl := hkept h
    rfl

end Sys2Proof
end

section
/-! SUPPORT. What the end of a record, the notices and the lost items of a capture queue leave of it (R244, R245, R259, R262): its words,
the places of its siding and the registers that configure it. -/

namespace Sys2Proof.Machine

variable {s t u : State} {q : Nat}

/-! ### What takes no part in the movement of words (R99, R243, R262) -/

/-- A queue without what lost items, evictions, notices, PEEK and ACK write. -/
def CapQ.steady (c : CapQ) : CapQ :=
  { c with copies := [], writes := none, gap := false, backlogWas := 0, highWas := false, msgDue := false
           peeked := false, checked := false, peek := [], ringPkts := 0 }

/-- Registers below CFG that are no CAP_Qn_STATUS, no CAP_Qn_LOST and no count of ECC errors. -/
def capKey (k : Nat) : Prop := k < 0xA0_0000 ∧ k % 0x100 ≠ 0x10 ∧ k % 0x100 ≠ 0x44 ∧ k % 0x100 ≠ 0x48 ∧ k % 0x100 ≠ 0x4C

theorem capKey_capMem : capKey R.capMem := by unfold capKey; decide

theorem capKey_capSiding (h : q < 64) : capKey (R.capSiding q) := by unfold capKey R.capSiding; omega

theorem capKey_capCfg (h : q < 64) : capKey (R.capCfg q) := by unfold capKey R.capCfg; omega

theorem capKey_capHrd (h : q < 64) : capKey (R.capHrd q) := by unfold capKey R.capHrd; omega

/-- What a lost item, an eviction, a report, a freeze and a notice leave unchanged for a queue: its words and places, the memory of the
sidings, the tables and the registers of `capKey`. Pending copies may be evicted (R99). -/
structure CapKept (q : Nat) (s t : State) : Prop where
  mem : t.cap.mem = s.cap.mem
  tab : t.tab = s.tab
  keys : ∀ k, capKey k → t.key k = s.key k
  queue : (t.capq q).steady = (s.capq q).steady
  copies : (t.capq q).copies.Sublist (s.capq q).copies

namespace CapKept

theorem refl (s : State) : CapKept q s s := ⟨rfl, rfl, fun _ _ => rfl, rfl, .refl _⟩

theorem trans (h : CapKept q s t) (k : CapKept q t u) : CapKept q s u :=
  ⟨k.mem.trans h.mem, k.tab.trans h.tab, fun j hj => (k.keys j hj).trans (h.keys j hj), k.queue.trans h.queue, k.copies.trans h.copies⟩

section
variable (h : CapKept q s t)
include h

theorem head : (t.capq q).head = (s.capq q).head := (congrArg CapQ.head h.queue :)
theorem siding : (t.capq q).siding = (s.capq q).siding := (congrArg CapQ.siding h.queue :)
theorem spilling : (t.capq q).spilling = (s.capq q).spilling := (congrArg CapQ.spilling h.queue :)
theorem tail : (t.capq q).tail = (s.capq q).tail := (congrArg CapQ.tail h.queue :)
theorem writing : (t.capq q).writing = (s.capq q).writing := (congrArg CapQ.writing h.queue :)
theorem check : (t.capq q).check = (s.capq q).check := (congrArg CapQ.check h.queue :)
theorem wr : (t.capq q).wr = (s.capq q).wr := (congrArg CapQ.wr h.queue :)
theorem close : (t.capq q).close = (s.capq q).close := (congrArg CapQ.close h.queue :)
theorem off : (t.capq q).off = (s.capq q).off := (congrArg CapQ.off h.queue :)

end

end CapKept

theorem CapKept.capDrain (hq : q < 64) (h : CapKept q s t) : t.capDrain q = s.capDrain q :=
  congrArg (bit · 1) (h.keys _ (capKey_capCfg hq))

/-- A change beside the capture queues, the tables and their registers. -/
theorem CapKept.beside (hcap : t.cap = s.cap) (htab : t.tab = s.tab) (hkeys : ∀ k, capKey k → t.key k = s.key k) : CapKept q s t := by
  have hq : t.capq q = s.capq q := by rw [State.capq, hcap]; rfl
  exact ⟨by rw [hcap], htab, hkeys, by rw [hq], by rw [hq]⟩

theorem Reported.capKept (h : Reported s t) : CapKept q s t := by
  obtain ⟨⟨e, r, rfl⟩, hkeys⟩ := h
  exact .beside rfl rfl fun k ⟨hk, _⟩ => hkeys k (by simp only [R.errDiscard]; omega) (by simp only [R.errStatus]; omega)

theorem State.setKey_capKept (s : State) {k : Nat} (v : W32) (h : ¬ capKey k) : CapKept q s (s.setKey k v) :=
  .beside rfl rfl fun _ hj => s.key_setKey_other v fun e => h (e ▸ hj)

theorem State.setCapStatus_capKept (s : State) (i n : Nat) (b : Bool) : CapKept q s (s.setBt (R.capStatus i) n b) :=
  s.setKey_capKept _ (by unfold capKey R.capStatus; omega)

/-- A queue whose words, places and drain stay. -/
theorem State.setCapq_capKept (s : State) (i : Nat) {c : CapQ} (h : c.steady = (s.capq i).steady)
    (hc : c.copies.Sublist (s.capq i).copies) : CapKept q s (s.setCapq i c) := by
  by_cases e : q = i
  · subst e
    exact ⟨rfl, rfl, fun _ _ => rfl, by rw [s.capq_setCapq_same]; exact h, by rw [s.capq_setCapq_same]; exact hc⟩
  · have hq := s.capq_setCapq_other c e
    exact ⟨rfl, rfl, fun _ _ => rfl, by rw [hq], by rw [hq]⟩

/-- Another queue. -/
theorem State.setCapq_capKept_other (s : State) {i : Nat} (c : CapQ) (h : q ≠ i) : CapKept q s (s.setCapq i c) := by
  have hq := s.capq_setCapq_other c h
  exact ⟨rfl, rfl, fun _ _ => rfl, by rw [hq], by rw [hq]⟩

/-! ### Lost items and the settling of a frame (R16, R99, R245) -/

theorem State.capLost_capKept (s : State) (i n : Nat) : CapKept q s (s.capLost i n) := by
  have hlost : CapKept q s (s.modRg (R.capLost i) (fun w => w + BitVec.ofNat 32 n)) :=
    s.setKey_capKept _ (by unfold capKey R.capLost; omega)
  unfold State.capLost
  split
  · exact .refl s
  · exact (hlost.trans (State.setCapStatus_capKept _ i 5 true)).trans (State.setCapq_capKept _ i rfl (.refl _))

theorem State.charge_capKept (s : State) (a g sh n : Nat) (add : Bool) : CapKept q s (s.charge a g sh n add) := by
  unfold State.charge
  dsimp only
  split
  · exact .beside rfl rfl fun _ _ => rfl
  · split <;> exact .beside rfl rfl fun _ _ => rfl

theorem State.dropCells_capKept (s : State) (f : Frame) : CapKept q s (s.dropCells f) := by
  unfold State.dropCells
  split
  · exact (s.charge_capKept _ _ _ _ _).trans (.beside rfl rfl fun _ _ => rfl)
  · exact .refl s

/-- An eviction drops a pending copy of its queue. -/
theorem State.evict_capKept (s : State) (v : Victim) : CapKept q s (s.evict v) := by
  have hcount : ∀ a : State, CapKept q a (a.countDrop 0x17) := fun _ => .beside rfl rfl fun _ _ => rfl
  exact ((s.setCapq_capKept v.q (c := { s.capq v.q with copies := (s.capq v.q).copies.filter (fun x => x.order != v.copy.order) }) rfl
    List.filter_sublist).trans (hcount _)).trans (State.capLost_capKept _ _ _)

theorem moveToCapture_capKept (fuel id : Nat) (s : State) : CapKept q s (moveToCapture fuel id s) := by
  induction fuel generalizing s with
  | zero =>
    unfold moveToCapture
    rcases s.frame id with _ | f <;> exact .refl s
  | succ k ih =>
    unfold moveToCapture
    rcases s.frame id with _ | f
    · exact .refl s
    · dsimp only
      split
      · exact s.dropCells_capKept f
      split
      · exact ((s.charge_capKept _ _ _ _ _).trans (State.charge_capKept _ _ _ _ _ _)).trans (.beside rfl rfl fun _ _ => rfl)
      split
      · exact .refl s
      · next v _ =>
        refine ((s.evict_capKept v).trans ?_).trans (ih _)
        split
        · split
          · exact State.dropCells_capKept _ _
          · exact .refl _
        · exact .refl _

theorem State.settleFrame_capKept (s : State) (id : Nat) : CapKept q s (s.settleFrame id) := by
  unfold State.settleFrame
  split
  · exact .refl s
  · split
    · exact .refl s
    · split
      · split
        · exact .refl s
        · exact moveToCapture_capKept _ _ s
      · exact s.dropCells_capKept _

/-- The lane of a queue leaves when no word of its record is left to write (R244). -/
theorem State.endWriting_capKept (s : State) {i : Nat} (h : (s.capq i).writing = []) : CapKept q s (s.endWriting i) := by
  have hset : CapKept q s (s.setCapq i { s.capq i with writing := [], writes := none }) :=
    s.setCapq_capKept i (congrArg (fun l => ({ s.capq i with writing := l, writes := none } : CapQ).steady) h.symm) (.refl _)
  have hfree : ∀ a : State, CapKept q a (a.freeLane i) := fun _ => ⟨rfl, rfl, fun _ _ => rfl, rfl, .refl _⟩
  unfold State.endWriting
  dsimp only
  split
  · exact (hset.trans (hfree _)).trans (State.settleFrame_capKept _ _)
  · exact hset.trans (hfree _)

/-! ### Notices (R257, R262, R293) -/

theorem State.emit_capKept (s : State) (o : Out) : CapKept q s (s.emit o) := .beside rfl rfl fun _ _ => rfl

theorem State.sendMsix_capKept (s : State) (p : Part) (vec : BitVec 6) : CapKept q s (s.sendMsix p vec) := by
  unfold State.sendMsix
  split <;> exact .beside rfl rfl fun _ _ => rfl

theorem State.violate_capKept (s : State) (p : Part) {cause : Nat} (what : Nat) (h : cause < 8) :
    CapKept q s (s.violate p cause what) := by
  unfold State.violate
  split
  · exact (State.report_reported _ _ _ _ _ _ _).capKept
  split
  · exact (State.report_reported _ _ _ _ _ _ _).capKept
  · obtain ⟨htab, -, hcap, -⟩ := (s.freeze_froze p what h).config
    refine .beside hcap htab fun k ⟨hk, _⟩ => s.freeze_key_other p cause what ?_ ?_ ?_ ?_ ?_
    all_goals simp only [copyKey, R.secStatus, R.secViol, R.secPmEvent, R.errDiscard, R.errStatus]; omega

theorem State.capDma_capKept (s : State) (p : Part) (a : Nat) (l : List Byte) : CapKept q s (s.capDma p a l).2 := by
  unfold State.capDma
  split
  · exact s.emit_capKept _
  · exact s.violate_capKept p _ (by omega)

theorem State.levelMessage_capKept (s : State) (i : Nat) (batch : Bool) : CapKept q s (s.levelMessage i batch) := by
  have hback : CapKept q s (s.writeback i).2 := s.capDma_capKept _ _ _
  unfold State.levelMessage
  dsimp only
  split
  · exact .refl s
  split
  · exact s.sendMsix_capKept _ _
  split
  · exact s.setCapq_capKept i rfl (.refl _)
  split
  · next heq =>
    rw [heq] at hback
    exact hback.trans (State.sendMsix_capKept _ _ _)
  · next heq =>
    rw [heq] at hback
    exact hback

/-- The notices of a queue. -/
theorem State.capNotice_capKept (s : State) (i : Nat) (batch : Bool) : CapKept q s (s.capNotice i batch) := by
  have hset : ∀ b h, CapKept q s (s.setCapq i { s.capq i with backlogWas := b, highWas := h }) := fun b h =>
    s.setCapq_capKept i rfl (.refl _)
  unfold State.capNotice
  dsimp only
  split
  · split
    · split
      · exact ((hset _ _).trans (State.setCapStatus_capKept _ _ _ _)).trans (State.levelMessage_capKept _ _ _)
      · exact (hset _ _).trans (State.setCapStatus_capKept _ _ _ _)
    · exact hset _ _
  · exact (hset _ _).trans (.beside rfl rfl fun _ _ => rfl)

end Sys2Proof.Machine
end

section
/-! SUPPORT. The memory of the sidings (R250, R251, R256): two bursts of a region have two places in it, a word that lands reads back with
its tag, and the words of other places and their check data stay. -/

namespace Sys2Proof.Machine

variable {s t : State} {q : Nat}

/-! ### Bytes of an image (R8) -/

/-- The bytes of a number from bytes are these bytes, with zeros above them. -/
theorem leBytes_leNat (l : List Byte) (n : Nat) (h : l.length ≤ n) : leBytes n (leNat l) = l ++ List.replicate (n - l.length) 0 := by
  induction n generalizing l with
  | zero =>
    obtain rfl := List.eq_nil_of_length_eq_zero (Nat.le_zero.1 h)
    rfl
  | succ n ih =>
    cases l with
    | nil => exact congrArg ((0 : Byte) :: ·) (ih [] (Nat.zero_le _))
    | cons b r =>
      have hb : b.toNat < 256 := b.isLt
      have hfirst : BitVec.ofNat 8 (b.toNat + 256 * leNat r) = b := BitVec.eq_of_toNat_eq (by simp; omega)
      have hrest : (b.toNat + 256 * leNat r) / 256 = leNat r := by omega
      simp only [leNat, leBytes, hfirst, hrest, ih r (Nat.le_of_succ_le_succ h), List.length_cons, Nat.reduceSubDiff, List.cons_append]

/-- The bytes of an image from bytes are these bytes, with zeros above them. -/
theorem imgBytes_imgOf (n : Nat) (l : List Byte) (h : l.length ≤ n) :
    imgBytes (imgOf (8 * n) l) = l ++ List.replicate (n - l.length) 0 := by
  have hlt : leNat l < 2 ^ (8 * n) := (leNat_lt l).trans_le (Nat.pow_le_pow_right Nat.two_pos (Nat.mul_le_mul_left 8 h))
  rw [imgBytes, imgOf, BitVec.toNat_ofNat, Nat.mod_eq_of_lt hlt, Nat.mul_div_cancel_left n (by decide)]
  exact leBytes_leNat l n h

/-- Bytes of a burst that was written from a list of at most 64 bytes. -/
theorem slice_imgBytes_imgOf (l : List Byte) (o n : Nat) (h : l.length ≤ 64) (hn : o + n ≤ l.length) :
    slice (imgBytes (imgOf 512 l)) o n = (l.drop o).take n := by
  have hbytes : imgBytes (imgOf 512 l) = l ++ List.replicate (64 - l.length) 0 := imgBytes_imgOf 64 l h
  have htake : ((l ++ List.replicate (64 - l.length) 0).drop o).take n = (l.drop o).take n := by
    rw [List.drop_append_of_le_length (by omega), List.take_append_of_le_length (by rw [List.length_drop]; omega)]
  rw [slice, hbytes, htake, List.length_take, List.length_drop, Nat.min_eq_left (by omega), Nat.sub_self]
  exact List.append_nil _

/-- One of the parts of equal length that make a list. -/
theorem take_drop_flatMap {α β : Type} (f : α → List β) (n : Nat) (l : List α) (h : ∀ x ∈ l, (f x).length = n) {i : Nat}
    (hi : i < l.length) : ((l.flatMap f).drop (n * i)).take n = f l[i] := by
  induction l generalizing i with
  | nil => simp at hi
  | cons a r ih =>
    have ha : (f a).length = n := h a (by simp)
    rw [List.flatMap_cons]
    cases i with
    | zero => simp [← ha]
    | succ i =>
      rw [show n * (i + 1) = (f a).length + n * i by rw [ha, Nat.mul_succ, Nat.add_comm], List.drop_length_add_append]
      exact ih (fun x hx => h x (by simp [hx])) (Nat.lt_of_succ_lt_succ hi)

theorem length_flatMap_const {α β : Type} (f : α → List β) (n : Nat) (l : List α) (h : ∀ x ∈ l, (f x).length = n) :
    (l.flatMap f).length = l.length * n := by
  rw [List.length_flatMap, List.map_congr_left h, List.map_const', List.sum_replicate, smul_eq_mul]

/-! ### What fixes a region (R250, R251) -/

/-- The same channels in service, and the same region of a queue. -/
structure SameRegion (q : Nat) (s t : State) : Prop where
  served : t.rg R.capMem = s.rg R.capMem
  region : t.rg (R.capSiding q) = s.rg (R.capSiding q)

theorem SameRegion.refl (s : State) : SameRegion q s s := ⟨rfl, rfl⟩

theorem SameRegion.trans {u : State} (h : SameRegion q s t) (k : SameRegion q t u) : SameRegion q s u :=
  ⟨k.served.trans h.served, k.region.trans h.region⟩

theorem CapKept.region (h : CapKept q s t) (hq : q < 64) : SameRegion q s t :=
  ⟨h.keys _ capKey_capMem, h.keys _ (capKey_capSiding hq)⟩

namespace SameRegion

variable (h : SameRegion q s t)
include h

theorem channels : t.channels = s.channels := by simp only [State.channels, State.bt, h.served]
theorem sidingBase : t.sidingBase q = s.sidingBase q := by simp only [State.sidingBase, State.fd, h.region]
theorem sidingSize : t.sidingSize q = s.sidingSize q := by simp only [State.sidingSize, State.fd, h.region]

theorem burstAt (g b : Nat) : t.burstAt q g b = s.burstAt q g b := by
  simp only [State.burstAt, h.channels, h.sidingBase]

theorem sidingWords (hoff : (t.capq q).off = (s.capq q).off) : t.sidingWords q = s.sidingWords q := by
  simp only [State.sidingWords, hoff, h.sidingSize]

theorem burst (hmem : t.cap.mem = s.cap.mem) (g b : Nat) : t.burst q g b = s.burst q g b := by
  simp only [State.burst, h.burstAt, hmem]

/-- A siding word reads as before where the memory and the check data on chip are as before. -/
theorem sidWord (hmem : t.cap.mem = s.cap.mem) (hcheck : (t.capq q).check = (s.capq q).check) : t.sidWord q = s.sidWord q := by
  funext x
  simp only [State.sidWord, State.checkOf, h.burst hmem, hcheck]

end SameRegion

/-! ### The place of a burst in the memory (R250, R251) -/

/-- Burst `b` of group `g` lies in a queue's region of 8,192 groups for each 4 MiB. -/
def State.inRegion (s : State) (q g b : Nat) : Prop := g < s.sidingSize q * 8192 ∧ b < 8

/-- A word's place is a burst of its group, in the region. -/
theorem State.inRegion_place {p : Nat} (h : p < s.sidingSize q * 57344) : s.inRegion q (p / 7) (p % 7) := by
  unfold State.inRegion
  omega

/-- The burst with the check data of a word's group is in the region. -/
theorem State.inRegion_check {p : Nat} (h : p < s.sidingSize q * 57344) : s.inRegion q (p / 7) 7 := by
  unfold State.inRegion
  omega

theorem State.nodup_channels (s : State) : s.channels.Nodup := List.nodup_range.filter _

/-- The byte address of a burst before it is spread over the channels (R251). -/
def State.burstAddr (s : State) (q g b : Nat) : Nat := s.sidingBase q * 4194304 + g * 512 + b * 64

/-- A burst of a region: its channel, and its key in the memory. -/
theorem State.burstAt_served (s : State) (q g b : Nat) (h : s.channels ≠ []) :
    ∃ i : Fin s.channels.length, i.val = s.burstAddr q g b / 2048 % s.channels.length ∧
      s.burstAt q g b = some (s.channels[i], s.channels[i] * 2 ^ 28 +
        (s.burstAddr q g b / (2048 * s.channels.length) * 2048 + s.burstAddr q g b % 2048) / 64) := by
  have hpos : 0 < s.channels.length := List.length_pos_of_ne_nil h
  have hmax : max 1 s.channels.length = s.channels.length := Nat.max_eq_right hpos
  refine ⟨⟨_, Nat.mod_lt (s.burstAddr q g b / 2048) hpos⟩, rfl, ?_⟩
  simp only [State.burstAt, State.burstAddr, hmax, List.getElem?_eq_getElem (Nat.mod_lt _ hpos), Option.map_some, Fin.getElem_fin]

/-- Two bursts of a region have the same place in the memory only when they are one. -/
theorem State.sidingSound.burst_injective (h : s.sidingSound q) {g b g' b' : Nat} (hin : s.inRegion q g b) (hin' : s.inRegion q g' b')
    {x x' : Nat × Nat} (hx : s.burstAt q g b = some x) (hx' : s.burstAt q g' b' = some x') (he : x.2 = x'.2) : g = g' ∧ b = b' := by
  obtain ⟨i, hi, hat⟩ := s.burstAt_served q g b h.served
  obtain ⟨i', hi', hat'⟩ := s.burstAt_served q g' b' h.served
  obtain rfl := Option.some.inj (hat.symm.trans hx)
  obtain rfl := Option.some.inj (hat'.symm.trans hx')
  obtain ⟨hg, hb⟩ := hin
  obtain ⟨hg', hb'⟩ := hin'
  have hfits := h.fits
  dsimp only at he
  have hrow : ∀ a, a < s.channels.length * 2 ^ 34 → a / (2048 * s.channels.length) < 2 ^ 23 := fun a ha =>
    Nat.div_lt_of_lt_mul (by rw [Nat.mul_right_comm]; omega)
  have ha : s.burstAddr q g b < s.channels.length * 2 ^ 34 := by unfold State.burstAddr; omega
  have ha' : s.burstAddr q g' b' < s.channels.length * 2 ^ 34 := by unfold State.burstAddr; omega
  have hr := hrow _ ha
  have hr' := hrow _ ha'
  have hsplit : ∀ a, a / (2048 * s.channels.length) * s.channels.length + a / 2048 % s.channels.length = a / 2048 := fun a => by
    rw [← Nat.div_div_eq_div_mul]
    exact Nat.div_add_mod' _ _
  have hs := hsplit (s.burstAddr q g b)
  have hs' := hsplit (s.burstAddr q g' b')
  generalize hA : s.burstAddr q g b / (2048 * s.channels.length) = A at he hr hs
  generalize hA' : s.burstAddr q g' b' / (2048 * s.channels.length) = A' at he hr' hs'
  have hchan : s.channels[i] = s.channels[i'] := by omega
  have hturn : A = A' := by omega
  have hline : s.burstAddr q g b % 2048 / 64 = s.burstAddr q g' b' % 2048 / 64 := by omega
  have hindex : i.val = i'.val := s.nodup_channels.getElem_inj_iff.1 hchan
  have hchunk : s.burstAddr q g b / 2048 = s.burstAddr q g' b' / 2048 := by rw [← hs, ← hs', hturn, ← hi, ← hi', hindex]
  unfold State.burstAddr at hchunk hline
  omega

/-! ### Writes of bursts -/

variable {p : Nat} {w : CapWord}

theorem State.writeBurst_region (s : State) (g b : Nat) (v : BitVec 512) : SameRegion q s (s.writeBurst q g b v) := by
  unfold State.writeBurst
  split <;> exact ⟨rfl, rfl⟩

theorem State.writeBurst_mem {g b : Nat} (v : BitVec 512) {x : Nat × Nat} (h : s.burstAt q g b = some x) :
    (s.writeBurst q g b v).cap.mem = kvSet 0 s.cap.mem x.2 v := by
  rw [State.writeBurst, h]

theorem State.writeBurst_capq (s : State) (g b : Nat) (v : BitVec 512) (j : Nat) : (s.writeBurst q g b v).capq j = s.capq j := by
  unfold State.writeBurst
  split <;> rfl

section
variable (h : s.sidingSound q)
include h

theorem State.sidingSound.burst_writeBurst_same (g b : Nat) (v : BitVec 512) : (s.writeBurst q g b v).burst q g b = v := by
  obtain ⟨i, -, hat⟩ := s.burstAt_served q g b h.served
  have hat' := (s.writeBurst_region (q := q) g b v).burstAt g b
  simp only [State.burst, hat', hat, State.writeBurst_mem v hat, kvGet_set_same]

theorem State.sidingSound.burst_writeBurst_other {g b g' b' : Nat} (v : BitVec 512) (hin : s.inRegion q g b) (hin' : s.inRegion q g' b')
    (hne : ¬ (g' = g ∧ b' = b)) : (s.writeBurst q g b v).burst q g' b' = s.burst q g' b' := by
  obtain ⟨i, -, hat⟩ := s.burstAt_served q g b h.served
  obtain ⟨i', -, hat'⟩ := s.burstAt_served q g' b' h.served
  have hat'' := (s.writeBurst_region (q := q) g b v).burstAt g' b'
  simp only [State.burst, hat'', hat', State.writeBurst_mem v hat]
  exact kvGet_set_other _ _ v fun e => hne (h.burst_injective hin' hin hat' hat e)

/-- The check data of a place have 9 bytes, on chip or in the memory. -/
theorem State.sidingSound.length_checkOf (p : Nat) : (s.checkOf q p).length = 9 := by
  unfold State.checkOf
  split
  · next x hx => exact h.checks x (List.mem_of_find?_eq_some hx)
  · exact length_slice _ _ _

end

/-! ### A word lands (R250) -/

/-- A word's burst is written, and its check data are on chip. -/
def State.storeWord (s : State) (q p : Nat) (w : CapWord) : State :=
  let s1 := s.writeBurst q (p / 7) (p % 7) w.data
  s1.setCapq q { s1.capq q with check := (s1.capq q).check.filter (fun x => x.1 != p) ++ [(p, w.check)] }

/-- The check data of the seven places of a group. -/
def State.groupCheck (s : State) (q g : Nat) : List Byte := (List.range 7).flatMap (fun i => s.checkOf q (7 * g + i))

/-- A group is complete: its check data go to its burst 7. -/
def State.sealGroup (s : State) (q g : Nat) : State :=
  let s1 := s.writeBurst q g 7 (imgOf 512 (s.groupCheck q g))
  s1.setCapq q { s1.capq q with check := (s1.capq q).check.filter (fun x => x.1 / 7 != g) }

/-- A spilled word is stored, and seals its group unless the group is open. -/
theorem State.land_eq (s : State) (q p : Nat) (w : CapWord) :
    s.land q p w = if ((s.storeWord q p w).capq q).groupOpen p then s.storeWord q p w else (s.storeWord q p w).sealGroup q (p / 7) := rfl

theorem State.storeWord_region (s : State) (p : Nat) (w : CapWord) : SameRegion q s (s.storeWord q p w) :=
  (s.writeBurst_region (p / 7) (p % 7) w.data).trans ⟨rfl, rfl⟩

theorem State.sealGroup_region (s : State) (g : Nat) : SameRegion q s (s.sealGroup q g) :=
  (s.writeBurst_region g 7 (imgOf 512 (s.groupCheck q g))).trans ⟨rfl, rfl⟩

theorem State.storeWord_capq (s : State) (p : Nat) (w : CapWord) : (s.storeWord q p w).capq q =
    { s.capq q with check := (s.capq q).check.filter (fun x => x.1 != p) ++ [(p, w.check)] } := by
  rw [State.storeWord, State.capq_setCapq_same, State.writeBurst_capq]

theorem State.sealGroup_capq (s : State) (g : Nat) : (s.sealGroup q g).capq q =
    { s.capq q with check := (s.capq q).check.filter (fun x => x.1 / 7 != g) } := by
  rw [State.sealGroup, State.capq_setCapq_same, State.writeBurst_capq]

/-- A queue's soundness does not turn on what the memory holds. -/
theorem State.sidingSound.of_check (h : s.sidingSound q) {l : List (Nat × List Byte)} (hr : SameRegion q s t)
    (hq : t.capq q = { s.capq q with check := l }) (hl : ∀ x ∈ l, x.2.length = 9) : t.sidingSound q where
  served := by rw [hr.channels]; exact h.served
  fits := by rw [hr.channels, hr.sidingBase, hr.sidingSize]; exact h.fits
  inside := by rw [hr.sidingSize, hq]; exact h.inside
  apart := by rw [hq]; exact h.apart
  next := by rw [hr.sidingSize, hq]; exact h.next
  checks := by rw [hq]; exact hl

theorem CapWord.length_check (w : CapWord) : w.check.length = 9 := by simp [CapWord.check]

/-- The last byte of a word's check data is its tag. -/
theorem CapWord.check_tag (w : CapWord) : byteAt w.check 8 = w.tag := by simp [CapWord.check, byteAt]

/-- What a place of a region holds, its word and its check data, is as before. -/
def SamePlace (q : Nat) (s t : State) (p : Nat) : Prop :=
  t.burst q (p / 7) (p % 7) = s.burst q (p / 7) (p % 7) ∧ t.checkOf q p = s.checkOf q p

theorem SamePlace.sidWord {x : SidWord} (h : SamePlace q s t x.place) : t.sidWord q x = s.sidWord q x := by
  obtain ⟨hburst, hcheck⟩ := h
  rw [State.sidWord, State.sidWord, hburst, hcheck]

section
variable (h : s.sidingSound q)
include h

theorem State.sidingSound.storeWord (p : Nat) (w : CapWord) : (s.storeWord q p w).sidingSound q := by
  refine h.of_check (s.storeWord_region p w) (s.storeWord_capq p w) fun x hx => ?_
  rcases List.mem_append.1 hx with hx | hx
  · exact h.checks x (List.mem_of_mem_filter hx)
  · rw [List.mem_singleton.1 hx]
    exact w.length_check

theorem State.sidingSound.sealGroup (g : Nat) : (s.sealGroup q g).sidingSound q :=
  h.of_check (s.sealGroup_region g) (s.sealGroup_capq g) fun x hx => h.checks x (List.mem_of_mem_filter hx)

/-- The burst and the check data of a word that is stored read back. -/
theorem State.sidingSound.sidWord_storeWord (p : Nat) (w : CapWord) (l : Bool) :
    (s.storeWord q p w).sidWord q { place := p, last := l } = w := by
  have hdata : (s.storeWord q p w).burst q (p / 7) (p % 7) = w.data := h.burst_writeBurst_same _ _ _
  have hfind : ((s.storeWord q p w).capq q).check.find? (fun x => x.1 == p) = some (p, w.check) := by
    have hgone : ((s.capq q).check.filter (fun x => x.1 != p)).find? (fun x => x.1 == p) = none :=
      List.find?_eq_none.2 fun x hx => by simpa using (List.mem_filter.1 hx).2
    rw [s.storeWord_capq, List.find?_append, hgone]
    simp
  have hcheck : (s.storeWord q p w).checkOf q p = w.check := by rw [State.checkOf, hfind]
  rw [State.sidWord, hdata, hcheck, w.check_tag]

/-- A word that is stored leaves every other place as it was. -/
theorem State.sidingSound.storeWord_other {p j : Nat} (w : CapWord) (hp : p < s.sidingSize q * 57344) (hj : j < s.sidingSize q * 57344)
    (hne : j ≠ p) : SamePlace q s (s.storeWord q p w) j := by
  have hburst : ∀ b, s.inRegion q (j / 7) b → ¬ (j / 7 = p / 7 ∧ b = p % 7) →
      (s.storeWord q p w).burst q (j / 7) b = s.burst q (j / 7) b := fun b hb => h.burst_writeBurst_other _ (s.inRegion_place hp) hb
  have hfind : ((s.storeWord q p w).capq q).check.find? (fun x => x.1 == j) = (s.capq q).check.find? (fun x => x.1 == j) := by
    have hlast : [(p, w.check)].find? (fun x => x.1 == j) = none := by simp [hne.symm]
    rw [s.storeWord_capq, List.find?_append, hlast, Option.or_none, List.find?_filter]
    refine congrArg (fun f => List.find? f _) (funext fun x => ?_)
    by_cases hx : x.1 = j <;> simp [hx, hne]
  refine ⟨hburst _ (s.inRegion_place hj) (by omega), ?_⟩
  rw [State.checkOf, State.checkOf, hfind, hburst 7 (s.inRegion_check hj) (by omega)]

/-- Check data that leave the chip for burst 7 read as before, and so does everything else. -/
theorem State.sidingSound.sealGroup_place {g j : Nat} (hg : g < s.sidingSize q * 8192) (hj : j < s.sidingSize q * 57344) :
    SamePlace q s (s.sealGroup q g) j := by
  have hin : s.inRegion q g 7 := ⟨hg, by decide⟩
  refine ⟨h.burst_writeBurst_other _ hin (s.inRegion_place hj) (by omega), ?_⟩
  have hcheck := s.sealGroup_capq (q := q) g
  rw [State.checkOf, hcheck, List.find?_filter]
  by_cases hgroup : j / 7 = g
  · have hnone : (s.capq q).check.find? (fun x => decide ((x.1 / 7 != g) = true ∧ (x.1 == j) = true)) = none := by
      simp only [List.find?_eq_none, decide_eq_true_eq, not_and, bne_iff_ne, beq_iff_eq]
      rintro x - hx rfl
      exact hx hgroup
    have hlen : ∀ i ∈ List.range 7, (s.checkOf q (7 * g + i)).length = 9 := fun i _ => h.length_checkOf _
    have hall : (s.groupCheck q g).length = 63 := length_flatMap_const _ 9 _ hlen
    have hslot : j % 7 < (List.range 7).length := by rw [List.length_range]; omega
    have hpart := take_drop_flatMap (fun i => s.checkOf q (7 * g + i)) 9 (List.range 7) hlen hslot
    rw [List.getElem_range] at hpart
    have hburst : (s.sealGroup q g).burst q (j / 7) 7 = imgOf 512 (s.groupCheck q g) := hgroup ▸ h.burst_writeBurst_same _ _ _
    simp only [hnone, hburst]
    rw [slice_imgBytes_imgOf _ _ _ (by omega) (by omega)]
    exact hpart.trans (congrArg (s.checkOf q) (by omega))
  · have hkept : (fun x : Nat × List Byte => decide ((x.1 / 7 != g) = true ∧ (x.1 == j) = true)) = fun x => x.1 == j := by
      funext x
      by_cases hx : x.1 = j <;> simp [hx, hgroup]
    have hburst : (s.sealGroup q g).burst q (j / 7) 7 = s.burst q (j / 7) 7 :=
      h.burst_writeBurst_other _ hin (s.inRegion_check hj) (fun e => hgroup e.1)
    simp only [hkept, hburst]
    rfl

theorem State.sidingSound.land (p : Nat) (w : CapWord) : (s.land q p w).sidingSound q := by
  rw [s.land_eq]
  split
  · exact h.storeWord p w
  · exact (h.storeWord p w).sealGroup _

/-- A word that lands reads back with its tag. -/
theorem State.sidingSound.sidWord_land {p : Nat} (w : CapWord) (l : Bool) (hp : p < s.sidingSize q * 57344) :
    (s.land q p w).sidWord q { place := p, last := l } = w := by
  have hsize := (s.storeWord_region (q := q) p w).sidingSize
  have hstored := h.sidWord_storeWord p w l
  rw [s.land_eq]
  split
  · exact hstored
  · exact (SamePlace.sidWord (x := { place := p, last := l })
      ((h.storeWord p w).sealGroup_place (by rw [hsize]; omega) (by rw [hsize]; exact hp))).trans hstored

/-- A word that lands leaves the words of every other place as they were. -/
theorem State.sidingSound.sidWord_land_other {p : Nat} {x : SidWord} (w : CapWord) (hp : p < s.sidingSize q * 57344)
    (hx : x.place < s.sidingSize q * 57344) (hne : x.place ≠ p) : (s.land q p w).sidWord q x = s.sidWord q x := by
  have hsize := (s.storeWord_region (q := q) p w).sidingSize
  have hstored := (h.storeWord_other w hp hx hne).sidWord
  rw [s.land_eq]
  split
  · exact hstored
  · exact (SamePlace.sidWord (x := x) ((h.storeWord p w).sealGroup_place (by rw [hsize]; omega) (by rw [hsize]; exact hx))).trans hstored

end

theorem State.land_region (s : State) (p : Nat) (w : CapWord) : SameRegion q s (s.land q p w) := by
  have hstored := s.storeWord_region (q := q) p w
  rw [s.land_eq]
  split
  · exact hstored
  · exact hstored.trans (State.sealGroup_region _ _)

/-- A word that lands changes nothing of its queue but the check data on chip. -/
theorem State.land_capq (s : State) (p : Nat) (w : CapWord) :
    (s.land q p w).capq q = { s.capq q with check := ((s.land q p w).capq q).check } := by
  rw [s.land_eq]
  split
  · rw [s.storeWord_capq]
  · rw [State.sealGroup_capq, s.storeWord_capq]

end Sys2Proof.Machine
end

section
/-! SUPPORT. The words of a capture queue in order (R249): what each movement of a word, on chip or to and from the siding, leaves of the
order, of the places in the region and of the room. -/

namespace Sys2Proof.Machine

variable {s t u : State} {q : Nat}

/-! ### Moves on chip (R249) -/

/-- Words moved between a queue's lane and its platforms: everything else stays, and so does the order of the words around what stands
between the platforms. -/
structure Moved (c d : CapQ) : Prop where
  rest : ({ d with head := [], tail := [], writing := [] } : CapQ) = { c with head := [], tail := [], writing := [] }
  order : ∀ m : List CapWord, (c.siding = [] → c.spilling = [] → m = []) →
    d.head ++ m ++ d.tail ++ d.writing = c.head ++ m ++ c.tail ++ c.writing

namespace Moved

variable {c d e : CapQ}

theorem refl (c : CapQ) : Moved c c := ⟨rfl, fun _ _ => rfl⟩

theorem siding (h : Moved c d) : d.siding = c.siding := (congrArg CapQ.siding h.rest :)
theorem spilling (h : Moved c d) : d.spilling = c.spilling := (congrArg CapQ.spilling h.rest :)
theorem check (h : Moved c d) : d.check = c.check := (congrArg CapQ.check h.rest :)
theorem close (h : Moved c d) : d.close = c.close := (congrArg CapQ.close h.rest :)
theorem off (h : Moved c d) : d.off = c.off := (congrArg CapQ.off h.rest :)
theorem wr (h : Moved c d) : d.wr = c.wr := (congrArg CapQ.wr h.rest :)
theorem copies (h : Moved c d) : d.copies = c.copies := (congrArg CapQ.copies h.rest :)

theorem trans (h : Moved c d) (k : Moved d e) : Moved c e :=
  ⟨k.rest.trans h.rest, fun m hm => (k.order m (by rw [h.siding, h.spilling]; exact hm)).trans (h.order m hm)⟩

/-- No word is lost or made. -/
theorem size (h : Moved c d) : d.occ + d.writing.length = c.occ + c.writing.length := by
  have hlen := congrArg List.length (h.order [] fun _ _ => rfl)
  simp only [List.length_append] at hlen
  simp only [CapQ.occ, h.siding, h.spilling]
  omega

end Moved

variable {c d : CapQ}

theorem CapQ.goDirect_moved (h : c.goDirect = some d) : Moved c d ∧ d.writing = c.writing := by
  unfold CapQ.goDirect at h
  split at h
  case h_2 => simp at h
  case h_1 w r htail =>
    split at h
    case isFalse => simp at h
    case isTrue hdirect =>
      obtain rfl := Option.some.inj h
      simp only [CapQ.direct, Bool.and_eq_true, List.isEmpty_iff] at hdirect
      obtain ⟨⟨⟨⟨hsiding, hspilling⟩, -⟩, -⟩, -⟩ := hdirect
      exact ⟨⟨rfl, fun m hm => by simp [hm hsiding hspilling, htail]⟩, rfl⟩

theorem CapQ.takeWriting_moved {v : CapWord} {r : List CapWord} (h : c.writing = v :: r) :
    Moved c { c with tail := c.tail ++ [v], writing := r } := ⟨rfl, fun m _ => by simp [h]⟩

/-- While the words fit the queue, nothing is overwritten. -/
theorem pumpQ_moved (cap k : Nat) (x : Pumped) (h : x.c.occ + x.c.writing.length ≤ cap) : Moved x.c (pumpQ cap k x).c := by
  induction k generalizing x with
  | zero => exact .refl _
  | succ k ih =>
    have hstep : ∀ y : Pumped, Moved x.c y.c → Moved x.c (pumpQ cap k y).c := fun y hy => hy.trans (ih y (hy.size.trans_le h))
    unfold pumpQ
    dsimp only
    split
    · next d hd => exact hstep _ (CapQ.goDirect_moved hd).1
    · exact .refl _
    · next v r _ hw =>
      rw [hw, List.length_cons] at h
      rw [if_neg (by omega)]
      split
      · exact .refl _
      · exact hstep _ (CapQ.takeWriting_moved hw)

/-- A record is finished when its lane has no word left. -/
theorem pumpQ_finished (cap k : Nat) (x : Pumped) (h : x.finished = true → x.c.writing = []) :
    (pumpQ cap k x).finished = true → (pumpQ cap k x).c.writing = [] := by
  induction k generalizing x with
  | zero => exact h
  | succ k ih =>
    unfold pumpQ
    dsimp only
    split
    · next d hd => exact ih _ fun hf => (CapQ.goDirect_moved hd).2.trans (h hf)
    · exact h
    · next v r _ hw =>
      split
      · split
        · exact ih _ fun hf => absurd (h hf) (by simp [hw])
        · exact h
      · split
        · exact h
        · exact ih _ fun hf => List.isEmpty_iff.1 hf

/-- What follows the moves on chip: lost items, the end of the record and the notices. -/
theorem State.pump_capKept (s : State) (i : Nat) (batch : Bool) :
    CapKept q (s.setCapq i (pumpQ (64 + s.sidingWords i) 2000 { c := s.capq i }).c) (s.pump i batch) := by
  have hfinished := pumpQ_finished (64 + s.sidingWords i) 2000 { c := s.capq i } nofun
  unfold State.pump
  generalize pumpQ (64 + s.sidingWords i) 2000 { c := s.capq i } = x at hfinished ⊢
  have hlost : ∀ j, CapKept j (s.setCapq i x.c) ((s.setCapq i x.c).capLost i x.lost) := fun j => State.capLost_capKept _ i x.lost
  have hcount : ∀ (j : Nat) (a : State), CapKept j a (a.countWide (R.capRecs i)) := fun _ _ => .beside rfl rfl fun _ _ => rfl
  dsimp only
  split
  · next hf =>
    have hw := ((hlost i).trans (hcount i _)).writing.trans ((congrArg CapQ.writing (s.capq_setCapq_same i x.c)).trans (hfinished hf))
    exact (((hlost q).trans (hcount q _)).trans (State.endWriting_capKept _ hw)).trans (State.capNotice_capKept _ i batch)
  · exact (hlost q).trans (State.capNotice_capKept _ i batch)

/-- The moves of another queue. -/
theorem State.pump_capKept_other (s : State) {i : Nat} (batch : Bool) (h : q ≠ i) : CapKept q s (s.pump i batch) :=
  (s.setCapq_capKept_other _ h).trans (s.pump_capKept i batch)

/-! ### The words of a queue in order (R249) -/

/-- A queue's words in order, those that its lane still has to write at the end. -/
def State.capOrder (s : State) (q : Nat) : List CapWord := s.capWords q ++ (s.capq q).writing

theorem State.length_capOrder (s : State) (q : Nat) : (s.capOrder q).length = (s.capq q).occ + (s.capq q).writing.length := by
  simp only [State.capOrder, State.capWords, CapQ.occ, List.length_append, List.length_map]

/-- The words of a queue after a write of it that leaves its check data. -/
theorem State.capOrder_setCapq (s : State) {d : CapQ} (h : d.check = (s.capq q).check) : (s.setCapq q d).capOrder q =
    d.head ++ d.siding.map (s.sidWord q) ++ d.spilling.map (·.2) ++ d.tail ++ d.writing := by
  have hword : (s.setCapq q d).sidWord q = s.sidWord q :=
    SameRegion.sidWord ⟨rfl, rfl⟩ rfl (by rw [s.capq_setCapq_same]; exact h)
  rw [State.capOrder, State.capWords, hword, s.capq_setCapq_same]

theorem SameRegion.capWords (h : SameRegion q s t) (hcap : t.cap = s.cap) : t.capWords q = s.capWords q := by
  have hq : t.capq q = s.capq q := by rw [State.capq, hcap]; rfl
  rw [State.capWords, State.capWords, h.sidWord (congrArg CapUnit.mem hcap) (congrArg CapQ.check hq), hq]

/-- A queue's words keep their order, its siding stays sound and its room stays. -/
structure InOrder (q : Nat) (s t : State) : Prop where
  order : t.capOrder q = s.capOrder q
  sound : s.sidingSound q → t.sidingSound q
  room : t.sidingWords q = s.sidingWords q

theorem InOrder.refl (s : State) : InOrder q s s := ⟨rfl, id, rfl⟩

theorem InOrder.trans (h : InOrder q s t) (k : InOrder q t u) : InOrder q s u :=
  ⟨k.order.trans h.order, k.sound ∘ h.sound, k.room.trans h.room⟩

theorem CapKept.capWords (hq : q < 64) (h : CapKept q s t) : t.capWords q = s.capWords q := by
  simp only [State.capWords, (h.region hq).sidWord h.mem h.check, h.head, h.siding, h.spilling, h.tail]

theorem CapKept.capOrder (hq : q < 64) (h : CapKept q s t) : t.capOrder q = s.capOrder q := by
  rw [State.capOrder, State.capOrder, h.capWords hq, h.writing]

theorem CapKept.inOrder (hq : q < 64) (h : CapKept q s t) : InOrder q s t := by
  have hr := h.region hq
  have hplaces : (t.capq q).places = (s.capq q).places := by rw [CapQ.places, CapQ.places, h.siding, h.spilling]
  exact {
    order := h.capOrder hq
    room := hr.sidingWords h.off
    sound := fun k => {
      served := by rw [hr.channels]; exact k.served
      fits := by rw [hr.channels, hr.sidingBase, hr.sidingSize]; exact k.fits
      inside := by rw [hplaces, hr.sidingSize]; exact k.inside
      apart := by rw [hplaces]; exact k.apart
      next := by rw [h.wr, hr.sidingSize]; exact k.next
      checks := by rw [h.check]; exact k.checks } }

/-- A queue that is written stays sound when its places do. -/
theorem State.sidingSound.setCapq (h : s.sidingSound q) {d : CapQ} (hinside : ∀ x ∈ d.places, x < s.sidingSize q * 57344)
    (hapart : d.places.Nodup) (hnext : d.wr < max 1 (s.sidingSize q * 57344)) (hchecks : ∀ x ∈ d.check, x.2.length = 9) :
    (s.setCapq q d).sidingSound q where
  served := h.served
  fits := h.fits
  inside := by rw [s.capq_setCapq_same]; exact hinside
  apart := by rw [s.capq_setCapq_same]; exact hapart
  next := by rw [s.capq_setCapq_same]; exact hnext
  checks := by rw [s.capq_setCapq_same]; exact hchecks

theorem State.sidingWords_setCapq (s : State) {d : CapQ} (h : d.off = (s.capq q).off) : (s.setCapq q d).sidingWords q = s.sidingWords q :=
  SameRegion.sidingWords ⟨rfl, rfl⟩ (by rw [s.capq_setCapq_same]; exact h)

/-- Moves on chip keep the order of the words. -/
theorem State.setMoved_inOrder (s : State) (h : Moved (s.capq q) d) : InOrder q s (s.setCapq q d) where
  order := by
    have hmid : (s.capq q).siding = [] → (s.capq q).spilling = [] →
        (s.capq q).siding.map (s.sidWord q) ++ (s.capq q).spilling.map (·.2) = [] := fun hs hp => by simp [hs, hp]
    have horder := h.order _ hmid
    rw [s.capOrder_setCapq h.check, State.capOrder, State.capWords, h.siding, h.spilling]
    simpa only [List.append_assoc] using horder
  room := s.sidingWords_setCapq h.off
  sound := fun k => by
    have hplaces : d.places = (s.capq q).places := by rw [CapQ.places, CapQ.places, h.siding, h.spilling]
    exact k.setCapq (hplaces ▸ k.inside) (hplaces ▸ k.apart) (h.wr ▸ k.next) (h.check ▸ k.checks)

/-- While its words fit the queue, a pump overwrites nothing. -/
theorem State.pump_moved (s : State) (h : (s.capOrder q).length ≤ 64 + s.sidingWords q) :
    Moved (s.capq q) (pumpQ (64 + s.sidingWords q) 2000 { c := s.capq q }).c :=
  pumpQ_moved (64 + s.sidingWords q) 2000 { c := s.capq q } (by rwa [s.length_capOrder] at h)

/-- While its words fit the queue, everything that can move on chip moves in order. -/
theorem State.pump_inOrder (s : State) (hq : q < 64) (batch : Bool) (h : (s.capOrder q).length ≤ 64 + s.sidingWords q) :
    InOrder q s (s.pump q batch) :=
  (s.setMoved_inOrder (s.pump_moved h)).trans ((s.pump_capKept q batch).inOrder hq)

theorem InOrder.pump (h : InOrder q s t) (hq : q < 64) (hroom : (s.capOrder q).length ≤ 64 + s.sidingWords q) (batch : Bool) :
    InOrder q s (t.pump q batch) :=
  h.trans (t.pump_inOrder hq batch (by rwa [h.order, h.room]))

/-- A closing word that waits goes on waiting while words move. -/
theorem State.pump_close (s : State) (batch : Bool) (h : (s.capOrder q).length ≤ 64 + s.sidingWords q) :
    ((s.pump q batch).capq q).close = (s.capq q).close :=
  (s.pump_capKept q batch).close.trans ((congrArg CapQ.close (s.capq_setCapq_same q _)).trans (s.pump_moved h).close)

/-- The copies that wait for the ladle are those from before, without evicted ones. -/
theorem State.pump_copies (s : State) (batch : Bool) (h : (s.capOrder q).length ≤ 64 + s.sidingWords q) :
    ((s.pump q batch).capq q).copies.Sublist (s.capq q).copies := by
  have hkept := (s.pump_capKept (q := q) q batch).copies
  rwa [s.capq_setCapq_same, (s.pump_moved h).copies] at hkept

/-! ### Fills (R249, R256) -/

/-- The fills in flight take no part in the order of the words. -/
theorem State.setFills_inOrder (s : State) (l : List Bool) : InOrder q s (s.setCapq q { s.capq q with fills := l }) :=
  ⟨s.capOrder_setCapq rfl, fun k => k.setCapq k.inside k.apart k.next k.checks, s.sidingWords_setCapq rfl⟩

/-- A queue whose first siding word is at the end of the head platform. -/
def State.filled (s : State) (q : Nat) (l : List Bool) (x : SidWord) (r : List SidWord) : State :=
  s.setCapq q { s.capq q with fills := l, siding := r, head := (s.capq q).head ++ [s.sidWord q x] }

theorem State.filled_inOrder (s : State) (l : List Bool) {x : SidWord} {r : List SidWord} (h : (s.capq q).siding = x :: r) :
    InOrder q s (s.filled q l x r) where
  order := by
    refine (s.capOrder_setCapq ?_).trans ?_
    · rfl
    · simp [State.capOrder, State.capWords, h]
  room := s.sidingWords_setCapq rfl
  sound := fun k => by
    have hsub : (r.map SidWord.place ++ (s.capq q).spilling.map (·.1)).Sublist (s.capq q).places := by
      rw [CapQ.places, h]
      exact List.sublist_cons_self _ _
    exact k.setCapq (fun y hy => k.inside y (hsub.subset hy)) (k.apart.sublist hsub) k.next k.checks

/-- A check that trusts the tag leaves the queue and its siding as they were. -/
theorem State.checkWord_capKept (s : State) (i idx : Nat) {e : Ecc} (w : CapWord) (h : e ≠ .tag) :
    CapKept q s (s.checkWord i idx e w).2 := by
  cases e with
  | clean => exact .refl s
  | corrected => exact s.setKey_capKept _ (by unfold capKey R.capEccCorr; omega)
  | data =>
    have hcount : CapKept q s (s.count (R.capEccUncorr i)) := s.setKey_capKept _ (by unfold capKey R.capEccUncorr; omega)
    exact (hcount.trans (State.setCapStatus_capKept _ i 7 true)).trans (State.report_reported _ _ _ _ _ _ _).capKept
  | tag => exact absurd rfl h

/-- A check without an error that stays delivers the word as it was read. -/
theorem State.checkWord_word (s : State) (i idx : Nat) {e : Ecc} (w : CapWord) (h : e = .clean ∨ e = .corrected) :
    (s.checkWord i idx e w).1 = w := by
  rcases h with rfl | rfl <;> rfl

/-- A fill whose check is clean or corrected keeps the order: a word that is gone is discarded, one that is there moves to the head
platform. -/
theorem State.fillDone_inOrder (s : State) (hq : q < 64) {e : Ecc} (he : e = .clean ∨ e = .corrected)
    (hroom : (s.capOrder q).length ≤ 64 + s.sidingWords q) : InOrder q s (s.fillDone q e) := by
  have htag : e ≠ .tag := by rcases he with rfl | rfl <;> decide
  have hdata : e ≠ .data := by rcases he with rfl | rfl <;> decide
  unfold State.fillDone
  dsimp only
  split
  case h_1 => exact (s.setFills_inOrder _).pump hq hroom _
  case h_3 => exact .refl s
  case h_2 fl x r _ hsiding =>
    have hkept := s.checkWord_capKept (q := q) q (s.capq q).sidingIndex (s.sidWord q x) htag
    have hword := s.checkWord_word q (s.capq q).sidingIndex (s.sidWord q x) he
    generalize s.checkWord q (s.capq q).sidingIndex e (s.sidWord q x) = y at hkept hword ⊢
    obtain ⟨v, s1⟩ := y
    obtain rfl : v = s1.sidWord q x := hword.trans (congrFun ((hkept.region hq).sidWord hkept.mem hkept.check) x).symm
    simp only [if_neg htag, if_neg hdata]
    exact ((hkept.inOrder hq).trans (s1.filled_inOrder fl (hkept.siding.trans hsiding))).pump hq hroom _

/-! ### Spills (R249, R250) -/

/-- A queue whose first spill in flight is the last word of its siding. -/
def State.spillLanded (s : State) (q p : Nat) (w : CapWord) (r : List (Nat × CapWord)) : State :=
  (s.land q p w).setCapq q { (s.land q p w).capq q with
    spilling := r, siding := (s.capq q).siding ++ [{ place := p, last := w.isEnd }] }

theorem State.sidingSound.spillLanded_inOrder (h : s.sidingSound q) {p : Nat} {w : CapWord} {r : List (Nat × CapWord)}
    (hspill : (s.capq q).spilling = (p, w) :: r) : InOrder q s (s.spillLanded q p w r) := by
  have hcapq := s.land_capq (q := q) p w
  have hplaces : (s.capq q).places = (s.capq q).siding.map SidWord.place ++ p :: r.map (·.1) := by rw [CapQ.places, hspill]; rfl
  have hp : p < s.sidingSize q * 57344 := h.inside p (by simp [hplaces])
  have hold : (s.capq q).siding.map ((s.land q p w).sidWord q) = (s.capq q).siding.map (s.sidWord q) := List.map_congr_left fun x hx => by
    have hx' : x.place ∈ (s.capq q).siding.map SidWord.place := List.mem_map_of_mem hx
    have hapart := h.apart
    rw [hplaces, List.nodup_append'] at hapart
    obtain ⟨-, -, hapart⟩ := hapart
    exact h.sidWord_land_other w hp (h.inside _ (by rw [hplaces]; exact List.mem_append_left _ hx')) fun e =>
      hapart hx' (e ▸ List.mem_cons_self)
  unfold State.spillLanded
  refine ⟨?_, fun _ => ?_, ?_⟩
  · refine (State.capOrder_setCapq _ ?_).trans ?_
    · rfl
    · rw [List.map_append, hold, hcapq, State.capOrder, State.capWords, hspill]
      simp [h.sidWord_land w w.isEnd hp]
  · have hsound := h.land p w
    have hsame : ((s.land q p w).capq q).places = (s.capq q).places := by rw [hcapq]; rfl
    have hnew : (s.capq q).places =
        ((s.capq q).siding ++ [({ place := p, last := w.isEnd } : SidWord)]).map SidWord.place ++ r.map (·.1) := by
      simp [hplaces]
    have hinside := hsound.inside
    have hapart := hsound.apart
    rw [hsame, hnew] at hinside hapart
    exact hsound.setCapq hinside hapart hsound.next hsound.checks
  · refine (State.sidingWords_setCapq _ ?_).trans ((s.land_region p w).sidingWords ?_)
    · rfl
    · rw [hcapq]

/-- A spill that completes keeps the order. -/
theorem State.sidingSound.spillDone_inOrder (h : s.sidingSound q) (hq : q < 64) (e : Ecc)
    (hroom : (s.capOrder q).length ≤ 64 + s.sidingWords q) : InOrder q s (sidingBurstDone ⟨q, hq⟩ false e s) := by
  unfold sidingBurstDone
  dsimp only
  rw [if_neg Bool.false_ne_true]
  split
  · exact .refl s
  · next p w r hspill => exact (h.spillLanded_inOrder hspill).pump hq hroom _

end Sys2Proof.Machine
end

section
/-! SUPPORT. The grants of the capture memory arbiter, a closing word, a pop and a ladle lane (R244, R249, R250, R258, R263): what each
leaves of the words of a capture queue. -/

namespace Sys2Proof.Machine

variable {s t : State} {q : Nat}

/-! ### The place of the next spill (R250) -/

theorem freePlace_lt (used : List Nat) {cap : Nat} (k : Nat) {p : Nat} (h : p < cap) : freePlace used cap k p < cap := by
  induction k generalizing p with
  | zero => exact h
  | succ k ih =>
    unfold freePlace
    split
    · exact ih (Nat.mod_lt _ (by omega))
    · exact h

/-- The place found is free, unless as many places in a row are in use as were tried. -/
theorem freePlace_free (used : List Nat) {cap : Nat} (k : Nat) {p : Nat} (h : p < cap) :
    freePlace used cap k p ∉ used ∨ ∀ i < k, (p + i) % cap ∈ used := by
  induction k generalizing p with
  | zero => exact .inr fun _ hi => absurd hi (Nat.not_lt_zero _)
  | succ k ih =>
    unfold freePlace
    split
    · next hp =>
      refine (ih (Nat.mod_lt (p + 1) (by omega))).imp_right fun hall i hi => ?_
      cases i with
      | zero => rw [Nat.add_zero, Nat.mod_eq_of_lt h]; exact List.contains_iff_mem.1 hp
      | succ i =>
        have hi' := hall i (by omega)
        rwa [Nat.mod_add_mod, show p + 1 + i = p + (i + 1) by omega] at hi'
    · next hp => exact .inl fun hm => hp (List.contains_iff_mem.2 hm)

/-- A region with room has a free place among one more than are in use. -/
theorem freePlace_room {used : List Nat} {cap p : Nat} (h : p < cap) (hroom : used.length < cap) :
    freePlace used cap (used.length + 1) p ∉ used := by
  refine (freePlace_free used (used.length + 1) h).resolve_right fun hall => ?_
  have hnodup : ((List.range (used.length + 1)).map (fun i => (p + i) % cap)).Nodup := by
    refine List.Nodup.map_on (fun i hi j hj hij => ?_) List.nodup_range
    rw [List.mem_range] at hi hj
    exact (Nat.ModEq.add_left_cancel' p hij).eq_of_lt_of_lt (by omega) (by omega)
  have hsub : (List.range (used.length + 1)).map (fun i => (p + i) % cap) ⊆ used := fun x hx => by
    obtain ⟨i, hi, rfl⟩ := List.mem_map.1 hx
    exact hall i (List.mem_range.1 hi)
  have hlen := (hnodup.subperm hsub).length_le
  rw [List.length_map, List.length_range] at hlen
  omega

/-! ### Grants of the capture memory (R135, R249) -/

theorem fullest_mem (credit : List (Nat × Nat)) {l : List Nat} {i : Nat} (h : fullest credit l = some i) : i ∈ l := by
  induction l generalizing i with
  | nil => simp [fullest] at h
  | cons a r ih =>
    unfold fullest at h
    split at h
    · exact Option.some.inj h ▸ List.mem_cons_self
    · next j hj =>
      split at h <;> obtain rfl := Option.some.inj h
      · exact List.mem_cons_of_mem _ (ih hj)
      · exact List.mem_cons_self

theorem longest_mem (last : List (Nat × Nat)) {l : List Nat} {i : Nat} (h : longest last l = some i) : i ∈ l := by
  induction l generalizing i with
  | nil => simp [longest] at h
  | cons a r ih =>
    unfold longest at h
    split at h
    · exact Option.some.inj h ▸ List.mem_cons_self
    · next j hj =>
      split at h <;> obtain rfl := Option.some.inj h
      · exact List.mem_cons_of_mem _ (ih hj)
      · exact List.mem_cons_self

/-- The winner of an arbiter is one of the ready requesters. -/
theorem State.pick_mem (s : State) (a : ArbId) {l : List Nat} {i : Nat} (h : s.pick a l = some i) : i ∈ l := by
  unfold State.pick Arb.pick at h
  split at h
  · exact longest_mem _ h
  · exact fullest_mem _ h

/-- A requester below 64 that is ready is a queue that may spill. -/
theorem State.spillReady_of_memReady {c i : Nat} (h : i ∈ s.memReady c) (hi : i < 64) : s.spillReady i = true := by
  unfold State.memReady at h
  rcases List.mem_append.1 h with h | h
  · exact (Bool.and_eq_true_iff.1 (List.mem_filter.1 h).2).1
  · obtain ⟨j, -, rfl⟩ := List.mem_map.1 h
    omega

/-- A queue that may spill has a free place in its region. -/
theorem State.room_of_spillReady (h : s.spillReady q = true) : (s.capq q).places.length < s.sidingSize q * 57344 := by
  simp only [State.spillReady, Bool.and_eq_true, Bool.not_eq_true', decide_eq_true_eq] at h
  obtain ⟨⟨⟨⟨hoff, -⟩, -⟩, hroom⟩, -⟩ := h
  simpa [State.sidingWords, hoff] using hroom

/-- A queue whose first tail-platform word is on its way to the next place. -/
def State.spillTaken (s : State) (q : Nat) : State :=
  s.setCapq q { s.capq q with
    spilling := (s.capq q).spilling ++ ((s.capq q).tail.take 1).map (fun w => (s.nextPlace q, w)), tail := (s.capq q).tail.drop 1
    wr := (s.nextPlace q + 1) % max 1 (s.sidingSize q * 57344) }

/-- The next place of a sound siding with room lies in the region and holds no word. -/
theorem State.sidingSound.nextPlace (h : s.sidingSound q) (hroom : (s.capq q).places.length < s.sidingSize q * 57344) :
    s.nextPlace q < s.sidingSize q * 57344 ∧ s.nextPlace q ∉ (s.capq q).places := by
  have hmax : max 1 (s.sidingSize q * 57344) = s.sidingSize q * 57344 := Nat.max_eq_right (by omega)
  have hnext := h.next
  unfold State.nextPlace
  rw [hmax] at hnext
  dsimp only
  rw [hmax]
  exact ⟨freePlace_lt _ _ hnext, freePlace_room hnext hroom⟩

theorem State.spillTaken_inOrder (s : State) (hroom : (s.capq q).places.length < s.sidingSize q * 57344) :
    InOrder q s (s.spillTaken q) := by
  unfold State.spillTaken
  refine ⟨?_, fun h => ?_, ?_⟩
  · refine (State.capOrder_setCapq _ ?_).trans ?_
    · rfl
    · cases htail : (s.capq q).tail <;> simp [State.capOrder, State.capWords, htail]
  · obtain ⟨hin, hfree⟩ := h.nextPlace hroom
    have hsub : ((s.capq q).siding.map SidWord.place ++ ((s.capq q).spilling ++ ((s.capq q).tail.take 1).map (fun w =>
        (s.nextPlace q, w))).map (·.1)).Sublist ((s.capq q).places ++ [s.nextPlace q]) := by
      cases (s.capq q).tail <;> simp [CapQ.places]
    have hapart : ((s.capq q).places ++ [s.nextPlace q]).Nodup := by
      rw [← List.concat_eq_append]
      exact h.apart.concat hfree
    refine h.setCapq (fun x hx => ?_) (hapart.sublist hsub) (Nat.mod_lt _ (by omega)) h.checks
    rcases List.mem_append.1 (hsub.subset hx) with hx | hx
    · exact h.inside x hx
    · exact List.mem_singleton.1 hx ▸ hin
  · refine s.sidingWords_setCapq ?_
    rfl

/-- A grant's own effect: the arbiter's state, and the mark that the channel works. -/
def State.memGranted (s : State) (c : Fin 4) (i : Nat) : State := (s.granted (.capmem c) i 1).setBt R.blkStat (12 + c) false

theorem State.memGranted_capKept (s : State) (c : Fin 4) (i : Nat) : CapKept q s (s.memGranted c i) := by
  have hgranted : CapKept q s (s.granted (.capmem c) i 1) := .beside rfl rfl fun _ _ => rfl
  exact hgranted.trans (State.setKey_capKept _ _ (by unfold capKey; decide))

/-- Every grant of the capture memory arbiter keeps the order of a queue's words. -/
theorem captureMemGrant_inOrder (s : State) (hq : q < 64) (c : Fin 4) (hroom : (s.capOrder q).length ≤ 64 + s.sidingWords q) :
    InOrder q s (captureMemGrant c s) := by
  unfold captureMemGrant
  split
  · exact .refl s
  split
  · exact .refl s
  next i hpick =>
    have hgranted : CapKept q s (s.memGranted c i) := s.memGranted_capKept c i
    have horder := hgranted.inOrder hq
    dsimp only
    split
    next hi =>
      by_cases hqi : q = i
      · subst hqi
        have hready := State.room_of_spillReady (State.spillReady_of_memReady (s.pick_mem _ hpick) hi)
        have hsize := (hgranted.region hq).sidingSize
        exact (horder.trans ((s.memGranted c q).spillTaken_inOrder (hsize ▸ hready :))).pump hq hroom false
      · exact ((hgranted.trans (State.setCapq_capKept_other _ _ hqi)).trans (State.pump_capKept_other _ false hqi)).inOrder hq
    next hi =>
      have harb : ∀ b, CapKept q (s.memGranted c i) ((s.memGranted c i).setArb (.capmem c) b) := fun _ => .beside rfl rfl fun _ _ => rfl
      by_cases hqi : q = i - 64
      · subst hqi
        exact ((hgranted.trans (harb _)).inOrder hq).trans (State.setFills_inOrder _ _)
      · exact ((hgranted.trans (harb _)).trans (State.setCapq_capKept_other _ _ hqi)).inOrder hq

/-! ### The end of a waiting closing word (R263) -/

/-- A queue whose closing word has entered the head platform. -/
def State.closed (s : State) (q : Nat) : State :=
  s.setCapq q { s.capq q with close := false, head := (s.capq q).head ++ [closingWord] }

theorem State.placeClosing_waits (s : State) (h : (s.capq q).close = false) : s.placeClosing q = s := if_neg (by simp [h])

theorem State.placeClosing_room (s : State) (h : (s.capq q).close = true) (hroom : (s.capq q).head.length < 32) :
    s.placeClosing q = (s.closed q).pump q := if_pos ⟨h, hroom⟩

theorem State.closed_order (s : State) (q : Nat) :
    (s.closed q).capOrder q = (s.capq q).head ++ [closingWord] ++ (s.capOrder q).drop (s.capq q).head.length := by
  refine (s.capOrder_setCapq ?_).trans ?_
  · rfl
  · simp [State.capOrder, State.capWords]

/-- A closing word with room in the head platform stands behind it, before every other word. -/
theorem State.placeClosing_order (s : State) (hq : q < 64) (hclose : (s.capq q).close = true) (hhead : (s.capq q).head.length < 32)
    (hroom : (s.capOrder q).length < 64 + s.sidingWords q) : ((s.placeClosing q).capq q).close = false ∧
      (s.placeClosing q).capOrder q = (s.capq q).head ++ [closingWord] ++ (s.capOrder q).drop (s.capq q).head.length := by
  have hwords : (s.closed q).sidingWords q = s.sidingWords q := by
    refine s.sidingWords_setCapq ?_
    rfl
  have hle : (s.capq q).head.length ≤ (s.capOrder q).length := by
    rw [s.length_capOrder, CapQ.occ]
    omega
  have hfits : ((s.closed q).capOrder q).length ≤ 64 + (s.closed q).sidingWords q := by
    rw [s.closed_order, hwords, List.length_append, List.length_append, List.length_drop, List.length_singleton]
    omega
  rw [s.placeClosing_room hclose hhead]
  refine ⟨((s.closed q).pump_close false hfits).trans ?_, ((s.closed q).pump_inOrder hq false hfits).order.trans (s.closed_order q)⟩
  exact congrArg CapQ.close (s.capq_setCapq_same q _)

/-! ### Pops (R255, R258) -/

/-- The word that leaves the head platform changes nothing else of the queue's words. -/
theorem CapQ.takeHead_rest (c : CapQ) : ∃ n p k, c.takeHead = { c with head := c.head.tail, begun := n, peeked := p, checked := k } := by
  unfold CapQ.takeHead
  split
  · next h => exact ⟨c.begun, c.peeked, c.checked, by rw [h]; cases c; cases h; rfl⟩
  · next w r h =>
    rw [h]
    split
    · exact ⟨0, false, false, rfl⟩
    · exact ⟨c.begun + 1, c.peeked, false, rfl⟩

theorem State.raise_head (s : State) {w : CapWord} {r : List CapWord} (h : (s.capq q).head = w :: r) : s.raise q = s.capq q := by
  unfold State.raise
  simp only [h]

theorem State.checkHead_capKept (s : State) (i : Nat) {e : Ecc} (w : CapWord) (h : e ≠ .tag) : CapKept q s (s.checkHead i e w).2 := by
  unfold State.checkHead
  split
  · exact .refl s
  · exact s.checkWord_capKept _ _ w h

/-- A queue whose head word has left. -/
def State.popped (s : State) (q : Nat) : State := s.setCapq q (s.capq q).takeHead

theorem State.popped_order (s : State) {w : CapWord} {r : List CapWord} (h : (s.capq q).head = w :: r) :
    (s.popped q).capOrder q = (s.capOrder q).tail ∧ (s.popped q).sidingWords q = s.sidingWords q := by
  obtain ⟨n, p, k, htake⟩ := (s.capq q).takeHead_rest
  unfold State.popped
  rw [htake]
  refine ⟨(s.capOrder_setCapq ?_).trans ?_, s.sidingWords_setCapq ?_⟩
  · rfl
  · simp [State.capOrder, State.capWords, h]
  · rfl

/-- A pop whose check trusts the tag removes the first word. -/
theorem capPop_order (s : State) (q : Fin 64) (p : Part) {v : W32} {e : Ecc} {w : CapWord} {r : List CapWord} (hv : bit v 0 = true)
    (hdrain : s.capDrain q = true) (hhead : (s.capq q).head = w :: r) (he : e ≠ .tag)
    (hroom : (s.capOrder q).length ≤ 64 + s.sidingWords q) : (capPop p q v e s).capOrder q = (s.capOrder q).tail := by
  have hraised : CapKept q s (s.setCapq q (s.capq q)) := s.setCapq_capKept q rfl (.refl _)
  have hkept := hraised.trans (State.checkHead_capKept _ q w he)
  unfold capPop
  rw [if_neg (by simp [hv]), if_neg (by simp [hdrain]), s.raise_head hhead]
  dsimp only
  rw [hhead]
  dsimp only
  generalize ((s.setCapq q (s.capq q)).checkHead q e w).2 = u at hkept ⊢
  have hin := hkept.inOrder q.isLt
  obtain ⟨horder, hwords⟩ := u.popped_order (hkept.head.trans hhead)
  have hfits : ((u.popped q).capOrder q).length ≤ 64 + (u.popped q).sidingWords q := by
    rw [horder, hwords, hin.order, hin.room, List.length_tail]
    omega
  exact ((u.popped q).pump_inOrder q.isLt false hfits).order.trans (horder.trans (congrArg List.tail hin.order))

/-! ### A ladle lane (R244) -/

/-- A queue whose oldest copy a lane has begun to write as a record. -/
def State.laneBegun (s : State) (lane q : Nat) (rest : List CapCopy) (record : List CapWord) (id : Nat) : State :=
  let s1 := s.setCapq q { s.capq q with copies := rest, writing := record, writes := some id, gap := false }
  { s1 with cap.ladleBusy := kvSet none s1.cap.ladleBusy lane (some q), cap.ladleLast := kvSet 63 s1.cap.ladleLast lane q }

theorem State.laneBegun_order (s : State) (hq : q < 64) (lane : Nat) (rest : List CapCopy) (record : List CapWord) (id : Nat) :
    (s.laneBegun lane q rest record id).capOrder q = s.capWords q ++ record ∧
      (s.laneBegun lane q rest record id).sidingWords q = s.sidingWords q ∧
      ((s.laneBegun lane q rest record id).capq q).copies = rest := by
  have hlane : CapKept q (s.setCapq q { s.capq q with copies := rest, writing := record, writes := some id, gap := false })
      (s.laneBegun lane q rest record id) := ⟨rfl, rfl, fun _ _ => rfl, rfl, .refl _⟩
  have hin := hlane.inOrder hq
  refine ⟨hin.order.trans ((s.capOrder_setCapq ?_).trans ?_), hin.room.trans (s.sidingWords_setCapq ?_), ?_⟩
  · rfl
  · simp [State.capWords]
  · rfl
  · exact congrArg CapQ.copies (s.capq_setCapq_same q _)

variable {lane : Fin 8} {copy : CapCopy} {rest : List CapCopy} {f : Frame}

theorem ladleLaneTake_begins (hidle : kvGet none s.cap.ladleBusy lane.val = none) (hserves : s.bt R.retDp (20 + lane) = false)
    (hturn : rotateFrom (kvGet 63 s.cap.ladleLast lane.val) ((List.range 64).filter (fun j => s.ladleReady j)) = some q)
    (hcopies : (s.capq q).copies = copy :: rest) (hframe : s.frame copy.frame = some f) :
    ladleLaneTake lane s = (s.laneBegun lane q rest (s.recordWords q copy f) f.id).pump q := by
  unfold ladleLaneTake
  dsimp only
  rw [if_neg (by simp [hidle, hserves]), hturn]
  dsimp only
  rw [hcopies]
  dsimp only
  rw [hframe]
  rfl

/-- A lane that begins a record adds its words at the end. -/
theorem State.laneBegun_pump (s : State) (hq : q < 64) {record : List CapWord} {id : Nat} (hwriting : (s.capq q).writing = [])
    (hroom : (s.capWords q).length + record.length ≤ 64 + s.sidingWords q) :
    (((s.laneBegun lane q rest record id).pump q).capq q).copies.Sublist rest ∧
      ((s.laneBegun lane q rest record id).pump q).capOrder q = s.capOrder q ++ record := by
  obtain ⟨horder, hwords, hcopies⟩ := s.laneBegun_order hq lane rest record id
  have hfits : ((s.laneBegun lane q rest record id).capOrder q).length ≤ 64 + (s.laneBegun lane q rest record id).sidingWords q := by
    rwa [horder, hwords, List.length_append]
  have hleft := State.pump_copies _ false hfits
  rw [hcopies] at hleft
  refine ⟨hleft, (State.pump_inOrder _ hq false hfits).order.trans ?_⟩
  rw [horder, State.capOrder, hwriting, List.append_nil]

end Sys2Proof.Machine
end

section
/-! The statements on capture queues (09_capture.md). -/

namespace Sys2Proof

open Sys2Proof.Machine

/-- Settles O45: bursts and grants keep the order (`InOrder`), and so does what can move on chip after a closing word, a pop or a record. -/
theorem captureQueuesKeepTheirOrder : Obligations.CaptureQueuesKeepTheirOrder := by
  intro q s hw hsound
  have hrow : ∀ {f : State → State}, InOrder q s (f s) →
      ∃ t, (.next (clocked f s) : Res) = .next t ∧ t.capOrder q = s.capOrder q ∧ t.sidingSound q := fun {f} h =>
    ⟨f s, next_clocked hw f, h.order, h.sound hsound⟩
  refine ⟨fun hroom => ⟨fun e => hrow (hsound.spillDone_inOrder q.isLt e hroom), fun e he => hrow (s.fillDone_inOrder q.isLt he hroom),
      fun ch => hrow (captureMemGrant_inOrder s q.isLt ch hroom)⟩, fun hclose => ?_, fun hclose hhead hroom => ?_,
    fun p v e w r hwrite hv hdrain hhead he hroom => ?_, fun lane copy rest f hidle hserves hturn hcopies hframe hwriting hroom => ?_⟩
  · exact (next_clocked hw _).trans (congrArg (β := Res) .next (s.placeClosing_waits hclose))
  · obtain ⟨hdone, horder⟩ := s.placeClosing_order q.isLt hclose hhead hroom
    exact ⟨_, next_clocked hw _, hdone, horder⟩
  · exact ⟨_, congrArg (β := Res) .next (onWrite_may hwrite), capPop_order s q p hv hdrain hhead he hroom⟩
  · obtain ⟨hleft, horder⟩ := s.laneBegun_pump (lane := lane) (id := f.id) (rest := rest) q.isLt hwriting hroom
    rw [← ladleLaneTake_begins hidle hserves hturn hcopies hframe] at hleft horder
    exact ⟨_, next_clocked hw _, hleft, horder⟩

end Sys2Proof
end

section
/-! SUPPORT. Reads, pops, ACK, HRD and the DMA batches of a capture queue (R255, R257 to R259). -/

namespace Sys2Proof.Machine

variable {s t u : State} {p : Part} {q : Nat}

/-! ### PEEK (R255, R258) -/

/-- The head word's check without an error, made now or before, delivers the word and changes nothing. -/
theorem State.checkHead_clean (s : State) (q : Nat) (w : CapWord) : s.checkHead q .clean w = (w, s) := ite_self _

/-- An empty queue has no word to raise. -/
theorem State.raise_empty (s : State) (hocc : (s.capq q).occ = 0) (hclose : (s.capq q).close = false) :
    s.raise q = s.capq q ∧ (s.capq q).head = [] := by
  unfold CapQ.occ at hocc
  have hhead : (s.capq q).head = [] := List.eq_nil_of_length_eq_zero (by omega)
  have hsiding : (s.capq q).siding = [] := List.eq_nil_of_length_eq_zero (by omega)
  have hspilling : (s.capq q).spilling = [] := List.eq_nil_of_length_eq_zero (by omega)
  have htail : (s.capq q).tail = [] := List.eq_nil_of_length_eq_zero (by omega)
  refine ⟨?_, hhead⟩
  unfold State.raise
  simp only [hhead, hclose, hsiding, hspilling, htail]

/-- A PEEK of a head word shows one of its values, and the queue's words and every register stay. -/
theorem State.peek_head (s : State) (p : Part) (i : Nat) (hdrain : s.capDrain q = true) {w : CapWord} {r : List CapWord}
    (hhead : (s.capq q).head = w :: r) :
    ∃ t, s.peek p q i .clean = (peekValue w i, t) ∧ CapKept q s t ∧ t.reg = s.reg := by
  have hraised : CapKept q s (s.setCapq q (s.capq q)) := s.setCapq_capKept q rfl (.refl _)
  have hhead' := hraised.head.trans hhead
  unfold State.peek
  rw [if_neg (by simp [hdrain]), s.raise_head hhead]
  dsimp only
  rw [hhead]
  dsimp only
  rw [State.checkHead_clean]
  refine ⟨_, rfl, hraised.trans (State.setCapq_capKept _ q ?_ (.refl _)), rfl⟩
  rw [hhead', List.tail_cons, ← hhead']
  rfl

theorem State.peek_empty (s : State) (p : Part) (i : Nat) (e : Ecc) (hdrain : s.capDrain q = true) (hocc : (s.capq q).occ = 0)
    (hclose : (s.capq q).close = false) : s.peek p q i e = (kvGet 0 (s.capq q).peek i, s.setBt (R.capStatus q) 4 true) := by
  obtain ⟨hraise, hhead⟩ := s.raise_empty hocc hclose
  unfold State.peek
  rw [if_neg (by simp [hdrain]), hraise]
  dsimp only
  rw [hhead]

/-- A PEEK of 4 bytes answers what the PEEK register shows. -/
theorem capPeekRead_four {q : Fin 64} {i : Fin 17} {e : Ecc} {x : W32} (h : s.peek p q i e = (x, t)) :
    capPeekRead p q i false e s = t.emit (.read p (BitVec.ofNat 32 (peekOff q i)) (x.setWidth 64)) := by
  unfold capPeekRead
  rw [h]
  rfl

/-- A PEEK of 8 bytes answers two registers, the lower one in the low half. -/
theorem capPeekRead_eight {q : Fin 64} {i : Fin 17} {e : Ecc} {x y : W32} (h : s.peek p q i e = (x, t))
    (h2 : t.peek p q (i + 1) e = (y, u)) (heven : i.val % 2 = 0) (hlow : i.val < 16) :
    capPeekRead p q i true e s = u.emit (.read p (BitVec.ofNat 32 (peekOff q i)) (y ++ x)) := by
  unfold capPeekRead
  rw [h]
  dsimp only
  rw [if_pos ⟨rfl, heven, hlow⟩, h2]
  rfl

/-! ### POP (R258) -/

variable {q : Fin 64} {v : W32} {e : Ecc}

theorem capPop_not (h : bit v 0 = false) : capPop p q v e s = s := if_pos (by simp [h])

theorem capPop_wrongDrain (h : bit v 0 = true) (hdrain : s.capDrain q = false) :
    capPop p q v e s = s.report 0x0805 kInfo p.val q.val q.val := by
  unfold capPop
  rw [if_neg (by simp [h]), if_pos (by simp [hdrain])]
  rfl

theorem capPop_empty (h : bit v 0 = true) (hdrain : s.capDrain q = true) (hocc : (s.capq q).occ = 0) (hclose : (s.capq q).close = false) :
    capPop p q v e s = s.setBt (R.capStatus q) 4 true := by
  obtain ⟨hraise, hhead⟩ := s.raise_empty hocc hclose
  unfold capPop
  rw [if_neg (by simp [h]), if_neg (by simp [hdrain]), hraise]
  dsimp only
  rw [hhead]

/-! ### ACK and HRD (R257, R259) -/

theorem capAck_capKept (s : State) (q : Fin 64) (v : W32) : CapKept q s (capAck q v s) := s.setCapq_capKept q rfl (.refl _)

theorem State.setCapHrd_region (s : State) (q : Nat) (v : W32) : SameRegion q s (s.setRg (R.capHrd q) v) :=
  ⟨s.rg_setRg_other v (by simp only [R.capMem, R.capHrd]; omega), s.rg_setRg_other v (by simp only [R.capSiding, R.capHrd]; omega)⟩

/-- HRD moves forward, up to HWR. -/
theorem capHrdWrite_forward (hhost : s.capHolder q ≠ pm ∨ s.capDrain q = true)
    (h : (s.rg (R.capHwr q) - v).toNat ≤ (s.rg (R.capHwr q) - s.rg (R.capHrd q)).toNat) :
    capHrdWrite p q v s = (s.setRg (R.capHrd q) v).capNotice q := by
  unfold capHrdWrite
  rw [if_neg (fun ⟨hpm, hdrain⟩ => hhost.elim (· hpm) hdrain), if_pos h]

theorem capHrdWrite_refused (hhost : s.capHolder q ≠ pm ∨ s.capDrain q = true)
    (h : (s.rg (R.capHwr q) - s.rg (R.capHrd q)).toNat < (s.rg (R.capHwr q) - v).toNat) :
    capHrdWrite p q v s = s.report 0x0804 kInfo p.val q.val v.toNat := by
  unfold capHrdWrite
  rw [if_neg (fun ⟨hpm, hdrain⟩ => hhost.elim (· hpm) hdrain), if_neg (Nat.not_le.2 h)]

/-- The notices after a write of HRD leave it, the words and the tables. -/
theorem capHrdWrite_kept (s : State) (q : Fin 64) (v : W32) : ((s.setRg (R.capHrd q) v).capNotice q).rg (R.capHrd q) = v ∧
    ((s.setRg (R.capHrd q) v).capNotice q).capWords q = s.capWords q ∧ ((s.setRg (R.capHrd q) v).capNotice q).tab = s.tab := by
  have hkept : CapKept q (s.setRg (R.capHrd q) v) ((s.setRg (R.capHrd q) v).capNotice q) := State.capNotice_capKept _ _ _
  exact ⟨(hkept.keys _ (capKey_capHrd q.isLt)).trans (s.rg_setRg_same _ v),
    (hkept.capWords q.isLt).trans ((s.setCapHrd_region q v).capWords (s.setRg_cap _ v)), hkept.tab.trans (s.setRg_tab _ v)⟩

/-! ### DMA batches (R257) -/

/-- A write inside the holder's windows goes out. -/
theorem State.capDma_covered {p : Part} {a : Nat} {l : List Byte} (h : (s.grant p).covers a l.length = true) :
    s.capDma p a l = (true, s.emit (.dma p (BitVec.ofNat 64 a) l)) := if_pos h

/-- A running ring with a head word, and a free place for it inside the holder's windows. -/
structure State.BatchRuns (s : State) (q : Nat) (w : CapWord) (r : List CapWord) : Prop where
  runs : s.dmaRuns q = true
  awake : s.wakingBefore 5 = false
  head : (s.capq q).head = w :: r
  room : (s.rg (R.capHwr q) - s.rg (R.capHrd q)).toNat < s.ringWords q
  data : (s.grant (s.capHolder q)).covers (s.dataBase q + (s.rg (R.capHwr q)).toNat % s.ringWords q * 64) 64 = true
  tag : (s.grant (s.capHolder q)).covers (s.tagBase q + (s.rg (R.capHwr q)).toNat % s.ringWords q) 1 = true

/-- The head word of a ring has gone to the data ring, and its tag to the tag ring. -/
def State.wordSent (s : State) (q : Nat) (w : CapWord) : State :=
  (s.emit (.dma (s.capHolder q) (BitVec.ofNat 64 (s.dataBase q + (s.rg (R.capHwr q)).toNat % s.ringWords q * 64)) (imgBytes w.data))).emit
    (.dma (s.capHolder q) (BitVec.ofNat 64 (s.tagBase q + (s.rg (R.capHwr q)).toNat % s.ringWords q)) [w.tag])

/-- The words of a batch begin with the head word. -/
theorem State.BatchRuns.dmaWords_follows {q : Nat} {w : CapWord} {r : List CapWord} (h : s.BatchRuns q w r) {es : List Ecc}
    (hes : es.headD .clean = .clean) (k : Nat) : Follows false (s.wordSent q w) (dmaWords q (k + 1) es s).2 := by
  have hlen : (imgBytes w.data).length = 64 := length_leBytes _ _
  have hdata : (s.grant (s.capHolder q)).covers (s.dataBase q + (s.rg (R.capHwr q)).toNat % s.ringWords q * 64) (imgBytes w.data).length =
      true := by
    rw [hlen]
    exact h.data
  unfold dmaWords
  dsimp only
  rw [h.head]
  dsimp only
  rw [if_neg (Nat.not_le.2 h.room), hes, s.checkHead_clean]
  dsimp only
  rw [State.capDma_covered hdata]
  dsimp only
  rw [State.capDma_covered (by exact h.tag)]
  exact (Machine.dmaWords_follows q k _ _ (State.pump_follows _ _ _ (State.modRg_follows _ _ _ (State.setCapq_follows _ _ _
    (Follows.refl (s.wordSent q w)))))).out

/-- What follows the words of a batch comes after what they sent. -/
theorem State.BatchRuns.captureDmaBatch_follows {a : State} {w : CapWord} {r : List CapWord} (hb : s.BatchRuns q w r) {es : List Ecc}
    (h : Follows false a (dmaWords q 64 es s).2) : Follows false a (captureDmaBatch q es s) := by
  have hgo : ¬ (¬ s.dmaRuns q ∨ s.wakingBefore 5 ∨ (s.capq q).head.isEmpty ∨
      s.ringWords q ≤ (s.rg (R.capHwr q) - s.rg (R.capHrd q)).toNat) := by
    simp only [hb.runs, hb.awake, hb.head, List.isEmpty_cons, not_true, Bool.false_eq_true, false_or]
    exact Nat.not_le.2 hb.room
  unfold captureDmaBatch
  rw [if_neg hgo]
  split
  case h_1 t heq =>
    rw [heq] at h
    exact h
  case h_2 t heq =>
    rw [heq] at h
    have hback := State.writeback_follows t q h
    split
    case h_1 u hu => exact hback.elim hu
    case h_2 u hu =>
      split
      · exact State.sendMsix_follows _ _ _ (State.setCapq_follows _ _ _ (hback.elim hu))
      · exact hback.elim hu

/-- A batch of a running ring sends the head word and its tag before anything else. -/
theorem State.BatchRuns.batch_out {w : CapWord} {r : List CapWord} (h : s.BatchRuns q w r) {es : List Ecc}
    (hes : es.headD .clean = .clean) : (s.wordSent q w).out <+: (captureDmaBatch q es s).out :=
  (h.captureDmaBatch_follows (h.dmaWords_follows hes 63)).sent

end Sys2Proof.Machine
end

section
/-! The statements on the reads and drains of capture queues (09_capture.md). -/

namespace Sys2Proof

open Sys2Proof.Machine

/-- Settles O46: one law for each row, by what it finds: a head word or an empty queue, the drain, where HRD moves to, and a place in the
rings. -/
theorem captureQueuesAreReadAndDrained : Obligations.CaptureQueuesAreReadAndDrained := by
  intro p q s
  refine ⟨fun i hread hdrain => ⟨fun w r hhead => ?_, fun hocc hclose e => ?_⟩,
    fun v e hwrite => ⟨fun hv => ?_, fun hv hdrain => ?_, fun hv hdrain hocc hclose => ?_⟩, fun v hwrite => ?_,
    fun v hwrite hhost => ⟨fun h => ?_, fun h => ?_⟩, fun hw hruns hawake w r hhead hroom hdata htag es hes => ?_⟩
  · have hrow : ∀ b, exec (.capPeekRead p q ⟨i, b⟩ .clean) s = .next (capPeekRead p q i b .clean s) := fun b =>
      congrArg (β := Res) .next (onRead_may hread)
    obtain ⟨t, hpeek, ht, hreg⟩ := s.peek_head p i.val hdrain hhead
    refine ⟨⟨t, (hrow false).trans (congrArg (β := Res) .next (capPeekRead_four hpeek)), ht.capWords q.isLt, hreg, ht.tab⟩,
      fun heven hlow => ?_⟩
    obtain ⟨u, hpeek', hu, hreg'⟩ := t.peek_head p (i.val + 1) ((ht.capDrain q.isLt).trans hdrain) (ht.head.trans hhead)
    exact ⟨u, (hrow true).trans (congrArg (β := Res) .next (capPeekRead_eight hpeek hpeek' heven hlow)),
      (ht.trans hu).capWords q.isLt, hreg'.trans hreg, (ht.trans hu).tab⟩
  · exact (congrArg (β := Res) .next (onRead_may hread)).trans
      (congrArg (β := Res) .next (capPeekRead_four (s.peek_empty p i.val e hdrain hocc hclose)))
  · exact congrArg (β := Res) .next ((onWrite_may hwrite).trans (capPop_not hv))
  · exact congrArg (β := Res) .next ((onWrite_may hwrite).trans (capPop_wrongDrain hv hdrain))
  · exact congrArg (β := Res) .next ((onWrite_may hwrite).trans (capPop_empty hv hdrain hocc hclose))
  · exact ⟨_, congrArg (β := Res) .next (onWrite_may hwrite), congrArg CapQ.ringPkts (s.capq_setCapq_same q _),
      (capAck_capKept s q v).capWords q.isLt, rfl, rfl⟩
  · exact ⟨_, congrArg (β := Res) .next ((onWrite_may hwrite).trans (capHrdWrite_forward hhost h)), capHrdWrite_kept s q v⟩
  · exact congrArg (β := Res) .next ((onWrite_may hwrite).trans (capHrdWrite_refused hhost h))
  · have hbatch : s.BatchRuns q w r := ⟨hruns, hawake, hhead, hroom, hdata, htag⟩
    obtain ⟨l, hl⟩ := hbatch.batch_out hes
    refine ⟨_, l, next_clocked hw _, hl.symm.trans ?_⟩
    simp [State.wordSent, State.emit]

end Sys2Proof
end

section
/-! SUPPORT. What one cycle of the clocks moves (R165, R174, log entry 5): the time bases and Δ, whose roundings are free values. -/

namespace Sys2Proof.Machine

/-- A state that differs from another one in the free values drawn, the uptime, the time domains and the 32-bit registers alone. -/
def ClocksMoved (s t : State) : Prop := ∃ k n d g, t = { s with free := k, upNs := n, tsu := d, reg.regs := g }

variable {s t u : State}

theorem ClocksMoved.trans (h : ClocksMoved s t) (k : ClocksMoved t u) : ClocksMoved s u := by
  obtain ⟨_, _, _, _, rfl⟩ := h
  obtain ⟨k, n, d, g, rfl⟩ := k
  exact ⟨k, n, d, g, rfl⟩

theorem State.advance_moved (s : State) (x : Nat) : ClocksMoved s (s.advance x) := by
  unfold State.advance
  dsimp only
  split
  · exact ⟨_, _, _, _, rfl⟩
  · exact ⟨_, _, _, _, rfl⟩

theorem State.setDelta_moved (s : State) (v : Int) : ClocksMoved s (s.setDelta v) := ⟨_, _, _, _, rfl⟩

theorem State.tclk_moved (s : State) : ClocksMoved s s.tclk :=
  have hdrawn : ClocksMoved s (drawBit ((s.advance 0).advance 1)).2 :=
    ((s.advance_moved 0).trans (State.advance_moved _ 1)).trans ⟨_, _, _, _, rfl⟩
  hdrawn.trans (State.setDelta_moved _ _)

theorem tick_moved (s : State) : ClocksMoved s (tick s) := by
  have hup : ClocksMoved s { s with upNs := s.upNs + 2 } := ⟨_, _, _, _, rfl⟩
  unfold tick clocked
  dsimp only
  split
  · exact hup
  · exact hup.trans (State.tclk_moved _)

end Sys2Proof.Machine
end

section
/-! The statements on a step of the block (00_scope.md, 10_commands.md). -/

namespace Sys2Proof

open Sys2Proof.Machine

/-- Settles O2: an idle step is a tick, which moves the clocks alone. -/
theorem stepOfAnEmptyQueueIsATick : Obligations.StepOfAnEmptyQueueIsATick := by
  intro s hempty
  have hstep : step s = .next (tick s) := by
    unfold step
    rw [hempty]
  obtain ⟨k, n, d, g, htick⟩ := tick_moved s
  refine ⟨tick s, hstep, ?_⟩
  rw [htick]
  exact ⟨hempty, rfl, rfl, rfl, rfl⟩

/-- Settles O7: the front command runs on the state with the queue's rest, and every effect keeps the queue. -/
theorem everyStepTakesOneCommand : Obligations.EveryStepTakesOneCommand := by
  intro c rest s t hqueue hstep
  have hexec : exec c { s with pending := rest } = .next t := by
    rw [← hstep]
    unfold step
    rw [hqueue]
  exact ((exec_follows c { s with pending := rest }).out t hexec).queue

end Sys2Proof
end

section
/-! SUPPORT. SLEEP, RESUME and WAKE_READ (R303, R304, R315, R320): what stands in the way of a sleep, the start of ENTRY, and the wake
record. -/

namespace Sys2Proof.Machine

variable {s : State} {p : Part} {d : CmdDesc}

/-! ### Masks of numbers below a bound -/

/-- The mask of the numbers below `n` that `f` selects, and its bits. -/
theorem rangeMask (f : Nat → Bool) (n : Nat) : ((List.range n).filter f).foldl (fun a i => a + 2 ^ i) 0 < 2 ^ n ∧
    ∀ i, (((List.range n).filter f).foldl (fun a i => a + 2 ^ i) 0).testBit i = (decide (i < n) && f i) := by
  induction n with
  | zero => simp
  | succ n ih =>
    obtain ⟨hlt, hbits⟩ := ih
    rw [List.range_succ, List.filter_append, List.foldl_append]
    cases hn : f n with
    | false =>
      simp only [List.filter_singleton, hn, cond_false, List.foldl_nil]
      refine ⟨by omega, fun i => ?_⟩
      rw [hbits]
      by_cases hi : i = n
      · simp [hi, hn]
      · rw [show (decide (i < n)) = decide (i < n + 1) by simp; omega]
    | true =>
      simp only [List.filter_singleton, hn, cond_true, List.foldl_cons, List.foldl_nil]
      generalize ((List.range n).filter f).foldl (fun a i => a + 2 ^ i) 0 = m at hlt hbits
      have hor : m + 2 ^ n = 2 ^ n * 1 ||| m := by
        rw [← Nat.two_pow_add_eq_or_of_lt hlt]
        omega
      refine ⟨by omega, fun i => ?_⟩
      rw [hor, Nat.testBit_or, hbits, Nat.mul_one, Nat.testBit_two_pow]
      by_cases hi : n = i
      · simp [← hi, hn]
      · rw [show (decide (i < n + 1)) = decide (i < n) by simp; omega]
        simp [hi]

/-! ### SLEEP (R303, R304) -/

theorem State.sleepBad_iff (s : State) (d : CmdDesc) : s.sleepBad d = true ↔
    (d.b 0 ≠ 1 ∧ d.b 0 ≠ 2) ∨ 10000 < d.le 2 2 ∨ 10000 < d.le 4 2 ∨ (∀ i, i < 38 → s.wakeEnabled i = false) := by
  simp [State.sleepBad, or_assoc]

/-- Every partition but PM is a host. -/
theorem mem_hostParts : p ∈ hostParts ↔ p ≠ pm := by revert p; decide

theorem mem_allParts (p : Part) : p ∈ allParts := by revert p; decide

theorem State.sleepBusy_iff (s : State) : s.sleepBusy = true ↔
    s.pwr ≠ pwRun ∨ (∃ p, p ≠ pm ∧ (s.path p).fetched ≠ []) ∨ s.cmd.pours ≠ [] ∨ (∃ p, s.sealed_ p = true) := by
  simp [State.sleepBusy, or_assoc, mem_hostParts, mem_allParts]

theorem State.testBit_awakeSources (s : State) (i : Nat) : s.awakeSources.testBit i = true ↔
    i < 24 ∧ s.asserts i = true ∧ s.wakeEnabled i = true ∧ s.wakeMasked i = false := by
  have hmask := (rangeMask (fun i => s.asserts i && s.wakes i) 24).2 i
  rw [State.awakeSources, hmask]
  simp [State.wakes]

/-- A change of the first registers of a family leaves every other register as it was. -/
theorem State.rg_foldl_modRg_other (s : State) (o : Nat → Nat) (f : Nat → W32 → W32) (l : List Nat) {j : Nat} (h : ∀ n ∈ l, j ≠ o n) :
    (l.foldl (fun a n => a.modRg (o n) (f n)) s).rg j = s.rg j := by
  induction l generalizing s with
  | nil => rfl
  | cons n r ih =>
    obtain ⟨hn, hr⟩ := List.forall_mem_cons.1 h
    exact (ih (s.modRg (o n) (f n)) hr).trans (s.rg_modRg_other _ hn)

theorem State.foldl_modRg_regsOnly (s : State) (o : Nat → Nat) (f : Nat → W32 → W32) (l : List Nat) :
    RegsOnly s (l.foldl (fun a n => a.modRg (o n) (f n)) s) := by
  induction l generalizing s with
  | nil => exact ⟨_, rfl⟩
  | cons n r ih => exact (s.modRg_regsOnly _ _).trans (ih _)

/-- A change of a family of registers, each in a place of its own, changes each of them once. -/
theorem State.rg_foldl_modRg_range (s : State) (o : Nat → Nat) (f : Nat → W32 → W32) (ho : ∀ i j, i ≠ j → o i ≠ o j) {k n : Nat}
    (h : n < k) : ((List.range k).foldl (fun a n => a.modRg (o n) (f n)) s).rg (o n) = f n (s.rg (o n)) := by
  induction k with
  | zero => omega
  | succ k ih =>
    rw [List.range_succ, List.foldl_append, List.foldl_cons, List.foldl_nil]
    by_cases hk : n = k
    · subst hk
      rw [State.rg_modRg_same, State.rg_foldl_modRg_other _ _ _ _ fun i hi => ho n i (by have := List.mem_range.1 hi; omega)]
    · rw [State.rg_modRg_other _ _ (ho n k hk), ih (by omega)]

/-- The registers at the start of ENTRY before the wake decoders leave fall-back. -/
def State.entryRegs (s : State) : State := ((s.setFd R.pwrState 2 0 pwEntry).setRg R.wakCauseLo 0).setRg R.wakCauseHi 0

/-- The registers at the start of ENTRY. -/
def State.entryArmed (s : State) : State :=
  (List.range 16).foldl (fun (a : State) n => a.modRg (R.cwStat n) (fun w => setFld w 6 0 0)) s.entryRegs

theorem State.entryArmed_regsOnly (s : State) : RegsOnly s s.entryArmed := by
  have hentry : RegsOnly s s.entryRegs := ⟨_, rfl⟩
  exact hentry.trans (s.entryRegs.foldl_modRg_regsOnly R.cwStat (fun _ w => setFld w 6 0 0) _)

theorem State.rg_entryArmed (s : State) {j : Nat} (h : j < R.cwStat 0) : s.entryArmed.rg j = s.entryRegs.rg j :=
  s.entryRegs.rg_foldl_modRg_other R.cwStat (fun _ w => setFld w 6 0 0) _ fun n _ => by
    simp only [R.cwStat] at h ⊢
    omega

theorem State.entryArmed_pwr (s : State) : s.entryArmed.pwr = pwEntry := by
  have hword : s.entryArmed.rg R.pwrState = (s.setFd R.pwrState 2 0 pwEntry).rg R.pwrState :=
    (s.rg_entryArmed (by decide)).trans ((State.rg_setRg_other _ 0 (by decide)).trans (State.rg_setRg_other _ 0 (by decide)))
  exact (congrArg (fld · 2 0) hword).trans (s.fd_setFd_same R.pwrState pwEntry (by decide) (by decide))

theorem State.entryArmed_causes (s : State) : s.entryArmed.causes = 0 := by
  have hlo : s.entryArmed.rg R.wakCauseLo = 0 :=
    (s.rg_entryArmed (by decide)).trans ((State.rg_setRg_other _ 0 (by decide)).trans (State.rg_setRg_same _ _ 0))
  have hhi : s.entryArmed.rg R.wakCauseHi = 0 := (s.rg_entryArmed (by decide)).trans (State.rg_setRg_same _ _ 0)
  rw [State.causes, hlo, hhi]
  rfl

theorem cwStat_injective {i j : Nat} (h : i ≠ j) : R.cwStat i ≠ R.cwStat j := by
  simp only [R.cwStat]
  omega

theorem State.entryArmed_fallback (s : State) {n : Nat} (h : n < 16) : s.entryArmed.fd (R.cwStat n) 6 0 = 0 := by
  have hword : s.entryArmed.rg (R.cwStat n) = setFld (s.entryRegs.rg (R.cwStat n)) 6 0 0 :=
    s.entryRegs.rg_foldl_modRg_range R.cwStat (fun _ w => setFld w 6 0 0) (fun _ _ => cwStat_injective) h
  rw [State.fd, hword, fld_setFld_same _ _ (by decide) (by decide)]
  rfl

theorem State.enterEntry_eq (s : State) (d : CmdDesc) : s.enterEntry d = { s.entryArmed with slp := { s.entryArmed.slp with
    cmd := some (d.ctag, d.irq), depth := d.b 0, stage := 3, tc10 := [], okPorts := 0, badPorts := 0
    recDepth := 0, mask := 0, first := none, tick := [] } } := rfl

theorem sleepForm_clean (h1 : d.b 1 = 0) (h6 : d.le 6 2 = 0) : (sleepForm d).clean = true := decide_eq_true ⟨h1, h6⟩

theorem sleepForm_check (himm : Imm pm d 8) (h1 : d.b 1 = 0) (h6 : d.le 6 2 = 0) : (sleepForm d).check pm d = none :=
  himm.check_none rfl rfl (sleepForm_clean h1 h6) (fun _ => rfl) (fun k => nomatch k)

/-- A SLEEP other than the one in progress does not wait yet. -/
theorem not_sleepWaits (h : ∀ x, s.slp.cmd = some x → x.1 ≠ d.ctag) : s.slp.cmd.any (fun x => x.1 == d.ctag) = false := by
  cases hcmd : s.slp.cmd with
  | none => rfl
  | some x => simpa using h x hcmd

/-- A host's SLEEP is refused by its form. -/
theorem exec_sleep_host (hp : p ≠ pm) (hruns : s.runs p d) (himm : Imm p d 8) (h1 : d.b 1 = 0) (h6 : d.le 6 2 = 0) :
    exec (.sleep p d) s = .next (s.answered p d St.noRight 0 []) :=
  congrArg (β := Res) .next (onForm_refused hruns (himm.check_noRight rfl rfl (sleepForm_clean h1 h6) rfl hp) _)

section
variable (hruns : s.runs pm d) (hnew : ∀ x, s.slp.cmd = some x → x.1 ≠ d.ctag) (himm : Imm pm d 8) (h1 : d.b 1 = 0) (h6 : d.le 6 2 = 0)
include hruns hnew himm h1 h6

/-- A SLEEP that is not in progress and that its checks refuse completes with what they answer. -/
theorem exec_sleep_fails {st : Byte} {k : Nat} (hbody : sleepBody d s = .error { s := s, status := st, result := k }) :
    exec (.sleep pm d) s = .next (s.answered pm d st k []) :=
  congrArg (β := Res) .next
    ((runWaiting_fails hruns (sleepForm_check himm h1 h6) (not_sleepWaits hnew) hbody).trans (finish_plain rfl))

/-- A SLEEP that is not in progress and that its checks pass begins ENTRY. -/
theorem exec_sleep_waits (hbody : sleepBody d s = .ok (s.enterEntry d)) : exec (.sleep pm d) s = .next (s.enterEntry d) :=
  congrArg (β := Res) .next (runWaiting_waits hruns (sleepForm_check himm h1 h6) (not_sleepWaits hnew) hbody)

end

/-! ### RESUME (R320) -/

theorem resumeForm_check (h : Imm p d 0) : resumeForm.check p d = none :=
  h.check_none rfl rfl rfl (fun k => nomatch k) (fun k => nomatch k)

/-- A RESUME whose fetch no latched doorbell or PUSH announced, or whose source is not latched, finds the block awake already. -/
theorem resumeBody_already (h : ∀ f, s.fetchedOf p d.ctag = some f → f.latched = true → s.latched (wakeSource p) = false) :
    resumeBody p d s = fail s St.okAlready := by
  refine if_pos ?_
  cases hf : s.fetchedOf p d.ctag with
  | none => simp
  | some f =>
    cases hl : f.latched with
    | false => simp [hl]
    | true => simp [h f hf hl]

/-- Whether a partition's source was latched before every other latched source. -/
def State.wokeAlone (s : State) (p : Part) : Prop :=
  ∀ i, i < 38 → i ≠ wakeSource p → s.latched i = true → (kvGet 0 s.slp.tick (wakeSource p)).toNat < (kvGet 0 s.slp.tick i).toNat

theorem resumeBody_latched {f : Fetched} (hf : s.fetchedOf p d.ctag = some f) (hl : f.latched = true)
    (hsrc : s.latched (wakeSource p) = true) :
    (s.wokeAlone p → resumeBody p d s = { s := s, status := St.ok, result := s.causes }) ∧
      (¬ s.wokeAlone p → resumeBody p d s = { s := s, status := St.okWaking, result := s.causes }) := by
  have hother : ¬ (¬ ((s.fetchedOf p d.ctag).map Fetched.latched).getD false = true ∨ ¬ s.latched (wakeSource p) = true) := by
    simp [hf, hl, hsrc]
  have halone : (((List.range 38).filter (fun i => i != wakeSource p && s.latched i)).all (fun i =>
      decide ((kvGet 0 s.slp.tick (wakeSource p)).toNat < (kvGet 0 s.slp.tick i).toNat))) = true ↔ s.wokeAlone p := by
    simp [State.wokeAlone, or_iff_not_imp_left]
  have hbody := show resumeBody p d s = _ from if_neg hother
  rw [hbody]
  constructor
  · intro h
    rw [if_pos (halone.2 h)]
  · intro h
    rw [if_neg (fun k => h (halone.1 k))]

/-! ### WAKE_READ (R315) -/

theorem length_imgBytes {n : Nat} (w : BitVec n) : (imgBytes w).length = n / 8 := length_leBytes _ _

theorem State.length_wakeRecord (s : State) : s.wakeRecord.1.length = 336 := by
  simp [State.wakeRecord, length_imgBytes, List.length_flatMap, drawNat]

theorem exec_wakeRead (hruns : s.runs p d) (hsound : Sound p d) (hlen : d.len = 0) (htakes : Takes d 336) :
    exec (.wakeRead p d) s = .next (s.wakeRecord.2.answered p d St.ok 0 s.wakeRecord.1) := by
  obtain ⟨hind, hptr, hroom⟩ := htakes
  have hform : (readForm 0 true).check p d = none :=
    Form.check_none hsound (fun k => nomatch k) (fun k => nomatch k) (by rw [hlen]; rfl) rfl (fun k => nomatch k) (fun _ => ⟨hind, hptr⟩)
  have hbody : wakeReadBody d s = { s := s.wakeRecord.2, result := 0, out := s.wakeRecord.1 } :=
    withOutput_fits (by rw [State.length_wakeRecord]; exact hroom)
  refine congrArg (β := Res) .next ((runCommand_runs hruns hform _).trans ?_)
  rw [hbody]
  rfl

end Sys2Proof.Machine
end

section
/-! The statement on the sleep commands (11_power_wake.md). -/

namespace Sys2Proof

open Sys2Proof.Machine

/-- Settles O33: each command's form passes or refuses it, and its body answers by the checks in their order; ENTRY changes registers
and the sleep sequence alone. -/
theorem sleepCommandsAnswer : Obligations.SleepCommandsAnswer := by
  intro d s
  refine ⟨fun p hp hruns _ himm h1 h6 => exec_sleep_host hp hruns himm h1 h6, fun hruns hnew himm h1 h6 => ?_,
    fun p hruns himm h => congrArg (β := Res) .next (finish_runs hruns (resumeForm_check himm) (resumeBody_already h)),
    fun p hruns himm f hf hl hsrc => ?_, fun p hruns hsound hlen htakes => exec_wakeRead hruns hsound hlen htakes⟩
  · have hfails := fun {st k} => exec_sleep_fails (st := st) (k := k) hruns hnew himm h1 h6
    simp only [← s.sleepBad_iff d, ← s.sleepBusy_iff, ← s.testBit_awakeSources, ← not_exists]
    refine ⟨fun hbad => hfails (if_pos hbad), fun hgood hbusy => hfails ?_, fun hgood hidle hawake => ⟨s.awakeSources, hfails ?_, fun i => Iff.rfl⟩,
      fun hgood hidle hasleep => ⟨_, exec_sleep_waits hruns hnew himm h1 h6 ?_, ?_⟩⟩
    · exact (if_neg hgood).trans (if_pos hbusy)
    · have hsome : s.awakeSources ≠ 0 := by
        rintro hzero
        obtain ⟨i, hi⟩ := hawake
        simp [hzero] at hi
      exact (if_neg hgood).trans ((if_neg hidle).trans (if_pos hsome))
    · have hnone : s.awakeSources = 0 := Nat.eq_of_testBit_eq fun i => by
        rw [Nat.zero_testBit]
        exact Bool.eq_false_iff.2 fun hi => hasleep ⟨i, hi⟩
      exact (if_neg hgood).trans ((if_neg hidle).trans (if_neg (not_not_intro hnone)))
    · have hpwr := s.entryArmed_pwr
      have hcauses := s.entryArmed_causes
      have hfallback := fun n => s.entryArmed_fallback (n := n)
      rw [s.enterEntry_eq]
      obtain ⟨g, hregs⟩ := s.entryArmed_regsOnly
      rw [hregs] at hpwr hcauses hfallback ⊢
      exact ⟨hpwr, hcauses, hfallback, rfl, rfl, rfl, rfl, rfl, rfl, rfl, rfl, rfl⟩
  · obtain ⟨halone, hnot⟩ := resumeBody_latched hf hl hsrc
    have hcheck := resumeForm_check himm
    exact ⟨fun h => congrArg (β := Res) .next (finish_runs hruns hcheck (halone h)),
      fun h => congrArg (β := Res) .next (finish_runs hruns hcheck (hnot h))⟩

end Sys2Proof
end

section
/-! SUPPORT. What a report to the error log and a fault bit change (R6, R326, R341, R342), and CHK's multi mode (R124). -/

namespace Sys2Proof.Machine

variable {s t u : State}

/-! ### Reports: the block FIFOs and the two registers of a discarded report -/

/-- What a report changes: the block FIFOs, the discard count and the bit of ERR_STATUS that shows it. -/
structure Logged (s t : State) : Prop where
  shape : ∃ f g r, t = { s with err.fifos := f, err.fifoGap := g, reg.regs := r }
  keys : ∀ k, k ≠ R.errDiscard → k ≠ R.errStatus → t.key k = s.key k
  status : ∀ i, i ≠ 1 → t.bt R.errStatus i = s.bt R.errStatus i

theorem Logged.trans (h : Logged s t) (k : Logged t u) : Logged s u := by
  obtain ⟨⟨f, g, r, rfl⟩, hkeys, hstatus⟩ := h
  obtain ⟨⟨f', g', r', rfl⟩, kkeys, kstatus⟩ := k
  exact ⟨⟨f', g', r', rfl⟩, fun j h1 h2 => (kkeys j h1 h2).trans (hkeys j h1 h2), fun i hi => (kstatus i hi).trans (hstatus i hi)⟩

theorem State.bt_setBt_other (s : State) (o : Nat) {i j : Nat} (b : Bool) (h : j ≠ i) : (s.setBt o i b).bt o j = s.bt o j :=
  (congrArg (bit · j) (s.rg_modRg_same o _)).trans (bit_setBit_other _ b h)

theorem State.fifoPut_logged (s : State) (r : LogEntry) : Logged s (s.fifoPut r).2 := by
  have hput : ∀ l, Logged s { s with err.fifos := l } := fun l =>
    ⟨⟨l, s.err.fifoGap, s.reg.regs, rfl⟩, fun _ _ _ => rfl, fun _ _ => rfl⟩
  have hdiscard : ∀ g, Logged s (({ s.count R.errDiscard with err.fifoGap := g } : State).setBt R.errStatus 1 true) := fun g => by
    refine ⟨⟨s.err.fifos, g, _, rfl⟩, fun k h1 h2 => (State.key_setKey_other _ _ h2).trans (State.key_setKey_other s _ h1),
      fun i hi => (State.bt_setBt_other _ _ true hi).trans ?_⟩
    exact congrArg (bit · i) (s.rg_count_other 1 (by decide))
  unfold State.fifoPut
  dsimp only
  split
  · split
    · exact hput _
    · split
      · exact hput _
      · exact hdiscard _
  · split
    · exact hput _
    · exact hdiscard _

theorem State.queueReport_logged (s : State) (r : LogEntry) : Logged s (s.queueReport r) := by
  have hput := s.fifoPut_logged r
  unfold State.queueReport
  split
  · next heq => rwa [heq] at hput
  · next heq =>
    rw [heq] at hput
    split
    · exact hput
    · exact hput.trans (State.fifoPut_logged _ _)

theorem State.report_logged (s : State) (code kind part unit detail : Nat) (fault : Bool) :
    Logged s (s.report code kind part unit detail fault) := s.queueReport_logged _

/-! ### A bit of ERR_FAULT (R6, R326) -/

/-- What a fault bit changes: registers, FAULT_N and the notices of the event; the bit is set. -/
structure Raised (b : Nat) (s t : State) : Prop where
  shape : ∃ g c o, t = { s with reg.regs := g, cmd := c, out := o, pins.faultN := true }
  keys : ∀ k, 0x20_0000 ≤ k → k < 0x400_0000 → k ≠ R.errFault → t.key k = s.key k
  bit : t.bt R.errFault b = true

theorem State.setFault_raised (s : State) {b : Nat} (h : b < 32) : Raised b s (s.setFault b) := by
  obtain ⟨⟨g, c, o, heq⟩, hkeys, -⟩ := ({ s.setBt R.errFault b true with pins.faultN := true } : State).eventAll_notified 2
  have hfault : s.setFault b = ({ s.setBt R.errFault b true with pins.faultN := true } : State).eventAll 2 := rfl
  refine ⟨⟨g, c, o, hfault.trans (heq.trans rfl)⟩, fun k h1 h2 h3 => ?_, ?_⟩
  · rw [hfault]
    exact (hkeys k h1 h2).trans (State.key_setKey_other s _ h3)
  · have hword := hkeys R.errFault (by decide) (by decide)
    rw [hfault]
    exact (congrArg (bit · b) hword).trans (s.bt_setBt_same R.errFault true h)

/-! ### CHK's multi mode (R124) -/

theorem kvGet_filter {α : Type} (d : α) (m : List (Nat × α)) (f : Nat → Bool) (k : Nat) :
    kvGet d (m.filter (fun x => f x.1)) k = if f k = true then kvGet d m k else d := by
  induction m with
  | nil => simp [kvGet]
  | cons x r ih =>
    obtain ⟨j, v⟩ := x
    by_cases hj : j = k
    · subst hj
      cases hf : f j <;> simp [kvGet, hf, ih]
    · cases hf : f j <;> simp [kvGet, hf, hj, ih]

/-- The registers of CHK channels 1 to 7. -/
def chkChannels (k : Nat) : Bool := decide (0x90_0040 ≤ k ∧ k < 0x90_0200)

/-- The state with CHK channels 1 to 7 at their reset values. -/
def State.chkCleared (s : State) : State :=
  { s with reg.regs := s.reg.regs.filter (fun x => !chkChannels x.1), reg.wide := s.reg.wide.filter (fun x => !chkChannels x.1) }

theorem State.chkEnter_multi (h : s.bt R.chkMode 0 = true) : s.chkEnter = s := if_pos h

theorem State.chkEnter_single (h : s.bt R.chkMode 0 = false) : s.chkEnter = s.chkCleared.setBt R.chkMode 0 true := by
  have hother : (fun x : Nat × W32 => decide (x.1 < 0x90_0040 ∨ 0x90_0200 ≤ x.1)) = fun x => !chkChannels x.1 := by
    funext x
    rw [chkChannels, ← decide_not]
    exact decide_eq_decide.mpr (by omega)
  have hother' : (fun x : Nat × W64 => decide (x.1 < 0x90_0040 ∨ 0x90_0200 ≤ x.1)) = fun x => !chkChannels x.1 := by
    funext x
    rw [chkChannels, ← decide_not]
    exact decide_eq_decide.mpr (by omega)
  unfold State.chkEnter State.chkCleared
  dsimp only
  rw [if_neg (by simp [h]), hother, hother']

theorem State.key_chkCleared (s : State) (k : Nat) :
    s.chkCleared.key k = if chkChannels k = true then regReset s.logger (k % 2 ^ 26) else s.key k := by
  refine (kvGet_filter _ _ (fun k => !chkChannels k) k).trans ?_
  cases chkChannels k <;> rfl

theorem State.wide_chkCleared (s : State) (k : Nat) :
    s.chkCleared.wide k = if chkChannels k = true then wideReset k else s.wide k := by
  refine (kvGet_filter _ _ (fun k => !chkChannels k) k).trans ?_
  cases chkChannels k <;> rfl

theorem State.chkEnter_shape (s : State) : ∃ r, s.chkEnter = { s with reg := r } := by
  cases h : s.bt R.chkMode 0 with
  | true => exact ⟨s.reg, by rw [State.chkEnter_multi h]⟩
  | false => exact ⟨_, (State.chkEnter_single h).trans rfl⟩

theorem State.chkEnter_bt (s : State) : s.chkEnter.bt R.chkMode 0 = true := by
  cases h : s.bt R.chkMode 0 with
  | true => rw [State.chkEnter_multi h, h]
  | false => rw [State.chkEnter_single h, State.bt_setBt_same _ _ _ (by decide)]

/-- The entry into multi mode leaves every register but CHK's as it was. -/
theorem State.key_chkEnter (s : State) {k : Nat} (h1 : chkChannels k = false) (h2 : k ≠ R.chkMode) : s.chkEnter.key k = s.key k := by
  cases h : s.bt R.chkMode 0 with
  | true => rw [State.chkEnter_multi h]
  | false => rw [State.chkEnter_single h, State.setBt, State.modRg, State.setRg, State.key_setKey_other _ _ h2, State.key_chkCleared,
      if_neg (by simp [h1])]

end Sys2Proof.Machine
end

section
/-! SUPPORT. A restart of the block on the logger variant (R2): its variant register resets to the logger's value. -/

namespace Sys2Proof.Machine

/-- A restarted block reads the variant register of `State.reset`, which is not the logger's. -/
theorem Restarted.not_logger {s t : State} {code : Nat} (h : Restarted s t code) : t.rg 8 ≠ 0x0004_0104 := by
  have hreset : t.rg 8 = State.reset.rg 8 := h.regs 8 (by decide) (Or.inr (by decide))
  rw [hreset]
  decide

/-- The logger at power on, PORST_N held. -/
def loggerPoweringOn : State := { State.reset with logger := true }

/-- The logger asleep in DEEP with the wake source T1S 0 enabled. -/
def loggerInDeep : State :=
  ({ State.reset with logger := true, pins.hiZ := false, pins.shutdown := false }.setFd R.pwrState 3 0 pwDeep).setBt R.wakEnLo 24 true

end Sys2Proof.Machine
end

section
/-! The statements on the resets, and on the sleep sequence. -/

namespace Sys2Proof

open Sys2Proof.Machine

/-- Refutes O60: a restart of the logger variant leaves its variant register at the logger's reset value, which differs from that of
the reset state (the full variant) that `Restarted` asks for. Counterexample: POWER_ON_RESET of `loggerPoweringOn`. -/
theorem not_resetsAndStartsFollowTheLedger : ¬ Obligations.ResetsAndStartsFollowTheLedger := by
  unfold Obligations.ResetsAndStartsFollowTheLedger
  intro h
  obtain ⟨-, hpower, -⟩ := h loggerPoweringOn
  obtain ⟨t, hnext, hrestarted⟩ := hpower rfl
  have ht : powerOnReset loggerPoweringOn = t := Host.Outcome.next.inj hnext
  have hword : (powerOnReset loggerPoweringOn).rg 8 = 0x0004_0104 := by decide +kernel
  exact hrestarted.not_logger (ht ▸ hword)

/-- Refutes O59: a wake in DEEP restarts the block, and that of the logger variant leaves its variant register at the logger's reset
value, not at that of the reset state that `Restarted` asks for. Counterexample: T1S_ACTIVITY of port 0 in `loggerInDeep`. -/
theorem not_sleepAndWakeKeepTheirOrder : ¬ Obligations.SleepAndWakeKeepTheirOrder := by
  unfold Obligations.SleepAndWakeKeepTheirOrder
  intro h
  obtain ⟨-, -, -, -, -, -, -, -, hwakes, -⟩ := h loggerInDeep
  have henabled : loggerInDeep.wakes 24 = true := by decide +kernel
  have hunlatched : loggerInDeep.latched 24 = false := by decide +kernel
  obtain ⟨-, hdeep⟩ := hwakes rfl rfl 24 (.t1sActivity 0) henabled hunlatched (Or.inr (Or.inr (Or.inr (Or.inl ⟨0, rfl, rfl⟩))))
  obtain ⟨t, hnext, hrestarted, -⟩ := hdeep (by decide +kernel)
  have ht : t1sActivity 0 loggerInDeep = t := Host.Outcome.next.inj hnext
  have hword : (t1sActivity 0 loggerInDeep).rg 8 = 0x0004_0104 := by decide +kernel
  exact hrestarted.not_logger (ht ▸ hword)

end Sys2Proof
end

section
/-! SUPPORT. A discard counter whose own word fails while the FIFO of the error block is full (R324, R342). -/

namespace Sys2Proof.Machine

/-- A working block whose own FIFO of the error unit holds 16 reports. -/
def errorFifoFull : State := { State.reset with pins.hiZ := false, err.fifos := [(0x0B, List.replicate 16 {})] }

/-- ERR_DISCARD restarts at 0, and the report of that is discarded and counted. -/
theorem errDiscard_restarted : (datapathUnitFault (.counterWord (BitVec.ofNat _ R.errDiscard)) true errorFifoFull).rg R.errDiscard = 1 := by
  decide +kernel

end Sys2Proof.Machine
end

section
/-! The statement on faulty units. -/

namespace Sys2Proof

open Sys2Proof.Machine

/-- Refutes O47: ERR_DISCARD is an event counter; when its own word fails it restarts at 0, but the report of that event meets a full
FIFO of its block, is discarded, and counts ERR_DISCARD up to 1 (R342). Counterexample: `errorFifoFull`. -/
theorem not_faultyUnitsLeaveService : ¬ Obligations.FaultyUnitsLeaveService := by
  unfold Obligations.FaultyUnitsLeaveService
  intro h
  have hworks : errorFifoFull.stopped = false := by decide +kernel
  obtain ⟨-, -, -, -, -, -, hcounter, -⟩ := h errorFifoFull hworks
  obtain ⟨t, hnext, -, hzero, -⟩ := hcounter (BitVec.ofNat _ R.errDiscard) true (by decide)
  have hsame : onLanes (datapathUnitFault (.counterWord (BitVec.ofNat _ R.errDiscard)) true) errorFifoFull = t :=
    Host.Outcome.next.inj ((next_clocked hworks _).symm.trans hnext)
  rw [onLanes_same (by decide +kernel)] at hsame
  have hcleared : t.rg R.errDiscard = 0 := hzero
  rw [← hsame, errDiscard_restarted] at hcleared
  exact absurd hcleared (by decide)

end Sys2Proof
end

section
/-! SUPPORT. What a failover of the signal box does to the command paths (R332 to R334), and what a grant of the slices' arbiter serves
(R38, R135). -/

namespace Sys2Proof.Machine

variable {s t : State}

theorem State.path_setPath_other (s : State) {p q : Part} (c : CmdPath) (h : q ≠ p) : (s.setPath p c).path q = s.path q :=
  kvGet_set_other _ _ _ (Fin.val_ne_of_ne h)

/-! ### The rewinding of the commands (R332 step 5) -/

/-- A partition's path when its commands that hardware does not carry on wait to start again. -/
def State.rewoundPath (s : State) (p : Part) : CmdPath :=
  { s.path p with fetched := (s.path p).fetched.map (fun f => if f.desc.ctag ∈ s.carried p then f else { f with started := false }) }

theorem State.rewind_shape (s : State) (p : Part) : ∃ sl o y, s.rewind p = { s with
    cmd := { s.cmd with path := kvSet {} s.cmd.path p.val (s.rewoundPath p), slots := sl, openReqs := o }, cry := y } := by
  have hslots : ∀ u : State, ∃ sl o, (List.range 8).foldl (fun a k => if (a.slot p k).cmd.isSome then a.freeSlot p k else a) u =
      { u with cmd.slots := sl, cmd.openReqs := o } := fun u => by
    refine List.foldlRecOn (motive := fun b : State => ∃ sl o, b = { u with cmd.slots := sl, cmd.openReqs := o }) _ _
      ⟨u.cmd.slots, u.cmd.openReqs, rfl⟩ ?_
    rintro _ ⟨sl, o, rfl⟩ k -
    split
    · exact ⟨_, _, rfl⟩
    · exact ⟨_, _, rfl⟩
  have hpath : ({ s.path p with fetched := (s.path p).fetched.map (fun f =>
      if (s.carried p).contains f.desc.ctag then f else { f with started := false }) } : CmdPath) = s.rewoundPath p := by
    simp only [State.rewoundPath, List.contains_iff_mem]
  obtain ⟨sl, o, heq⟩ := hslots (s.setPath p (s.rewoundPath p))
  unfold State.rewind
  dsimp only
  rw [hpath, heq]
  exact ⟨sl, o, _, rfl⟩

/-- What the failover has done when the partitions of a list are rewound: ready pours stay, the paths of the list are rewound. -/
structure Rewound (s t : State) (l : List Part) : Prop where
  shape : ∃ c y, t = { s with cmd := c, cry := y }
  pours : t.cmd.pours.filter (·.ready) = s.cmd.pours.filter (·.ready)
  path : ∀ p, t.path p = if p ∈ l then s.rewoundPath p else s.path p

theorem Rewound.carried {l : List Part} (h : Rewound s t l) (p : Part) : t.carried p = s.carried p := by
  obtain ⟨⟨c, y, rfl⟩, hpours, -⟩ := h
  unfold State.carried
  simp only [← List.filter_filter, hpours]

theorem Rewound.rewind {l : List Part} (h : Rewound s t l) {p : Part} (hp : p ∉ l) : Rewound s (t.rewind p) (l ++ [p]) := by
  have hpath : t.path p = s.path p := (h.path p).trans (if_neg hp)
  have hrewound : t.rewoundPath p = s.rewoundPath p := by rw [State.rewoundPath, State.rewoundPath, h.carried, hpath]
  obtain ⟨⟨c, y, hshape⟩, hpours, hother⟩ := h
  obtain ⟨sl, o, y', heq⟩ := t.rewind_shape p
  rw [heq]
  refine ⟨⟨_, y', by rw [hshape]⟩, hpours, fun q => ?_⟩
  change (t.setPath p (t.rewoundPath p)).path q = _
  by_cases hqp : q = p
  · subst hqp
    simp [hrewound]
  · rw [State.path_setPath_other _ _ hqp, hother q]
    simp [hqp]

theorem Rewound.foldl_rewind {l m : List Part} (h : Rewound s t l) (hm : (l ++ m).Nodup) :
    Rewound s (m.foldl (fun a p => a.rewind p) t) (l ++ m) := by
  induction m generalizing t l with
  | nil => simpa using h
  | cons p m ih =>
    have hp : p ∉ l := fun hl => (List.nodup_append.mp hm).2.2 p hl p (by simp) rfl
    simpa using ih (h.rewind hp) (by simpa using hm)

theorem State.endSeal_shape (s : State) (p : Part) (k : Nat) : ∃ m, s.endSeal p k = { s with cmd.moulds := m } := by
  unfold State.endSeal
  split
  · exact ⟨_, rfl⟩
  · exact ⟨_, rfl⟩
  · exact ⟨_, rfl⟩

/-- The pours that were not ready leave the queue: the ready ones and every path stay. -/
theorem State.unpour_rewound (s : State) : Rewound s s.unpour [] := by
  unfold State.unpour
  refine List.foldlRecOn (motive := fun b => Rewound s b []) _ _ ⟨⟨_, _, rfl⟩, rfl, fun _ => by simp⟩ ?_
  rintro b ⟨⟨c, y, rfl⟩, hpours, hpath⟩ x hx
  have hready : x.ready = false := by simpa using (List.mem_filter.mp hx).2
  obtain ⟨m, heq⟩ := State.endSeal_shape { s with cmd := { c with pours := c.pours.filter (fun z => !(z == x)) }, cry := y } x.part 2
  refine ⟨⟨_, y, heq.trans rfl⟩, ?_, fun p => ?_⟩
  · refine (congrArg (fun u : State => u.cmd.pours.filter (·.ready)) heq).trans (Eq.trans ?_ hpours)
    dsimp only
    rw [List.filter_filter]
    refine List.filter_congr fun z _ => ?_
    by_cases hz : z = x
    · simp [hz, hready]
    · simp [hz]
  · exact (congrArg (fun u : State => u.path p) heq).trans (hpath p)

/-- The paths of all partitions are rewound. -/
theorem State.failover_rewound (s : State) :
    Rewound s (allParts.foldl (fun a p => a.rewind p) { s.unpour with cmd.remoteWait := [], cmd.box := none }) allParts := by
  obtain ⟨⟨c, y, hshape⟩, hpours, hpath⟩ := s.unpour_rewound
  have hfirst : Rewound s ({ s.unpour with cmd.remoteWait := [], cmd.box := none } : State) [] :=
    ⟨⟨_, y, by rw [hshape]⟩, hpours, hpath⟩
  simpa using hfirst.foldl_rewind (m := allParts) (by decide)

/-! ### The failover and its aftermath -/

/-- With a standby pair, a failover rewinds every path and changes no output and no table. -/
theorem signalBoxFailover_standby (hdead : s.err.sbDead = false) (hpair : s.bt R.errStatus 2 = false) :
    ∃ t, signalBoxFailover s = t ∧
      t.bt R.errStatus 2 = true ∧ t.bt R.errStatus 3 = (s.activePair == 0) ∧ t.bt R.chkMode 0 = true ∧ t.err.sbDead = false ∧
      t.tab = s.tab ∧ t.out = s.out ∧ ∀ p, t.path p = s.rewoundPath p := by
  have hrewound := s.failover_rewound
  unfold signalBoxFailover
  rw [if_neg (by simp [hdead]), if_neg (by simp [hpair])]
  dsimp only
  generalize allParts.foldl (fun a p => State.rewind a p) _ = u at hrewound ⊢
  generalize (allParts.map (fun p => (s.restarted p).length)).foldl (· + ·) 0 = n
  obtain ⟨⟨c, y, rfl⟩, -, hpath⟩ := hrewound
  generalize hv : (({ s with cmd := c, cry := y } : State).setBt R.errStatus 2 true).setBt R.errStatus 3 (s.activePair == 0) = v
  have hstatus : v.chkEnter.rg R.errStatus = v.rg R.errStatus := v.key_chkEnter (by decide) (by decide)
  have hmode := v.chkEnter_bt
  obtain ⟨r, hr⟩ := v.chkEnter_shape
  obtain ⟨⟨f, g, r', ht⟩, hkeys, hbits⟩ := v.chkEnter.report_logged 0x0106 kTransient 0xFF 0xFF n false
  refine ⟨_, rfl, ?_, ?_, ?_, ?_, ?_, ?_, ?_⟩
  · rw [hbits 2 (by decide), State.bt, hstatus, ← hv]
    exact (State.bt_setBt_other _ _ _ (by decide)).trans (State.bt_setBt_same _ _ _ (by decide))
  · rw [hbits 3 (by decide), State.bt, hstatus, ← hv]
    exact State.bt_setBt_same _ _ _ (by decide)
  · exact (congrArg (bit · 0) (hkeys R.chkMode (by decide) (by decide))).trans hmode
  · rw [ht, hr, ← hv]
    exact hdead
  · rw [ht, hr, ← hv]
    rfl
  · rw [ht, hr, ← hv]
    rfl
  · intro p
    rw [ht, hr, ← hv]
    exact (hpath p).trans (if_pos (mem_allParts p))

/-- In simplex, a fault of the active pair stops command processing, with its fault bit set. -/
theorem signalBoxFailover_simplex (hdead : s.err.sbDead = false) (hpair : s.bt R.errStatus 2 = true) :
    ∃ t, signalBoxFailover s = t ∧ t.err.sbDead = true ∧ t.bt R.errFault 5 = true ∧ t.tab = s.tab := by
  unfold signalBoxFailover
  rw [if_neg (by simp [hdead]), if_pos hpair]
  obtain ⟨⟨f, g, r, ht⟩, -, -⟩ := ({ s with err.sbDead := true } : State).report_logged 0x0107 kPermanent 0xFF 0xFF s.activePair true
  rw [ht]
  generalize hv : ({ s with err.sbDead := true, err.fifos := f, err.fifoGap := g, reg.regs := r } : State) = v
  obtain ⟨⟨r', c, o, hraised⟩, -, hbit⟩ := v.setFault_raised (b := 5) (by decide)
  refine ⟨_, rfl, ?_, hbit, ?_⟩
  · rw [hraised, ← hv]
  · rw [hraised, ← hv]

/-- The failed pair fails its self-test: it is retired with its fault bit, and multi mode ends. -/
theorem pairSelfTestDone_failed (hdead : s.err.sbDead = false) (hfailed : s.err.sbFailed = false) (hpair : s.bt R.errStatus 2 = true) :
    ∃ t, pairSelfTestDone false s = t ∧ t.err.sbFailed = true ∧ t.bt R.errFault 5 = true ∧ t.bt R.chkMode 0 = false ∧
      t.tab = s.tab := by
  unfold pairSelfTestDone State.chkLeave
  rw [if_neg (by simp [hdead, hfailed, hpair])]
  dsimp only
  rw [if_neg (by decide)]
  have hmode : ({ s.setBt R.chkMode 0 false with err.sbFailed := true } : State).bt R.chkMode 0 = false :=
    s.bt_setBt_same R.chkMode false (by decide)
  obtain ⟨⟨f, g, r, ht⟩, hkeys, -⟩ := ({ s.setBt R.chkMode 0 false with err.sbFailed := true } : State).report_logged 0x0107 kPermanent
    0xFF 0xFF (1 - s.activePair) true
  generalize hv : State.report _ _ _ _ _ _ _ = v at ht hkeys ⊢
  obtain ⟨⟨r', c, o, hraised⟩, hkept, hbit⟩ := v.setFault_raised (b := 5) (by decide)
  refine ⟨_, rfl, ?_, hbit, ?_, ?_⟩
  · rw [hraised, ht]
  · have hword := (hkept R.chkMode (by decide) (by decide) (by decide)).trans (hkeys R.chkMode (by decide) (by decide))
    exact (congrArg (bit · 0) hword).trans hmode
  · rw [hraised, ht]
    rfl

/-- Where no pair is left, whatever runs on the signal box changes nothing. -/
theorem onSignalBox_dead (h : s.err.sbDead = true) (f : State → State) : onSignalBox f s = s := if_pos (by simp [h])

/-! ### The work that a grant of the slices' arbiter serves -/

/-- The head of a requester is its first work that a slice can serve. -/
theorem State.cryptoHead_split {i : Nat} {w : CryptoWork} (h : s.cryptoHead i = some w) : ∃ a b, s.cry.work = a ++ w :: b ∧
    (w.req = i ∧ s.servable w = true) ∧ ∀ x ∈ a, ¬ (x.req = i ∧ s.servable x = true) := by
  obtain ⟨hw, a, b, hwork, hbefore⟩ := List.find?_eq_some_iff_append.mp h
  refine ⟨a, b, hwork, by simpa using hw, fun x hx => ?_⟩
  simpa [imp_iff_not_or] using hbefore x hx

/-- Work taken out of the list at its first place. -/
theorem erase_split {a b : List CryptoWork} {w : CryptoWork} (h : w ∉ a) : (a ++ w :: b).erase w = a ++ b := by
  rw [List.erase_append_right _ h, List.erase_cons_head]

/-- A grant of the slices' arbiter takes one burst from the head of the requester that it picks; work without a further burst ends. -/
theorem cryptoGrant_picked {i : Nat} {w : CryptoWork} (hpick : s.pick .crypto s.cryptoReady = some i) (hhead : s.cryptoHead i = some w) :
    cryptoGrant s = if 1 < w.bursts then
        { s.granted .crypto i 1 with cry.work := s.cry.work.map (fun y => if y = w then { y with bursts := y.bursts - 1 } else y) }
      else ({ s.granted .crypto i 1 with cry.work := s.cry.work.erase w } : State).cryptoEnds w := by
  unfold cryptoGrant
  simp only [hpick, hhead]
  rfl

/-- The requester that the arbiter picks has a head. -/
theorem State.cryptoHead_of_pick {i : Nat} (h : s.pick .crypto s.cryptoReady = some i) : ∃ w, s.cryptoHead i = some w := by
  have hready := s.pick_mem .crypto h
  exact Option.isSome_iff_exists.mp (List.mem_filter.mp hready).2

end Sys2Proof.Machine
end

section
/-! The statement on the failover of the signal box and the grants of the AES slices. -/

namespace Sys2Proof

open Sys2Proof.Machine

/-- Settles O49: the failover rewinds one partition after the other (`Rewound`); without a pair the signal box runs nothing; the work
granted a burst is the first of its requester that a slice can serve. -/
theorem signalBoxFailsOver : Obligations.SignalBoxFailsOver := by
  unfold Obligations.SignalBoxFailsOver
  intro s hw
  have hfailover : exec .signalBoxFailover s = .next (signalBoxFailover s) := next_clocked hw _
  have htest : ∀ b, exec (.pairSelfTestDone b) s = .next (pairSelfTestDone b s) := fun b => next_clocked hw _
  have hgrant : exec .cryptoGrant s = .next (cryptoGrant s) := next_clocked hw _
  refine ⟨fun hdead hpair => ?_, fun hdead hpair => ?_, fun hdead => ?_, fun hnone b => ?_, fun hdead hfailed hpair => ⟨?_, ?_⟩,
    fun hpick => ?_, fun i hpick => ?_⟩
  · obtain ⟨t, ht, hsimplex, hactive, hmode, hlive, htab, hout, hpath⟩ := signalBoxFailover_standby hdead hpair
    refine ⟨t, by rw [hfailover, ht], hsimplex, hactive, hmode, hlive, htab, hout, fun p => ?_⟩
    rw [hpath p]
    exact ⟨rfl, rfl, rfl⟩
  · obtain ⟨t, ht, hgone, hfault, htab⟩ := signalBoxFailover_simplex hdead hpair
    exact ⟨t, by rw [hfailover, ht], hgone, hfault, htab, onSignalBox_dead hgone,
      fun p d => congrArg (β := Res) .next (onSignalBox_dead hgone _), congrArg (β := Res) .next (onSignalBox_dead hgone _)⟩
  · rw [hfailover, signalBoxFailover, if_pos hdead]
  · rw [htest, pairSelfTestDone, if_pos (by simpa using hnone)]
  · rw [htest, pairSelfTestDone, if_neg (by simp [hdead, hfailed, hpair])]
    rfl
  · obtain ⟨t, ht, hretired, hfault, hmode, htab⟩ := pairSelfTestDone_failed hdead hfailed hpair
    exact ⟨t, by rw [htest, ht], hretired, hfault, hmode, htab⟩
  · rw [hgrant, cryptoGrant, hpick]
  · obtain ⟨w, hhead⟩ := State.cryptoHead_of_pick hpick
    obtain ⟨a, b, hwork, hserved, hbefore⟩ := State.cryptoHead_split hhead
    have hw_a : w ∉ a := fun hmem => hbefore w hmem hserved
    have hstep := cryptoGrant_picked hpick hhead
    refine ⟨a, w, b, hwork, hserved.1, hserved.2, hbefore, fun hmore => ?_, fun hlast => ?_⟩
    · rw [hgrant, hstep, if_pos hmore]
    · rw [if_neg (by omega), hwork, erase_split hw_a] at hstep
      refine ⟨fun c id huse => ?_, fun o huse => ?_, fun id f huse hframe => ?_⟩
      · rw [hgrant, hstep, State.cryptoEnds, huse]
      · rw [hgrant, hstep, State.cryptoEnds, huse]
      · have hframe' : ({ s.granted .crypto i 1 with cry.work := a ++ b } : State).frame id = some f := hframe
        rw [hgrant, hstep, State.cryptoEnds, huse]
        simp only [hframe']

end Sys2Proof
end

section
/-! SUPPORT. The commands of the error log and of CHK (R124, R343): what their forms and bodies answer. -/

namespace Sys2Proof.Machine

variable {s : State} {p : Part} {d : CmdDesc}

/-! ### Answers with output (R275) -/

/-- A command whose form passes and whose output fits answers it. -/
theorem runCommand_outputs {f : Form} {body : State → Ans} {t : State} {r : Nat} {out : List Byte} (hruns : s.runs p d)
    (hform : f.check p d = none) (hbody : body s = withOutput d s t r out) (hroom : out.length ≤ d.outLen.toNat) :
    runCommand f p d body s = t.answered p d St.ok r out := by
  rw [runCommand_runs hruns hform, hbody, withOutput_fits hroom]
  rfl

/-! ### ERR_READ (R343) -/

theorem exec_errRead (hruns : s.runs p d) (himm : Imm p d 4) (hind : d.indirect = true) (hptr : d.outPtr ≠ 0) (hfirst : d.le 0 2 < 4096)
    (hsome : 1 ≤ d.le 2 2) (hmany : d.le 2 2 ≤ 128)
    (hroom : ((List.range (d.le 2 2)).flatMap (fun k => s.entryBytes p ((d.le 0 2 + k) % 4096))).length ≤ d.outLen.toNat) :
    exec (.errRead p d) s =
      .next (s.answered p d St.ok 0 ((List.range (d.le 2 2)).flatMap (fun k => s.entryBytes p ((d.le 0 2 + k) % 4096)))) :=
  congrArg (β := Res) .next (runCommand_outputs hruns (himm.check_none rfl rfl rfl nofun fun _ => ⟨hind, hptr⟩) (if_neg (by omega)) hroom)

/-! ### DIAG_SNAPSHOT (R279) -/

/-- An order that a number stands for leaves out nothing. -/
theorem reorder_perm (n k : Nat) (l : List W32) (h : l.length = n) : (reorder n k l).Perm l := by
  induction n generalizing k l with
  | zero => exact .refl l
  | succ n ih =>
    have hk : k % l.length < l.length := Nat.mod_lt _ (by omega)
    have hrest := ih (k / l.length) (l.eraseIdx (k % l.length)) (by rw [List.length_eraseIdx_of_lt hk]; omega)
    rw [reorder, List.getD_eq_getElem _ _ hk]
    exact (hrest.cons _).trans (List.getElem_cons_eraseIdx_perm hk)

/-- The registers that DIAG_SNAPSHOT names (R279). -/
def State.namedRegs (s : State) (p : Part) (d : CmdDesc) : List Nat :=
  ((List.range 14).filter (fun b => (d.le 0 2).testBit b)).flatMap (fun b => s.blockRegs p b)

/-- Their values in the order that is left free (log entry 1). -/
def State.namedValues (s : State) (p : Part) (d : CmdDesc) : List W32 :=
  let vs := (s.namedRegs p d).map (fun off => s.regValue p p off)
  reorder vs.length (Config.snapshotOrder (d.le 0 2 + 2 ^ 16 * p.val)) vs

theorem State.namedValues_perm (s : State) (p : Part) (d : CmdDesc) :
    (s.namedValues p d).Perm ((s.namedRegs p d).map (fun off => s.regValue p p off)) := reorder_perm _ _ _ rfl

theorem State.length_namedValues_bytes (s : State) (p : Part) (d : CmdDesc) :
    ((s.namedValues p d).flatMap imgBytes).length = 4 * (s.namedRegs p d).length := by
  simp [List.length_flatMap, length_imgBytes, (s.namedValues_perm p d).length_eq, Nat.mul_comm]

/-- A bit of the 16-bit block mask is a bit of its number. -/
theorem bit_blockMask (v : Nat) {b : Nat} (h : b < 14) : bit (BitVec.ofNat 16 v) b = v.testBit b := by
  rw [bit, BitVec.getLsbD_ofNat, decide_eq_true (by omega), Bool.true_and]

theorem diagSnapshotBody_eq (p : Part) (d : CmdDesc) (s : State) : diagSnapshotBody p d s =
    withOutput d s (s.chkEnter.setBt R.chkMode 0 (s.bt R.chkMode 0)) 0 ((s.chkEnter.namedValues p d).flatMap imgBytes) := by
  have hmask : (List.range 14).filter (fun b => bit (BitVec.ofNat 16 (d.le 0 2)) b) =
      (List.range 14).filter (fun b => (d.le 0 2).testBit b) :=
    List.filter_congr fun b hb => bit_blockMask _ (List.mem_range.1 hb)
  unfold diagSnapshotBody
  rw [hmask]
  rfl

theorem exec_diagSnapshot (hruns : s.runs p d) (himm : Imm p d 2) (hind : d.indirect = true) (hptr : d.outPtr ≠ 0)
    (hmask : d.le 0 2 < 2 ^ 14) (hroom : 4 * (s.chkEnter.namedRegs p d).length ≤ d.outLen.toNat) :
    exec (.diagSnapshot p d) s = .next ((s.chkEnter.setBt R.chkMode 0 (s.bt R.chkMode 0)).answered p d St.ok 0
      ((s.chkEnter.namedValues p d).flatMap imgBytes)) :=
  congrArg (β := Res) .next (runCommand_outputs hruns
    (himm.check_none rfl rfl (decide_eq_true hmask) nofun fun _ => ⟨hind, hptr⟩) (diagSnapshotBody_eq p d s)
    (by rw [State.length_namedValues_bytes]; exact hroom))

/-! ### SELF_TEST (R2, R279) -/

theorem exec_selfTest_host (hruns : s.runs p d) (himm : Imm p d 2) (hp : p ≠ pm) :
    exec (.selfTest p d) s = .next (s.answered p d St.noRight 0 []) :=
  congrArg (β := Res) .next (runCommand_refused hruns (himm.check_noRight rfl rfl rfl rfl hp) _)

theorem exec_selfTest_absent (hruns : s.runs pm d) (himm : Imm pm d 2) (hunit : d.b 0 = 2) (habsent : s.channelCount ≤ d.b 1) :
    exec (.selfTest pm d) s = .next (s.answered pm d St.badParam 0 []) :=
  congrArg (β := Res) .next (finish_runs hruns (himm.check_none rfl rfl rfl (fun _ => rfl) nofun) (if_pos ⟨hunit, habsent⟩))

theorem exec_selfTest_tested (hruns : s.runs pm d) (himm : Imm pm d 2) (hpresent : ¬ (d.b 0 = 2 ∧ s.channelCount ≤ d.b 1)) :
    exec (.selfTest pm d) s = .next ((({ s with free := s.free + 1 } : State).chkEnter.setBt R.chkMode 0 (s.bt R.chkMode 0)).answered pm d
      St.ok (Config.freeNat s.free % 2 ^ 64) []) :=
  congrArg (β := Res) .next (finish_runs hruns (himm.check_none rfl rfl rfl (fun _ => rfl) nofun) (if_neg hpresent))

/-! ### CHK channels at the entry into multi mode (R124) -/

/-- CHK channels 1 to 7 start at their reset values. -/
theorem State.chkEnter_channels (h : s.bt R.chkMode 0 = false) {k : Nat} (h1 : 0x90_0040 ≤ k) (h2 : k < 0x90_0200) :
    s.chkEnter.rg k = regReset s.logger k ∧ s.chkEnter.wide k = wideReset k := by
  have hchannel : chkChannels k = true := decide_eq_true ⟨h1, h2⟩
  have hmode : k ≠ R.chkMode := by simp only [R.chkMode]; omega
  have hkey : k % 2 ^ 26 = k := Nat.mod_eq_of_lt (by omega)
  rw [State.chkEnter_single h]
  constructor
  · rw [State.setBt, State.rg_modRg_other _ _ hmode]
    refine (s.key_chkCleared k).trans ?_
    rw [if_pos hchannel, hkey]
  · exact (s.wide_chkCleared k).trans (if_pos hchannel)

end Sys2Proof.Machine
end

section
/-! SUPPORT. CAP_DISCARD (R399): the queue that it empties, the frame of the record in progress, the lost items, and the notices. -/

namespace Sys2Proof.Machine

variable {s t u : State} {q : Nat}

/-! ### What a queue's notices leave of the rest (R257, R262, R293) -/

/-- What stays when a queue's notices are given: the other queues, the count of lost items and PM's buffer. -/
structure RestKept (q : Nat) (s t : State) : Prop where
  others : ∀ j, j ≠ q → t.capq j = s.capq j
  lost : t.rg (R.capLost q) = s.rg (R.capLost q)
  buffer : t.reg.pmBuf = s.reg.pmBuf

namespace RestKept

theorem refl (s : State) : RestKept q s s := ⟨fun _ _ => rfl, rfl, rfl⟩

theorem trans (h : RestKept q s t) (k : RestKept q t u) : RestKept q s u :=
  ⟨fun j hj => (k.others j hj).trans (h.others j hj), k.lost.trans h.lost, k.buffer.trans h.buffer⟩

/-- A change beside the capture unit. -/
theorem beside (hcap : t.cap = s.cap) (hlost : t.rg (R.capLost q) = s.rg (R.capLost q)) (hbuf : t.reg.pmBuf = s.reg.pmBuf) :
    RestKept q s t := ⟨fun _ _ => by rw [State.capq, hcap]; rfl, hlost, hbuf⟩

end RestKept

theorem State.setCapq_restKept (s : State) (q : Nat) (c : CapQ) : RestKept q s (s.setCapq q c) :=
  ⟨fun _ hj => s.capq_setCapq_other c hj, rfl, rfl⟩

theorem capLost_ne_capStatus (q : Nat) : R.capLost q ≠ R.capStatus q := by
  simp only [R.capLost, R.capStatus]
  omega

theorem State.setCapStatus_restKept (s : State) (q i : Nat) (b : Bool) : RestKept q s (s.setBt (R.capStatus q) i b) :=
  .beside rfl (s.rg_modRg_other _ (capLost_ne_capStatus q)) rfl

theorem State.sendMsix_restKept (s : State) (p : Part) (vec : BitVec 6) : RestKept q s (s.sendMsix p vec) := by
  unfold State.sendMsix
  split
  · exact .beside rfl rfl rfl
  · exact .beside rfl rfl rfl

theorem Reported.buffer (h : Reported s t) : t.reg.pmBuf = s.reg.pmBuf := by
  obtain ⟨⟨e, r, rfl⟩, -⟩ := h
  rfl

theorem Reported.restKept (hq : q < 64) (h : Reported s t) : RestKept q s t := by
  obtain ⟨⟨e, r, rfl⟩, hkeys⟩ := h
  exact .beside rfl (hkeys _ (by simp only [R.capLost, R.errDiscard]; omega) (by simp only [R.capLost, R.errStatus]; omega)) rfl

theorem State.frozenQuietly_buffer (s : State) (p : Part) (cause what : Nat) :
    (s.frozenQuietly p cause what).reg.pmBuf = s.reg.pmBuf :=
  calc (s.frozenQuietly p cause what).reg.pmBuf
    _ = (({ s.freezePath p cause what with cmd.moulds := (s.freezePath p cause what).mouldsFrozen p } : State).setBt
          R.secPmEvent p.val true).reg.pmBuf := by rw [State.frozenQuietly]
    _ = (s.freezePath p cause what).reg.pmBuf := by rw [State.setBt_reg_pmBuf]
    _ = ((s.modRgp p R.secStatus (frozenStatus · cause)).setRgp p R.secViol (BitVec.ofNat 32 what)).reg.pmBuf := by
        rw [State.freezePath, State.setPath]
    _ = s.reg.pmBuf := by rw [State.setRgp_reg_pmBuf, State.modRgp_reg_pmBuf]

theorem State.violate_restKept (hq : q < 64) (s : State) (p : Part) {cause : Nat} (what : Nat) (h : cause < 8) :
    RestKept q s (s.violate p cause what) := by
  unfold State.violate
  split
  · exact (State.report_reported _ _ _ _ _ _ _).restKept hq
  split
  · exact (State.report_reported _ _ _ _ _ _ _).restKept hq
  · obtain ⟨-, -, hcap, -⟩ := (s.freeze_froze p what h).config
    refine .beside hcap (s.freeze_key_other p cause what ?_ ?_ ?_ ?_ ?_) ?_
    · simp only [R.capLost, R.errDiscard]; omega
    · simp only [R.capLost, R.errStatus]; omega
    · simp only [R.capLost, R.secPmEvent]; omega
    · simp only [copyKey, R.capLost, R.secViol]; omega
    · simp only [copyKey, R.capLost, R.secStatus]; omega
    · exact (s.freeze_reported p cause what).buffer.trans (s.frozenQuietly_buffer p cause what)

theorem State.capDma_restKept (hq : q < 64) (s : State) (p : Part) (a : Nat) (l : List Byte) : RestKept q s (s.capDma p a l).2 := by
  unfold State.capDma
  split
  · exact .beside rfl rfl rfl
  · exact s.violate_restKept hq p _ (by omega)

theorem State.levelMessage_restKept (hq : q < 64) (s : State) (batch : Bool) : RestKept q s (s.levelMessage q batch) := by
  have hback : RestKept q s (s.writeback q).2 := s.capDma_restKept hq _ _ _
  unfold State.levelMessage
  dsimp only
  split
  · exact .refl s
  split
  · exact s.sendMsix_restKept _ _
  split
  · exact s.setCapq_restKept q _
  split
  · next heq =>
    rw [heq] at hback
    exact hback.trans (State.sendMsix_restKept _ _ _)
  · next heq =>
    rw [heq] at hback
    exact hback

theorem State.capNotice_restKept (hq : q < 64) (s : State) (batch : Bool) : RestKept q s (s.capNotice q batch) := by
  have hset := s.setCapq_restKept q
  unfold State.capNotice
  dsimp only
  split
  · split
    · split
      · exact ((hset _).trans (State.setCapStatus_restKept _ _ _ _)).trans (State.levelMessage_restKept hq _ _)
      · exact (hset _).trans (State.setCapStatus_restKept _ _ _ _)
    · exact hset _
  · exact (hset _).trans (.beside rfl rfl rfl)

/-! ### Lost items (R246) -/

theorem State.capLost_counts (s : State) (q n : Nat) : (s.capLost q n).rg (R.capLost q) = s.rg (R.capLost q) + BitVec.ofNat 32 n := by
  unfold State.capLost
  split
  · next h => simp [h]
  · show ((s.modRg (R.capLost q) (fun w => w + BitVec.ofNat 32 n)).setBt (R.capStatus q) 5 true).rg (R.capLost q) = _
    rw [State.setBt, State.rg_modRg_other _ _ (capLost_ne_capStatus q), s.rg_modRg_same]

theorem State.capLost_others (s : State) (n : Nat) {j : Nat} (h : j ≠ q) : (s.capLost q n).capq j = s.capq j := by
  unfold State.capLost
  split
  · rfl
  · exact State.capq_setCapq_other _ _ h

theorem State.capLost_buffer (s : State) (q n : Nat) : (s.capLost q n).reg.pmBuf = s.reg.pmBuf := by
  unfold State.capLost
  split
  · rfl
  · show ((s.modRg (R.capLost q) (fun w => w + BitVec.ofNat 32 n)).setBt (R.capStatus q) 5 true).reg.pmBuf = _
    rw [State.setBt_reg_pmBuf, State.modRg_reg_pmBuf]

/-! ### The frame of the record in progress (R16, R99) -/

theorem State.charge_fwd (s : State) (a g sh n : Nat) (add : Bool) : ∃ w, s.charge a g sh n add = { s with fwd := w } := by
  unfold State.charge
  dsimp only
  split
  · exact ⟨_, rfl⟩
  · split
    · exact ⟨_, rfl⟩
    · exact ⟨_, rfl⟩

theorem State.dropCells_fwd (s : State) (f : Frame) : ∃ w, s.dropCells f = { s with fwd := w } := by
  unfold State.dropCells
  split
  · obtain ⟨w, heq⟩ := s.charge_fwd f.acct f.gcells f.scells f.banks.length false
    exact ⟨_, (congrArg (fun a : State => a.removeFrame f.id) heq).trans rfl⟩
  · exact ⟨s.fwd, rfl⟩

/-- A frame that is charged to the capture reserve, or that egress still holds, settles without an eviction. -/
theorem State.settleFrame_fwd {id : Nat} (h : ∀ f, s.frame id = some f → f.acct = acctCapture ∨ s.egressHolds id = true) :
    ∃ w, s.settleFrame id = { s with fwd := w } := by
  unfold State.settleFrame
  rcases hf : s.frame id with _ | f
  · exact ⟨s.fwd, rfl⟩
  dsimp only
  split
  · exact ⟨s.fwd, rfl⟩
  · next hbusy =>
    have hacct : f.acct = acctCapture := (h f hf).resolve_right fun hheld => hbusy (Or.inr hheld)
    split
    · exact ⟨s.fwd, rfl⟩
    · exact s.dropCells_fwd f

/-- A frame that the buffer answers for a number bears it. -/
theorem State.frame_id {id : Nat} {f : Frame} (h : s.frame id = some f) : f.id = id := by
  simpa using List.find?_some h

/-- What the end of a record in progress leaves: its queue has nothing more to write, and its lane is free. -/
structure WritingEnded (q : Nat) (s t : State) : Prop where
  queue : t.capq q = { s.capq q with writing := [], writes := none }
  others : ∀ j, j ≠ q → t.capq j = s.capq j
  keys : ∀ k, t.key k = s.key k
  buffer : t.reg.pmBuf = s.reg.pmBuf
  tab : t.tab = s.tab

/-- A free lane and a settled frame are no part of the capture queues, the registers and the tables. -/
theorem WritingEnded.of_settled {w : FwdUnit} (h : WritingEnded q s t) : WritingEnded q s { t.freeLane q with fwd := w } :=
  ⟨h.queue, h.others, h.keys, h.buffer, h.tab⟩

theorem State.endWriting_ended (h : ∀ f, (s.capq q).writes = some f.id → s.frame f.id = some f →
    f.acct = acctCapture ∨ s.egressHolds f.id = true) : WritingEnded q s (s.endWriting q) := by
  have hset : WritingEnded q s (s.setCapq q { s.capq q with writing := [], writes := none }) :=
    ⟨s.capq_setCapq_same _ _, fun _ hj => s.capq_setCapq_other _ hj, fun _ => rfl, rfl, rfl⟩
  unfold State.endWriting
  dsimp only
  split
  · next id hwrites =>
    obtain ⟨w, heq⟩ := State.settleFrame_fwd (id := id)
      (s := (s.setCapq q { s.capq q with writing := [], writes := none }).freeLane q) fun f hf => by
        have hid : f.id = id := State.frame_id hf
        subst hid
        exact h f hwrites hf
    rw [heq]
    exact hset.of_settled
  · exact hset.of_settled

/-! ### The emptied queue (R399) -/

/-- A queue without the words that CAP_DISCARD removes. -/
def CapQ.emptied (c : CapQ) : CapQ :=
  { c with
    head := if 0 < c.begun then [closingWord] else []
    siding := [], spilling := [], tail := [], close := false, peeked := false, checked := false
    fills := c.fills.map (fun _ => false) }

theorem State.discardQueue_eq (s : State) (q : Nat) : s.discardQueue q = ((s.capq q).discards,
    (((s.setCapq q (s.capq q).emptied).endWriting q).capLost q (s.capq q).discards).capNotice q) := rfl

/-- What CAP_DISCARD leaves: the queue without words, one closing word at most, its lost records counted, and the rest as it was. -/
structure Discarded (q : Nat) (s t : State) : Prop where
  siding : (t.capq q).siding = []
  tail : (t.capq q).tail = []
  writing : (t.capq q).writing = []
  spilling : (t.capq q).spilling = []
  close : (t.capq q).close = false
  head : (t.capq q).head = if 0 < (s.capq q).begun then [closingWord] else []
  lost : t.rg (R.capLost q) = s.rg (R.capLost q) + BitVec.ofNat 32 (s.capq q).discards
  others : ∀ j, j ≠ q → t.capq j = s.capq j
  tab : t.tab = s.tab
  buffer : t.reg.pmBuf = s.reg.pmBuf

theorem State.discardQueue_discarded (hq : q < 64) (h : ∀ f, (s.capq q).writes = some f.id → s.frame f.id = some f →
    f.acct = acctCapture ∨ s.egressHolds f.id = true) : Discarded q s (s.discardQueue q).2 := by
  have hemptied := s.capq_setCapq_same q (s.capq q).emptied
  have hends := State.endWriting_ended (s := s.setCapq q (s.capq q).emptied) (q := q) fun f hf => h f (by rw [hemptied] at hf; exact hf)
  rw [s.discardQueue_eq]
  generalize (s.setCapq q (s.capq q).emptied).endWriting q = v at hends ⊢
  obtain ⟨hqueue, hothers, hkeys, hbuffer, htab⟩ := hends
  rw [hemptied] at hqueue
  have hkept := (v.capLost_capKept (q := q) q (s.capq q).discards).trans (State.capNotice_capKept _ q false)
  have hrest := State.capNotice_restKept hq (v.capLost q (s.capq q).discards) false
  generalize (v.capLost q (s.capq q).discards).capNotice q = t at hkept hrest ⊢
  have hlost : v.rg (R.capLost q) = s.rg (R.capLost q) := hkeys (R.capLost q)
  exact {
    siding := hkept.siding.trans (congrArg CapQ.siding hqueue)
    tail := hkept.tail.trans (congrArg CapQ.tail hqueue)
    writing := hkept.writing.trans (congrArg CapQ.writing hqueue)
    spilling := hkept.spilling.trans (congrArg CapQ.spilling hqueue)
    close := hkept.close.trans (congrArg CapQ.close hqueue)
    head := hkept.head.trans (congrArg CapQ.head hqueue)
    lost := by rw [hrest.lost, v.capLost_counts, hlost]
    others := fun j hj => (hrest.others j hj).trans ((v.capLost_others _ hj).trans ((hothers j hj).trans (s.capq_setCapq_other _ hj)))
    tab := hkept.tab.trans htab
    buffer := hrest.buffer.trans ((v.capLost_buffer q _).trans hbuffer) }

theorem exec_capDiscard {p : Part} {d : CmdDesc} (hruns : s.runs p d) (himm : Imm p d 1) (hq : d.b 0 < 64)
    (hheld : s.holds p .capq (d.b 0) = true) : exec (.capDiscard p d) s =
      .next ((s.discardQueue (d.b 0)).2.answered p d St.ok (s.capq (d.b 0)).discards []) :=
  congrArg (β := Res) .next (finish_runs hruns (himm.check_none rfl rfl rfl nofun nofun) (onIndex_held hq hheld _))

end Sys2Proof.Machine
end

section
/-! The statement on the commands of the error log, of CHK and of the capture queues (04_tunnelling.md, 09_capture.md, 12_faults.md). -/

namespace Sys2Proof

open Sys2Proof.Machine

/-- Settles O32: each command's form passes or refuses it and its body answers; CAP_DISCARD empties its queue (`Discarded`). -/
theorem logAndCaptureCommands : Obligations.LogAndCaptureCommands := by
  unfold Obligations.LogAndCaptureCommands
  intro p d s hruns hsound hmould
  refine ⟨fun hlen hind hptr hfirst hsome hmany hroom => ?_, fun hlen hind hptr hmask => ?_,
    fun hlen hp => exec_selfTest_host hruns ⟨hsound, hmould, hlen⟩ hp, ?_, ?_, ⟨State.chkEnter_multi, fun hsingle => ?_⟩,
    fun hlen hq hheld hframe => ?_⟩
  · exact exec_errRead hruns ⟨hsound, hmould, hlen⟩ hind hptr hfirst hsome hmany hroom
  · exact fun hroom => ⟨s.chkEnter.namedValues p d, s.chkEnter.namedValues_perm p d,
      exec_diagSnapshot hruns ⟨hsound, hmould, hlen⟩ hind hptr hmask hroom⟩
  · rintro hlen rfl hunit habsent
    exact exec_selfTest_absent hruns ⟨hsound, hmould, hlen⟩ hunit habsent
  · rintro hlen rfl hpresent
    exact ⟨_, exec_selfTest_tested hruns ⟨hsound, hmould, hlen⟩ fun ⟨hunit, habsent⟩ => Nat.not_lt.2 habsent (hpresent hunit)⟩
  · obtain ⟨r, hr⟩ := s.chkEnter_shape
    exact ⟨s.chkEnter_bt, by rw [hr], fun k h1 h2 => State.chkEnter_channels hsingle h1 h2⟩
  · have hdone := State.discardQueue_discarded hq hframe
    exact ⟨_, exec_capDiscard hruns ⟨hsound, hmould, hlen⟩ hq hheld, rfl, hdone.siding, hdone.tail, hdone.writing, hdone.spilling,
      hdone.close, hdone.head, hdone.lost, fun j _ hj => hdone.others j hj, hdone.tab, hdone.buffer⟩

end Sys2Proof
end
